-- ==== Sys2Proof/Word.lean ====
section
/-! DEFINITION. The word types of the machine (spec 00 R4, R5). -/

namespace Sys2Proof

/-- One byte. -/
abbrev Byte := BitVec 8
/-- A V or W register (R5). -/
abbrev Word := BitVec 32
/-- A 64-bit pair, a special register or a raw 64-bit instruction. -/
abbrev DWord := BitVec 64
/-- A code address (R9). -/
abbrev Pc := BitVec 48

end Sys2Proof
end

