-- ==== Sys2Proof/Machine/Cipher.lean ====
section
/-! DEFINITION. AES-256-XTS of one 32-byte data unit (26 R401). The manual names the cipher; what AES and XTS compute is taken
from their own standards (log entry 81, PRESUMED). -/

namespace Sys2Proof.Machine

/-! ### AES-256 on 16 bytes, byte i in row i mod 4 and column i / 4 -/

/-- Twice a byte in the field of AES. -/
def aesDouble (b : Nat) : Nat := if b < 128 then 2 * b else Nat.xor (2 * b - 256) 0x1b
/-- A product in that field: `n` bits of a, from the lowest on. -/
def aesMulGo : Nat → Nat → Nat → Nat
  | 0, _, _ => 0
  | n + 1, a, b => Nat.xor (if a % 2 = 1 then b else 0) (aesMulGo n (a / 2) (aesDouble b))
def aesMul (a b : Nat) : Nat := aesMulGo 8 a b
/-- The inverse of a byte, which is its power 254; that of 0 is 0. -/
def aesInverse (a : Nat) : Nat :=
  ((List.range 6).foldl (fun p _ => let q := aesMul p.1 p.1; (q, aesMul q p.2)) (aesMul a a, aesMul a a)).2
def aesRotl (b n : Nat) : Nat := (b * 2 ^ n + b / 2 ^ (8 - n)) % 256
/-- The substitution of a byte. -/
def aesSub (a : Nat) : Nat :=
  let b := aesInverse a
  [aesRotl b 1, aesRotl b 2, aesRotl b 3, aesRotl b 4, 0x63].foldl Nat.xor b
def aesBox : List Nat := (List.range 256).map aesSub
def aesUnbox : List Nat := (List.range 256).map fun v => aesBox.findIdx fun b => decide (b = v)

def xorBytes (a b : List Nat) : List Nat := (a.zip b).map fun p => Nat.xor p.1 p.2
def aesSubAll (box : List Nat) (a : List Nat) : List Nat := a.map fun b => box.getD b 0

/-- The words of the key schedule: `n` more behind those that stand. -/
def aesExpand : Nat → List (List Nat) → Nat → List (List Nat)
  | 0, w, _ => w
  | n + 1, w, rc =>
    let i := w.length
    let t := w.getD (i - 1) []
    let t := if i % 8 = 0 then xorBytes (aesSubAll aesBox (t.drop 1 ++ t.take 1)) [rc, 0, 0, 0]
      else if i % 8 = 4 then aesSubAll aesBox t else t
    aesExpand n (w ++ [xorBytes (w.getD (i - 8) []) t]) (if i % 8 = 0 then aesDouble rc else rc)
/-- The 15 round keys of a 32-byte key. -/
def aesKeys (key : List Nat) : List (List Nat) :=
  let w := aesExpand 52 ((List.range 8).map fun i => (key.drop (4 * i)).take 4) 1
  (List.range 15).map fun r => ((w.drop (4 * r)).take 4).flatten

/-- Rows turn by their number of columns, `k` times that: 1 to encrypt, 3 to decrypt. -/
def aesShift (k : Nat) (a : List Nat) : List Nat :=
  (List.range 16).map fun i => a.getD (i % 4 + 4 * ((i / 4 + k * (i % 4)) % 4)) 0
/-- Each column times the circulant matrix of a row. -/
def aesMix (row : List Nat) (a : List Nat) : List Nat :=
  (List.range 16).map fun i =>
    (List.range 4).foldl (fun x j => Nat.xor x (aesMul (row.getD ((j + 4 - i % 4) % 4) 0) (a.getD (i / 4 * 4 + j) 0))) 0

/-- AES-256 encryption and decryption of a block under round keys. -/
def aesEncrypt (ks : List (List Nat)) (a : List Nat) : List Nat :=
  let a := ((ks.drop 1).take 13).foldl (fun a k => xorBytes (aesMix [2, 3, 1, 1] (aesShift 1 (aesSubAll aesBox a))) k)
    (xorBytes a (ks.getD 0 []))
  xorBytes (aesShift 1 (aesSubAll aesBox a)) (ks.getD 14 [])
def aesDecrypt (ks : List (List Nat)) (a : List Nat) : List Nat :=
  let a := (((ks.drop 1).take 13).reverse).foldl
    (fun a k => aesMix [14, 11, 13, 9] (xorBytes (aesSubAll aesUnbox (aesShift 3 a)) k)) (xorBytes a (ks.getD 14 []))
  xorBytes (aesSubAll aesUnbox (aesShift 3 a)) (ks.getD 0 [])

/-! ### XTS on a data unit of two blocks -/

def natBytes (n v : Nat) : List Nat := (List.range n).map fun i => v / 2 ^ (8 * i) % 256
def bytesNat (l : List Nat) : Nat := l.reverse.foldl (fun v b => 256 * v + b) 0
/-- Twice a tweak in the field of XTS. -/
def xtsDouble (t : Nat) : Nat := if t < 2 ^ 127 then 2 * t else Nat.xor (2 * t - 2 ^ 128) 0x87

/-- The 32 bytes of a data unit through AES-256-XTS, encrypted or decrypted: the low 32 bytes of the key are the data key, the
high ones the tweak key, and the tweak is an address (R401, R402). -/
def xtsUnit (enc : Bool) (key address : Nat) (unit : List Byte) : List Byte :=
  let ks := aesKeys (natBytes 32 key)
  let t := bytesNat (aesEncrypt (aesKeys (natBytes 32 (key / 2 ^ 256))) (natBytes 16 address))
  let block (t : Nat) (b : List Nat) : List Nat :=
    xorBytes ((if enc then aesEncrypt else aesDecrypt) ks (xorBytes b (natBytes 16 t))) (natBytes 16 t)
  let u := unit.map BitVec.toNat
  (block t (u.take 16) ++ block (xtsDouble t) (u.drop 16)).map (BitVec.ofNat 8)

end Sys2Proof.Machine
end

