-- ==== Sys2Proof/Machine/Assoc.lean ====
section
/-! DEFINITION. Sparse maps from natural numbers in one canonical form: keys strictly rising, no entry
equal to the default. Memory, registers and every table of the machine are held this way. -/

namespace Sys2Proof.Machine

/-- A sparse map: (key, value) pairs. -/
abbrev SMap (α : Type) := List (Nat × α)

/-- The value listed at a key, if any. -/
def SMap.find? {α : Type} : SMap α → Nat → Option α
  | [], _ => none
  | (k, v) :: r, i => if i = k then some v else SMap.find? r i

/-- The value at a key, with the default for a key not listed. -/
def SMap.get {α : Type} (m : SMap α) (d : α) (i : Nat) : α := (m.find? i).getD d

/-- Sorted insertion: the value at the key becomes v. -/
def SMap.insert {α : Type} : SMap α → Nat → α → SMap α
  | [], i, v => [(i, v)]
  | (k, x) :: r, i, v =>
    if i < k then (i, v) :: (k, x) :: r
    else if i = k then (i, v) :: r
    else (k, x) :: SMap.insert r i v

/-- The key becomes unlisted. -/
def SMap.erase {α : Type} (m : SMap α) (i : Nat) : SMap α := m.filter fun p => !decide (p.1 = i)

/-- Writes v at a key, keeping the canonical form over the default d. -/
def SMap.put {α : Type} [DecidableEq α] (d : α) (m : SMap α) (i : Nat) (v : α) : SMap α :=
  if v = d then m.erase i else m.insert i v

/-- Applies f to the value at a key, if it is listed. -/
def SMap.modify {α : Type} (m : SMap α) (i : Nat) (f : α → α) : SMap α :=
  m.map (fun p => if p.1 = i then (p.1, f p.2) else p)

/-- Writes every (key, value) of a list in turn. -/
def SMap.puts {α : Type} [DecidableEq α] (d : α) (m : SMap α) (l : List (Nat × α)) : SMap α :=
  l.foldl (fun a p => SMap.put d a p.1 p.2) m

/-- Keys strictly rising, every key at or above a bound. -/
def SMap.sortedFrom {α : Type} : Nat → SMap α → Bool
  | _, [] => true
  | b, (k, _) :: r => decide (b ≤ k) && SMap.sortedFrom (k + 1) r

/-- The canonical form over a default. -/
def SMap.wf {α : Type} [DecidableEq α] (d : α) (m : SMap α) : Bool :=
  SMap.sortedFrom 0 m && m.all (fun p => !decide (p.2 = d))

/-- Inserts into a strictly rising list of numbers. -/
def setAdd : List Nat → Nat → List Nat
  | [], i => [i]
  | k :: r, i => if i < k then i :: k :: r else if i = k then k :: r else k :: setAdd r i

/-- Removes from a strictly rising list of numbers. -/
def setDel (l : List Nat) (i : Nat) : List Nat := l.filter (fun k => !decide (k = i))

/-- Bits [lo + n - 1 : lo] of a number. -/
def bitsOf (x lo n : Nat) : Nat := x / 2 ^ lo % 2 ^ n

/-- Bit i of a number. -/
def bitOf (x i : Nat) : Bool := decide (x / 2 ^ i % 2 = 1)

/-- A little-endian list of bytes as a number (R4). -/
def leNat : List Byte → Nat
  | [] => 0
  | b :: r => b.toNat + 256 * leNat r

/-- The n low bytes of a number, low first (R4). -/
def leBytes : Nat → Nat → List Byte
  | 0, _ => []
  | n + 1, x => BitVec.ofNat 8 x :: leBytes n (x / 256)

/-- Sets or clears one bit of a number of n bits. -/
def bitSet (x i : Nat) (v : Bool) : Nat :=
  if v then (if bitOf x i then x else x + 2 ^ i) else (if bitOf x i then x - 2 ^ i else x)

/-- Two's-complement value of the low n bits. -/
def signed (n x : Nat) : Int :=
  let y := x % 2 ^ n
  if y < 2 ^ (n - 1) then (y : Int) else (y : Int) - (2 ^ n : Nat)

/-- An integer modulo 2^n, as a natural number. -/
def wrap (n : Nat) (x : Int) : Nat := (x % (2 ^ n : Nat)).toNat

/-- The first index of a list whose entry meets p. -/
def findIdx {α : Type} (p : α → Bool) : List α → Nat → Option Nat
  | [], _ => none
  | x :: r, i => if p x then some i else findIdx p r (i + 1)

/-- The entry of least key under f, the first of equals. -/
def leastBy {α : Type} (f : α → Nat) : List α → Option α
  | [] => none
  | x :: r =>
    match leastBy f r with
    | none => some x
    | some y => if f y < f x then some y else some x

/-- Removes equal entries, keeping first occurrences. -/
def dedup {α : Type} [DecidableEq α] : List α → List α
  | [] => []
  | x :: r => x :: (dedup r).filter (fun y => !decide (y = x))

/-- Inserts into a list behind every entry that is not after it. -/
def insertBy {α : Type} (lt : α → α → Bool) (x : α) : List α → List α
  | [] => [x]
  | y :: r => if lt x y then x :: y :: r else y :: insertBy lt x r

/-- A list in the order of a comparison, equals in their own order. -/
def sortBy {α : Type} (lt : α → α → Bool) (l : List α) : List α := l.foldl (fun a x => insertBy lt x a) []

/-- Repeats a step n times. -/
def iter {α : Type} (f : α → α) : Nat → α → α
  | 0, x => x
  | n + 1, x => iter f n (f x)

end Sys2Proof.Machine
end

