-- ==== Sys2Proof/Machine/Hash.lean ====
section
/-! DEFINITION. Philox4x32-10 (09 R185) and SHA3-256 (19 R367). -/

namespace Sys2Proof.Machine

/-- One round of Philox on (c0, c1, c2, c3) with key (k0, k1) (R185). -/
def philoxRound (k0 k1 : Nat) (c : Nat × Nat × Nat × Nat) : Nat × Nat × Nat × Nat :=
  let p0 := 0xd2511f53 * c.1
  let p1 := 0xcd9e8d57 * c.2.2.1
  (Nat.xor (Nat.xor (p1 / 2 ^ 32) c.2.1) k0, p1 % 2 ^ 32, Nat.xor (Nat.xor (p0 / 2 ^ 32) c.2.2.2) k1,
   p0 % 2 ^ 32)

/-- Rounds with the key schedule (R185). -/
def philoxGo : Nat → Nat → Nat → Nat × Nat × Nat × Nat → Nat × Nat × Nat × Nat
  | 0, _, _, c => c
  | n + 1, k0, k1, c =>
    philoxGo n ((k0 + 0x9e3779b9) % 2 ^ 32) ((k1 + 0xbb67ae85) % 2 ^ 32) (philoxRound k0 k1 c)

/-- Philox(k, c) (R185). -/
def philox (k0 k1 c0 c1 c2 c3 : Nat) : Nat × Nat × Nat × Nat := philoxGo 10 k0 k1 (c0, c1, c2, c3)

/-- Word i of a Philox block. -/
def philoxWord (r : Nat × Nat × Nat × Nat) (i : Nat) : Nat :=
  if i = 0 then r.1 else if i = 1 then r.2.1 else if i = 2 then r.2.2.1 else r.2.2.2

/-- Rotation of a 64-bit lane. -/
def rotl64 (x n : Nat) : Nat := (x * 2 ^ n + x / 2 ^ (64 - n)) % 2 ^ 64

/-- Rotation offsets of Keccak, lane 5y + x. -/
def keccakRot : List Nat :=
  [0, 1, 62, 28, 27, 36, 44, 6, 55, 20, 3, 10, 43, 25, 39, 41, 45, 15, 21, 8, 18, 2, 61, 56, 14]

/-- Round constants of Keccak-f[1600]. -/
def keccakRc : List Nat :=
  [0x0000000000000001, 0x0000000000008082, 0x800000000000808a, 0x8000000080008000, 0x000000000000808b,
   0x0000000080000001, 0x8000000080008081, 0x8000000000008009, 0x000000000000008a, 0x0000000000000088,
   0x0000000080008009, 0x000000008000000a] ++
  [0x000000008000808b, 0x800000000000008b, 0x8000000000008089, 0x8000000000008003, 0x8000000000008002,
   0x8000000000000080, 0x000000000000800a, 0x800000008000000a, 0x8000000080008081, 0x8000000000008080,
   0x0000000080000001, 0x8000000080008008]

/-- One round of Keccak-f[1600] on 25 lanes. -/
def keccakRound (a : List Nat) (rc : Nat) : List Nat :=
  let at' (l : List Nat) (i : Nat) := l.getD i 0
  let c := (List.range 5).map fun x =>
    Nat.xor (Nat.xor (Nat.xor (Nat.xor (at' a x) (at' a (x + 5))) (at' a (x + 10))) (at' a (x + 15)))
      (at' a (x + 20))
  let d := (List.range 5).map fun x => Nat.xor (at' c ((x + 4) % 5)) (rotl64 (at' c ((x + 1) % 5)) 1)
  let t := (List.range 25).map fun i => Nat.xor (at' a i) (at' d (i % 5))
  -- lane (x', y') = (y, 2x + 3y) takes lane (x, y); here the source of each target
  let b := (List.range 25).map fun i =>
    let x' := i % 5
    let y' := i / 5
    let y := x'
    let x := (3 * y' + x') % 5
    -- 2x + 3y ≡ y' (mod 5) with y = x' gives x = 3y' + x' (mod 5)
    rotl64 (at' t (5 * y + x)) (at' keccakRot (5 * y + x))
  (List.range 25).map fun i =>
    let x := i % 5
    let y := i / 5
    let v := Nat.xor (at' b i)
      (Nat.land (2 ^ 64 - 1 - at' b (5 * y + (x + 1) % 5)) (at' b (5 * y + (x + 2) % 5)))
    if i = 0 then Nat.xor v rc else v

/-- Keccak-f[1600]. -/
def keccakF (a : List Nat) : List Nat := keccakRc.foldl keccakRound a

/-- SHA3-256 of at most 135 bytes (one block), as 32 bytes. -/
def sha3Short (msg : List Byte) : List Byte :=
  let n := msg.length
  let pad : List Byte :=
    if n = 135 then [0x86] else [0x06] ++ List.replicate (134 - n) 0 ++ [0x80]
  let block := msg ++ pad ++ List.replicate 64 0
  let lanes := (List.range 25).map fun i => leNat ((block.drop (8 * i)).take 8)
  ((keccakF lanes).take 4).flatMap (leBytes 8)

/-- The device hash of a map of disabled majors (R367). -/
def deviceHash (disabled : BitVec 512) : Nat :=
  let blk := leBytes 4 1 ++ leBytes 4 0x5a580004 ++ leBytes 64 disabled.toNat
  let h := leNat ((sha3Short blk).take 8)
  if h = 0 then 1 else h

end Sys2Proof.Machine
end

