-- ==== Sys2Proof/Syntax.lean ====
section
/-! DEFINITION. Instructions and device steps as data: one constructor of `Instr` for each row of
spec/opcode_table.json, over one structure per encoding layout (10 R187, R188, R190, R193, R194). -/

namespace Sys2Proof

/-- The bits every 64-bit instruction shares (R190): guard, lookahead count, run boundary. -/
structure Hd where
  pn : Bool
  pg : BitVec 3
  la : BitVec 4
  b  : Bool
  deriving DecidableEq, Repr

/-- The ALU modifier (R193). -/
structure AluM where
  w2  : Bool
  xlp : BitVec 4
  xl  : BitVec 3
  fmt : BitVec 4
  sr  : Bool
  sat : Bool
  rnd : BitVec 2
  deriving DecidableEq, Repr

/-- The memory modifier (R194). -/
structure MemM where
  oobt  : Bool
  hint  : BitVec 2
  ord   : BitVec 2
  scope : BitVec 3
  fmt   : BitVec 4
  size  : BitVec 4
  deriving DecidableEq, Repr

/-- Common layout with the ALU modifier (R190, R193). -/
structure AluI where
  h  : Hd
  m  : AluM
  s3 : BitVec 7
  s2 : BitVec 7
  s1 : BitVec 7
  d  : BitVec 7
  deriving DecidableEq, Repr

/-- Common layout with a modifier of the instruction's own (R190, R210, R272, R294). -/
structure OwnI where
  h  : Hd
  m  : BitVec 16
  s3 : BitVec 7
  s2 : BitVec 7
  s1 : BitVec 7
  d  : BitVec 7
  deriving DecidableEq, Repr

/-- Long layout (R190). -/
structure LongI where
  h   : Hd
  imm : BitVec 32
  z   : BitVec 5
  d   : BitVec 7
  deriving DecidableEq, Repr

/-- Memory layout (R190). -/
structure MemI where
  h   : Hd
  m   : MemM
  imm : BitVec 10
  bn  : BitVec 4
  s1  : BitVec 7
  d   : BitVec 7
  deriving DecidableEq, Repr

/-- A 16-bit MOV or MOVI: the I bit is the row's (R187). -/
structure Mov16 where
  s : BitVec 5
  d : BitVec 5
  deriving DecidableEq, Repr

/-- Any other 16-bit instruction (R187). -/
structure Op16 where
  i : Bool
  s : BitVec 5
  d : BitVec 5
  deriving DecidableEq, Repr

/-- Compact form A (R188). -/
structure CompA where
  b   : Bool
  fn2 : BitVec 2
  vb  : BitVec 7
  va  : BitVec 7
  vd  : BitVec 7
  deriving DecidableEq, Repr

/-- Compact form I (R188). -/
structure CompI where
  b   : Bool
  imm : BitVec 9
  va  : BitVec 7
  vd  : BitVec 7
  deriving DecidableEq, Repr

/-- Compact form J (R188). -/
structure CompJ where
  b   : Bool
  off : BitVec 19
  neg : Bool
  pg  : BitVec 3
  deriving DecidableEq, Repr

/-- Compact form W (R188). -/
structure CompW where
  b  : Bool
  z  : BitVec 5
  wb : BitVec 6
  wa : BitVec 6
  wd : BitVec 6
  deriving DecidableEq, Repr

/-- The compact NOP with its bits [31:9] (R189). -/
structure CompN where
  b : Bool
  z : BitVec 23
  deriving DecidableEq, Repr

/-- The fates of an encoding that does not execute (R200). -/
inductive Fate where
  | undefop
  | disabledop
  | rsvfield
  deriving DecidableEq, Repr

/-- An encoding that goes to the emulation handler: its fate, its length in bytes, its raw bits
zero-extended to 64, and whether the grid runs in Pyratha mode (R200, R202, R368). -/
structure Undef where
  fate    : Fate
  len     : Nat
  raw     : BitVec 64
  pyratha : Bool
  deriving DecidableEq, Repr

/-- A flit as it arrives on a strait port, with its check field (R353). -/
structure Flit where
  port    : Nat
  check   : BitVec 64
  type    : BitVec 8
  channel : BitVec 8
  len     : Nat
  seq     : BitVec 32
  dst     : Nat
  src     : Nat
  hdr     : BitVec 128
  payload : List Byte
  ack     : BitVec 32
  credits : BitVec 32
  deriving DecidableEq, Repr

/-- An access to a device register over PCIe (R396, R398). -/
structure RegAccess where
  bar0   : Bool
  fn     : Nat
  ctx    : Nat
  offset : Nat
  size   : Nat
  write  : Bool
  value  : BitVec 64
  deriving DecidableEq, Repr

/-- An SPDM request of a function: inside a secure session or not, with its payload (R400); `vendor` says that a
vendor-defined request carries the PCI-SIG's identifier and Narrak's, whose numbers the manual does not give (R402). -/
structure SpdmReq where
  fn      : Nat
  secure  : Bool
  payload : List Byte
  vendor  : Bool := true
  deriving DecidableEq, Repr

/-- TDISP interface states (R395). -/
inductive TdispState where
  | configUnlocked
  | configLocked
  | run
  | error
  deriving DecidableEq, Repr

/-- The configuration manifest (R403). The two signature checks are facts about the signed file. -/
structure Manifest where
  magic        : BitVec 32
  version      : BitVec 32
  part         : BitVec 32
  cores        : List (BitVec 176)
  slices       : List (List Nat)
  near         : List (List Nat)
  straits      : BitVec 32
  disabled     : BitVec 512
  policy       : BitVec 32
  reservedZero : Bool
  keyMatches   : Bool
  signed       : Bool
  deriving DecidableEq, Repr

/-- What a reset meets (R404): the manifest, the measured digests, and the step that fails, if any,
with the die and unit at fault. -/
structure BootInput where
  manifest : Manifest
  digests  : List (BitVec 256)
  fail     : Option (Nat × Nat × Nat)
  deriving DecidableEq, Repr

/-- What kind of unit an error is counted for (R406). -/
inductive UnitKind where
  | stack
  | slice
  | core
  | port
  deriving DecidableEq, Repr

/-- A unit's corrected errors (R405). -/
structure CorrErr where
  die   : Nat
  kind  : UnitKind
  unit  : Nat
  count : Nat
  ctx   : Nat
  deriving DecidableEq, Repr

/-- A host access to device memory (R401). -/
structure HostAccess where
  write : Bool
  pa    : Nat
  bytes : List Byte
  count : Nat
  deriving DecidableEq, Repr

/-- Every row of spec/opcode_table.json: the encoded instructions in the table's order, then the steps of the
device and of the host, which have no encoding. -/
inductive Instr where
  /-- NOP, major 0x000 (R227). -/
  | nop (w : OwnI)
  /-- BRA, major 0x001 (R215). -/
  | bra (w : LongI)
  /-- BRP, major 0x002 (R215). -/
  | brp (w : LongI)
  /-- BRX, major 0x003 (R215). -/
  | brx (w : OwnI)
  /-- CALL, major 0x004 (R215). -/
  | call (w : LongI)
  /-- CALLX, major 0x005 (R215). -/
  | callx (w : OwnI)
  /-- RET, major 0x006 (R215). -/
  | ret (w : OwnI)
  /-- LOOPW, major 0x007 (R216). -/
  | loopw (w : OwnI)
  /-- FSPAWN, major 0x008 (R151). -/
  | fspawn (w : OwnI)
  /-- FQUIT, major 0x009 (R152). -/
  | fquit (w : OwnI)
  /-- REJOIN, major 0x00a (R153). -/
  | rejoin (w : OwnI)
  /-- YIELD, major 0x00b (R227). -/
  | yield (w : OwnI)
  /-- ATTACH, major 0x00c (R157). -/
  | attach (w : OwnI)
  /-- DETACH, major 0x00d (R158). -/
  | detach (w : OwnI)
  /-- BARARV, major 0x00e (R220). -/
  | bararv (w : OwnI)
  /-- BARWT, major 0x00f (R220). -/
  | barwt (w : OwnI)
  /-- BARSYN, major 0x010 (R220). -/
  | barsyn (w : OwnI)
  /-- GRIDBAR, major 0x011 (R164). -/
  | gridbar (w : OwnI)
  /-- CVSET, major 0x012 (R224). -/
  | cvset (w : OwnI)
  /-- HWAIT, major 0x013 (R226). -/
  | hwait (w : OwnI)
  /-- HTEST, major 0x014 (R226). -/
  | htest (w : OwnI)
  /-- HCANCEL, major 0x015 (R226). -/
  | hcancel (w : OwnI)
  /-- HMOV, major 0x016 (R226). -/
  | hmov (w : OwnI)
  /-- FENCE, major 0x017 (R121). -/
  | fence (w : OwnI)
  /-- QSYNC, major 0x018 (R227). -/
  | qsync (w : OwnI)
  /-- SLEEPW, major 0x019 (R227). -/
  | sleepw (w : OwnI)
  /-- IADD, major 0x040 (R240). -/
  | iadd (w : AluI)
  /-- ISUB, major 0x041 (R240). -/
  | isub (w : AluI)
  /-- IADDC, major 0x042 (R240). -/
  | iaddc (w : AluI)
  /-- ISUBB, major 0x043 (R240). -/
  | isubb (w : AluI)
  /-- IMUL, major 0x044 (R240). -/
  | imul (w : AluI)
  /-- IMULH, major 0x045 (R240). -/
  | imulh (w : AluI)
  /-- IMULHU, major 0x046 (R240). -/
  | imulhu (w : AluI)
  /-- IMAD, major 0x047 (R240). -/
  | imad (w : AluI)
  /-- IADD64, major 0x048 (R240). -/
  | iadd64 (w : AluI)
  /-- IMAD64, major 0x049 (R240). -/
  | imad64 (w : AluI)
  /-- IDIV, major 0x04a (R241). -/
  | idiv (w : AluI)
  /-- IDIVU, major 0x04b (R241). -/
  | idivu (w : AluI)
  /-- IREM, major 0x04c (R241). -/
  | irem (w : AluI)
  /-- IREMU, major 0x04d (R241). -/
  | iremu (w : AluI)
  /-- IMIN, major 0x04e (R240). -/
  | imin (w : AluI)
  /-- IMAX, major 0x04f (R240). -/
  | imax (w : AluI)
  /-- IMINU, major 0x050 (R240). -/
  | iminu (w : AluI)
  /-- IMAXU, major 0x051 (R240). -/
  | imaxu (w : AluI)
  /-- IABS, major 0x052 (R240). -/
  | iabs (w : AluI)
  /-- INEG, major 0x053 (R240). -/
  | ineg (w : AluI)
  /-- IAND, major 0x054 (R240). -/
  | iand (w : AluI)
  /-- IOR, major 0x055 (R240). -/
  | ior (w : AluI)
  /-- IXOR, major 0x056 (R240). -/
  | ixor (w : AluI)
  /-- INOT, major 0x057 (R240). -/
  | inot (w : AluI)
  /-- IANDN, major 0x058 (R240). -/
  | iandn (w : AluI)
  /-- SHL, major 0x059 (R240). -/
  | shl (w : AluI)
  /-- SHR, major 0x05a (R240). -/
  | shr (w : AluI)
  /-- SAR, major 0x05b (R240). -/
  | sar (w : AluI)
  /-- ROL, major 0x05c (R240). -/
  | rol (w : AluI)
  /-- ROR, major 0x05d (R240). -/
  | ror (w : AluI)
  /-- SHL64, major 0x05e (R240). -/
  | shl64 (w : AluI)
  /-- SHR64, major 0x05f (R240). -/
  | shr64 (w : AluI)
  /-- POPC, major 0x060 (R240). -/
  | popc (w : AluI)
  /-- CLZ, major 0x061 (R240). -/
  | clz (w : AluI)
  /-- CTZ, major 0x062 (R240). -/
  | ctz (w : AluI)
  /-- BREV, major 0x063 (R240). -/
  | brev (w : AluI)
  /-- BFE, major 0x064 (R240). -/
  | bfe (w : AluI)
  /-- BFI, major 0x065 (R240). -/
  | bfi (w : AluI)
  /-- PERM, major 0x066 (R240). -/
  | perm (w : AluI)
  /-- ISEL, major 0x067 (R240). -/
  | isel (w : AluI)
  /-- ICMP, major 0x068 (R242). -/
  | icmp (w : AluI)
  /-- MOV, major 0x069 (R240). -/
  | mov (w : AluI)
  /-- MOVI, major 0x06a (R240). -/
  | movi (w : LongI)
  /-- WMOV, major 0x06b (R240). -/
  | wmov (w : AluI)
  /-- LEA, major 0x06c (R240). -/
  | lea (w : AluI)
  /-- IADDS, major 0x06d (R240). -/
  | iadds (w : AluI)
  /-- SHFL, major 0x080 (R243). -/
  | shfl (w : AluI)
  /-- SHFLUP, major 0x081 (R243). -/
  | shflup (w : AluI)
  /-- SHFLDN, major 0x082 (R243). -/
  | shfldn (w : AluI)
  /-- SHFLX, major 0x083 (R243). -/
  | shflx (w : AluI)
  /-- VOTE, major 0x084 (R244). -/
  | vote (w : AluI)
  /-- WREDI, major 0x085 (R245). -/
  | wredi (w : AluI)
  /-- WREDF, major 0x086 (R245). -/
  | wredf (w : AluI)
  /-- WSCAN, major 0x087 (R246). -/
  | wscan (w : AluI)
  /-- WARGX, major 0x088 (R247). -/
  | wargx (w : AluI)
  /-- PLOP, major 0x089 (R248). -/
  | plop (w : AluI)
  /-- PMOV, major 0x08a (R248). -/
  | pmov (w : AluI)
  /-- CVTF, major 0x08b (R250). -/
  | cvtf (w : AluI)
  /-- CVTFI, major 0x08c (R251). -/
  | cvtfi (w : AluI)
  /-- CVTIF, major 0x08d (R252). -/
  | cvtif (w : AluI)
  /-- PACK, major 0x08e (R253). -/
  | pack (w : AluI)
  /-- UNPACK, major 0x08f (R253). -/
  | unpack (w : AluI)
  /-- SRSEED, major 0x090 (R254). -/
  | srseed (w : AluI)
  /-- SRDRAW, major 0x091 (R254). -/
  | srdraw (w : AluI)
  /-- FADD, major 0x0c0 (R258). -/
  | fadd (w : AluI)
  /-- FSUB, major 0x0c1 (R258). -/
  | fsub (w : AluI)
  /-- FMUL, major 0x0c2 (R258). -/
  | fmul (w : AluI)
  /-- FFMA, major 0x0c3 (R258). -/
  | ffma (w : AluI)
  /-- FMIN, major 0x0c4 (R259). -/
  | fmin (w : AluI)
  /-- FMAX, major 0x0c5 (R259). -/
  | fmax (w : AluI)
  /-- FCMP, major 0x0c6 (R260). -/
  | fcmp (w : AluI)
  /-- FSEL, major 0x0c7 (R261). -/
  | fsel (w : AluI)
  /-- FRCP, major 0x0c8 (R262). -/
  | frcp (w : AluI)
  /-- FRSQ, major 0x0c9 (R262). -/
  | frsq (w : AluI)
  /-- FSQRT, major 0x0ca (R262). -/
  | fsqrt (w : AluI)
  /-- FDIV, major 0x0cb (R262). -/
  | fdiv (w : AluI)
  /-- FEXP2, major 0x0cc (R262). -/
  | fexp2 (w : AluI)
  /-- FLOG2, major 0x0cd (R262). -/
  | flog2 (w : AluI)
  /-- FSINR, major 0x0ce (R262). -/
  | fsinr (w : AluI)
  /-- FCOSR, major 0x0cf (R262). -/
  | fcosr (w : AluI)
  /-- FTANH, major 0x0d0 (R262). -/
  | ftanh (w : AluI)
  /-- FCLASS, major 0x0d1 (R261). -/
  | fclass (w : AluI)
  /-- FSCALE, major 0x0d2 (R258). -/
  | fscale (w : AluI)
  /-- FRINT, major 0x0d3 (R258). -/
  | frint (w : AluI)
  /-- HADD2, major 0x0d4 (R263). -/
  | hadd2 (w : AluI)
  /-- HMUL2, major 0x0d5 (R263). -/
  | hmul2 (w : AluI)
  /-- HFMA2, major 0x0d6 (R263). -/
  | hfma2 (w : AluI)
  /-- ADDX, major 0x0d7 (R264). -/
  | addx (w : AluI)
  /-- SUBX, major 0x0d8 (R264). -/
  | subx (w : AluI)
  /-- MULX, major 0x0d9 (R264). -/
  | mulx (w : AluI)
  /-- FMAE, major 0x0da (R265). -/
  | fmae (w : AluI)
  /-- FASTX, major 0x0db (R266). -/
  | fastx (w : AluI)
  /-- XADD, major 0x100 (R268). -/
  | xadd (w : AluI)
  /-- XSUB, major 0x101 (R268). -/
  | xsub (w : AluI)
  /-- XMUL, major 0x102 (R268). -/
  | xmul (w : AluI)
  /-- XFMA, major 0x103 (R268). -/
  | xfma (w : AluI)
  /-- XREN, major 0x104 (R268). -/
  | xren (w : AluI)
  /-- XCPR, major 0x105 (R268). -/
  | xcpr (w : AluI)
  /-- XCMP, major 0x106 (R270). -/
  | xcmp (w : AluI)
  /-- XSPLIT, major 0x107 (R269). -/
  | xsplit (w : AluI)
  /-- XTOF, major 0x108 (R271). -/
  | xtof (w : AluI)
  /-- XACC, major 0x109 (R268). -/
  | xacc (w : AluI)
  /-- LDB, major 0x140 (R274). -/
  | ldb (w : MemI)
  /-- STB, major 0x141 (R274). -/
  | stb (w : MemI)
  /-- LDL, major 0x142 (R274). -/
  | ldl (w : MemI)
  /-- STL, major 0x143 (R274). -/
  | stl (w : MemI)
  /-- LDW, major 0x144 (R276). -/
  | ldw (w : MemI)
  /-- ATB, major 0x145 (R277). -/
  | atb (w : MemI)
  /-- ATBF, major 0x146 (R277). -/
  | atbf (w : MemI)
  /-- ATBC, major 0x147 (R278). -/
  | atbc (w : MemI)
  /-- CASB, major 0x148 (R279). -/
  | casb (w : MemI)
  /-- ATL, major 0x149 (R277). -/
  | atl (w : MemI)
  /-- CASL, major 0x14a (R279). -/
  | casl (w : MemI)
  /-- LDSQ, major 0x14b (R280). -/
  | ldsq (w : MemI)
  /-- PREF, major 0x14c (R281). -/
  | pref (w : MemI)
  /-- CWB, major 0x14d (R281). -/
  | cwb (w : MemI)
  /-- CINV, major 0x14e (R281). -/
  | cinv (w : MemI)
  /-- RHNEW, major 0x14f (R91). -/
  | rhnew (w : OwnI)
  /-- RHSET, major 0x150 (R91). -/
  | rhset (w : OwnI)
  /-- RHDEMOTE, major 0x151 (R91). -/
  | rhdemote (w : OwnI)
  /-- RHEVICT, major 0x152 (R91). -/
  | rhevict (w : OwnI)
  /-- RHFREE, major 0x153 (R91). -/
  | rhfree (w : OwnI)
  /-- CPA, major 0x180 (R283). -/
  | cpa (w : OwnI)
  /-- CPS, major 0x181 (R283). -/
  | cps (w : OwnI)
  /-- CPL, major 0x182 (R283). -/
  | cpl (w : OwnI)
  /-- TAGWALL, major 0x183 (R102). -/
  | tagwall (w : OwnI)
  /-- TAGWANY, major 0x184 (R102). -/
  | tagwany (w : OwnI)
  /-- TAGFFR, major 0x185 (R102). -/
  | tagffr (w : OwnI)
  /-- TAGCLR, major 0x186 (R102). -/
  | tagclr (w : OwnI)
  /-- TBINIT, major 0x187 (R105). -/
  | tbinit (w : OwnI)
  /-- TBEXP, major 0x188 (R105). -/
  | tbexp (w : OwnI)
  /-- TBARV, major 0x189 (R105). -/
  | tbarv (w : OwnI)
  /-- TBWAIT, major 0x18a (R108). -/
  | tbwait (w : OwnI)
  /-- MSEND, major 0x18b (R286). -/
  | msend (w : OwnI)
  /-- MPOST, major 0x18c (R288). -/
  | mpost (w : OwnI)
  /-- MPROBE, major 0x18d (R289). -/
  | mprobe (w : OwnI)
  /-- MCANCEL, major 0x18e (R289). -/
  | mcancel (w : OwnI)
  /-- NMCMD, major 0x18f (R291). -/
  | nmcmd (w : OwnI)
  /-- NMFENCE, major 0x190 (R128). -/
  | nmfence (w : OwnI)
  /-- COLL, major 0x191 (R292). -/
  | coll (w : OwnI)
  /-- MMA, major 0x1c0 (R304). -/
  | mma (w : OwnI)
  /-- MMAR, major 0x1c1 (R304). -/
  | mmar (w : OwnI)
  /-- MMD, major 0x1c2 (R308). -/
  | mmd (w : OwnI)
  /-- MMLR, major 0x1c3 (R307). -/
  | mmlr (w : OwnI)
  /-- TZERO, major 0x1c4 (R309). -/
  | tzero (w : OwnI)
  /-- TLOAD, major 0x1c5 (R309). -/
  | tload (w : OwnI)
  /-- TSTORE, major 0x1c6 (R309). -/
  | tstore (w : OwnI)
  /-- TREAD, major 0x1c7 (R310). -/
  | tread (w : OwnI)
  /-- TNEW, major 0x1c8 (R309). -/
  | tnew (w : OwnI)
  /-- TFREE, major 0x1c9 (R309). -/
  | tfree (w : OwnI)
  /-- TSTAT, major 0x1ca (R311). -/
  | tstat (w : OwnI)
  /-- SSCFG, major 0x1cb (R316). -/
  | sscfg (w : OwnI)
  /-- SCAN, major 0x1cc (R317). -/
  | scan (w : OwnI)
  /-- SRR, major 0x1e0 (R214). -/
  | srr (w : OwnI)
  /-- SRW, major 0x1e1 (R214). -/
  | srw (w : OwnI)
  /-- TRAP, major 0x1e2 (R228). -/
  | trap (w : OwnI)
  /-- ERET, major 0x1e3 (R229). -/
  | eret (w : OwnI)
  /-- EMOPR, major 0x1e4 (R230). -/
  | emopr (w : OwnI)
  /-- EMOPW, major 0x1e5 (R230). -/
  | emopw (w : OwnI)
  /-- EMRET, major 0x1e6 (R229). -/
  | emret (w : OwnI)
  /-- ICINV, major 0x1e7 (R231). -/
  | icinv (w : OwnI)
  /-- FETCHB, major 0x1e8 (R231). -/
  | fetchb (w : OwnI)
  /-- FMTW, major 0x1e9 (R232). -/
  | fmtw (w : OwnI)
  /-- FMTR, major 0x1ea (R233). -/
  | fmtr (w : OwnI)
  /-- SETPRIO, major 0x1eb (R234). -/
  | setprio (w : OwnI)
  /-- BRK, major 0x1ec (R228). -/
  | brk (w : OwnI)
  /-- HALT, major 0x1ed (R235). -/
  | halt (w : OwnI)
  /-- MOV_16 (R187). -/
  | mov16 (w : Mov16)
  /-- MOVI_16 (R187). -/
  | movi16 (w : Mov16)
  /-- IADD_16 (R187). -/
  | iadd16 (w : Op16)
  /-- ISUB_16 (R187). -/
  | isub16 (w : Op16)
  /-- IMUL_16 (R187). -/
  | imul16 (w : Op16)
  /-- IAND_16 (R187). -/
  | iand16 (w : Op16)
  /-- IOR_16 (R187). -/
  | ior16 (w : Op16)
  /-- IXOR_16 (R187). -/
  | ixor16 (w : Op16)
  /-- SHL_16 (R187). -/
  | shl16 (w : Op16)
  /-- SHR_16 (R187). -/
  | shr16 (w : Op16)
  /-- SAR_16 (R187). -/
  | sar16 (w : Op16)
  /-- IMIN_16 (R187). -/
  | imin16 (w : Op16)
  /-- IMAX_16 (R187). -/
  | imax16 (w : Op16)
  /-- FADD_16 (R187). -/
  | fadd16 (w : Op16)
  /-- FSUB_16 (R187). -/
  | fsub16 (w : Op16)
  /-- FMUL_16 (R187). -/
  | fmul16 (w : Op16)
  /-- FMAX_16 (R187). -/
  | fmax16 (w : Op16)
  /-- NOP_C (R189). -/
  | nopC (w : CompN)
  /-- BRA_C (R189). -/
  | braC (w : CompJ)
  /-- BRP_C (R189). -/
  | brpC (w : CompJ)
  /-- MOV_C (R189). -/
  | movC (w : CompA)
  /-- IADD_C (R189). -/
  | iaddC (w : CompA)
  /-- ISUB_C (R189). -/
  | isubC (w : CompA)
  /-- IMUL_C (R189). -/
  | imulC (w : CompA)
  /-- IAND_C (R189). -/
  | iandC (w : CompA)
  /-- IOR_C (R189). -/
  | iorC (w : CompA)
  /-- IXOR_C (R189). -/
  | ixorC (w : CompA)
  /-- SHL_C (R189). -/
  | shlC (w : CompA)
  /-- SHR_C (R189). -/
  | shrC (w : CompA)
  /-- SAR_C (R189). -/
  | sarC (w : CompA)
  /-- IMIN_C (R189). -/
  | iminC (w : CompA)
  /-- IMAX_C (R189). -/
  | imaxC (w : CompA)
  /-- IADD_CI (R189). -/
  | iaddCi (w : CompI)
  /-- SHL_CI (R189). -/
  | shlCi (w : CompI)
  /-- SHR_CI (R189). -/
  | shrCi (w : CompI)
  /-- SAR_CI (R189). -/
  | sarCi (w : CompI)
  /-- IAND_CI (R189). -/
  | iandCi (w : CompI)
  /-- MOVI_C (R189). -/
  | moviC (w : CompI)
  /-- FADD_C (R189). -/
  | faddC (w : CompA)
  /-- FSUB_C (R189). -/
  | fsubC (w : CompA)
  /-- FMUL_C (R189). -/
  | fmulC (w : CompA)
  /-- FMIN_C (R189). -/
  | fminC (w : CompA)
  /-- FMAX_C (R189). -/
  | fmaxC (w : CompA)
  /-- FFMA_C (R189). -/
  | ffmaC (w : CompA)
  /-- ADDX_C (R189). -/
  | addxC (w : CompA)
  /-- MULX_C (R189). -/
  | mulxC (w : CompA)
  /-- HADD2_C (R189). -/
  | hadd2C (w : CompA)
  /-- HMUL2_C (R189). -/
  | hmul2C (w : CompA)
  /-- HFMA2_C (R189). -/
  | hfma2C (w : CompA)
  /-- SHFL_C (R189). -/
  | shflC (w : CompA)
  /-- SHFLX_C (R189). -/
  | shflxC (w : CompA)
  /-- LDL_C (R189). -/
  | ldlC (w : CompI)
  /-- STL_C (R189). -/
  | stlC (w : CompI)
  /-- WMOV_C (R189). -/
  | wmovC (w : CompA)
  /-- IADD_CW (R189). -/
  | iaddCw (w : CompW)
  /-- ISUB_CW (R189). -/
  | isubCw (w : CompW)
  /-- IMUL_CW (R189). -/
  | imulCw (w : CompW)
  /-- IAND_CW (R189). -/
  | iandCw (w : CompW)
  /-- IOR_CW (R189). -/
  | iorCw (w : CompW)
  /-- SHL_CW (R189). -/
  | shlCw (w : CompW)
  /-- SHR_CW (R189). -/
  | shrCw (w : CompW)
  /-- SLEEPW_EXPIRY (R227). -/
  | sleepwExpiry (w : Nat)
  /-- RESIDENCY_SWEEP (R91). -/
  | residencySweep (die h : Nat)
  /-- UNDEFINED_OPCODE (R200). -/
  | undefinedOpcode (u : Undef)
  /-- ASYNC_TRAP (R410). -/
  | asyncTrap
  /-- WAVE_RIPENS (R336). -/
  | waveRipens (w : Nat)
  /-- HANDLER_DISPATCH (R337). -/
  | handlerDispatch (core slot : Nat)
  /-- RUN_ARBITRATION (R330). -/
  | runArbitration (core quad : Nat)
  /-- HANG_DETECT (R156). -/
  | hangDetect (w : Nat)
  /-- REGISTER_LINE_FILL (R167). -/
  | registerLineFill (core w k : Nat)
  /-- FETCH_FILL (R363). -/
  | fetchFill (core ctx line : Nat)
  /-- TRANSLATION_PROBE_RETURN (R36). -/
  | translationProbeReturn (i : Nat)
  /-- SIDE_LOG_REPLAY (R46). -/
  | sideLogReplay (w : Nat)
  /-- L1_WRITEBACK_TIMEOUT (R59). -/
  | l1WritebackTimeout (core sector : Nat)
  /-- HOME_SLICE_REQUEST (R74). -/
  | homeSliceRequest (square : Nat)
  /-- SQUARE_TURN (R71). -/
  | squareTurn (square : Nat)
  /-- RDC_FILL_ARRIVAL (R82). -/
  | rdcFillArrival (die sector : Nat)
  /-- RDC_INVALIDATION (R82). -/
  | rdcInvalidation (die sector : Nat)
  /-- INVALIDATION_ACK (R81). -/
  | invalidationAck (die sector : Nat)
  /-- TIDAL_MIGRATION (R85). -/
  | tidalMigration (square : Nat)
  /-- TIDAL_RETURN (R87). -/
  | tidalReturn (square : Nat)
  /-- LINE_OPERATION_PERFORM (R97). -/
  | lineOperationPerform (op : Nat)
  /-- LINE_OPERATION_RETIRE (R100). -/
  | lineOperationRetire (op : Nat)
  /-- SWAP_OUT (R111). -/
  | swapOut (team : Nat)
  /-- SWAP_REQUEUE (R113). -/
  | swapRequeue (team : Nat)
  /-- MATRIX_OP_PERFORM (R312). -/
  | matrixOpPerform (core : Nat)
  /-- SCAN_CHUNK (R317). -/
  | scanChunk (core : Nat)
  /-- TILE_DISPLACE (R296). -/
  | tileDisplace (core : Nat)
  /-- ENGINE_IDLE (R409). -/
  | engineIdle (core : Nat)
  /-- ENGINE_START_STAGE (R409). -/
  | engineStartStage (die : Nat)
  /-- NMCMD_SEND (R136). -/
  | nmcmdSend (core : Nat)
  /-- NMU_COMMAND (R137). -/
  | nmuCommand (die stack : Nat)
  /-- MESSAGE_ARRIVAL (R288). -/
  | messageArrival (i : Nat)
  /-- QUANTUM_CLOSE (R348). -/
  | quantumClose (w : Nat)
  /-- QUANTUM_COMMIT (R350). -/
  | quantumCommit (grid : Nat)
  /-- COLL_INSTANCE_RETIRE (R360). -/
  | collInstanceRetire (group inst : Nat)
  /-- MESSAGE_FLIT (R353). -/
  | messageFlit (f : Flit)
  /-- CONTRIBUTION_FLIT (R353). -/
  | contributionFlit (f : Flit)
  /-- PARTIAL_FLIT (R353). -/
  | partialFlit (f : Flit)
  /-- RETIRE_FLIT (R360). -/
  | retireFlit (f : Flit)
  /-- GANG_START_TOKEN (R333). -/
  | gangStartToken (f : Flit)
  /-- GANG_STOP_TOKEN (R331). -/
  | gangStopToken (f : Flit)
  /-- LINK_CONTROL_FLIT (R353). -/
  | linkControlFlit (f : Flit)
  /-- QUEUE_TAIL_DOORBELL (R319). -/
  | queueTailDoorbell (ctx q : Nat) (v : BitVec 64)
  /-- LAUNCH (R322). -/
  | launch (ctx q : Nat)
  /-- LAUNCH_DISPATCH (R321). -/
  | launchDispatch
  /-- SETXT_TABLE (R29). -/
  | setxtTable (ctx q : Nat)
  /-- SETXT_FAULT_QUEUE (R41). -/
  | setxtFaultQueue (ctx q : Nat)
  /-- XINV (R39). -/
  | xinv (ctx q : Nat)
  /-- PREEMPT (R331). -/
  | preempt (ctx q : Nat)
  /-- PRIORITY_PREEMPTION (R331). -/
  | priorityPreemption
  /-- LOCAL_BLOCK_SAVE (R343). -/
  | localBlockSave (team : Nat)
  /-- TEAM_PLACEMENT (R328). -/
  | teamPlacement
  /-- RESTITCH (R329). -/
  | restitch (grid : Nat)
  /-- TEAM_FREE (R347). -/
  | teamFree (team : Nat)
  /-- GRID_COMPLETION (R326). -/
  | gridCompletion (grid : Nat)
  /-- FAULT_RETRY (R42). -/
  | faultRetry (ctx : Nat) (seq : BitVec 32)
  /-- FAULT_FAIL (R42). -/
  | faultFail (ctx : Nat) (seq : BitVec 32)
  /-- MIGRATION_DOORBELL (R36). -/
  | migrationDoorbell (ctx z : Nat) (v : BitVec 64)
  /-- FAULT_QUEUE_CONSUMER (R41). -/
  | faultQueueConsumer (ctx : Nat) (v : BitVec 64)
  /-- ERROR_RING_CONSUMER (R406). -/
  | errorRingConsumer (ctx : Nat) (v : BitVec 64)
  /-- ADMIN_RING_BASE_WRITE (R398). -/
  | adminRingBaseWrite (v : BitVec 64)
  /-- ADMIN_RING_SIZE_WRITE (R398). -/
  | adminRingSizeWrite (v : BitVec 64)
  /-- ADMIN_TAIL_DOORBELL (R398). -/
  | adminTailDoorbell (v : BitVec 64)
  /-- ERROR_LOG_BASE_WRITE (R398). -/
  | errorLogBaseWrite (v : BitVec 64)
  /-- ERROR_LOG_SIZE_WRITE (R398). -/
  | errorLogSizeWrite (v : BitVec 64)
  /-- ERROR_LOG_CONSUMER (R398). -/
  | errorLogConsumer (v : BitVec 64)
  /-- REGISTER_WRITE_OTHER (R398). -/
  | registerWriteOther (r : RegAccess)
  /-- CTXNEW (R399). -/
  | ctxnew
  /-- CTXDEL (R397). -/
  | ctxdel
  /-- QNEW (R399). -/
  | qnew
  /-- QDEL (R399). -/
  | qdel
  /-- ROUTE (R399). -/
  | route
  /-- GROUP_INSTALL (R355). -/
  | groupInstall
  /-- GROUP_REMOVE (R399). -/
  | groupRemove
  /-- SPARE (R407). -/
  | spare
  /-- SPARE_SWAP (R407). -/
  | spareSwap (die kind unit : Nat)
  /-- GET_VERSION (R400). -/
  | getVersion (r : SpdmReq)
  /-- GET_CAPABILITIES (R400). -/
  | getCapabilities (r : SpdmReq)
  /-- NEGOTIATE_ALGORITHMS (R400). -/
  | negotiateAlgorithms (r : SpdmReq)
  /-- GET_DIGESTS (R400). -/
  | getDigests (r : SpdmReq)
  /-- GET_CERTIFICATE (R400). -/
  | getCertificate (r : SpdmReq)
  /-- CHALLENGE (R400). -/
  | challenge (r : SpdmReq)
  /-- GET_MEASUREMENTS (R400). -/
  | getMeasurements (r : SpdmReq)
  /-- KEY_EXCHANGE (R400). -/
  | keyExchange (r : SpdmReq)
  /-- FINISH (R400). -/
  | finish (r : SpdmReq)
  /-- KEY_UPDATE (R400). -/
  | keyUpdate (r : SpdmReq)
  /-- HEARTBEAT (R400). -/
  | heartbeat (r : SpdmReq)
  /-- END_SESSION (R400). -/
  | endSession (r : SpdmReq)
  /-- SETKEY (R402). -/
  | setkey (r : SpdmReq)
  /-- VF_REQUEST_DROPPED (R395). -/
  | vfRequestDropped (fn : Nat)
  /-- RESET (R404). -/
  | reset (b : BootInput)
  /-- CORRECTED_ERROR_REPORT (R405). -/
  | correctedErrorReport (e : CorrErr)
  /-- TDISP_INTERFACE_REQUEST (R395). -/
  | tdispInterfaceRequest (fn : Nat) (target : TdispState)
  /-- HOST_ACCESS_TO_DEVICE_MEMORY (R401). -/
  | hostAccessToDeviceMemory (a : HostAccess)
  /-- PCIE_READ_COMPLETION (R65). -/
  | pcieReadCompletion (i : Nat)
  /-- HANDLE_TABLE_COPY_UPDATE (R91). -/
  | handleTableCopyUpdate (i : Nat)
  /-- PYRATHA_RUN_TRANSLATION (R369). -/
  | pyrathaRunTranslation (die ctx : Nat) (pc : BitVec 48)
  /-- IDLE_FLIT (R353). -/
  | idleFlit (f : Flit)
  /-- DISCARDED_FLIT_TYPE (R353). -/
  | discardedFlitType (f : Flit)
  deriving DecidableEq, Repr

end Sys2Proof
end

