-- ==== Sys2Proof/Config.lean ====
section
/-! DEFINITION. What one module fixes for itself, and the free values: constants with no body, which no
proof can see (log entries 2, 3, 4, 9, 11, 19, each DESIGN CHOICE but 9, which is DEDUCED). -/

namespace Sys2Proof.Config

/-- A cycle count read while the clock of a core stands wherever it stands (R211, log entry 2, DESIGN CHOICE). -/
opaque freeCycle : Nat → BitVec 64
/-- A free 32-bit value (log entry 3, DESIGN CHOICE). -/
opaque freeWord : Nat → BitVec 32
/-- A free byte (log entry 3, DESIGN CHOICE). -/
opaque freeByte : Nat → Byte
/-- The L2 set of a square within its slice: the manual gives the associativity only (R1, R90). -/
opaque l2Set : Nat → Nat
/-- The order in which a fast-mode collective adds its contributions (R359). -/
opaque fastOrder : Nat → Nat → Nat
/-- A context's image key, which the device generates (R401, log entry 4). -/
opaque imageKey : Nat → BitVec 512
/-- Value of a correctly rounded function where the enclosures of log entry 9 (DEDUCED) leave two candidates. -/
opaque functionValue : Nat → Nat → Nat → Nat

/-- The manifest of a module as this model comes out of reset: physical cores 0 to 159 enabled on each
die, slices mapped in order, every strait enabled, no major disabled, core and slice spares and rank
takeover permitted, four spare events (log entry 6, DESIGN CHOICE). -/
def manifest : Manifest where
  magic := 0x5a584d46
  version := 1
  part := 0x5a580004
  cores := List.replicate 4 (BitVec.ofNat 176 (2 ^ 160 - 1))
  slices := List.replicate 4 ((List.range 48) ++ [255, 255, 255, 255])
  near := List.replicate 4 ((List.range 21).map (fun a => 2 * a))
  straits := 0xffffffff
  disabled := 0
  policy := 0x407
  reservedZero := true
  keyMatches := true
  signed := true

end Sys2Proof.Config
end

