-- ==== Sys2Proof/WellFormed.lean ====
section
/-! DEFINITION. Reserved field values (10 R201 and the additions of each instruction's own rule): an
instruction with a reserved value does not execute but takes the fate RSVFIELD of R200. -/

namespace Sys2Proof

/-- What a 7-bit operand field may hold (R191, R236, R255, R272, R293). -/
inductive Fld where
  | z | v | v2 | v4 | v8 | p | w | wp | w4 | w8 | w16 | h | t | te | c | b | any
  | imm (n : Nat)
  deriving DecidableEq, Repr

/-- A field value its class admits (R191, R201). -/
def Fld.ok (k : Fld) (x : BitVec 7) : Bool :=
  match k with
  | .z => decide (x = 0)
  | .v | .any => true
  | .v2 => decide (x.toNat % 2 = 0)
  | .v4 => decide (x.toNat % 4 = 0)
  | .v8 => decide (x.toNat % 8 = 0)
  | .p | .c => decide (x.toNat < 8)
  | .w => decide (x.toNat < 64)
  | .wp => decide (x.toNat < 64 ∧ x.toNat % 2 = 0)
  | .w4 => decide (x.toNat < 64 ∧ x.toNat % 4 = 0)
  | .w8 => decide (x.toNat < 64 ∧ x.toNat % 8 = 0)
  | .w16 => decide (x.toNat < 64 ∧ x.toNat % 16 = 0)
  | .h | .t | .b => decide (x.toNat < 16)
  | .te => decide (x.toNat < 16 ∧ x.toNat % 2 = 0)
  | .imm n => decide (x.toNat ≤ n)

/-- Bit i of a number. -/
def bitAt (x i : Nat) : Bool := decide (x / 2 ^ i % 2 = 1)

/-- The guard is P7, not negated (R192). -/
def Hd.unguarded (h : Hd) : Bool := decide (h.pg = 7) && !h.pn

/-- Which modifier fields an ALU-layout row uses (R193, R236, R255). -/
structure AluUse where
  la   : Bool
  xl   : Bool
  w2   : Bool
  rnd  : Bool
  sat  : Bool
  sr   : Bool
  fmin : Nat
  fmax : Nat
  deriving DecidableEq, Repr

/-- The modifier and lookahead values an ALU-layout row admits (R193, R199, R201). -/
def AluI.modOk (w : AluI) (u : AluUse) : Bool :=
  (u.la || decide (w.h.la = 0)) &&
  (if u.xl then decide (w.m.xl.toNat ≤ 4) && (decide (w.m.xl ≠ 0) || decide (w.m.xlp = 0))
   else decide (w.m.xl = 0) && decide (w.m.xlp = 0)) &&
  (if w.m.w2 then u.w2 && decide (w.s2.toNat < 64) else true) &&
  (u.rnd || decide (w.m.rnd = 0)) && (u.sat || !w.m.sat) && (u.sr || !w.m.sr) &&
  (!w.m.sr || decide (w.m.rnd = 0)) &&
  decide (u.fmin ≤ w.m.fmt.toNat) && decide (w.m.fmt.toNat ≤ u.fmax)

/-- The four operand fields of a common-layout row; S2 is checked as a V source unless W2 names a W
register (R193). -/
def AluI.fieldsOk (w : AluI) (d s1 s2 s3 : Fld) : Bool :=
  d.ok w.d && s1.ok w.s1 && (w.m.w2 || s2.ok w.s2) && s3.ok w.s3

/-- The four operand fields of an own-layout row. -/
def OwnI.fieldsOk (w : OwnI) (d s1 s2 s3 : Fld) : Bool :=
  decide (w.h.la = 0 ∨ d = .any) && d.ok w.d && s1.ok w.s1 && s2.ok w.s2 && s3.ok w.s3

/-- Words of an expansion operand: codes 0, 1, 2 give 2, 3, 4 and code 3 gives 1 (R256). -/
def xWords (c : Nat) : Nat := if c = 3 then 1 else c + 2

/-- The base alignment of an n-word expansion (R183); a single word sits anywhere (R255). -/
def xAligned (n : Nat) (x : BitVec 7) : Bool :=
  if n ≤ 1 then true else if n = 2 then decide (x.toNat % 2 = 0) else decide (x.toNat % 4 = 0)

/-- VOTE: `.ballot` writes four W registers, the others a predicate (R236). -/
def voteOk (w : AluI) : Bool := if w.s3 = 2 then Fld.ok .w4 w.d else Fld.ok .p w.d
/-- WSCAN: codes 0 to 8 and 16 to 24, a rounding only with codes 8 and 24 (R246). -/
def scanOpOk (w : AluI) : Bool :=
  let c := w.s3.toNat
  (decide (c ≤ 8) || decide (16 ≤ c ∧ c ≤ 24)) && (decide (c % 16 = 8) || decide (w.m.rnd = 0))
/-- PMOV: the field its direction does not use is zero (R236). -/
def pmovOk (w : AluI) : Bool := if w.s3 = 0 then decide (w.s1 = 0) else decide (w.d = 0)
/-- CVTFI: no rounding and no stochastic rounding with E8M0 (R251). -/
def cvtfiOk (w : AluI) : Bool := decide (w.s3 ≠ 4) || (decide (w.m.rnd = 0) && !w.m.sr)
/-- PACK and UNPACK selector: a width code below 3 and a field inside the register (R253). -/
def selOk (s : BitVec 7) : Bool :=
  let w := s.toNat % 4
  decide (w < 3) && decide (s.toNat / 4 % 16 < 8 / 2 ^ w)
/-- PACK: no sign bit (R253). -/
def packOk (w : AluI) : Bool := selOk w.s3 && decide (w.s3.toNat < 64)
/-- UNPACK: the sign bit only with FMT = 0 (R253). -/
def unpackOk (w : AluI) : Bool := selOk w.s3 && (decide (w.s3.toNat < 64) || decide (w.m.fmt = 0))
/-- W2 only where S2 names a one-word operand (R256). -/
def xW2Ok (w : AluI) (nb : Nat) : Bool := !w.m.w2 || decide (nb = 1)
/-- XADD, XSUB, XMUL and XFMA (R256). -/
def xArithOk (w : AluI) : Bool :=
  let s := w.s3.toNat; let nb := xWords (s / 16 % 4); let na := xWords (s / 4 % 4)
  decide (s < 64) && decide (s % 4 ≠ 3) && xAligned (xWords (s % 4)) w.d && xAligned na w.s1 &&
  (w.m.w2 || xAligned nb w.s2) && xW2Ok w nb
/-- XREN (R256). -/
def xRenOk (w : AluI) : Bool :=
  let s := w.s3.toNat
  decide (s < 16) && decide (s % 4 ≠ 3) && xAligned (xWords (s % 4)) w.d && xAligned (xWords (s / 4)) w.s1
/-- XCPR (R256). -/
def xCprOk (w : AluI) : Bool :=
  let s := w.s3.toNat
  decide (s < 48) && decide (s % 4 ≠ 3) && xAligned (xWords (s % 4)) w.d &&
  xAligned (xWords (s / 4 % 4)) w.s1
/-- XCMP (R256, R270). -/
def xCmpOk (w : AluI) : Bool :=
  let s := w.s3.toNat; let nb := xWords (s % 4)
  xAligned (xWords (s / 4 % 4)) w.s1 && (w.m.w2 || xAligned nb w.s2) && xW2Ok w nb
/-- XSPLIT (R256). -/
def xSplitOk (w : AluI) : Bool :=
  let s := w.s3.toNat
  decide (s < 48) && decide (s / 4 % 4 = 0) && decide (s % 4 ≠ 3) && xAligned (xWords (s % 4)) w.d
/-- XTOF (R256). -/
def xTofOk (w : AluI) : Bool :=
  let s := w.s3.toNat
  decide (s < 48) && decide (s % 4 = 0) && xAligned (xWords (s / 4 % 4)) w.s1
/-- XACC (R256). -/
def xAccOk (w : AluI) : Bool := decide (w.s3.toNat < 3) && xAligned (xWords w.s3.toNat) w.d

/-- M all zero (R210). -/
def mZero (w : OwnI) : Bool := decide (w.m = 0)
/-- bar: n at most 16, bits [15:9] zero (R210). -/
def mBar (w : OwnI) : Bool := decide (w.m.toNat < 512) && decide (w.m.toNat / 16 ≤ 16)
/-- BARWT: bar with n = 0 (R209). -/
def mBarWait (w : OwnI) : Bool := decide (w.m.toNat < 16)
/-- wv: D is zero when V = 0 (R210). -/
def mWv (w : OwnI) : Bool := decide (w.m.toNat ≤ 1) && (decide (w.m = 1) || decide (w.d = 0))
/-- ord: a scope of 1 to 6 (R210). -/
def mOrd (w : OwnI) : Bool :=
  decide (w.m.toNat < 2 ^ 13) && decide (w.m.toNat % 256 = 0) &&
  decide (1 ≤ w.m.toNat / 256 % 8 ∧ w.m.toNat / 256 % 8 ≤ 6)
/-- sc: a scope of 1 to 6 (R210). -/
def mSc (w : OwnI) : Bool :=
  decide (w.m.toNat < 2 ^ 11) && decide (w.m.toNat % 256 = 0) &&
  decide (1 ≤ w.m.toNat / 256 ∧ w.m.toNat / 256 ≤ 6)
/-- The special registers of R211. -/
def srListed (n : Nat) : Bool := decide (n ≤ 0x17) || decide (0x40 ≤ n ∧ n ≤ 0x5f)
/-- sr for SRR: a listed number; the half bit only on the 128-bit registers (R210, R211). -/
def mSrr (w : OwnI) : Bool :=
  let n := w.m.toNat % 256
  decide (w.m.toNat < 512) && srListed n && (decide (w.m.toNat < 256) || decide (n = 0x0c ∨ n = 0x0d))
/-- sr for SRW: `%tstatus` or a sector counter (R214). -/
def mSrw (w : OwnI) : Bool := decide (w.m.toNat = 0x0b) || decide (0x40 ≤ w.m.toNat ∧ w.m.toNat ≤ 0x5f)
/-- eret: S1 is a V pair for `.to` and zero for the other modes (R210). -/
def mEret (w : OwnI) : Bool :=
  decide (w.m.toNat ≤ 3) && (if w.m = 3 then Fld.ok .v2 w.s1 else decide (w.s1 = 0))
/-- The selectors of R230, for reading and for writing. -/
def emSelOk (n : Nat) (wr : Bool) : Bool :=
  decide (0x10 ≤ n ∧ n ≤ 0x12) || (!wr && decide (n ≤ 0x0c))
/-- em: a listed selector; j and S1 only with selectors 0x10 and 0x11 (R210, R230). -/
def mEm (w : OwnI) (wr : Bool) : Bool :=
  let n := w.m.toNat % 256
  decide (w.m.toNat < 2 ^ 11) && emSelOk n wr &&
  (decide (n = 0x10 ∨ n = 0x11) || (decide (w.m.toNat < 256) && decide (w.s1 = 0)))
/-- n4 (R210). -/
def mN4 (w : OwnI) : Bool := decide (w.m.toNat < 16)
/-- SETPRIO: n4 below 12 (R210). -/
def mPrio (w : OwnI) : Bool := decide (w.m.toNat < 12)
/-- cp for CPA and CPS: Bm zero (R272). -/
def mCp (w : OwnI) : Bool := decide (w.m.toNat ≤ 2)
/-- cp for CPL (R272). -/
def mCpl (w : OwnI) : Bool := decide (w.m.toNat < 256) && decide (w.m.toNat % 16 ≤ 2)
/-- One named bit at [0] (R272, R294). -/
def mBit0 (w : OwnI) : Bool := decide (w.m.toNat ≤ 1)
/-- One named bit at [15] (R272). -/
def mBit15 (w : OwnI) : Bool := decide (w.m.toNat % 2 ^ 15 = 0)
/-- mx: bit [8] zero; an integer code is 0 or 1 (R294). -/
def mMx (w : OwnI) : Bool :=
  let m := w.m.toNat
  !bitAt m 8 && (!bitAt m 10 || decide (m / 16 % 16 ≤ 1)) && (!bitAt m 9 || decide (m % 16 ≤ 1))
/-- md has the same free bits as mx (R294). -/
def mMd (w : OwnI) : Bool := mMx w
/-- rd: form 0 to 2, and a base the form admits (R294). -/
def mRd (w : OwnI) : Bool :=
  let f := w.m.toNat / 16
  decide (w.m.toNat < 64) && decide (f < 3) && !bitAt w.m.toNat 3 &&
  (if f = 1 then Fld.ok .v8 w.d else Fld.ok .v4 w.d)

/-- Memory-layout kinds, by the fields and orders they admit (R115, R273). -/
inductive MemKind where
  | load | store | uload | atomic | atomicF | atomicC | cas | atomicL | square | pref | touch
  deriving DecidableEq, Repr

/-- What the D field of a memory-layout row names (R272, R273). -/
inductive MemData where
  | vdata | wdata | vcas | none
  deriving DecidableEq, Repr

/-- NR, the `.red` bit of the atomic field (R273). -/
def MemI.red (w : MemI) : Bool := bitAt w.m.fmt.toNat 3

/-- The FMT, atomic or axis field (R273 to R276); PREF never traps, so it has no OOB-trap (R21), and of PREF, CWB and CINV only
PREF has a hint (R201, R281). -/
def MemI.fieldOk (w : MemI) (k : MemKind) : Bool :=
  let f := w.m.fmt.toNat
  match k with
  | .load | .store => true
  | .uload | .cas => decide (f = 0)
  | .pref => decide (f = 0) && !w.m.oobt
  | .touch => decide (f = 0 ∧ w.m.hint = 0)
  | .atomic => decide (f ≠ 15)
  | .atomicL => decide (f < 8)
  | .atomicF => decide (f / 2 % 4 ≠ 3) && (decide (f % 2 = 0) || decide (w.m.size = 1))
  | .atomicC => decide (f % 8 ≤ 1)
  | .square => decide (f ≤ 2)

/-- The orders of R115: 0 relaxed, 1 acquire, 2 release, 3 acq-rel. ATBC is named beside the
value-returning atomics whether or not it is a reduction (log entry 10, DEDUCED). -/
def MemI.orderOk (w : MemI) (k : MemKind) : Bool :=
  match k with
  | .load | .uload | .square => decide (w.m.ord.toNat ≤ 1)
  | .store => decide (w.m.ord = 0 ∨ w.m.ord = 2)
  | .atomic | .atomicF => !w.red || decide (w.m.ord = 0 ∨ w.m.ord = 2)
  | .atomicC | .cas | .atomicL => true
  | .pref | .touch => decide (w.m.ord = 0)

/-- The data base of R273. With a conversion the base is checked at execution instead (R275). -/
def MemI.dataOk (w : MemI) (d : MemData) : Bool :=
  let s := w.m.size.toNat
  match d with
  | .none => decide (w.d = 0)
  | .vdata => decide (w.m.fmt ≠ 0) || decide (w.d.toNat % 2 ^ (s - 2) = 0)
  | .wdata => decide (w.d.toNat < 64) && decide (w.d.toNat % 2 ^ (s - 2) = 0)
  | .vcas => decide (w.d.toNat % 2 ^ (s - 1) = 0)

/-- A memory-layout row (R272, R273): `atom` says that M [7:4] is no format. -/
def MemI.ok (w : MemI) (la loc : Bool) (d : MemData) (s1 : Fld) (sizes : List Nat) (k : MemKind) : Bool :=
  (la || decide (w.h.la = 0)) && s1.ok w.s1 && decide (w.m.size.toNat ∈ sizes) &&
  decide (w.m.scope ≠ 7) && w.fieldOk k && w.orderOk k &&
  (match k with
   | .load | .store => w.dataOk d
   | _ => MemI.dataOk { w with m := { w.m with fmt := 0 } } d) &&
  (!loc || (decide (w.bn = 0) && decide (w.m.hint = 0)))

/-- A core of the module: 672 logical core numbers, 168 on each die (R1). -/
def coreOk (c : Nat) : Bool := decide (c < 672)
/-- A flit of one of the 32 ports, with the payload bytes that its Length gives (R1, R353). -/
def flitOk (f : Flit) : Bool := decide (f.port < 32) && decide (f.payload.length = f.len)

/-- No field of the instruction has a reserved value (R201), and an event names units that exist. -/
def Instr.wellFormed (i : Instr) : Bool :=
  match i with
  | .nop w => w.fieldsOk .z .z .z .z && mZero w
  | .bra w => decide (w.h.la = 0) && decide (w.z = 0) && Fld.ok .z w.d
  | .brp w => decide (w.h.la = 0) && decide (w.z = 0) && Fld.ok .z w.d
  | .brx w => w.fieldsOk .z .v2 .z .z && mZero w
  | .call w => decide (w.h.la = 0) && decide (w.z = 0) && Fld.ok .v2 w.d
  | .callx w => w.fieldsOk .v2 .v2 .z .z && mZero w
  | .ret w => w.fieldsOk .z .v2 .z .z && mZero w
  | .loopw w => w.fieldsOk .w .z .z .z && w.h.unguarded
  | .fspawn w => w.fieldsOk .v .z .z .z
  | .fquit w => w.fieldsOk .z .z .z .z && mZero w
  | .rejoin w => w.fieldsOk .z .v4 .z .z && mZero w
  | .yield w => w.fieldsOk .z .z .z .z && mZero w && w.h.unguarded
  | .attach w => w.fieldsOk .w .w .w .z && mZero w
  | .detach w => w.fieldsOk .z .z .z .z && mZero w && w.h.unguarded
  | .bararv w => w.fieldsOk .z .z .z .z && mBar w && w.h.unguarded
  | .barwt w => w.fieldsOk .z .z .z .z && mBarWait w && w.h.unguarded
  | .barsyn w => w.fieldsOk .z .z .z .z && mBar w && w.h.unguarded
  | .gridbar w => w.fieldsOk .z .z .z .z && mZero w && w.h.unguarded
  | .cvset w => w.fieldsOk .c .w .z .z && mZero w
  | .hwait w => decide (w.h.la = 0) && w.fieldsOk .any .h .z .z && mWv w
  | .htest w => w.fieldsOk .p .h .z .z && mZero w
  | .hcancel w => w.fieldsOk .z .h .z .z && mZero w
  | .hmov w => w.fieldsOk .h .h .z .z && mZero w
  | .fence w => w.fieldsOk .z .z .z .z && mOrd w && w.h.unguarded
  | .qsync w => w.fieldsOk .z .z .z .z && mZero w && w.h.unguarded
  | .sleepw w => w.fieldsOk .z .w .z .z && mZero w && w.h.unguarded
  | .sleepwExpiry _ => true
  | .iadd w => w.modOk ⟨false, true, true, false, false, false, 0, 0⟩ && w.fieldsOk .v .v .v .z
  | .isub w => w.modOk ⟨false, true, true, false, false, false, 0, 0⟩ && w.fieldsOk .v .v .v .z
  | .iaddc w => w.modOk ⟨false, true, true, false, false, false, 0, 0⟩ && w.fieldsOk .v .v .v .p
  | .isubb w => w.modOk ⟨false, true, true, false, false, false, 0, 0⟩ && w.fieldsOk .v .v .v .p
  | .imul w => w.modOk ⟨false, true, true, false, false, false, 0, 0⟩ && w.fieldsOk .v .v .v .z
  | .imulh w => w.modOk ⟨false, true, true, false, false, false, 0, 0⟩ && w.fieldsOk .v .v .v .z
  | .imulhu w => w.modOk ⟨false, true, true, false, false, false, 0, 0⟩ && w.fieldsOk .v .v .v .z
  | .imad w => w.modOk ⟨false, true, true, false, false, false, 0, 0⟩ && w.fieldsOk .v .v .v .v
  | .iadd64 w => w.modOk ⟨false, false, false, false, false, false, 0, 0⟩ && w.fieldsOk .v2 .v2 .v2 .z
  | .imad64 w => w.modOk ⟨false, false, false, false, false, false, 0, 0⟩ && w.fieldsOk .v2 .v .v .v2
  | .idiv w => w.modOk ⟨true, true, true, false, false, false, 0, 0⟩ && w.fieldsOk .v .v .v .z
  | .idivu w => w.modOk ⟨true, true, true, false, false, false, 0, 0⟩ && w.fieldsOk .v .v .v .z
  | .irem w => w.modOk ⟨true, true, true, false, false, false, 0, 0⟩ && w.fieldsOk .v .v .v .z
  | .iremu w => w.modOk ⟨true, true, true, false, false, false, 0, 0⟩ && w.fieldsOk .v .v .v .z
  | .imin w => w.modOk ⟨false, true, true, false, false, false, 0, 0⟩ && w.fieldsOk .v .v .v .z
  | .imax w => w.modOk ⟨false, true, true, false, false, false, 0, 0⟩ && w.fieldsOk .v .v .v .z
  | .iminu w => w.modOk ⟨false, true, true, false, false, false, 0, 0⟩ && w.fieldsOk .v .v .v .z
  | .imaxu w => w.modOk ⟨false, true, true, false, false, false, 0, 0⟩ && w.fieldsOk .v .v .v .z
  | .iabs w => w.modOk ⟨false, true, false, false, false, false, 0, 0⟩ && w.fieldsOk .v .v .z .z
  | .ineg w => w.modOk ⟨false, true, false, false, false, false, 0, 0⟩ && w.fieldsOk .v .v .z .z
  | .iand w => w.modOk ⟨false, true, true, false, false, false, 0, 0⟩ && w.fieldsOk .v .v .v .z
  | .ior w => w.modOk ⟨false, true, true, false, false, false, 0, 0⟩ && w.fieldsOk .v .v .v .z
  | .ixor w => w.modOk ⟨false, true, true, false, false, false, 0, 0⟩ && w.fieldsOk .v .v .v .z
  | .inot w => w.modOk ⟨false, true, false, false, false, false, 0, 0⟩ && w.fieldsOk .v .v .z .z
  | .iandn w => w.modOk ⟨false, true, true, false, false, false, 0, 0⟩ && w.fieldsOk .v .v .v .z
  | .shl w => w.modOk ⟨false, true, true, false, false, false, 0, 0⟩ && w.fieldsOk .v .v .v .z
  | .shr w => w.modOk ⟨false, true, true, false, false, false, 0, 0⟩ && w.fieldsOk .v .v .v .z
  | .sar w => w.modOk ⟨false, true, true, false, false, false, 0, 0⟩ && w.fieldsOk .v .v .v .z
  | .rol w => w.modOk ⟨false, true, true, false, false, false, 0, 0⟩ && w.fieldsOk .v .v .v .z
  | .ror w => w.modOk ⟨false, true, true, false, false, false, 0, 0⟩ && w.fieldsOk .v .v .v .z
  | .shl64 w => w.modOk ⟨false, false, true, false, false, false, 0, 0⟩ && w.fieldsOk .v2 .v2 .v .z
  | .shr64 w => w.modOk ⟨false, false, true, false, false, false, 0, 0⟩ && w.fieldsOk .v2 .v2 .v .z
  | .popc w => w.modOk ⟨false, true, false, false, false, false, 0, 0⟩ && w.fieldsOk .v .v .z .z
  | .clz w => w.modOk ⟨false, true, false, false, false, false, 0, 0⟩ && w.fieldsOk .v .v .z .z
  | .ctz w => w.modOk ⟨false, true, false, false, false, false, 0, 0⟩ && w.fieldsOk .v .v .z .z
  | .brev w => w.modOk ⟨false, true, false, false, false, false, 0, 0⟩ && w.fieldsOk .v .v .z .z
  | .bfe w => w.modOk ⟨false, true, true, false, false, false, 0, 0⟩ && w.fieldsOk .v .v .v .z
  | .bfi w => w.modOk ⟨false, true, true, false, false, false, 0, 0⟩ && w.fieldsOk .v .v .v .v
  | .perm w => w.modOk ⟨false, true, true, false, false, false, 0, 0⟩ && w.fieldsOk .v .v .v .v
  | .isel w => w.modOk ⟨false, true, true, false, false, false, 0, 0⟩ && w.fieldsOk .v .v .v .p
  | .icmp w => w.modOk ⟨false, true, true, false, false, false, 0, 0⟩ && w.fieldsOk .p .v .v (.imm 9)
  | .mov w => w.modOk ⟨false, true, false, false, false, false, 0, 0⟩ && w.fieldsOk .v .v .z .z
  | .movi w => decide (w.h.la = 0) && decide (w.z = 0) && Fld.ok .v w.d
  | .wmov w => w.modOk ⟨false, false, false, false, false, false, 0, 0⟩ && w.fieldsOk .v .w .z .z
  | .lea w => w.modOk ⟨false, false, true, false, false, false, 0, 0⟩ && w.fieldsOk .v2 .v2 .v (.imm 31)
  | .iadds w => w.modOk ⟨false, true, true, false, false, false, 0, 0⟩ && w.fieldsOk .v .v .v .z
  | .shfl w => w.modOk ⟨false, false, true, false, false, false, 0, 0⟩ && w.fieldsOk .v .v .v .z
  | .shflup w => w.modOk ⟨false, false, true, false, false, false, 0, 0⟩ && w.fieldsOk .v .v .v .z
  | .shfldn w => w.modOk ⟨false, false, true, false, false, false, 0, 0⟩ && w.fieldsOk .v .v .v .z
  | .shflx w => w.modOk ⟨false, false, true, false, false, false, 0, 0⟩ && w.fieldsOk .v .v .v .z
  | .vote w => w.modOk ⟨false, false, false, false, false, false, 0, 0⟩ && w.fieldsOk .any .p .z (.imm 2) && voteOk w
  | .wredi w => w.modOk ⟨true, false, false, false, false, false, 0, 0⟩ && w.fieldsOk .v .v .z (.imm 7)
  | .wredf w => w.modOk ⟨true, false, false, true, false, false, 0, 2⟩ && w.fieldsOk .v .v .z (.imm 2)
  | .wscan w => w.modOk ⟨true, false, false, true, false, false, 0, 0⟩ && w.fieldsOk .v .v .z .any && scanOpOk w
  | .wargx w => w.modOk ⟨true, false, true, false, false, false, 0, 0⟩ && w.fieldsOk .v2 .v .v (.imm 5)
  | .plop w => w.modOk ⟨false, false, false, false, false, false, 0, 0⟩ && w.fieldsOk .p .p .p (.imm 15)
  | .pmov w => w.modOk ⟨false, false, false, false, false, false, 0, 0⟩ && w.fieldsOk .any .any .z (.imm 1) && pmovOk w
  | .cvtf w => w.modOk ⟨false, true, false, true, true, true, 0, 15⟩ && w.fieldsOk .v .v .z (.imm 15)
  | .cvtfi w => w.modOk ⟨false, true, false, true, false, true, 0, 15⟩ && w.fieldsOk .v .v .z (.imm 4) && cvtfiOk w
  | .cvtif w => w.modOk ⟨false, true, false, true, true, true, 0, 15⟩ && w.fieldsOk .v .v .z (.imm 4)
  | .pack w => w.modOk ⟨false, false, true, true, true, true, 0, 15⟩ && w.fieldsOk .v .v .v .any && packOk w
  | .unpack w => w.modOk ⟨false, true, false, true, false, false, 0, 15⟩ && w.fieldsOk .v .v .z .any && unpackOk w
  | .srseed w => w.modOk ⟨false, false, false, false, false, false, 0, 0⟩ && w.fieldsOk .z .wp .z .z
  | .srdraw w => w.modOk ⟨false, false, false, false, false, false, 0, 0⟩ && w.fieldsOk .v .z .z .z
  | .fadd w => w.modOk ⟨false, true, true, true, true, true, 0, 2⟩ && w.fieldsOk .v .v .v .z
  | .fsub w => w.modOk ⟨false, true, true, true, true, true, 0, 2⟩ && w.fieldsOk .v .v .v .z
  | .fmul w => w.modOk ⟨false, true, true, true, true, true, 0, 2⟩ && w.fieldsOk .v .v .v .z
  | .ffma w => w.modOk ⟨false, true, true, true, true, true, 0, 2⟩ && w.fieldsOk .v .v .v .v
  | .fmin w => w.modOk ⟨false, true, true, false, false, false, 0, 2⟩ && w.fieldsOk .v .v .v .z
  | .fmax w => w.modOk ⟨false, true, true, false, false, false, 0, 2⟩ && w.fieldsOk .v .v .v .z
  | .fcmp w => w.modOk ⟨false, true, true, false, false, false, 0, 2⟩ && w.fieldsOk .p .v .v (.imm 7)
  | .fsel w => w.modOk ⟨false, true, true, false, false, false, 0, 0⟩ && w.fieldsOk .v .v .v .p
  | .frcp w => w.modOk ⟨true, true, false, true, true, true, 0, 2⟩ && w.fieldsOk .v .v .z .z
  | .frsq w => w.modOk ⟨true, true, false, true, true, true, 0, 2⟩ && w.fieldsOk .v .v .z .z
  | .fsqrt w => w.modOk ⟨true, true, false, true, true, true, 0, 2⟩ && w.fieldsOk .v .v .z .z
  | .fdiv w => w.modOk ⟨true, true, true, true, true, true, 0, 2⟩ && w.fieldsOk .v .v .v .z
  | .fexp2 w => w.modOk ⟨true, true, false, true, true, true, 0, 2⟩ && w.fieldsOk .v .v .z .z
  | .flog2 w => w.modOk ⟨true, true, false, true, true, true, 0, 2⟩ && w.fieldsOk .v .v .z .z
  | .fsinr w => w.modOk ⟨true, true, false, true, true, true, 0, 2⟩ && w.fieldsOk .v .v .z .z
  | .fcosr w => w.modOk ⟨true, true, false, true, true, true, 0, 2⟩ && w.fieldsOk .v .v .z .z
  | .ftanh w => w.modOk ⟨true, true, false, true, true, true, 0, 2⟩ && w.fieldsOk .v .v .z .z
  | .fclass w => w.modOk ⟨false, true, false, false, false, false, 0, 2⟩ && w.fieldsOk .v .v .z .z
  | .fscale w => w.modOk ⟨false, true, true, true, true, true, 0, 2⟩ && w.fieldsOk .v .v .v .z
  | .frint w => w.modOk ⟨false, true, false, true, false, true, 0, 2⟩ && w.fieldsOk .v .v .z .z
  | .hadd2 w => w.modOk ⟨false, true, true, true, true, true, 1, 2⟩ && w.fieldsOk .v .v .v .z
  | .hmul2 w => w.modOk ⟨false, true, true, true, true, true, 1, 2⟩ && w.fieldsOk .v .v .v .z
  | .hfma2 w => w.modOk ⟨false, true, true, true, true, true, 1, 2⟩ && w.fieldsOk .v .v .v .v
  | .addx w => w.modOk ⟨false, true, true, true, true, true, 0, 2⟩ && w.fieldsOk .v2 .v .v .z
  | .subx w => w.modOk ⟨false, true, true, true, true, true, 0, 2⟩ && w.fieldsOk .v2 .v .v .z
  | .mulx w => w.modOk ⟨false, true, true, true, true, true, 0, 2⟩ && w.fieldsOk .v2 .v .v .z
  | .fmae w => w.modOk ⟨false, true, true, true, true, true, 0, 2⟩ && w.fieldsOk .v4 .v .v .v
  | .fastx w => w.modOk ⟨false, true, true, true, true, true, 0, 2⟩ && w.fieldsOk .v2 .v .v .z
  | .xadd w => w.modOk ⟨false, false, true, false, false, false, 0, 2⟩ && w.fieldsOk .any .any .any .any && xArithOk w
  | .xsub w => w.modOk ⟨false, false, true, false, false, false, 0, 2⟩ && w.fieldsOk .any .any .any .any && xArithOk w
  | .xmul w => w.modOk ⟨true, false, true, false, false, false, 0, 2⟩ && w.fieldsOk .any .any .any .any && xArithOk w
  | .xfma w => w.modOk ⟨true, false, true, false, false, false, 0, 2⟩ && w.fieldsOk .any .any .any .any && xArithOk w
  | .xren w => w.modOk ⟨true, false, false, false, false, false, 0, 2⟩ && w.fieldsOk .any .any .z .any && xRenOk w
  | .xcpr w => w.modOk ⟨true, false, false, false, false, false, 0, 2⟩ && w.fieldsOk .any .any .z .any && xCprOk w
  | .xcmp w => w.modOk ⟨false, false, true, false, false, false, 0, 2⟩ && w.fieldsOk .p .any .any .any && xCmpOk w
  | .xsplit w => w.modOk ⟨false, false, false, false, false, false, 0, 2⟩ && w.fieldsOk .any .v .z .any && xSplitOk w
  | .xtof w => w.modOk ⟨false, false, false, true, true, true, 0, 15⟩ && w.fieldsOk .v .any .z .any && xTofOk w
  | .xacc w => w.modOk ⟨true, false, true, false, false, false, 0, 2⟩ && w.fieldsOk .any .v .v .any && xAccOk w
  | .ldb w => w.ok true false .vdata .v [0, 1, 2, 3, 4] .load
  | .stb w => w.ok false false .vdata .v [0, 1, 2, 3, 4] .store
  | .ldl w => w.ok true true .vdata .v [0, 1, 2, 3, 4] .load
  | .stl w => w.ok false true .vdata .v [0, 1, 2, 3, 4] .store
  | .ldw w => w.ok true false .wdata .w [2, 3, 4] .uload
  | .atb w => w.ok true false .vdata .v [2, 3] .atomic
  | .atbf w => w.ok true false .vdata .v [1, 2] .atomicF
  | .atbc w => w.ok true false .vdata .v [3] .atomicC
  | .casb w => w.ok true false .vcas .v [2, 3, 4] .cas
  | .atl w => w.ok true true .vdata .v [2, 3] .atomicL
  | .casl w => w.ok true true .vcas .v [2, 3] .cas
  | .ldsq w => w.ok true false .vdata .v [2, 3, 4] .square
  | .pref w => w.ok false false .none .v [0, 1, 2, 3, 4] .pref
  | .cwb w => w.ok false false .none .v [0, 1, 2, 3, 4] .touch
  | .cinv w => w.ok false false .none .v [0, 1, 2, 3, 4] .touch
  | .rhnew w => w.fieldsOk .w .wp .wp .w && mZero w
  | .rhset w => w.fieldsOk .h .w .w .z && mZero w
  | .rhdemote w => w.fieldsOk .h .w .z .z && mZero w
  | .rhevict w => w.fieldsOk .h .w .z .z && mZero w
  | .rhfree w => w.fieldsOk .h .w .z .z && mZero w
  | .residencySweep die h => decide (die < 4) && decide (0 < h ∧ h < 4096)
  | .cpa w => w.fieldsOk .v .v .b .w && mCp w
  | .cps w => w.fieldsOk .v .v .b .w && mCp w
  | .cpl w => w.fieldsOk .v .v .b .w && mCpl w
  | .tagwall w => w.fieldsOk .z .wp .z .z && mZero w
  | .tagwany w => w.fieldsOk .z .wp .z .z && mZero w
  | .tagffr w => w.fieldsOk .w .wp .z .z && mZero w
  | .tagclr w => w.fieldsOk .z .wp .z .z && mZero w
  | .tbinit w => w.fieldsOk .z .w .w .z && mBit0 w
  | .tbexp w => w.fieldsOk .z .w .wp .z && mZero w
  | .tbarv w => w.fieldsOk .z .w .w .wp && mZero w
  | .tbwait w => w.fieldsOk .p .w .w .z && mZero w
  | .msend w => w.fieldsOk .h .wp .w .w && mZero w
  | .mpost w => w.fieldsOk .h .wp .w .w && mZero w
  | .mprobe w => w.fieldsOk .w .wp .w .z && mZero w
  | .mcancel w => w.fieldsOk .z .h .z .z && mZero w
  | .nmcmd w => w.fieldsOk .h .v8 .z .z && mBit15 w
  | .nmfence w => w.fieldsOk .z .z .z .z && mSc w && w.h.unguarded
  | .coll w => w.fieldsOk .h .w .z .z && mZero w
  | .mma w => w.fieldsOk .t .v .w8 .h && mMx w
  | .mmar w => w.fieldsOk .t .v .w8 .h && mMx w
  | .mmd w => w.fieldsOk .te .v .w16 .h && mMd w
  | .mmlr w => w.fieldsOk .te .v .w16 .h && mMx w
  | .tzero w => w.fieldsOk .t .z .z .h && mZero w
  | .tload w => w.fieldsOk .t .z .w4 .h && mZero w
  | .tstore w => w.fieldsOk .t .z .w4 .h && mZero w
  | .tread w => w.fieldsOk .any .t .z .z && mRd w
  | .tnew w => w.fieldsOk .t .z .w4 .h && mZero w
  | .tfree w => w.fieldsOk .t .z .z .z && mZero w
  | .tstat w => w.fieldsOk .w .t .z .z && mBit0 w
  | .sscfg w => w.fieldsOk .w .w .z .z && mZero w
  | .scan w => w.fieldsOk .z .z .w .h && mZero w
  | .srr w => w.fieldsOk .v2 .z .z .z && mSrr w
  | .srw w => w.fieldsOk .z .wp .z .z && mSrw w
  | .trap w => w.fieldsOk .z .z .z .z
  | .eret w => w.fieldsOk .z .any .z .z && mEret w
  | .emopr w => w.fieldsOk .v .any .z .z && mEm w false
  | .emopw w => w.fieldsOk .z .any .v .z && mEm w true
  | .emret w => w.fieldsOk .z .z .z .z && mZero w
  | .icinv w => w.fieldsOk .z .b .w .w && mSc w
  | .fetchb w => w.fieldsOk .z .b .w .w && mSc w
  | .fmtw w => w.fieldsOk .z .w .z .z && mN4 w
  | .fmtr w => w.fieldsOk .w .z .z .z && mN4 w
  | .setprio w => w.fieldsOk .z .z .z .z && mPrio w
  | .brk w => w.fieldsOk .z .z .z .z
  | .halt w => w.fieldsOk .z .z .z .z
  | .undefinedOpcode u => decide (u.len = 2 ∨ u.len = 4 ∨ u.len = 8)
  | .mov16 _ => true
  | .movi16 _ => true
  | .iadd16 _ => true
  | .isub16 _ => true
  | .imul16 _ => true
  | .iand16 _ => true
  | .ior16 _ => true
  | .ixor16 _ => true
  | .shl16 _ => true
  | .shr16 _ => true
  | .sar16 _ => true
  | .imin16 _ => true
  | .imax16 _ => true
  | .fadd16 _ => true
  | .fsub16 _ => true
  | .fmul16 _ => true
  | .fmax16 _ => true
  | .nopC w => decide (w.z = 0)
  | .braC _ => true
  | .brpC _ => true
  | .movC w => decide (w.fn2 = 0 ∧ w.vb = 0)
  | .iaddC w => decide (w.fn2 = 0)
  | .isubC w => decide (w.fn2 = 0)
  | .imulC w => decide (w.fn2 = 0)
  | .iandC w => decide (w.fn2 = 0)
  | .iorC w => decide (w.fn2 = 0)
  | .ixorC w => decide (w.fn2 = 0)
  | .shlC w => decide (w.fn2 = 0)
  | .shrC w => decide (w.fn2 = 0)
  | .sarC w => decide (w.fn2 = 0)
  | .iminC w => decide (w.fn2 = 0)
  | .imaxC w => decide (w.fn2 = 0)
  | .iaddCi _ => true
  | .shlCi _ => true
  | .shrCi _ => true
  | .sarCi _ => true
  | .iandCi _ => true
  | .moviC w => decide (w.va = 0)
  | .faddC _ => true
  | .fsubC _ => true
  | .fmulC _ => true
  | .fminC w => decide (w.fn2 = 0)
  | .fmaxC w => decide (w.fn2 = 0)
  | .ffmaC _ => true
  | .addxC w => Fld.ok .v2 w.vd
  | .mulxC w => Fld.ok .v2 w.vd
  | .hadd2C _ => true
  | .hmul2C _ => true
  | .hfma2C _ => true
  | .shflC w => decide (w.fn2 = 0)
  | .shflxC w => decide (w.fn2 = 0)
  | .ldlC _ => true
  | .stlC _ => true
  | .wmovC w => decide (w.fn2 = 0 ∧ w.vb = 0) && Fld.ok .w w.va
  | .iaddCw w => decide (w.z = 0)
  | .isubCw w => decide (w.z = 0)
  | .imulCw w => decide (w.z = 0)
  | .iandCw w => decide (w.z = 0)
  | .iorCw w => decide (w.z = 0)
  | .shlCw w => decide (w.z = 0)
  | .shrCw w => decide (w.z = 0)
  | .asyncTrap => true
  | .waveRipens _ => true
  | .handlerDispatch core slot => coreOk core && decide (slot < 4)
  | .runArbitration core quad => coreOk core && decide (quad < 4)
  | .hangDetect _ => true
  | .registerLineFill core _ k => coreOk core && decide (k < 128)
  | .fetchFill core _ line => coreOk core && decide (line < 2 ^ 41)
  | .translationProbeReturn _ => true
  | .sideLogReplay _ => true
  | .l1WritebackTimeout core _ => coreOk core
  | .homeSliceRequest _ => true
  | .squareTurn _ => true
  | .rdcFillArrival die _ => decide (die < 4)
  | .rdcInvalidation die _ => decide (die < 4)
  | .invalidationAck die _ => decide (die < 4)
  | .tidalMigration _ => true
  | .tidalReturn _ => true
  | .lineOperationPerform _ => true
  | .lineOperationRetire _ => true
  | .swapOut _ => true
  | .swapRequeue _ => true
  | .matrixOpPerform core => coreOk core
  | .scanChunk core => coreOk core
  | .tileDisplace core => coreOk core
  | .engineIdle core => coreOk core
  | .engineStartStage die => decide (die < 4)
  | .nmcmdSend core => coreOk core
  | .nmuCommand die stack => decide (die < 4) && decide (stack < 3)
  | .messageArrival _ => true
  | .quantumClose _ => true
  | .quantumCommit _ => true
  | .collInstanceRetire _ _ => true
  | .messageFlit f => flitOk f
  | .contributionFlit f => flitOk f
  | .partialFlit f => flitOk f
  | .retireFlit f => flitOk f
  | .gangStartToken f => flitOk f
  | .gangStopToken f => flitOk f
  | .linkControlFlit f => flitOk f
  | .queueTailDoorbell _ q _ => decide (q < 16)
  | .launch _ q => decide (q < 16)
  | .launchDispatch => true
  | .setxtTable _ q => decide (q < 16)
  | .setxtFaultQueue _ q => decide (q < 16)
  | .xinv _ q => decide (q < 16)
  | .preempt _ q => decide (q < 16)
  | .priorityPreemption => true
  | .localBlockSave _ => true
  | .teamPlacement => true
  | .restitch _ => true
  | .teamFree _ => true
  | .gridCompletion _ => true
  | .faultRetry _ _ => true
  | .faultFail _ _ => true
  | .migrationDoorbell _ z _ => decide (z < 3)
  | .faultQueueConsumer _ _ => true
  | .errorRingConsumer _ _ => true
  | .adminRingBaseWrite _ => true
  | .adminRingSizeWrite _ => true
  | .adminTailDoorbell _ => true
  | .errorLogBaseWrite _ => true
  | .errorLogSizeWrite _ => true
  | .errorLogConsumer _ => true
  | .registerWriteOther _ => true
  | .ctxnew => true
  | .ctxdel => true
  | .qnew => true
  | .qdel => true
  | .route => true
  | .groupInstall => true
  | .groupRemove => true
  | .spare => true
  | .spareSwap die kind _ => decide (die < 4) && decide (kind < 2)
  | .getVersion r => decide (r.fn < 64)
  | .getCapabilities r => decide (r.fn < 64)
  | .negotiateAlgorithms r => decide (r.fn < 64)
  | .getDigests r => decide (r.fn < 64)
  | .getCertificate r => decide (r.fn < 64)
  | .challenge r => decide (r.fn < 64)
  | .getMeasurements r => decide (r.fn < 64)
  | .keyExchange r => decide (r.fn < 64)
  | .finish r => decide (r.fn < 64)
  | .keyUpdate r => decide (r.fn < 64)
  | .heartbeat r => decide (r.fn < 64)
  | .endSession r => decide (r.fn < 64)
  | .setkey r => decide (r.fn < 64)
  | .vfRequestDropped fn => decide (0 < fn ∧ fn < 64)
  | .reset _ => true
  | .correctedErrorReport e => decide (e.die < 4)
  | .tdispInterfaceRequest fn _ => decide (0 < fn ∧ fn < 64)
  | .hostAccessToDeviceMemory a => decide (a.pa < 2 ^ 40)
  | .pcieReadCompletion _ => true
  | .handleTableCopyUpdate _ => true
  | .pyrathaRunTranslation die _ _ => decide (die < 4)
  | .idleFlit f => flitOk f
  | .discardedFlitType f => flitOk f

end Sys2Proof
end

