-- ==== Sys2Proof/Decode.lean ====
section
/-! DEFINITION. From code bytes to instructions and back (10 R186 to R191, R195, R200). The decoder is a
total function: it answers an instruction, a fate of R200 by name, or that bytes are missing. The encoder
is written from the same layouts. -/

namespace Sys2Proof

/-- A little-endian list of bytes as a number (R4, R186). -/
def leVal : List Byte → Nat
  | [] => 0
  | b :: r => b.toNat + 256 * leVal r

/-- The n low bytes of a number, low first (R4, R186). -/
def leList : Nat → Nat → List Byte
  | 0, _ => []
  | n + 1, x => BitVec.ofNat 8 x :: leList n (x / 256)

/-- Bits [19:0] of a 64-bit instruction of a major (R190). -/
def Hd.toNat (h : Hd) (maj : Nat) : Nat :=
  3 + 4 * h.b.toNat + 8 * maj + 2 ^ 12 * h.la.toNat + 2 ^ 16 * h.pg.toNat + 2 ^ 19 * h.pn.toNat
/-- Bits [19:2] read as a header (R190). -/
def Hd.ofNat (x : Nat) : Hd :=
  ⟨bitAt x 19, BitVec.ofNat 3 (x / 2 ^ 16), BitVec.ofNat 4 (x / 2 ^ 12), bitAt x 2⟩

/-- The ALU modifier (R193). -/
def AluM.toNat (m : AluM) : Nat :=
  m.rnd.toNat + 4 * m.sat.toNat + 8 * m.sr.toNat + 16 * m.fmt.toNat + 2 ^ 8 * m.xl.toNat +
  2 ^ 11 * m.xlp.toNat + 2 ^ 15 * m.w2.toNat
/-- The ALU modifier (R193). -/
def AluM.ofNat (x : Nat) : AluM :=
  ⟨bitAt x 15, BitVec.ofNat 4 (x / 2 ^ 11), BitVec.ofNat 3 (x / 2 ^ 8), BitVec.ofNat 4 (x / 16),
   bitAt x 3, bitAt x 2, BitVec.ofNat 2 x⟩

/-- The memory modifier (R194). -/
def MemM.toNat (m : MemM) : Nat :=
  m.size.toNat + 16 * m.fmt.toNat + 2 ^ 8 * m.scope.toNat + 2 ^ 11 * m.ord.toNat + 2 ^ 13 * m.hint.toNat +
  2 ^ 15 * m.oobt.toNat
/-- The memory modifier (R194). -/
def MemM.ofNat (x : Nat) : MemM :=
  ⟨bitAt x 15, BitVec.ofNat 2 (x / 2 ^ 13), BitVec.ofNat 2 (x / 2 ^ 11), BitVec.ofNat 3 (x / 2 ^ 8),
   BitVec.ofNat 4 (x / 16), BitVec.ofNat 4 x⟩

/-- Common layout, ALU modifier (R190). -/
def AluI.toNat (w : AluI) (maj : Nat) : Nat :=
  w.h.toNat maj + 2 ^ 20 * w.d.toNat + 2 ^ 27 * w.s1.toNat + 2 ^ 34 * w.s2.toNat + 2 ^ 41 * w.s3.toNat +
  2 ^ 48 * w.m.toNat
/-- Common layout, ALU modifier (R190). -/
def AluI.ofNat (x : Nat) : AluI :=
  ⟨Hd.ofNat x, AluM.ofNat (x / 2 ^ 48), BitVec.ofNat 7 (x / 2 ^ 41), BitVec.ofNat 7 (x / 2 ^ 34),
   BitVec.ofNat 7 (x / 2 ^ 27), BitVec.ofNat 7 (x / 2 ^ 20)⟩

/-- Common layout, own modifier (R190). -/
def OwnI.toNat (w : OwnI) (maj : Nat) : Nat :=
  w.h.toNat maj + 2 ^ 20 * w.d.toNat + 2 ^ 27 * w.s1.toNat + 2 ^ 34 * w.s2.toNat + 2 ^ 41 * w.s3.toNat +
  2 ^ 48 * w.m.toNat
/-- Common layout, own modifier (R190). -/
def OwnI.ofNat (x : Nat) : OwnI :=
  ⟨Hd.ofNat x, BitVec.ofNat 16 (x / 2 ^ 48), BitVec.ofNat 7 (x / 2 ^ 41), BitVec.ofNat 7 (x / 2 ^ 34),
   BitVec.ofNat 7 (x / 2 ^ 27), BitVec.ofNat 7 (x / 2 ^ 20)⟩

/-- Long layout (R190). -/
def LongI.toNat (w : LongI) (maj : Nat) : Nat :=
  w.h.toNat maj + 2 ^ 20 * w.d.toNat + 2 ^ 27 * w.z.toNat + 2 ^ 32 * w.imm.toNat
/-- Long layout (R190). -/
def LongI.ofNat (x : Nat) : LongI :=
  ⟨Hd.ofNat x, BitVec.ofNat 32 (x / 2 ^ 32), BitVec.ofNat 5 (x / 2 ^ 27), BitVec.ofNat 7 (x / 2 ^ 20)⟩

/-- Memory layout (R190). -/
def MemI.toNat (w : MemI) (maj : Nat) : Nat :=
  w.h.toNat maj + 2 ^ 20 * w.d.toNat + 2 ^ 27 * w.s1.toNat + 2 ^ 34 * w.bn.toNat + 2 ^ 38 * w.imm.toNat +
  2 ^ 48 * w.m.toNat
/-- Memory layout (R190). -/
def MemI.ofNat (x : Nat) : MemI :=
  ⟨Hd.ofNat x, MemM.ofNat (x / 2 ^ 48), BitVec.ofNat 10 (x / 2 ^ 38), BitVec.ofNat 4 (x / 2 ^ 34),
   BitVec.ofNat 7 (x / 2 ^ 27), BitVec.ofNat 7 (x / 2 ^ 20)⟩

/-- 16-bit MOV and MOVI: op 0, the I bit from the mnemonic (R187). -/
def Mov16.toNat (w : Mov16) (i : Nat) : Nat := 2 ^ 5 * w.d.toNat + 2 ^ 10 * w.s.toNat + 2 ^ 15 * i
/-- 16-bit MOV and MOVI (R187). -/
def Mov16.ofNat (x : Nat) : Mov16 := ⟨BitVec.ofNat 5 (x / 2 ^ 10), BitVec.ofNat 5 (x / 2 ^ 5)⟩
/-- 16-bit form (R187). -/
def Op16.toNat (w : Op16) (op : Nat) : Nat :=
  2 * op + 2 ^ 5 * w.d.toNat + 2 ^ 10 * w.s.toNat + 2 ^ 15 * w.i.toNat
/-- 16-bit form (R187). -/
def Op16.ofNat (x : Nat) : Op16 :=
  ⟨bitAt x 15, BitVec.ofNat 5 (x / 2 ^ 10), BitVec.ofNat 5 (x / 2 ^ 5)⟩

/-- Compact form A (R188). -/
def CompA.toNat (w : CompA) (maj : Nat) : Nat :=
  1 + 4 * w.b.toNat + 8 * maj + 2 ^ 9 * w.vd.toNat + 2 ^ 16 * w.va.toNat + 2 ^ 23 * w.vb.toNat +
  2 ^ 30 * w.fn2.toNat
/-- Compact form A (R188). -/
def CompA.ofNat (x : Nat) : CompA :=
  ⟨bitAt x 2, BitVec.ofNat 2 (x / 2 ^ 30), BitVec.ofNat 7 (x / 2 ^ 23), BitVec.ofNat 7 (x / 2 ^ 16),
   BitVec.ofNat 7 (x / 2 ^ 9)⟩
/-- Compact form I (R188). -/
def CompI.toNat (w : CompI) (maj : Nat) : Nat :=
  1 + 4 * w.b.toNat + 8 * maj + 2 ^ 9 * w.vd.toNat + 2 ^ 16 * w.va.toNat + 2 ^ 23 * w.imm.toNat
/-- Compact form I (R188). -/
def CompI.ofNat (x : Nat) : CompI :=
  ⟨bitAt x 2, BitVec.ofNat 9 (x / 2 ^ 23), BitVec.ofNat 7 (x / 2 ^ 16), BitVec.ofNat 7 (x / 2 ^ 9)⟩
/-- Compact form J (R188). -/
def CompJ.toNat (w : CompJ) (maj : Nat) : Nat :=
  1 + 4 * w.b.toNat + 8 * maj + 2 ^ 9 * w.pg.toNat + 2 ^ 12 * w.neg.toNat + 2 ^ 13 * w.off.toNat
/-- Compact form J (R188). -/
def CompJ.ofNat (x : Nat) : CompJ :=
  ⟨bitAt x 2, BitVec.ofNat 19 (x / 2 ^ 13), bitAt x 12, BitVec.ofNat 3 (x / 2 ^ 9)⟩
/-- Compact form W (R188). -/
def CompW.toNat (w : CompW) (maj : Nat) : Nat :=
  1 + 4 * w.b.toNat + 8 * maj + 2 ^ 9 * w.wd.toNat + 2 ^ 15 * w.wa.toNat + 2 ^ 21 * w.wb.toNat +
  2 ^ 27 * w.z.toNat
/-- Compact form W (R188). -/
def CompW.ofNat (x : Nat) : CompW :=
  ⟨bitAt x 2, BitVec.ofNat 5 (x / 2 ^ 27), BitVec.ofNat 6 (x / 2 ^ 21), BitVec.ofNat 6 (x / 2 ^ 15),
   BitVec.ofNat 6 (x / 2 ^ 9)⟩
/-- The compact NOP (R189). -/
def CompN.toNat (w : CompN) (maj : Nat) : Nat := 1 + 4 * w.b.toNat + 8 * maj + 2 ^ 9 * w.z.toNat
/-- The compact NOP (R189). -/
def CompN.ofNat (x : Nat) : CompN := ⟨bitAt x 2, BitVec.ofNat 23 (x / 2 ^ 9)⟩

/-- The row of a table at a number. -/
def rowAt {α : Type} : List (Nat × α) → Nat → Option α
  | [], _ => none
  | (k, c) :: r, i => if i = k then some c else rowAt r i

/-- 64-bit majors of the ALU modifier layout (R195). -/
def aluRows0 : List (Nat × (AluI → Instr)) :=
  [(0x40, .iadd), (0x41, .isub), (0x42, .iaddc), (0x43, .isubb), (0x44, .imul), (0x45, .imulh),
   (0x46, .imulhu), (0x47, .imad), (0x48, .iadd64), (0x49, .imad64), (0x4a, .idiv), (0x4b, .idivu),
   (0x4c, .irem), (0x4d, .iremu), (0x4e, .imin), (0x4f, .imax), (0x50, .iminu), (0x51, .imaxu),
   (0x52, .iabs), (0x53, .ineg), (0x54, .iand), (0x55, .ior), (0x56, .ixor), (0x57, .inot)]
/-- 64-bit majors of the ALU modifier layout (R195). -/
def aluRows1 : List (Nat × (AluI → Instr)) :=
  [(0x58, .iandn), (0x59, .shl), (0x5a, .shr), (0x5b, .sar), (0x5c, .rol), (0x5d, .ror),
   (0x5e, .shl64), (0x5f, .shr64), (0x60, .popc), (0x61, .clz), (0x62, .ctz), (0x63, .brev),
   (0x64, .bfe), (0x65, .bfi), (0x66, .perm), (0x67, .isel), (0x68, .icmp), (0x69, .mov),
   (0x6b, .wmov), (0x6c, .lea), (0x6d, .iadds), (0x80, .shfl), (0x81, .shflup), (0x82, .shfldn)]
/-- 64-bit majors of the ALU modifier layout (R195). -/
def aluRows2 : List (Nat × (AluI → Instr)) :=
  [(0x83, .shflx), (0x84, .vote), (0x85, .wredi), (0x86, .wredf), (0x87, .wscan), (0x88, .wargx),
   (0x89, .plop), (0x8a, .pmov), (0x8b, .cvtf), (0x8c, .cvtfi), (0x8d, .cvtif), (0x8e, .pack),
   (0x8f, .unpack), (0x90, .srseed), (0x91, .srdraw), (0xc0, .fadd), (0xc1, .fsub), (0xc2, .fmul),
   (0xc3, .ffma), (0xc4, .fmin), (0xc5, .fmax), (0xc6, .fcmp), (0xc7, .fsel), (0xc8, .frcp)]
/-- 64-bit majors of the ALU modifier layout (R195). -/
def aluRows3 : List (Nat × (AluI → Instr)) :=
  [(0xc9, .frsq), (0xca, .fsqrt), (0xcb, .fdiv), (0xcc, .fexp2), (0xcd, .flog2), (0xce, .fsinr),
   (0xcf, .fcosr), (0xd0, .ftanh), (0xd1, .fclass), (0xd2, .fscale), (0xd3, .frint), (0xd4, .hadd2),
   (0xd5, .hmul2), (0xd6, .hfma2), (0xd7, .addx), (0xd8, .subx), (0xd9, .mulx), (0xda, .fmae),
   (0xdb, .fastx), (0x100, .xadd), (0x101, .xsub), (0x102, .xmul), (0x103, .xfma), (0x104, .xren)]
/-- 64-bit majors of the ALU modifier layout (R195). -/
def aluRows4 : List (Nat × (AluI → Instr)) :=
  [(0x105, .xcpr), (0x106, .xcmp), (0x107, .xsplit), (0x108, .xtof), (0x109, .xacc)]
/-- 64-bit majors of the ALU modifier layout (R195). -/
def aluRows : List (Nat × (AluI → Instr)) := aluRows0 ++ aluRows1 ++ aluRows2 ++ aluRows3 ++ aluRows4
/-- 64-bit majors of the memory layout (R195). -/
def memRows : List (Nat × (MemI → Instr)) :=
  [(0x140, .ldb), (0x141, .stb), (0x142, .ldl), (0x143, .stl), (0x144, .ldw), (0x145, .atb),
   (0x146, .atbf), (0x147, .atbc), (0x148, .casb), (0x149, .atl), (0x14a, .casl), (0x14b, .ldsq),
   (0x14c, .pref), (0x14d, .cwb), (0x14e, .cinv)]
/-- 64-bit majors of the common layout with a modifier of their own (R195). -/
def ownRows0 : List (Nat × (OwnI → Instr)) :=
  [(0x0, .nop), (0x3, .brx), (0x5, .callx), (0x6, .ret), (0x7, .loopw), (0x8, .fspawn),
   (0x9, .fquit), (0xa, .rejoin), (0xb, .yield), (0xc, .attach), (0xd, .detach), (0xe, .bararv),
   (0xf, .barwt), (0x10, .barsyn), (0x11, .gridbar), (0x12, .cvset), (0x13, .hwait), (0x14, .htest),
   (0x15, .hcancel), (0x16, .hmov), (0x17, .fence), (0x18, .qsync), (0x19, .sleepw), (0x14f, .rhnew)]
/-- 64-bit majors of the common layout with a modifier of their own (R195). -/
def ownRows1 : List (Nat × (OwnI → Instr)) :=
  [(0x150, .rhset), (0x151, .rhdemote), (0x152, .rhevict), (0x153, .rhfree), (0x180, .cpa), (0x181, .cps),
   (0x182, .cpl), (0x183, .tagwall), (0x184, .tagwany), (0x185, .tagffr), (0x186, .tagclr), (0x187, .tbinit),
   (0x188, .tbexp), (0x189, .tbarv), (0x18a, .tbwait), (0x18b, .msend), (0x18c, .mpost), (0x18d, .mprobe),
   (0x18e, .mcancel), (0x18f, .nmcmd), (0x190, .nmfence), (0x191, .coll), (0x1c0, .mma), (0x1c1, .mmar)]
/-- 64-bit majors of the common layout with a modifier of their own (R195). -/
def ownRows2 : List (Nat × (OwnI → Instr)) :=
  [(0x1c2, .mmd), (0x1c3, .mmlr), (0x1c4, .tzero), (0x1c5, .tload), (0x1c6, .tstore), (0x1c7, .tread),
   (0x1c8, .tnew), (0x1c9, .tfree), (0x1ca, .tstat), (0x1cb, .sscfg), (0x1cc, .scan), (0x1e0, .srr),
   (0x1e1, .srw), (0x1e2, .trap), (0x1e3, .eret), (0x1e4, .emopr), (0x1e5, .emopw), (0x1e6, .emret),
   (0x1e7, .icinv), (0x1e8, .fetchb), (0x1e9, .fmtw), (0x1ea, .fmtr), (0x1eb, .setprio), (0x1ec, .brk)]
/-- 64-bit majors of the common layout with a modifier of their own (R195). -/
def ownRows3 : List (Nat × (OwnI → Instr)) :=
  [(0x1ed, .halt)]
/-- 64-bit majors of the common layout with a modifier of their own (R195). -/
def ownRows : List (Nat × (OwnI → Instr)) := ownRows0 ++ ownRows1 ++ ownRows2 ++ ownRows3
/-- 64-bit majors of the long layout (R195). -/
def longRows : List (Nat × (LongI → Instr)) :=
  [(0x1, .bra), (0x2, .brp), (0x4, .call), (0x6a, .movi)]
/-- 16-bit operations 1 to 15 (R187). -/
def opRows : List (Nat × (Op16 → Instr)) :=
  [(0x1, .iadd16), (0x2, .isub16), (0x3, .imul16), (0x4, .iand16), (0x5, .ior16), (0x6, .ixor16),
   (0x7, .shl16), (0x8, .shr16), (0x9, .sar16), (0xa, .imin16), (0xb, .imax16), (0xc, .fadd16),
   (0xd, .fsub16), (0xe, .fmul16), (0xf, .fmax16)]
/-- Compact majors of form A (R189). -/
noncomputable def compARows0 : List (Nat × (CompA → Instr)) :=
  [(0x3, .movC), (0x4, .iaddC), (0x5, .isubC), (0x6, .imulC), (0x7, .iandC), (0x8, .iorC),
   (0x9, .ixorC), (0xa, .shlC), (0xb, .shrC), (0xc, .sarC), (0xd, .iminC), (0xe, .imaxC),
   (0x15, .faddC), (0x16, .fsubC), (0x17, .fmulC), (0x18, .fminC), (0x19, .fmaxC), (0x1a, .ffmaC),
   (0x1b, .addxC), (0x1c, .mulxC), (0x1d, .hadd2C), (0x1e, .hmul2C), (0x1f, .hfma2C), (0x20, .shflC)]
/-- Compact majors of form A (R189). -/
noncomputable def compARows1 : List (Nat × (CompA → Instr)) :=
  [(0x21, .shflxC), (0x24, .wmovC)]
/-- Compact majors of form A (R189). -/
noncomputable def compARows : List (Nat × (CompA → Instr)) := compARows0 ++ compARows1
/-- Compact majors of form I (R189). -/
noncomputable def compIRows : List (Nat × (CompI → Instr)) :=
  [(0xf, .iaddCi), (0x10, .shlCi), (0x11, .shrCi), (0x12, .sarCi), (0x13, .iandCi), (0x14, .moviC),
   (0x22, .ldlC), (0x23, .stlC)]
/-- Compact majors of form J (R189). -/
def compJRows : List (Nat × (CompJ → Instr)) :=
  [(0x1, .braC), (0x2, .brpC)]
/-- Compact majors of form W (R189). -/
noncomputable def compWRows : List (Nat × (CompW → Instr)) :=
  [(0x25, .iaddCw), (0x26, .isubCw), (0x27, .imulCw), (0x28, .iandCw), (0x29, .iorCw), (0x2a, .shlCw),
   (0x2b, .shrCw)]
/-- The instruction of a 64-bit pattern, if its major is assigned (R190, R195). -/
def of64 (x : Nat) : Option Instr :=
  let m := x / 8 % 512
  match rowAt aluRows m with
  | some c => some (c (AluI.ofNat x))
  | none =>
    match rowAt memRows m with
    | some c => some (c (MemI.ofNat x))
    | none =>
      match rowAt ownRows m with
      | some c => some (c (OwnI.ofNat x))
      | none =>
        match rowAt longRows m with
        | some c => some (c (LongI.ofNat x))
        | none => none

/-- The instruction of a compact pattern, if its major is assigned (R188, R189). -/
noncomputable def of32 (x : Nat) : Option Instr :=
  let m := x / 8 % 64
  if m = 0 then some (.nopC (CompN.ofNat x))
  else match rowAt compARows m with
  | some c => some (c (CompA.ofNat x))
  | none =>
    match rowAt compIRows m with
    | some c => some (c (CompI.ofNat x))
    | none =>
      match rowAt compJRows m with
      | some c => some (c (CompJ.ofNat x))
      | none =>
        match rowAt compWRows m with
        | some c => some (c (CompW.ofNat x))
        | none => none

/-- The instruction of a 16-bit pattern: every one is assigned (R187). -/
def of16 (x : Nat) : Option Instr :=
  let m := x / 2 % 16
  if m = 0 then (if bitAt x 15 then some (.movi16 (Mov16.ofNat x)) else some (.mov16 (Mov16.ofNat x)))
  else match rowAt opRows m with
  | some c => some (c (Op16.ofNat x))
  | none => none

/-- The 64-bit major an instruction is or stands for (R187, R189, R195); 512 for a device or host event. -/
def Instr.major (i : Instr) : Nat :=
  match i with
  | .nop _ => 0x000
  | .bra _ => 0x001
  | .brp _ => 0x002
  | .brx _ => 0x003
  | .call _ => 0x004
  | .callx _ => 0x005
  | .ret _ => 0x006
  | .loopw _ => 0x007
  | .fspawn _ => 0x008
  | .fquit _ => 0x009
  | .rejoin _ => 0x00a
  | .yield _ => 0x00b
  | .attach _ => 0x00c
  | .detach _ => 0x00d
  | .bararv _ => 0x00e
  | .barwt _ => 0x00f
  | .barsyn _ => 0x010
  | .gridbar _ => 0x011
  | .cvset _ => 0x012
  | .hwait _ => 0x013
  | .htest _ => 0x014
  | .hcancel _ => 0x015
  | .hmov _ => 0x016
  | .fence _ => 0x017
  | .qsync _ => 0x018
  | .sleepw _ => 0x019
  | .sleepwExpiry _ => 512
  | .iadd _ => 0x040
  | .isub _ => 0x041
  | .iaddc _ => 0x042
  | .isubb _ => 0x043
  | .imul _ => 0x044
  | .imulh _ => 0x045
  | .imulhu _ => 0x046
  | .imad _ => 0x047
  | .iadd64 _ => 0x048
  | .imad64 _ => 0x049
  | .idiv _ => 0x04a
  | .idivu _ => 0x04b
  | .irem _ => 0x04c
  | .iremu _ => 0x04d
  | .imin _ => 0x04e
  | .imax _ => 0x04f
  | .iminu _ => 0x050
  | .imaxu _ => 0x051
  | .iabs _ => 0x052
  | .ineg _ => 0x053
  | .iand _ => 0x054
  | .ior _ => 0x055
  | .ixor _ => 0x056
  | .inot _ => 0x057
  | .iandn _ => 0x058
  | .shl _ => 0x059
  | .shr _ => 0x05a
  | .sar _ => 0x05b
  | .rol _ => 0x05c
  | .ror _ => 0x05d
  | .shl64 _ => 0x05e
  | .shr64 _ => 0x05f
  | .popc _ => 0x060
  | .clz _ => 0x061
  | .ctz _ => 0x062
  | .brev _ => 0x063
  | .bfe _ => 0x064
  | .bfi _ => 0x065
  | .perm _ => 0x066
  | .isel _ => 0x067
  | .icmp _ => 0x068
  | .mov _ => 0x069
  | .movi _ => 0x06a
  | .wmov _ => 0x06b
  | .lea _ => 0x06c
  | .iadds _ => 0x06d
  | .shfl _ => 0x080
  | .shflup _ => 0x081
  | .shfldn _ => 0x082
  | .shflx _ => 0x083
  | .vote _ => 0x084
  | .wredi _ => 0x085
  | .wredf _ => 0x086
  | .wscan _ => 0x087
  | .wargx _ => 0x088
  | .plop _ => 0x089
  | .pmov _ => 0x08a
  | .cvtf _ => 0x08b
  | .cvtfi _ => 0x08c
  | .cvtif _ => 0x08d
  | .pack _ => 0x08e
  | .unpack _ => 0x08f
  | .srseed _ => 0x090
  | .srdraw _ => 0x091
  | .fadd _ => 0x0c0
  | .fsub _ => 0x0c1
  | .fmul _ => 0x0c2
  | .ffma _ => 0x0c3
  | .fmin _ => 0x0c4
  | .fmax _ => 0x0c5
  | .fcmp _ => 0x0c6
  | .fsel _ => 0x0c7
  | .frcp _ => 0x0c8
  | .frsq _ => 0x0c9
  | .fsqrt _ => 0x0ca
  | .fdiv _ => 0x0cb
  | .fexp2 _ => 0x0cc
  | .flog2 _ => 0x0cd
  | .fsinr _ => 0x0ce
  | .fcosr _ => 0x0cf
  | .ftanh _ => 0x0d0
  | .fclass _ => 0x0d1
  | .fscale _ => 0x0d2
  | .frint _ => 0x0d3
  | .hadd2 _ => 0x0d4
  | .hmul2 _ => 0x0d5
  | .hfma2 _ => 0x0d6
  | .addx _ => 0x0d7
  | .subx _ => 0x0d8
  | .mulx _ => 0x0d9
  | .fmae _ => 0x0da
  | .fastx _ => 0x0db
  | .xadd _ => 0x100
  | .xsub _ => 0x101
  | .xmul _ => 0x102
  | .xfma _ => 0x103
  | .xren _ => 0x104
  | .xcpr _ => 0x105
  | .xcmp _ => 0x106
  | .xsplit _ => 0x107
  | .xtof _ => 0x108
  | .xacc _ => 0x109
  | .ldb _ => 0x140
  | .stb _ => 0x141
  | .ldl _ => 0x142
  | .stl _ => 0x143
  | .ldw _ => 0x144
  | .atb _ => 0x145
  | .atbf _ => 0x146
  | .atbc _ => 0x147
  | .casb _ => 0x148
  | .atl _ => 0x149
  | .casl _ => 0x14a
  | .ldsq _ => 0x14b
  | .pref _ => 0x14c
  | .cwb _ => 0x14d
  | .cinv _ => 0x14e
  | .rhnew _ => 0x14f
  | .rhset _ => 0x150
  | .rhdemote _ => 0x151
  | .rhevict _ => 0x152
  | .rhfree _ => 0x153
  | .residencySweep _ _ => 512
  | .cpa _ => 0x180
  | .cps _ => 0x181
  | .cpl _ => 0x182
  | .tagwall _ => 0x183
  | .tagwany _ => 0x184
  | .tagffr _ => 0x185
  | .tagclr _ => 0x186
  | .tbinit _ => 0x187
  | .tbexp _ => 0x188
  | .tbarv _ => 0x189
  | .tbwait _ => 0x18a
  | .msend _ => 0x18b
  | .mpost _ => 0x18c
  | .mprobe _ => 0x18d
  | .mcancel _ => 0x18e
  | .nmcmd _ => 0x18f
  | .nmfence _ => 0x190
  | .coll _ => 0x191
  | .mma _ => 0x1c0
  | .mmar _ => 0x1c1
  | .mmd _ => 0x1c2
  | .mmlr _ => 0x1c3
  | .tzero _ => 0x1c4
  | .tload _ => 0x1c5
  | .tstore _ => 0x1c6
  | .tread _ => 0x1c7
  | .tnew _ => 0x1c8
  | .tfree _ => 0x1c9
  | .tstat _ => 0x1ca
  | .sscfg _ => 0x1cb
  | .scan _ => 0x1cc
  | .srr _ => 0x1e0
  | .srw _ => 0x1e1
  | .trap _ => 0x1e2
  | .eret _ => 0x1e3
  | .emopr _ => 0x1e4
  | .emopw _ => 0x1e5
  | .emret _ => 0x1e6
  | .icinv _ => 0x1e7
  | .fetchb _ => 0x1e8
  | .fmtw _ => 0x1e9
  | .fmtr _ => 0x1ea
  | .setprio _ => 0x1eb
  | .brk _ => 0x1ec
  | .halt _ => 0x1ed
  | .undefinedOpcode _ => 512
  | .mov16 _ => 0x069
  | .movi16 _ => 0x06a
  | .iadd16 _ => 0x040
  | .isub16 _ => 0x041
  | .imul16 _ => 0x044
  | .iand16 _ => 0x054
  | .ior16 _ => 0x055
  | .ixor16 _ => 0x056
  | .shl16 _ => 0x059
  | .shr16 _ => 0x05a
  | .sar16 _ => 0x05b
  | .imin16 _ => 0x04e
  | .imax16 _ => 0x04f
  | .fadd16 _ => 0x0c0
  | .fsub16 _ => 0x0c1
  | .fmul16 _ => 0x0c2
  | .fmax16 _ => 0x0c5
  | .nopC _ => 0x000
  | .braC _ => 0x001
  | .brpC _ => 0x002
  | .movC _ => 0x069
  | .iaddC _ => 0x040
  | .isubC _ => 0x041
  | .imulC _ => 0x044
  | .iandC _ => 0x054
  | .iorC _ => 0x055
  | .ixorC _ => 0x056
  | .shlC _ => 0x059
  | .shrC _ => 0x05a
  | .sarC _ => 0x05b
  | .iminC _ => 0x04e
  | .imaxC _ => 0x04f
  | .iaddCi _ => 0x040
  | .shlCi _ => 0x059
  | .shrCi _ => 0x05a
  | .sarCi _ => 0x05b
  | .iandCi _ => 0x054
  | .moviC _ => 0x06a
  | .faddC _ => 0x0c0
  | .fsubC _ => 0x0c1
  | .fmulC _ => 0x0c2
  | .fminC _ => 0x0c4
  | .fmaxC _ => 0x0c5
  | .ffmaC _ => 0x0c3
  | .addxC _ => 0x0d7
  | .mulxC _ => 0x0d9
  | .hadd2C _ => 0x0d4
  | .hmul2C _ => 0x0d5
  | .hfma2C _ => 0x0d6
  | .shflC _ => 0x080
  | .shflxC _ => 0x083
  | .ldlC _ => 0x142
  | .stlC _ => 0x143
  | .wmovC _ => 0x06b
  | .iaddCw _ => 0x040
  | .isubCw _ => 0x041
  | .imulCw _ => 0x044
  | .iandCw _ => 0x054
  | .iorCw _ => 0x055
  | .shlCw _ => 0x059
  | .shrCw _ => 0x05a
  | .asyncTrap => 512
  | .waveRipens _ => 512
  | .handlerDispatch _ _ => 512
  | .runArbitration _ _ => 512
  | .hangDetect _ => 512
  | .registerLineFill _ _ _ => 512
  | .fetchFill _ _ _ => 512
  | .translationProbeReturn _ => 512
  | .sideLogReplay _ => 512
  | .l1WritebackTimeout _ _ => 512
  | .homeSliceRequest _ => 512
  | .squareTurn _ => 512
  | .rdcFillArrival _ _ => 512
  | .rdcInvalidation _ _ => 512
  | .invalidationAck _ _ => 512
  | .tidalMigration _ => 512
  | .tidalReturn _ => 512
  | .lineOperationPerform _ => 512
  | .lineOperationRetire _ => 512
  | .swapOut _ => 512
  | .swapRequeue _ => 512
  | .matrixOpPerform _ => 512
  | .scanChunk _ => 512
  | .tileDisplace _ => 512
  | .engineIdle _ => 512
  | .engineStartStage _ => 512
  | .nmcmdSend _ => 512
  | .nmuCommand _ _ => 512
  | .messageArrival _ => 512
  | .quantumClose _ => 512
  | .quantumCommit _ => 512
  | .collInstanceRetire _ _ => 512
  | .messageFlit _ => 512
  | .contributionFlit _ => 512
  | .partialFlit _ => 512
  | .retireFlit _ => 512
  | .gangStartToken _ => 512
  | .gangStopToken _ => 512
  | .linkControlFlit _ => 512
  | .queueTailDoorbell _ _ _ => 512
  | .launch _ _ => 512
  | .launchDispatch => 512
  | .setxtTable _ _ => 512
  | .setxtFaultQueue _ _ => 512
  | .xinv _ _ => 512
  | .preempt _ _ => 512
  | .priorityPreemption => 512
  | .localBlockSave _ => 512
  | .teamPlacement => 512
  | .restitch _ => 512
  | .teamFree _ => 512
  | .gridCompletion _ => 512
  | .faultRetry _ _ => 512
  | .faultFail _ _ => 512
  | .migrationDoorbell _ _ _ => 512
  | .faultQueueConsumer _ _ => 512
  | .errorRingConsumer _ _ => 512
  | .adminRingBaseWrite _ => 512
  | .adminRingSizeWrite _ => 512
  | .adminTailDoorbell _ => 512
  | .errorLogBaseWrite _ => 512
  | .errorLogSizeWrite _ => 512
  | .errorLogConsumer _ => 512
  | .registerWriteOther _ => 512
  | .ctxnew => 512
  | .ctxdel => 512
  | .qnew => 512
  | .qdel => 512
  | .route => 512
  | .groupInstall => 512
  | .groupRemove => 512
  | .spare => 512
  | .spareSwap _ _ _ => 512
  | .getVersion _ => 512
  | .getCapabilities _ => 512
  | .negotiateAlgorithms _ => 512
  | .getDigests _ => 512
  | .getCertificate _ => 512
  | .challenge _ => 512
  | .getMeasurements _ => 512
  | .keyExchange _ => 512
  | .finish _ => 512
  | .keyUpdate _ => 512
  | .heartbeat _ => 512
  | .endSession _ => 512
  | .setkey _ => 512
  | .vfRequestDropped _ => 512
  | .reset _ => 512
  | .correctedErrorReport _ => 512
  | .tdispInterfaceRequest _ _ => 512
  | .hostAccessToDeviceMemory _ => 512
  | .pcieReadCompletion _ => 512
  | .handleTableCopyUpdate _ => 512
  | .pyrathaRunTranslation _ _ _ => 512
  | .idleFlit _ => 512
  | .discardedFlitType _ => 512

/-- What decoding answers. -/
inductive Decoded where
  /-- An instruction that executes, with its length in bytes. -/
  | instr (i : Instr) (len : Nat)
  /-- A fate of R200 other than execution, with the length and the raw bits the handler receives. -/
  | emulate (f : Fate) (len raw : Nat)
  /-- Fewer bytes stand there than the first halfword's length asks for (R186). -/
  | short
  deriving DecidableEq, Repr

/-- The fate of a pattern (R200): unassigned, then disabled by the manifest, then a reserved field. -/
def fateOf (disabled : BitVec 512) (o : Option Instr) (len raw : Nat) : Decoded :=
  match o with
  | none => .emulate .undefop len raw
  | some i =>
    if disabled.getLsbD i.major then .emulate .disabledop len raw
    else if i.wellFormed then .instr i len
    else .emulate .rsvfield len raw

/-- The length of an instruction by its first halfword (R186). -/
def lenOf (x : Nat) : Nat := if x % 2 = 0 then 2 else if x % 4 = 1 then 4 else 8

/-- The pattern of a length as an instruction (R186). -/
noncomputable def ofRaw (len x : Nat) : Option Instr :=
  if len = 2 then of16 x else if len = 4 then of32 x else of64 x

/-- Decodes the instruction at the head of a list of code bytes (R186, R200). -/
noncomputable def decode (disabled : BitVec 512) (l : List Byte) : Decoded :=
  if l.length < 2 then .short
  else
    let n := lenOf (leVal (l.take 2))
    if l.length < n then .short
    else
      let x := leVal (l.take n)
      fateOf disabled (ofRaw n x) n x

/-- The bits of an instruction and its length in bytes (R187 to R190); none for device and host events,
which have no encoding. -/
def encode (i : Instr) : Option (Nat × Nat) :=
  match i with
  | .nop w => some (w.toNat 0x000, 8)
  | .bra w => some (w.toNat 0x001, 8)
  | .brp w => some (w.toNat 0x002, 8)
  | .brx w => some (w.toNat 0x003, 8)
  | .call w => some (w.toNat 0x004, 8)
  | .callx w => some (w.toNat 0x005, 8)
  | .ret w => some (w.toNat 0x006, 8)
  | .loopw w => some (w.toNat 0x007, 8)
  | .fspawn w => some (w.toNat 0x008, 8)
  | .fquit w => some (w.toNat 0x009, 8)
  | .rejoin w => some (w.toNat 0x00a, 8)
  | .yield w => some (w.toNat 0x00b, 8)
  | .attach w => some (w.toNat 0x00c, 8)
  | .detach w => some (w.toNat 0x00d, 8)
  | .bararv w => some (w.toNat 0x00e, 8)
  | .barwt w => some (w.toNat 0x00f, 8)
  | .barsyn w => some (w.toNat 0x010, 8)
  | .gridbar w => some (w.toNat 0x011, 8)
  | .cvset w => some (w.toNat 0x012, 8)
  | .hwait w => some (w.toNat 0x013, 8)
  | .htest w => some (w.toNat 0x014, 8)
  | .hcancel w => some (w.toNat 0x015, 8)
  | .hmov w => some (w.toNat 0x016, 8)
  | .fence w => some (w.toNat 0x017, 8)
  | .qsync w => some (w.toNat 0x018, 8)
  | .sleepw w => some (w.toNat 0x019, 8)
  | .sleepwExpiry _ => none
  | .iadd w => some (w.toNat 0x040, 8)
  | .isub w => some (w.toNat 0x041, 8)
  | .iaddc w => some (w.toNat 0x042, 8)
  | .isubb w => some (w.toNat 0x043, 8)
  | .imul w => some (w.toNat 0x044, 8)
  | .imulh w => some (w.toNat 0x045, 8)
  | .imulhu w => some (w.toNat 0x046, 8)
  | .imad w => some (w.toNat 0x047, 8)
  | .iadd64 w => some (w.toNat 0x048, 8)
  | .imad64 w => some (w.toNat 0x049, 8)
  | .idiv w => some (w.toNat 0x04a, 8)
  | .idivu w => some (w.toNat 0x04b, 8)
  | .irem w => some (w.toNat 0x04c, 8)
  | .iremu w => some (w.toNat 0x04d, 8)
  | .imin w => some (w.toNat 0x04e, 8)
  | .imax w => some (w.toNat 0x04f, 8)
  | .iminu w => some (w.toNat 0x050, 8)
  | .imaxu w => some (w.toNat 0x051, 8)
  | .iabs w => some (w.toNat 0x052, 8)
  | .ineg w => some (w.toNat 0x053, 8)
  | .iand w => some (w.toNat 0x054, 8)
  | .ior w => some (w.toNat 0x055, 8)
  | .ixor w => some (w.toNat 0x056, 8)
  | .inot w => some (w.toNat 0x057, 8)
  | .iandn w => some (w.toNat 0x058, 8)
  | .shl w => some (w.toNat 0x059, 8)
  | .shr w => some (w.toNat 0x05a, 8)
  | .sar w => some (w.toNat 0x05b, 8)
  | .rol w => some (w.toNat 0x05c, 8)
  | .ror w => some (w.toNat 0x05d, 8)
  | .shl64 w => some (w.toNat 0x05e, 8)
  | .shr64 w => some (w.toNat 0x05f, 8)
  | .popc w => some (w.toNat 0x060, 8)
  | .clz w => some (w.toNat 0x061, 8)
  | .ctz w => some (w.toNat 0x062, 8)
  | .brev w => some (w.toNat 0x063, 8)
  | .bfe w => some (w.toNat 0x064, 8)
  | .bfi w => some (w.toNat 0x065, 8)
  | .perm w => some (w.toNat 0x066, 8)
  | .isel w => some (w.toNat 0x067, 8)
  | .icmp w => some (w.toNat 0x068, 8)
  | .mov w => some (w.toNat 0x069, 8)
  | .movi w => some (w.toNat 0x06a, 8)
  | .wmov w => some (w.toNat 0x06b, 8)
  | .lea w => some (w.toNat 0x06c, 8)
  | .iadds w => some (w.toNat 0x06d, 8)
  | .shfl w => some (w.toNat 0x080, 8)
  | .shflup w => some (w.toNat 0x081, 8)
  | .shfldn w => some (w.toNat 0x082, 8)
  | .shflx w => some (w.toNat 0x083, 8)
  | .vote w => some (w.toNat 0x084, 8)
  | .wredi w => some (w.toNat 0x085, 8)
  | .wredf w => some (w.toNat 0x086, 8)
  | .wscan w => some (w.toNat 0x087, 8)
  | .wargx w => some (w.toNat 0x088, 8)
  | .plop w => some (w.toNat 0x089, 8)
  | .pmov w => some (w.toNat 0x08a, 8)
  | .cvtf w => some (w.toNat 0x08b, 8)
  | .cvtfi w => some (w.toNat 0x08c, 8)
  | .cvtif w => some (w.toNat 0x08d, 8)
  | .pack w => some (w.toNat 0x08e, 8)
  | .unpack w => some (w.toNat 0x08f, 8)
  | .srseed w => some (w.toNat 0x090, 8)
  | .srdraw w => some (w.toNat 0x091, 8)
  | .fadd w => some (w.toNat 0x0c0, 8)
  | .fsub w => some (w.toNat 0x0c1, 8)
  | .fmul w => some (w.toNat 0x0c2, 8)
  | .ffma w => some (w.toNat 0x0c3, 8)
  | .fmin w => some (w.toNat 0x0c4, 8)
  | .fmax w => some (w.toNat 0x0c5, 8)
  | .fcmp w => some (w.toNat 0x0c6, 8)
  | .fsel w => some (w.toNat 0x0c7, 8)
  | .frcp w => some (w.toNat 0x0c8, 8)
  | .frsq w => some (w.toNat 0x0c9, 8)
  | .fsqrt w => some (w.toNat 0x0ca, 8)
  | .fdiv w => some (w.toNat 0x0cb, 8)
  | .fexp2 w => some (w.toNat 0x0cc, 8)
  | .flog2 w => some (w.toNat 0x0cd, 8)
  | .fsinr w => some (w.toNat 0x0ce, 8)
  | .fcosr w => some (w.toNat 0x0cf, 8)
  | .ftanh w => some (w.toNat 0x0d0, 8)
  | .fclass w => some (w.toNat 0x0d1, 8)
  | .fscale w => some (w.toNat 0x0d2, 8)
  | .frint w => some (w.toNat 0x0d3, 8)
  | .hadd2 w => some (w.toNat 0x0d4, 8)
  | .hmul2 w => some (w.toNat 0x0d5, 8)
  | .hfma2 w => some (w.toNat 0x0d6, 8)
  | .addx w => some (w.toNat 0x0d7, 8)
  | .subx w => some (w.toNat 0x0d8, 8)
  | .mulx w => some (w.toNat 0x0d9, 8)
  | .fmae w => some (w.toNat 0x0da, 8)
  | .fastx w => some (w.toNat 0x0db, 8)
  | .xadd w => some (w.toNat 0x100, 8)
  | .xsub w => some (w.toNat 0x101, 8)
  | .xmul w => some (w.toNat 0x102, 8)
  | .xfma w => some (w.toNat 0x103, 8)
  | .xren w => some (w.toNat 0x104, 8)
  | .xcpr w => some (w.toNat 0x105, 8)
  | .xcmp w => some (w.toNat 0x106, 8)
  | .xsplit w => some (w.toNat 0x107, 8)
  | .xtof w => some (w.toNat 0x108, 8)
  | .xacc w => some (w.toNat 0x109, 8)
  | .ldb w => some (w.toNat 0x140, 8)
  | .stb w => some (w.toNat 0x141, 8)
  | .ldl w => some (w.toNat 0x142, 8)
  | .stl w => some (w.toNat 0x143, 8)
  | .ldw w => some (w.toNat 0x144, 8)
  | .atb w => some (w.toNat 0x145, 8)
  | .atbf w => some (w.toNat 0x146, 8)
  | .atbc w => some (w.toNat 0x147, 8)
  | .casb w => some (w.toNat 0x148, 8)
  | .atl w => some (w.toNat 0x149, 8)
  | .casl w => some (w.toNat 0x14a, 8)
  | .ldsq w => some (w.toNat 0x14b, 8)
  | .pref w => some (w.toNat 0x14c, 8)
  | .cwb w => some (w.toNat 0x14d, 8)
  | .cinv w => some (w.toNat 0x14e, 8)
  | .rhnew w => some (w.toNat 0x14f, 8)
  | .rhset w => some (w.toNat 0x150, 8)
  | .rhdemote w => some (w.toNat 0x151, 8)
  | .rhevict w => some (w.toNat 0x152, 8)
  | .rhfree w => some (w.toNat 0x153, 8)
  | .residencySweep _ _ => none
  | .cpa w => some (w.toNat 0x180, 8)
  | .cps w => some (w.toNat 0x181, 8)
  | .cpl w => some (w.toNat 0x182, 8)
  | .tagwall w => some (w.toNat 0x183, 8)
  | .tagwany w => some (w.toNat 0x184, 8)
  | .tagffr w => some (w.toNat 0x185, 8)
  | .tagclr w => some (w.toNat 0x186, 8)
  | .tbinit w => some (w.toNat 0x187, 8)
  | .tbexp w => some (w.toNat 0x188, 8)
  | .tbarv w => some (w.toNat 0x189, 8)
  | .tbwait w => some (w.toNat 0x18a, 8)
  | .msend w => some (w.toNat 0x18b, 8)
  | .mpost w => some (w.toNat 0x18c, 8)
  | .mprobe w => some (w.toNat 0x18d, 8)
  | .mcancel w => some (w.toNat 0x18e, 8)
  | .nmcmd w => some (w.toNat 0x18f, 8)
  | .nmfence w => some (w.toNat 0x190, 8)
  | .coll w => some (w.toNat 0x191, 8)
  | .mma w => some (w.toNat 0x1c0, 8)
  | .mmar w => some (w.toNat 0x1c1, 8)
  | .mmd w => some (w.toNat 0x1c2, 8)
  | .mmlr w => some (w.toNat 0x1c3, 8)
  | .tzero w => some (w.toNat 0x1c4, 8)
  | .tload w => some (w.toNat 0x1c5, 8)
  | .tstore w => some (w.toNat 0x1c6, 8)
  | .tread w => some (w.toNat 0x1c7, 8)
  | .tnew w => some (w.toNat 0x1c8, 8)
  | .tfree w => some (w.toNat 0x1c9, 8)
  | .tstat w => some (w.toNat 0x1ca, 8)
  | .sscfg w => some (w.toNat 0x1cb, 8)
  | .scan w => some (w.toNat 0x1cc, 8)
  | .srr w => some (w.toNat 0x1e0, 8)
  | .srw w => some (w.toNat 0x1e1, 8)
  | .trap w => some (w.toNat 0x1e2, 8)
  | .eret w => some (w.toNat 0x1e3, 8)
  | .emopr w => some (w.toNat 0x1e4, 8)
  | .emopw w => some (w.toNat 0x1e5, 8)
  | .emret w => some (w.toNat 0x1e6, 8)
  | .icinv w => some (w.toNat 0x1e7, 8)
  | .fetchb w => some (w.toNat 0x1e8, 8)
  | .fmtw w => some (w.toNat 0x1e9, 8)
  | .fmtr w => some (w.toNat 0x1ea, 8)
  | .setprio w => some (w.toNat 0x1eb, 8)
  | .brk w => some (w.toNat 0x1ec, 8)
  | .halt w => some (w.toNat 0x1ed, 8)
  | .undefinedOpcode _ => none
  | .mov16 w => some (w.toNat 0, 2)
  | .movi16 w => some (w.toNat 1, 2)
  | .iadd16 w => some (w.toNat 1, 2)
  | .isub16 w => some (w.toNat 2, 2)
  | .imul16 w => some (w.toNat 3, 2)
  | .iand16 w => some (w.toNat 4, 2)
  | .ior16 w => some (w.toNat 5, 2)
  | .ixor16 w => some (w.toNat 6, 2)
  | .shl16 w => some (w.toNat 7, 2)
  | .shr16 w => some (w.toNat 8, 2)
  | .sar16 w => some (w.toNat 9, 2)
  | .imin16 w => some (w.toNat 10, 2)
  | .imax16 w => some (w.toNat 11, 2)
  | .fadd16 w => some (w.toNat 12, 2)
  | .fsub16 w => some (w.toNat 13, 2)
  | .fmul16 w => some (w.toNat 14, 2)
  | .fmax16 w => some (w.toNat 15, 2)
  | .nopC w => some (w.toNat 0x00, 4)
  | .braC w => some (w.toNat 0x01, 4)
  | .brpC w => some (w.toNat 0x02, 4)
  | .movC w => some (w.toNat 0x03, 4)
  | .iaddC w => some (w.toNat 0x04, 4)
  | .isubC w => some (w.toNat 0x05, 4)
  | .imulC w => some (w.toNat 0x06, 4)
  | .iandC w => some (w.toNat 0x07, 4)
  | .iorC w => some (w.toNat 0x08, 4)
  | .ixorC w => some (w.toNat 0x09, 4)
  | .shlC w => some (w.toNat 0x0a, 4)
  | .shrC w => some (w.toNat 0x0b, 4)
  | .sarC w => some (w.toNat 0x0c, 4)
  | .iminC w => some (w.toNat 0x0d, 4)
  | .imaxC w => some (w.toNat 0x0e, 4)
  | .iaddCi w => some (w.toNat 0x0f, 4)
  | .shlCi w => some (w.toNat 0x10, 4)
  | .shrCi w => some (w.toNat 0x11, 4)
  | .sarCi w => some (w.toNat 0x12, 4)
  | .iandCi w => some (w.toNat 0x13, 4)
  | .moviC w => some (w.toNat 0x14, 4)
  | .faddC w => some (w.toNat 0x15, 4)
  | .fsubC w => some (w.toNat 0x16, 4)
  | .fmulC w => some (w.toNat 0x17, 4)
  | .fminC w => some (w.toNat 0x18, 4)
  | .fmaxC w => some (w.toNat 0x19, 4)
  | .ffmaC w => some (w.toNat 0x1a, 4)
  | .addxC w => some (w.toNat 0x1b, 4)
  | .mulxC w => some (w.toNat 0x1c, 4)
  | .hadd2C w => some (w.toNat 0x1d, 4)
  | .hmul2C w => some (w.toNat 0x1e, 4)
  | .hfma2C w => some (w.toNat 0x1f, 4)
  | .shflC w => some (w.toNat 0x20, 4)
  | .shflxC w => some (w.toNat 0x21, 4)
  | .ldlC w => some (w.toNat 0x22, 4)
  | .stlC w => some (w.toNat 0x23, 4)
  | .wmovC w => some (w.toNat 0x24, 4)
  | .iaddCw w => some (w.toNat 0x25, 4)
  | .isubCw w => some (w.toNat 0x26, 4)
  | .imulCw w => some (w.toNat 0x27, 4)
  | .iandCw w => some (w.toNat 0x28, 4)
  | .iorCw w => some (w.toNat 0x29, 4)
  | .shlCw w => some (w.toNat 0x2a, 4)
  | .shrCw w => some (w.toNat 0x2b, 4)
  | .asyncTrap => none
  | .waveRipens _ => none
  | .handlerDispatch _ _ => none
  | .runArbitration _ _ => none
  | .hangDetect _ => none
  | .registerLineFill _ _ _ => none
  | .fetchFill _ _ _ => none
  | .translationProbeReturn _ => none
  | .sideLogReplay _ => none
  | .l1WritebackTimeout _ _ => none
  | .homeSliceRequest _ => none
  | .squareTurn _ => none
  | .rdcFillArrival _ _ => none
  | .rdcInvalidation _ _ => none
  | .invalidationAck _ _ => none
  | .tidalMigration _ => none
  | .tidalReturn _ => none
  | .lineOperationPerform _ => none
  | .lineOperationRetire _ => none
  | .swapOut _ => none
  | .swapRequeue _ => none
  | .matrixOpPerform _ => none
  | .scanChunk _ => none
  | .tileDisplace _ => none
  | .engineIdle _ => none
  | .engineStartStage _ => none
  | .nmcmdSend _ => none
  | .nmuCommand _ _ => none
  | .messageArrival _ => none
  | .quantumClose _ => none
  | .quantumCommit _ => none
  | .collInstanceRetire _ _ => none
  | .messageFlit _ => none
  | .contributionFlit _ => none
  | .partialFlit _ => none
  | .retireFlit _ => none
  | .gangStartToken _ => none
  | .gangStopToken _ => none
  | .linkControlFlit _ => none
  | .queueTailDoorbell _ _ _ => none
  | .launch _ _ => none
  | .launchDispatch => none
  | .setxtTable _ _ => none
  | .setxtFaultQueue _ _ => none
  | .xinv _ _ => none
  | .preempt _ _ => none
  | .priorityPreemption => none
  | .localBlockSave _ => none
  | .teamPlacement => none
  | .restitch _ => none
  | .teamFree _ => none
  | .gridCompletion _ => none
  | .faultRetry _ _ => none
  | .faultFail _ _ => none
  | .migrationDoorbell _ _ _ => none
  | .faultQueueConsumer _ _ => none
  | .errorRingConsumer _ _ => none
  | .adminRingBaseWrite _ => none
  | .adminRingSizeWrite _ => none
  | .adminTailDoorbell _ => none
  | .errorLogBaseWrite _ => none
  | .errorLogSizeWrite _ => none
  | .errorLogConsumer _ => none
  | .registerWriteOther _ => none
  | .ctxnew => none
  | .ctxdel => none
  | .qnew => none
  | .qdel => none
  | .route => none
  | .groupInstall => none
  | .groupRemove => none
  | .spare => none
  | .spareSwap _ _ _ => none
  | .getVersion _ => none
  | .getCapabilities _ => none
  | .negotiateAlgorithms _ => none
  | .getDigests _ => none
  | .getCertificate _ => none
  | .challenge _ => none
  | .getMeasurements _ => none
  | .keyExchange _ => none
  | .finish _ => none
  | .keyUpdate _ => none
  | .heartbeat _ => none
  | .endSession _ => none
  | .setkey _ => none
  | .vfRequestDropped _ => none
  | .reset _ => none
  | .correctedErrorReport _ => none
  | .tdispInterfaceRequest _ _ => none
  | .hostAccessToDeviceMemory _ => none
  | .pcieReadCompletion _ => none
  | .handleTableCopyUpdate _ => none
  | .pyrathaRunTranslation _ _ _ => none
  | .idleFlit _ => none
  | .discardedFlitType _ => none

/-- The bytes of an instruction in memory (R186). -/
def encodeBytes (i : Instr) : List Byte :=
  match encode i with
  | some (x, n) => leList n x
  | none => []

/-- The boundary flag B (R196): the 16-bit forms have none. -/
def rawBoundary (len x : Nat) : Bool := decide (len ≠ 2) && bitAt x 2

/-- The guard of a pattern of a length as the decoder reads it, for R192 and R200: predicate number and
negation. -/
def rawGuard (len x : Nat) : Nat × Bool :=
  if len = 8 then (x / 2 ^ 16 % 8, bitAt x 19)
  else if len = 4 ∧ (x / 8 % 64 = 1 ∨ x / 8 % 64 = 2) then (x / 2 ^ 9 % 8, bitAt x 12)
  else (7, false)

/-- Majors of the wave guard class: uniform instructions of R209, R272 and R293 but for VOTE.ballot and
the compact W forms. -/
def waveMajor (m : Nat) : Bool :=
  decide (m ∈ [0x00c, 0x012, 0x015, 0x016, 0x1e1, 0x1e7, 0x1e8, 0x1e9, 0x1ea, 0x1eb, 0x1ed]) ||
  decide (m ∈ [0x144, 0x14f, 0x150, 0x151, 0x152, 0x153, 0x183, 0x184, 0x185, 0x186, 0x187, 0x188, 0x189,
    0x18a, 0x18b, 0x18c, 0x18d, 0x18e, 0x191]) ||
  decide (m ∈ [0x090, 0x1ca, 0x1cb])

/-- Unguarded majors (R209, R272). -/
def unguardedMajor (m : Nat) : Bool :=
  decide (m ∈ [0x007, 0x00b, 0x00d, 0x00e, 0x00f, 0x010, 0x011, 0x017, 0x018, 0x019, 0x190])

/-- Frieze operations (R293). -/
def friezeMajor (m : Nat) : Bool :=
  decide (m ∈ [0x1c0, 0x1c1, 0x1c2, 0x1c3, 0x1c4, 0x1c5, 0x1c6, 0x1c8, 0x1c9, 0x1cc])

/-- Majors that end a run by code alone: control transfer, blocking and fetch (R196). -/
def endMajor (m : Nat) : Bool :=
  decide (m ∈ [0x001, 0x002, 0x003, 0x004, 0x005, 0x006, 0x007, 0x009, 0x00d, 0x1e2, 0x1e3, 0x1e6, 0x1ec,
    0x1ed]) ||
  decide (m ∈ [0x00a, 0x00b, 0x00f, 0x010, 0x011, 0x013, 0x017, 0x018, 0x019, 0x183, 0x184, 0x18a, 0x190]) ||
  decide (m ∈ [0x1e7, 0x1e8])

/-- A uniform pattern (R146, R200): the wave guard class, VOTE.ballot, and the compact W forms. -/
def rawUniform (len x : Nat) : Bool :=
  if len = 8 then
    let m := x / 8 % 512
    waveMajor m || (decide (m = 0x084) && decide (x / 2 ^ 41 % 128 = 2))
  else decide (len = 4) && decide (0x25 ≤ x / 8 % 64 ∧ x / 8 % 64 ≤ 0x2b)

/-- Compact majors and the 64-bit majors they stand for (R189). -/
def compMajors : List (Nat × Nat) :=
  [(0x00, 0x000), (0x01, 0x001), (0x02, 0x002), (0x03, 0x069), (0x04, 0x040), (0x05, 0x041), (0x06, 0x044),
   (0x07, 0x054), (0x08, 0x055), (0x09, 0x056), (0x0a, 0x059), (0x0b, 0x05a), (0x0c, 0x05b), (0x0d, 0x04e),
   (0x0e, 0x04f), (0x0f, 0x040), (0x10, 0x059), (0x11, 0x05a), (0x12, 0x05b), (0x13, 0x054), (0x14, 0x06a),
   (0x15, 0x0c0), (0x16, 0x0c1), (0x17, 0x0c2), (0x18, 0x0c4), (0x19, 0x0c5), (0x1a, 0x0c3), (0x1b, 0x0d7),
   (0x1c, 0x0d9), (0x1d, 0x0d4), (0x1e, 0x0d5), (0x1f, 0x0d6), (0x20, 0x080), (0x21, 0x083), (0x22, 0x142),
   (0x23, 0x143), (0x24, 0x06b), (0x25, 0x040), (0x26, 0x041), (0x27, 0x044), (0x28, 0x054), (0x29, 0x055),
   (0x2a, 0x059), (0x2b, 0x05a)]

/-- The major of a pattern of a length, if assigned. -/
def rawMajor (len x : Nat) : Option Nat :=
  if len = 2 then (of16 x).map Instr.major
  else if len = 4 then rowAt compMajors (x / 8 % 64)
  else (of64 x).map Instr.major

/-- A static run end of R196: a control transfer, blocking or fetch instruction, or B = 1. -/
def rawStaticEnd (len x : Nat) : Bool :=
  rawBoundary len x || (match rawMajor len x with | some m => endMajor m | none => false)

/-- The lookahead count of a pattern (R198). -/
def rawLook (len x : Nat) : Nat := if len = 8 then x / 2 ^ 12 % 16 else 0

/-- The instruction the decoder reads from an opcode-table word: the halfwords little-endian, the first
at the lowest address, every bit above nbits zero (R186). -/
noncomputable def decodeTableWord (nbits w : Nat) : Option Instr :=
  match decode 0 (leList 8 (w % 2 ^ nbits)) with
  | .instr i _ => some i
  | _ => none

/-- An instruction as the compiled machine carries it: Lean's compiler builds no value of a constructor that
stands after the 244th of an inductive, so the last ten compact rows have constructors here. The kernel's view
is `Code.toInstr`; nothing but evaluation needs this type. -/
inductive Code where
  | early (i : Instr)
  | ldlC (w : CompI)
  | stlC (w : CompI)
  | wmovC (w : CompA)
  | iaddCw (w : CompW)
  | isubCw (w : CompW)
  | imulCw (w : CompW)
  | iandCw (w : CompW)
  | iorCw (w : CompW)
  | shlCw (w : CompW)
  | shrCw (w : CompW)
  deriving DecidableEq, Repr

/-- The instruction a code stands for. -/
noncomputable def Code.toInstr : Code → Instr
  | .early i => i
  | .ldlC w => .ldlC w
  | .stlC w => .stlC w
  | .wmovC w => .wmovC w
  | .iaddCw w => .iaddCw w
  | .isubCw w => .isubCw w
  | .imulCw w => .imulCw w
  | .iandCw w => .iandCw w
  | .iorCw w => .iorCw w
  | .shlCw w => .shlCw w
  | .shrCw w => .shrCw w

/-- `Instr.wellFormed` of the instruction a code stands for. -/
def Code.wellFormed : Code → Bool
  | .early i => i.wellFormed
  | .ldlC _ => true
  | .stlC _ => true
  | .wmovC w => decide (w.fn2 = 0 ∧ w.vb = 0) && Fld.ok .w w.va
  | .iaddCw w => decide (w.z = 0)
  | .isubCw w => decide (w.z = 0)
  | .imulCw w => decide (w.z = 0)
  | .iandCw w => decide (w.z = 0)
  | .iorCw w => decide (w.z = 0)
  | .shlCw w => decide (w.z = 0)
  | .shrCw w => decide (w.z = 0)

/-- `Instr.major` of the instruction a code stands for. -/
def Code.major : Code → Nat
  | .early i => i.major
  | .ldlC _ => 0x142
  | .stlC _ => 0x143
  | .wmovC _ => 0x06b
  | .iaddCw _ => 0x040
  | .isubCw _ => 0x041
  | .imulCw _ => 0x044
  | .iandCw _ => 0x054
  | .iorCw _ => 0x055
  | .shlCw _ => 0x059
  | .shrCw _ => 0x05a

/-- `compARows` without WMOV. -/
def codeARows : List (Nat × (CompA → Instr)) :=
  [(0x03, .movC), (0x04, .iaddC), (0x05, .isubC), (0x06, .imulC), (0x07, .iandC), (0x08, .iorC),
   (0x09, .ixorC), (0x0a, .shlC), (0x0b, .shrC), (0x0c, .sarC), (0x0d, .iminC), (0x0e, .imaxC),
   (0x15, .faddC), (0x16, .fsubC), (0x17, .fmulC), (0x18, .fminC), (0x19, .fmaxC), (0x1a, .ffmaC),
   (0x1b, .addxC), (0x1c, .mulxC), (0x1d, .hadd2C), (0x1e, .hmul2C), (0x1f, .hfma2C), (0x20, .shflC),
   (0x21, .shflxC)]
/-- `compIRows` without LDL and STL. -/
def codeIRows : List (Nat × (CompI → Instr)) :=
  [(0x0f, .iaddCi), (0x10, .shlCi), (0x11, .shrCi), (0x12, .sarCi), (0x13, .iandCi), (0x14, .moviC)]

/-- `of32`, for evaluation. -/
def code32 (x : Nat) : Option Code :=
  let m := x / 8 % 64
  if m = 0 then some (.early (.nopC (CompN.ofNat x)))
  else if m = 0x22 then some (.ldlC (CompI.ofNat x))
  else if m = 0x23 then some (.stlC (CompI.ofNat x))
  else if m = 0x24 then some (.wmovC (CompA.ofNat x))
  else if m = 0x25 then some (.iaddCw (CompW.ofNat x))
  else if m = 0x26 then some (.isubCw (CompW.ofNat x))
  else if m = 0x27 then some (.imulCw (CompW.ofNat x))
  else if m = 0x28 then some (.iandCw (CompW.ofNat x))
  else if m = 0x29 then some (.iorCw (CompW.ofNat x))
  else if m = 0x2a then some (.shlCw (CompW.ofNat x))
  else if m = 0x2b then some (.shrCw (CompW.ofNat x))
  else match rowAt codeARows m with
  | some c => some (.early (c (CompA.ofNat x)))
  | none =>
    match rowAt codeIRows m with
    | some c => some (.early (c (CompI.ofNat x)))
    | none =>
      match rowAt compJRows m with
      | some c => some (.early (c (CompJ.ofNat x)))
      | none => none

/-- `Decoded` over codes. -/
inductive DecodedCode where
  | instr (c : Code) (len : Nat)
  | emulate (f : Fate) (len raw : Nat)
  | short
  deriving DecidableEq, Repr

/-- `decode`, for evaluation. -/
def decodeCode (disabled : BitVec 512) (l : List Byte) : DecodedCode :=
  if l.length < 2 then .short
  else
    let n := lenOf (leVal (l.take 2))
    if l.length < n then .short
    else
      let x := leVal (l.take n)
      let o := if n = 2 then (of16 x).map .early else if n = 4 then code32 x else (of64 x).map .early
      match o with
      | none => .emulate .undefop n x
      | some c =>
        if disabled.getLsbD c.major then .emulate .disabledop n x
        else if c.wellFormed then .instr c n
        else .emulate .rsvfield n x

/-- What a code's decoding says of instructions. -/
noncomputable def DecodedCode.toDecoded : DecodedCode → Decoded
  | .instr c n => .instr c.toInstr n
  | .emulate f n x => .emulate f n x
  | .short => .short

end Sys2Proof
end

