-- ==== Sys2Proof/Machine/Num.lean ====
section
/-! DEFINITION. Number formats, exact values and the one rounding function (09 R168 to R185). -/

namespace Sys2Proof.Machine

/-- Floor of the base-2 logarithm of a positive number. -/
def ilog2 (n : Nat) : Nat := Nat.log2 n

/-- An exact value: an extended real whose finite values are m · 2^e with m ≠ 0; zeros keep a sign. -/
inductive XR where
  | nan
  | inf (neg : Bool)
  | zero (neg : Bool)
  | num (m : Int) (e : Int)
  deriving DecidableEq, Repr

/-- m · 2^e, with the zero of a given sign when m = 0. -/
def XR.mk (m e : Int) (negZero : Bool) : XR := if m = 0 then .zero negZero else .num m e

/-- The sign bit of a value; NaN counts as positive. -/
def XR.neg? : XR → Bool
  | .nan => false
  | .inf s => s
  | .zero s => s
  | .num m _ => decide (m < 0)

def XR.isNan : XR → Bool
  | .nan => true
  | _ => false
def XR.isInf : XR → Bool
  | .inf _ => true
  | _ => false
def XR.isZero : XR → Bool
  | .zero _ => true
  | _ => false
def XR.isFinite : XR → Bool
  | .zero _ => true
  | .num _ _ => true
  | _ => false

/-- −x. -/
def XR.negate : XR → XR
  | .nan => .nan
  | .inf s => .inf (!s)
  | .zero s => .zero (!s)
  | .num m e => .num (-m) e

/-- The significand of a finite value over a smaller exponent. -/
def shiftTo (m e e0 : Int) : Int := m * (2 : Int) ^ (e - e0).toNat

/-- Exact sum of finite significands: (m, e). -/
def addDy (a b : Int × Int) : Int × Int :=
  if a.1 = 0 then b else if b.1 = 0 then a
  else
    let e := min a.2 b.2
    (shiftTo a.1 a.2 e + shiftTo b.1 b.2 e, e)

/-- The finite part of a value. -/
def XR.dy : XR → Int × Int
  | .num m e => (m, e)
  | _ => (0, 0)

/-- The exact sum of a list of terms (R169, R180). `down` says that the rounding mode is RDN, which signs
the exact zero of a sum with a non-zero term. -/
def xsum (down : Bool) (l : List XR) : XR :=
  if l.any XR.isNan || (l.any (· = .inf true) && l.any (· = .inf false)) then .nan
  else if l.any XR.isInf then .inf (l.any (· = .inf true))
  else if l.all XR.isZero then .zero (l.all XR.neg? && !l.isEmpty)
  else
    let t := l.foldl (fun a x => addDy a x.dy) (0, 0)
    XR.mk t.1 t.2 down

/-- a + b. -/
def XR.add (down : Bool) (a b : XR) : XR := xsum down [a, b]
/-- a − b. -/
def XR.sub (down : Bool) (a b : XR) : XR := xsum down [a, b.negate]

/-- a × b (R169, R180). -/
def XR.mul (a b : XR) : XR :=
  match a, b with
  | .nan, _ => .nan
  | _, .nan => .nan
  | .inf s, y => if y.isZero then .nan else .inf (xor s y.neg?)
  | x, .inf s => if x.isZero then .nan else .inf (xor s x.neg?)
  | .zero s, y => .zero (xor s y.neg?)
  | x, .zero s => .zero (xor s x.neg?)
  | .num m e, .num n f => .num (m * n) (e + f)

/-- a · 2^k. -/
def XR.scale (a : XR) (k : Int) : XR :=
  match a with
  | .num m e => .num m (e + k)
  | x => x

/-- a < b for values other than NaN; zeros of both signs are equal. -/
def XR.lt (a b : XR) : Bool :=
  match a, b with
  | .nan, _ => false
  | _, .nan => false
  | .inf true, y => !decide (y = .inf true)
  | .inf false, _ => false
  | x, .inf s => !s && !decide (x = .inf false)
  | x, y =>
    let p := x.dy; let q := y.dy
    let e := min p.2 q.2
    if p.1 = 0 then decide (0 < q.1) else if q.1 = 0 then decide (p.1 < 0)
    else decide (shiftTo p.1 p.2 e < shiftTo q.1 q.2 e)

/-- a = b as numbers; NaN equals nothing. -/
def XR.eqv (a b : XR) : Bool := !a.isNan && !b.isNan && !a.lt b && !b.lt a

/-- The magnitude of a value as a value. -/
def XR.abs (a : XR) : XR := if a.neg? then a.negate else a

/-- The value of an integer. -/
def XR.ofInt (n : Int) : XR := XR.mk n 0 false

/-- A rounding mode (R178); SR carries its draw. -/
inductive Rm where
  | rne | rtz | rdn | rup
  | sr (u : Nat)
  deriving DecidableEq, Repr

/-- The Rounding field (R193). -/
def Rm.ofCode (c : Nat) : Rm := if c = 1 then .rtz else if c = 2 then .rdn else if c = 3 then .rup else .rne
/-- The mode that signs an exact zero sum negative (R180). -/
def Rm.down (m : Rm) : Bool := decide (m = .rdn)

/-- A binary format: exponent and fraction widths, bias, specials code, and the exponent of the finest
grid step (R172, R176, R178). -/
structure Fmt where
  e    : Nat
  m    : Nat
  bias : Int
  spec : Nat
  qmin : Int
  deriving DecidableEq, Repr

/-- A format-table format: the grid ends at 2^(1 − bias − M). -/
def Fmt.mk' (e m : Nat) (bias : Nat) (spec : Nat) : Fmt := ⟨e, m, bias, spec, 1 - (bias : Int) - m⟩

def fp32 : Fmt := Fmt.mk' 8 23 127 0
def bf16 : Fmt := Fmt.mk' 8 7 127 0
def fp16 : Fmt := Fmt.mk' 5 10 15 0
/-- The accumulator format (R176). -/
def accF : Fmt := ⟨8, 27, 127, 0, -149⟩

/-- Fixed descriptors of entries 0 to 7 (R172). -/
def fixedDesc : List Nat :=
  [0x007f1708, 0x007f0708, 0x000f0a05, 0x10070304, 0x000f0205, 0x20030203, 0x20010302, 0x20010102]

/-- Whether a descriptor is valid in entries 8 to 15 (R173). -/
def descOk (d : Nat) : Bool :=
  let e := d % 16; let m := bitsOf d 8 5; let sp := bitsOf d 28 2
  decide (bitsOf d 4 4 = 0) && decide (bitsOf d 13 3 = 0) && decide (bitsOf d 24 4 = 0) &&
  decide (bitsOf d 30 2 = 0) && decide (1 ≤ e ∧ e ≤ 8) && decide (m ≤ 10) && decide (1 + e + m ≤ 16) &&
  decide (sp ≤ 2) && (decide (sp ≠ 0) || decide (2 ≤ e ∧ 1 ≤ m)) && (decide (sp ≠ 1) || decide (2 ≤ e + m))

/-- The format a descriptor describes (R173). -/
def fmtOfDesc (d : Nat) : Fmt := Fmt.mk' (d % 16) (bitsOf d 8 5) (bitsOf d 16 8) (bitsOf d 28 2)

/-- Width in bits (R172). -/
def Fmt.width (f : Fmt) : Nat := 1 + f.e + f.m

/-- Magnitude code of the largest finite value (R172); ACC stops at the largest FP32 value (R176). -/
def Fmt.maxCode (f : Fmt) : Nat :=
  if f.spec = 0 then (2 ^ f.e - 1) * 2 ^ f.m - (if f.m = 27 then 16 else 1)
  else if f.spec = 1 then 2 ^ (f.e + f.m) - 2 else 2 ^ (f.e + f.m) - 1

/-- Significand and exponent of a finite magnitude code (R168). -/
def Fmt.mag (f : Fmt) (c : Nat) : Nat × Int :=
  let e := c / 2 ^ f.m; let m := c % 2 ^ f.m
  if e = 0 then (m, 1 - f.bias - f.m) else (m + 2 ^ f.m, (e : Int) - f.bias - f.m)

/-- The largest finite magnitude. -/
def Fmt.maxMag (f : Fmt) : Nat × Int := f.mag f.maxCode

/-- The largest finite value with a sign. -/
def Fmt.maxVal (f : Fmt) (neg : Bool) : XR :=
  let p := f.maxMag
  .num (if neg then -(p.1 : Int) else p.1) p.2

/-- Default NaN pattern (R168, R172, R173); a code-2 format has none and gives +0. -/
def Fmt.defaultNan (f : Fmt) : Nat :=
  if f.spec = 0 then (2 ^ f.e - 1) * 2 ^ f.m + 2 ^ (f.m - 1)
  else if f.spec = 1 then 2 ^ (f.e + f.m) - 1 else 0

/-- Value(b, fmt) (R168, R172, R185). -/
def value (f : Fmt) (b : Nat) : XR :=
  let s := bitOf b (f.e + f.m)
  let c := b % 2 ^ (f.e + f.m)
  let top := decide (c / 2 ^ f.m = 2 ^ f.e - 1)
  if f.spec = 0 && top then (if c % 2 ^ f.m = 0 then .inf s else .nan)
  else if f.spec = 1 && decide (c = 2 ^ (f.e + f.m) - 1) then .nan
  else
    let p := f.mag c
    if p.1 = 0 then .zero s else .num (if s then -(p.1 : Int) else p.1) p.2

/-- Magnitude code of m · 2^e, a value of the format (R185). -/
def Fmt.codeOf (f : Fmt) (m : Nat) (e : Int) : Nat :=
  let l : Int := (ilog2 m : Int) + e
  if l < 1 - f.bias then
    let q := 1 - f.bias - f.m
    if q ≤ e then m * 2 ^ (e - q).toNat else m / 2 ^ (q - e).toNat
  else
    let q := l - f.m
    let k := if q ≤ e then m * 2 ^ (e - q).toNat else m / 2 ^ (q - e).toNat
    (l + f.bias).toNat * 2 ^ f.m + (k - 2 ^ f.m)

/-- Encode(v, fmt) (R185). -/
def encodeX (f : Fmt) (v : XR) : Nat :=
  let sg (s : Bool) := if s then 2 ^ (f.e + f.m) else 0
  match v with
  | .nan => f.defaultNan
  | .inf s => sg s + (2 ^ f.e - 1) * 2 ^ f.m
  | .zero s => sg s
  | .num m e => sg (decide (m < 0)) + f.codeOf m.natAbs e

/-- A rounded value with the conditions it raises (R178, R179). -/
structure Rd where
  v   : XR
  ovf : Bool
  nan : Bool
  deriving DecidableEq, Repr

/-- Beyond(x, fmt, mode) and its RoundToSat form (R179). -/
def beyond (f : Fmt) (mode : Rm) (sat neg fin : Bool) : Rd :=
  if !fin && decide (f.spec = 0) then ⟨.inf neg, false, false⟩
  else if decide (f.spec = 2) || sat then ⟨f.maxVal neg, fin, false⟩
  else
    let big := !fin ||
      (match mode with
       | .rne => true
       | .sr _ => true
       | .rtz => false
       | .rdn => neg
       | .rup => !neg)
    if big then
      (if f.spec = 0 then ⟨.inf neg, fin, false⟩ else ⟨.nan, fin, true⟩)
    else ⟨f.maxVal neg, fin, false⟩

/-- The integer a magnitude k + r/d rounds to, k and k + 1 being its neighbours (R178). -/
def pick (mode : Rm) (neg : Bool) (k r d : Nat) : Nat :=
  if r = 0 then k
  else
    let up :=
      match mode with
      | .rne => decide (d < 2 * r) || (decide (2 * r = d) && decide (k % 2 = 1))
      | .rtz => false
      | .rdn => neg
      | .rup => !neg
      | .sr u =>
        if neg then !decide (u < (d - r) * 2 ^ 32 / d) else decide (u < r * 2 ^ 32 / d)
    if up then k + 1 else k

/-- RoundTo or RoundToSat of the exact non-zero value ±(n / d) · 2^e (R178, R179). -/
def roundRat (f : Fmt) (mode : Rm) (sat neg : Bool) (n d : Nat) (e : Int) : Rd :=
  let l0 : Int := (ilog2 n : Int) - (ilog2 d : Int)
  let ge := if 0 ≤ l0 then decide (d * 2 ^ l0.toNat ≤ n) else decide (d ≤ n * 2 ^ (-l0).toNat)
  let l : Int := (if ge then l0 else l0 - 1) + e
  let top := f.maxMag
  let ltop : Int := (ilog2 top.1 : Int) + top.2
  if ltop + 2 < l then beyond f mode sat neg true
  else
    let q := max (l - f.m) f.qmin
    let tiny := decide (l + 64 < q)
    let nn := if tiny then 1 else if q ≤ e then n * 2 ^ (e - q).toNat else n
    let dd := if tiny then 2 ^ 40 else if q ≤ e then d else d * 2 ^ (q - e).toNat
    let k := pick mode neg (nn / dd) (nn % dd) dd
    if k = 0 then ⟨.zero neg, false, false⟩
    else
      let done_ :=
        if top.2 ≤ q then decide (top.1 < k * 2 ^ (q - top.2).toNat)
        else decide (top.1 * 2 ^ (top.2 - q).toNat < k)
      if done_ then beyond f mode sat neg true
      else ⟨.num (if neg then -(k : Int) else k) q, false, false⟩

/-- RoundTo(x, fmt, mode), or RoundToSat when `sat` (R178, R179). -/
def roundTo (f : Fmt) (mode : Rm) (sat : Bool) (x : XR) : Rd :=
  match x with
  | .nan => if f.spec = 2 then ⟨.zero false, false, true⟩ else ⟨.nan, false, true⟩
  | .inf s =>
    let r := beyond f mode sat s false
    r
  | .zero s => ⟨.zero s, false, false⟩
  | .num m e => roundRat f mode sat (decide (m < 0)) m.natAbs 1 e

/-- RNE(x, fmt) (R185). -/
def rne (f : Fmt) (x : XR) : XR := (roundTo f .rne false x).v

/-- A rounded value's pattern with its conditions. -/
structure Pat where
  bits : Nat
  ovf  : Bool
  nan  : Bool
  deriving DecidableEq, Repr

/-- Encode(Rnd(x)) with the conditions raised. -/
def roundBits (f : Fmt) (mode : Rm) (sat : Bool) (x : XR) : Pat :=
  let r := roundTo f mode sat x
  ⟨encodeX f r.v, r.ovf, r.nan⟩

/-- A finite value rounded to an integer, the grid being all integers without bound (R251, R258). -/
def roundInt (mode : Rm) (m e : Int) : Int :=
  let neg := decide (m < 0)
  let a := m.natAbs
  let k :=
    if 0 ≤ e then a * 2 ^ e.toNat
    else
      let s := (-e).toNat
      let l : Int := (ilog2 a : Int) + e
      if l < -64 then pick mode neg 0 1 (2 ^ 40)
      else pick mode neg (a / 2 ^ s) (a % 2 ^ s) (2 ^ s)
  if neg then -(k : Int) else k

/-- TreeSum (R185): adjacent pairs level by level, `n` levels over 2^n terms. -/
def treeLevel (f : Fmt) (mode : Rm) : List XR → List Rd
  | a :: b :: r => roundTo f mode false (xsum mode.down [a, b]) :: treeLevel f mode r
  | _ => []

/-- TreeSum over a list already padded to 2^n terms, with the conditions gathered. -/
def treeSum (f : Fmt) (mode : Rm) : Nat → List XR → Rd
  | 0, l => ⟨l.headD (.zero true), false, false⟩
  | n + 1, l =>
    let lv := treeLevel f mode l
    let r := treeSum f mode n (lv.map Rd.v)
    ⟨r.v, r.ovf || lv.any Rd.ovf, r.nan || lv.any Rd.nan⟩

/-- Pads a list to n entries with −0 (R185). -/
def padNegZero (n : Nat) (l : List XR) : List XR := l ++ List.replicate (n - l.length) (.zero true)

/-- TwoSum(a, b, fmt) (R185). -/
def twoSum (f : Fmt) (a b : XR) : XR × XR :=
  let s := rne f (xsum false [a, b])
  let e := if s.isFinite then xsum false [a, b, s.negate] else .zero false
  (s, if e.isZero then .zero false else e)

/-- The value of the words of an expansion (R184); `down` says that it is rounded under RDN, which signs the exact zero
of non-zero words (R180). -/
def expValue (down : Bool) (l : List XR) : XR :=
  if l.all XR.isZero then .zero (l.headD (.zero false)).neg? else xsum down l

/-- The greedy sequence of R267: words, and what remains of t. -/
def greedy (f : Fmt) : Nat → XR → List XR × XR
  | 0, t => ([], t)
  | n + 1, t =>
    let w := if t.isZero then .zero false else rne f t
    let r := greedy f n (xsum false [t, w.negate])
    (w :: r.1, r.2)

/-- Words with every zero written +0. -/
def plusZero (x : XR) : XR := if x.isZero then .zero false else x

/-- Greedy words of a value that has an exact n-word form, the first zero keeping the value's sign. -/
def exactWords (f : Fmt) (n : Nat) (v : XR) : List XR :=
  if v.isZero then v :: List.replicate (n - 1) (.zero false) else ((greedy f n v).1).map plusZero

/-- The value of the canonical n-word expansion nearest to r, given the head already fixed and the
remainder t: every word but the last rounds to nearest; the last is the nearer neighbour of t whose total
does not round beyond the format, a tie going to the smaller magnitude (R267). -/
def nearestCanon (f : Fmt) (r : XR) : Nat → XR → XR → XR
  | 0, head, _ => head
  | 1, head, t =>
    let a := (roundTo f .rdn false t).v
    let b := (roundTo f .rup false t).v
    let va := xsum false [head, a]
    let vb := xsum false [head, b]
    let oka := (rne f va).isFinite
    let okb := (rne f vb).isFinite
    let da := (xsum false [t, a.negate]).abs
    let db := (xsum false [b, t.negate]).abs
    if !okb then va else if !oka then vb
    else if da.lt db then va else if db.lt da then vb
    else if r.neg? then vb else va
  | n + 2, head, t =>
    let w := rne f t
    nearestCanon f r (n + 1) (xsum false [head, w]) (xsum false [t, w.negate])

/-- Canon(r, n, F) with its conditions (R267): the words, OVF, NAN. -/
def canon (f : Fmt) (n : Nat) (r : XR) : List XR × Bool × Bool :=
  let pad := List.replicate (n - 1) (XR.zero false)
  match r with
  | .nan => (.nan :: pad, false, true)
  | .inf s => (.inf s :: pad, false, false)
  | .zero s => (.zero s :: pad, false, false)
  | .num m e =>
    let h := rne f (.num m e)
    if h.isInf then (.inf (decide (m < 0)) :: pad, true, false)
    else
      let g := greedy f n (.num m e)
      if g.2.isZero then (g.1.map plusZero, false, false)
      else
        let v := nearestCanon f (.num m e) n (.zero false) (.num m e)
        let v' := if v.isZero then .zero (decide (m < 0)) else v
        (exactWords f n v', false, false)

/-- Acc2X(a) (R177). -/
def acc2x (a : XR) : XR × XR :=
  match a with
  | .nan => (.nan, .zero false)
  | .inf s => (.inf s, .zero false)
  | x =>
    let h := rne fp32 x
    (h, plusZero (xsum false [x, h.negate]))

/-- XSPLIT's words (R269): greedy rounding with a final truncation; the first zero word keeps its sign, those after it
are +0. -/
def xsplit (f : Fmt) (n : Nat) (a : XR) : List XR × Bool × Bool :=
  let pad := List.replicate (n - 1) (XR.zero false)
  match a with
  | .nan => (.nan :: pad, false, true)
  | .inf s => (.inf s :: pad, false, false)
  | .zero s => (.zero s :: pad, false, false)
  | t =>
    let r := roundTo f .rne false t
    if r.ovf then (r.v :: pad, true, r.nan)
    else
      let rec go (k : Nat) (t : XR) (live : Bool) : List XR :=
        match k with
        | 0 => []
        | 1 => [if live then (roundTo f .rtz false t).v else .zero false]
        | k + 2 =>
          let w := if live then rne f t else .zero false
          w :: go (k + 1) (xsum false [t, w.negate]) (live && !w.isZero)
      if n ≤ 1 then ([(roundTo f .rtz false t).v], false, false)
      else (r.v :: go (n - 1) (xsum false [t, r.v.negate]) (!r.v.isZero), false, false)

/-- The two-operand minimum of R259 as a choice of operand: the smaller operand, −0 below +0, a NaN losing
to a number; `none` when both are NaN. -/
def fminPick (big : Bool) (a b : XR) : Option Bool :=
  if a.isNan && b.isNan then none
  else if a.isNan then some false
  else if b.isNan then some true
  else if a.isZero && b.isZero then some (if big then !a.neg? || b.neg? else a.neg? || !b.neg?)
  else if a.lt b then some (!big) else if b.lt a then some big else some true

/-- The six orderings and the two unordered tests of R260 and R270. -/
def fcond (c : Nat) (a b : XR) : Bool :=
  let un := a.isNan || b.isNan
  let lt := a.lt b
  let eq := a.eqv b
  match c with
  | 0 => eq
  | 1 => un || !eq
  | 2 => lt
  | 3 => lt || eq
  | 4 => !un && !lt && !eq
  | 5 => !un && !lt
  | 6 => un
  | _ => !un

end Sys2Proof.Machine
end

