-- ==== Sys2Proof/Machine/State.lean ====
section
/-! DEFINITION. The machine's state as plain data: the module's trust state, its memory system, and what it
executes. Section 'State' of INVENTORY.md lists every field with the rule that names it. -/

namespace Sys2Proof.Machine

/-- Steps of the device and of the host that can be scheduled: the rows of the opcode table that have no
encoding, each with the arguments of its constructor of `Instr` (see `Ev.toInstr`). -/
inductive Ev where
  /-- SLEEPW_EXPIRY (R227). -/
  | sleepwExpiry (w : Nat)
  /-- RESIDENCY_SWEEP (R91). -/
  | residencySweep (die h : Nat)
  /-- ASYNC_TRAP (R410). -/
  | asyncTrap
  /-- WAVE_RIPENS (R336). -/
  | waveRipens (w : Nat)
  /-- HANDLER_DISPATCH (R337). -/
  | handlerDispatch (core slot : Nat)
  /-- RUN_ARBITRATION (R330). -/
  | runArbitration (core quad : Nat)
  /-- HANG_DETECT (R156). -/
  | hangDetect (w : Nat)
  /-- REGISTER_LINE_FILL (R167). -/
  | registerLineFill (core w k : Nat)
  /-- FETCH_FILL (R363). -/
  | fetchFill (core ctx line : Nat)
  /-- TRANSLATION_PROBE_RETURN (R36). -/
  | translationProbeReturn (i : Nat)
  /-- SIDE_LOG_REPLAY (R46). -/
  | sideLogReplay (w : Nat)
  /-- L1_WRITEBACK_TIMEOUT (R59). -/
  | l1WritebackTimeout (core sector : Nat)
  /-- HOME_SLICE_REQUEST (R74). -/
  | homeSliceRequest (square : Nat)
  /-- SQUARE_TURN (R71). -/
  | squareTurn (square : Nat)
  /-- RDC_FILL_ARRIVAL (R82). -/
  | rdcFillArrival (die sector : Nat)
  /-- RDC_INVALIDATION (R82). -/
  | rdcInvalidation (die sector : Nat)
  /-- INVALIDATION_ACK (R81). -/
  | invalidationAck (die sector : Nat)
  /-- TIDAL_MIGRATION (R85). -/
  | tidalMigration (square : Nat)
  /-- TIDAL_RETURN (R87). -/
  | tidalReturn (square : Nat)
  /-- LINE_OPERATION_PERFORM (R97). -/
  | lineOperationPerform (op : Nat)
  /-- LINE_OPERATION_RETIRE (R100). -/
  | lineOperationRetire (op : Nat)
  /-- SWAP_OUT (R111). -/
  | swapOut (team : Nat)
  /-- SWAP_REQUEUE (R113). -/
  | swapRequeue (team : Nat)
  /-- MATRIX_OP_PERFORM (R312). -/
  | matrixOpPerform (core : Nat)
  /-- SCAN_CHUNK (R317). -/
  | scanChunk (core : Nat)
  /-- TILE_DISPLACE (R296). -/
  | tileDisplace (core : Nat)
  /-- ENGINE_IDLE (R409). -/
  | engineIdle (core : Nat)
  /-- ENGINE_START_STAGE (R409). -/
  | engineStartStage (die : Nat)
  /-- NMCMD_SEND (R136). -/
  | nmcmdSend (core : Nat)
  /-- NMU_COMMAND (R137). -/
  | nmuCommand (die stack : Nat)
  /-- MESSAGE_ARRIVAL (R288). -/
  | messageArrival (i : Nat)
  /-- QUANTUM_CLOSE (R348). -/
  | quantumClose (w : Nat)
  /-- QUANTUM_COMMIT (R350). -/
  | quantumCommit (grid : Nat)
  /-- COLL_INSTANCE_RETIRE (R360). -/
  | collInstanceRetire (group inst : Nat)
  /-- MESSAGE_FLIT (R353). -/
  | messageFlit (f : Flit)
  /-- CONTRIBUTION_FLIT (R353). -/
  | contributionFlit (f : Flit)
  /-- PARTIAL_FLIT (R353). -/
  | partialFlit (f : Flit)
  /-- RETIRE_FLIT (R360). -/
  | retireFlit (f : Flit)
  /-- GANG_START_TOKEN (R333). -/
  | gangStartToken (f : Flit)
  /-- GANG_STOP_TOKEN (R331). -/
  | gangStopToken (f : Flit)
  /-- LINK_CONTROL_FLIT (R353). -/
  | linkControlFlit (f : Flit)
  /-- QUEUE_TAIL_DOORBELL (R319). -/
  | queueTailDoorbell (ctx q : Nat) (v : BitVec 64)
  /-- LAUNCH (R322). -/
  | launch (ctx q : Nat)
  /-- LAUNCH_DISPATCH (R321). -/
  | launchDispatch
  /-- SETXT_TABLE (R29). -/
  | setxtTable (ctx q : Nat)
  /-- SETXT_FAULT_QUEUE (R41). -/
  | setxtFaultQueue (ctx q : Nat)
  /-- XINV (R39). -/
  | xinv (ctx q : Nat)
  /-- PREEMPT (R331). -/
  | preempt (ctx q : Nat)
  /-- PRIORITY_PREEMPTION (R331). -/
  | priorityPreemption
  /-- LOCAL_BLOCK_SAVE (R343). -/
  | localBlockSave (team : Nat)
  /-- TEAM_PLACEMENT (R328). -/
  | teamPlacement
  /-- RESTITCH (R329). -/
  | restitch (grid : Nat)
  /-- TEAM_FREE (R347). -/
  | teamFree (team : Nat)
  /-- GRID_COMPLETION (R326). -/
  | gridCompletion (grid : Nat)
  /-- FAULT_RETRY (R42). -/
  | faultRetry (ctx : Nat) (seq : BitVec 32)
  /-- FAULT_FAIL (R42). -/
  | faultFail (ctx : Nat) (seq : BitVec 32)
  /-- MIGRATION_DOORBELL (R36). -/
  | migrationDoorbell (ctx z : Nat) (v : BitVec 64)
  /-- FAULT_QUEUE_CONSUMER (R41). -/
  | faultQueueConsumer (ctx : Nat) (v : BitVec 64)
  /-- ERROR_RING_CONSUMER (R406). -/
  | errorRingConsumer (ctx : Nat) (v : BitVec 64)
  /-- ADMIN_RING_BASE_WRITE (R398). -/
  | adminRingBaseWrite (v : BitVec 64)
  /-- ADMIN_RING_SIZE_WRITE (R398). -/
  | adminRingSizeWrite (v : BitVec 64)
  /-- ADMIN_TAIL_DOORBELL (R398). -/
  | adminTailDoorbell (v : BitVec 64)
  /-- ERROR_LOG_BASE_WRITE (R398). -/
  | errorLogBaseWrite (v : BitVec 64)
  /-- ERROR_LOG_SIZE_WRITE (R398). -/
  | errorLogSizeWrite (v : BitVec 64)
  /-- ERROR_LOG_CONSUMER (R398). -/
  | errorLogConsumer (v : BitVec 64)
  /-- REGISTER_WRITE_OTHER (R398). -/
  | registerWriteOther (r : RegAccess)
  /-- CTXNEW (R399). -/
  | ctxnew
  /-- CTXDEL (R397). -/
  | ctxdel
  /-- QNEW (R399). -/
  | qnew
  /-- QDEL (R399). -/
  | qdel
  /-- ROUTE (R399). -/
  | route
  /-- GROUP_INSTALL (R355). -/
  | groupInstall
  /-- GROUP_REMOVE (R399). -/
  | groupRemove
  /-- SPARE (R407). -/
  | spare
  /-- SPARE_SWAP (R407). -/
  | spareSwap (die kind unit : Nat)
  /-- GET_VERSION (R400). -/
  | getVersion (r : SpdmReq)
  /-- GET_CAPABILITIES (R400). -/
  | getCapabilities (r : SpdmReq)
  /-- NEGOTIATE_ALGORITHMS (R400). -/
  | negotiateAlgorithms (r : SpdmReq)
  /-- GET_DIGESTS (R400). -/
  | getDigests (r : SpdmReq)
  /-- GET_CERTIFICATE (R400). -/
  | getCertificate (r : SpdmReq)
  /-- CHALLENGE (R400). -/
  | challenge (r : SpdmReq)
  /-- GET_MEASUREMENTS (R400). -/
  | getMeasurements (r : SpdmReq)
  /-- KEY_EXCHANGE (R400). -/
  | keyExchange (r : SpdmReq)
  /-- FINISH (R400). -/
  | finish (r : SpdmReq)
  /-- KEY_UPDATE (R400). -/
  | keyUpdate (r : SpdmReq)
  /-- HEARTBEAT (R400). -/
  | heartbeat (r : SpdmReq)
  /-- END_SESSION (R400). -/
  | endSession (r : SpdmReq)
  /-- SETKEY (R402). -/
  | setkey (r : SpdmReq)
  /-- VF_REQUEST_DROPPED (R395). -/
  | vfRequestDropped (fn : Nat)
  /-- RESET (R404). -/
  | reset (b : BootInput)
  /-- CORRECTED_ERROR_REPORT (R405). -/
  | correctedErrorReport (e : CorrErr)
  /-- TDISP_INTERFACE_REQUEST (R395). -/
  | tdispInterfaceRequest (fn : Nat) (target : TdispState)
  /-- HOST_ACCESS_TO_DEVICE_MEMORY (R401). -/
  | hostAccessToDeviceMemory (a : HostAccess)
  /-- PCIE_READ_COMPLETION (R65). -/
  | pcieReadCompletion (i : Nat)
  /-- HANDLE_TABLE_COPY_UPDATE (R91). -/
  | handleTableCopyUpdate (i : Nat)
  /-- PYRATHA_RUN_TRANSLATION (R369). -/
  | pyrathaRunTranslation (die ctx : Nat) (pc : BitVec 48)
  /-- IDLE_FLIT (R353). -/
  | idleFlit (f : Flit)
  /-- DISCARDED_FLIT_TYPE (R353). -/
  | discardedFlitType (f : Flit)
  /-- UNDEFINED_OPCODE (R200). -/
  | undefinedOpcode (u : Undef)
  deriving DecidableEq, Repr

/-! ### Fibres, waves, teams, grids (08) -/

/-- What a Waiting fibre waits for (R149): a REJOIN with its mask, or the grid barrier. -/
inductive Wait where
  | rejoin (mask raw : Nat)
  | gridbar
  deriving DecidableEq, Repr

/-- Fibre states (R142). -/
inductive FSt where
  | ready
  | waiting (w : Wait)
  | masked
  | free
  deriving DecidableEq, Repr

/-- A trap record (R335, R202, R410): cause, operand, length, the raw bits decoded at the trap, the PC of the
instruction that issued a failed access, whether a handler wave serves it, its age, and the runs its wave had issued
by then (R336). -/
structure Trap where
  cause  : Nat
  opnd   : Nat := 0
  len    : Nat
  raw    : Nat := 0
  pc     : Nat
  ipc    : Nat := 0
  served : Bool := false
  age    : Nat := 0
  runs   : Nat := 0
  deriving DecidableEq, Repr

/-- A register write held back by a lookahead window (R198): V registers and predicates of the fibre. -/
structure LookWin where
  id   : Nat
  left : Nat
  v    : List (Nat × Word)
  w    : List (Nat × Word)
  deriving DecidableEq, Repr

/-- One fibre slot (R142, R181, R198, R335). `preds` holds P0 to P6; `org` is the origin (wave, slot) of a
handler fibre (R165). -/
structure Fib where
  st    : FSt := .free
  pc    : Nat := 0
  preds : BitVec 7 := 0
  draws : Nat := 0
  org   : Option (Nat × Nat) := none
  trap  : Option Trap := none
  async : List Trap := []
  wins  : List LookWin := []
  deriving DecidableEq, Repr

/-- A future handle (R225): ready with its per-slot values, or bound to an operation. -/
structure Handle where
  ready : Bool := true
  op    : Nat := 0
  all   : Word := 0
  vals  : SMap Word := []
  deriving DecidableEq, Repr

/-- What holds a wave (R149), each with what ends the hold. A `retry` hold issues its instruction again. -/
inductive Hold where
  | retry (why : Nat)
  | handle (k : Nat)
  | fault (recs : List Nat)
  | writes (scope : Nat)
  | barrier (b gen : Nat)
  | gridbar (gen : Nat)
  | sleep
  | commit
  | tags (mask : Nat) (all : Bool)
  | phase (off p pd : Nat)
  | tile (ops : List Nat)
  deriving DecidableEq, Repr

/-- A store side-log entry (R44). -/
structure LogEnt where
  va    : Nat
  mask  : Nat
  data  : List Byte
  op    : Nat
  args  : List (Nat × Nat × Nat)
  scope : Nat
  ord   : Nat
  fibs  : List Nat
  pc    : Nat
  kind  : Nat
  held  : Option Nat := none
  deriving DecidableEq, Repr

/-- An access of one fibre that waits for a verdict of the page manager (R43): where it reads, and the
registers it writes. -/
structure PendAcc where
  slot : Nat
  va   : Nat
  size : Nat
  kind : Nat
  sub  : Nat
  d    : Nat
  fmt  : Nat
  args : Nat × Nat × Nat
  scope : Nat
  hint : Nat
  ord  : Nat
  frec : Nat
  host : Option Nat
  pc   : Nat
  wdst : Bool
  len  : Nat
  look : Nat
  raw  : Nat
  deriving DecidableEq, Repr

/-- A staged operation of a deterministic quantum (R130, R350): the commit step that performs it, its kind, its
arguments, the handler wave that staged it, if one did (R342), and the bits of its instruction (R202). -/
structure Staged where
  step : Nat
  kind : Nat
  pc   : Nat
  args : List Nat := []
  ents : List LogEnt := []
  accs : List PendAcc := []
  owner : Option Nat := none
  len   : Nat := 0
  raw   : Nat := 0
  deriving DecidableEq, Repr

/-- A handler wave's origin (R337, R338): depth, the emulation or trap handler, and the served fibres. -/
structure HandlerInfo where
  depth : Nat
  emu   : Bool
  orgs  : List Nat
  deriving DecidableEq, Repr

/-- One wave (R141 to R149): ordinary waves have index 0 to 15, handler waves 16 to 19. `starved` holds the fibres that the
count of R156 waits for and `since` those that have issued since it started; `lines` are the register lines that its next
run waits for and `imaged` the registers of its window that its context image holds, with the words and the poisoned slots
that stand there (R166, R167); `hfmts` is the format table of the run whose instruction is held (R171); `unset` holds the
sectors whose last write a read of the wave has met unsettled (R122); `passing` keeps the windows over an instruction that is
held after its issue (R198). -/
structure Wave where
  team    : Nat
  idx     : Nat
  role    : Nat
  quad    : Nat
  fibs    : SMap Fib
  v       : SMap Word := []
  vpois   : List Nat := []
  w       : SMap Word := []
  key     : Nat := 0
  handles : SMap Handle := []
  hold    : Option Hold := none
  holdPc  : Nat := 0
  log     : List LogEnt := []
  pend    : List PendAcc := []
  staged  : List Staged := []
  handler : Option HandlerInfo := none
  exited  : Bool := false
  stamp   : Nat := 0
  retired : Nat := 0
  qcount  : Nat := 0
  quanta  : Nat := 0
  closed  : Bool := false
  resumed : Bool := false
  runs    : Nat := 0
  hang    : Nat := 0
  starved : List Nat := []
  since   : List Nat := []
  arrGen  : SMap (Nat × Nat) := []
  obsTags : Nat := 0
  lines   : List (Nat × Nat) := []
  imaged  : SMap (List (Nat × Word) × List Nat) := []
  hfmts   : Option (SMap Nat) := none
  unset   : List Nat := []
  passing : Option (Bool × List (Nat × List Nat)) := none
  deriving DecidableEq, Repr

/-- A team barrier (R219). -/
structure Bar where
  g : Nat := 0
  a : Nat := 0
  n : Nat := 0
  deriving DecidableEq, Repr

/-- The operation a convergence register collects signatures for (R161, R293, R298, R299). -/
structure Sig where
  bits  : Nat
  words : List Nat
  ranks : List Nat
  op    : Nat
  imgs  : List (Nat × List Byte)
  specs : Nat × Nat
  deriving DecidableEq, Repr

/-- A convergence register (R159) with its hidden signature. -/
structure Conv where
  members : Nat := 0
  signed  : Nat := 0
  seq     : Nat := 0
  sig     : Option Sig := none
  deriving DecidableEq, Repr

/-- An armature that holds A (R299): its format code and row length, and the image of the eight blocks. -/
structure Armature where
  fmt  : Nat
  spec : Nat
  rowk : Nat
  img  : List (List Byte)
  deriving DecidableEq, Repr

/-- A tile name (R296, R311): its main values in ACC, residuals, poisoned elements, and status. `phys` says that core `at_`
holds it in a physical tile, `mark` when that was marked evictable (R343), and `imaged` that the context image holds it as
it was displaced (R296). -/
structure Tile where
  bound : Bool := false
  phys  : Bool := false
  main  : SMap (BitVec 36) := []
  res   : SMap Word := []
  pois  : List Nat := []
  flags : Nat := 0
  done  : Nat := 0
  lru   : Nat := 0
  at_   : Nat := 0
  mark  : Option Nat := none
  imaged : Bool := false
  deriving DecidableEq, Repr

/-- What R109 needs of a transaction barrier object: the waves that have arrived in its phase, the designated last arriver
of each phase number that has ended, and the wave that has brought Pending to 0. -/
structure TbInfo where
  arrived : List Nat := []
  last    : SMap Nat := []
  by0     : Option Nat := none
  deriving DecidableEq, Repr

/-- A posted receive (R286, R288). -/
structure Post where
  op   : Nat
  wave : Nat
  rank : Nat
  team : Nat
  tag  : Nat
  cap  : Nat
  off  : Nat
  deriving DecidableEq, Repr

/-- A message on its way or unmatched at its receiver (R286, R288): `id` is the sender's operation when the sender
is of this module; `pois` marks its poisoned 16-byte units; `total` is the length it has when it is whole. -/
structure Msg where
  id    : Nat
  local_ : Bool
  rank  : Nat
  team  : Nat
  grid  : Nat
  dteam : Nat
  tag   : Nat
  data  : List Byte
  pois  : Nat
  total : Nat
  deriving DecidableEq, Repr

/-- Where a team stands: placed, swapped out, pre-empted or never placed, or ended. -/
inductive TSt where
  | queued (placed : Bool)
  | resident
  | swapped
  | ended
  deriving DecidableEq, Repr

/-- One team (R141, R24, R99, R219, R159, R171, R212, R234); `saving` holds the local blocks still to be saved (R343),
`flagged` the objects whose swapped-waiter flag its swap-out has set (R112), `lunc` the sectors of its allocation that prove
uncorrectable when they are next read (R405), and `img` its place in the context image (R11, R165). -/
structure Team where
  grid   : Nat
  idx    : Nat
  st     : TSt := .queued false
  core   : Nat := 0
  mem    : SMap Byte := []
  lpois  : List Nat := []
  lunc   : List Nat := []
  img    : Nat := 0
  saving : List Nat := []
  flagged : List Nat := []
  tdone  : Nat := 0
  tpend  : SMap Nat := []
  bars   : SMap Bar := []
  tbreg  : List Nat := []
  tbinfo : SMap TbInfo := []
  convs  : SMap Conv := []
  arms   : SMap Armature := []
  tiles  : SMap Tile := []
  fmts   : SMap Nat := []
  fmtw   : List (Nat × Nat × Nat) := []
  status : BitVec 32 := 0
  prio   : Nat := 0
  posts  : List Post := []
  unmat  : List Msg := []
  deriving DecidableEq, Repr

/-- How a grid stands (R325, R339, R235). -/
inductive GSt where
  | running
  | halted (code : Nat)
  | faulted
  | done
  deriving DecidableEq, Repr

/-- One dispatched grid (R322, R323): the record's bytes, its buffer records, its argument snapshot's internal address,
and progress; `qgen` names the queue that its LAUNCH came from, `index` its index there. -/
structure Grid where
  ctx    : Nat
  queue  : Nat
  qgen   : Nat := 0
  seq    : Nat
  id     : Nat
  lrec   : List Byte
  recs   : List (BitVec 128)
  args   : List Byte := []
  argVa  : Nat := 0
  inval  : Nat := 0
  pyr    : Bool := false
  st     : GSt := .running
  haltAt : Option (Nat × Nat × Nat × Nat) := none
  gbGen  : Nat := 0
  round  : Nat := 0
  late   : Bool := false
  order  : Nat := 0
  index  : Nat := 0
  deriving DecidableEq, Repr

/-! ### Contexts, queues, device memory (01 to 05, 16, 26) -/

/-- A waiting LAUNCH or other command of a queue (R321); `record` is the launch record once it has been read, `some none` when
that read failed (R322). -/
structure Cmd where
  op    : Nat
  bytes : List Byte
  index : Nat
  order : Nat
  flagO : Bool
  failed : Nat := 0
  record : Option (Option (List Byte)) := none
  deriving DecidableEq, Repr

/-- A submission queue (R319): its indices count from 0 without wrapping; `bells` holds, for each doorbell write that
covers entries not yet read, the index it gave and when it came; `gen` tells it from an earlier queue of its number. -/
structure Queue where
  gen   : Nat := 0
  ceil  : Nat
  size  : Nat
  base  : Nat
  head  : Nat
  hidx  : Nat := 0
  tail  : Nat := 0
  bells : List (Nat × Nat) := []
  wait  : List Cmd := []
  deriving DecidableEq, Repr

/-- A pending fault record (R41): posted, held back, or of a first miss whose walker has not returned yet (R50). -/
structure FaultRec where
  id     : Nat
  seq    : Nat
  posted : Bool
  granule : Nat
  write  : Bool
  kind   : Nat
  va     : Nat
  core   : Nat
  slot   : Nat
  walk   : Bool := false
  deriving DecidableEq, Repr

/-- A context (R27 to R29, R41, R88, R93, R399). -/
structure Ctx where
  owner   : Nat
  errSize : Nat
  errBase : Nat
  errStat : Nat
  imgBase : Nat
  imgSize : Nat
  tables  : SMap Nat := []
  fqBase  : Option Nat := none
  fqSize  : Nat := 0
  fqStat  : Nat := 0
  fqSeq   : Nat := 0
  fqCons  : Nat := 0
  fqOver  : Bool := false
  faults  : List FaultRec := []
  queues  : SMap Queue := []
  errIdx  : Nat := 0
  errLost : Nat := 0
  errCons : Nat := 0
  ctrs    : SMap (BitVec 64) := []
  launch  : Nat := 0
  deleting : Bool := false
  deriving DecidableEq, Repr

/-- A translated address (R35, R63): on a host page or a device page, the physical address, the home die, the key that
seals it, whether its page is tidal, its region class, the virtual address, and whether it is memory that no page entry
maps (R68). -/
structure Loc where
  host  : Bool
  pa    : Nat
  home  : Nat
  key   : Nat
  tidal : Bool
  cls   : Nat
  va    : Nat
  image : Bool
  deriving DecidableEq, Repr

/-- A sector of a core's L1 (R56): where it lies, the bytes it holds, the dirty mask, whether a store of the whole sector
is among its dirty bytes (R61), poison, recency, persistence, and the grids that dirtied it (R129). -/
structure L1Sec where
  core  : Nat
  loc   : Loc
  have_ : Nat
  dirty : Nat
  whole : Bool
  pois  : Bool
  data  : List Byte
  lru   : Nat
  keep  : Bool
  grids : List Nat
  deriving DecidableEq, Repr

/-- A row sector of a die's remote-data cache (R78, R82). -/
structure RdcSec where
  die   : Nat
  loc   : Loc
  valid : Bool
  drop  : Bool
  pois  : Bool
  data  : List Byte
  lru   : Nat
  deriving DecidableEq, Repr

/-- An L2 square (R70): its tag, layout, sharers, hold, valid and dirty row sectors, the slice that holds it,
whether a CINV waits for the release of a claim (R126), and the physical and virtual address it was allocated
for. -/
structure Sq where
  id     : Nat
  key    : Nat
  holder : Nat
  orient : Bool
  width  : Nat
  turn   : Nat
  turning : Bool
  sharers : Nat
  hold   : Bool
  valid  : BitVec 32
  dirty  : BitVec 32
  lru    : Nat
  tidal  : Bool
  tcol   : Bool
  twid   : Nat
  ctx    : Nat
  pa     : Nat
  va     : Nat
  cinv   : Bool
  deriving DecidableEq, Repr

/-- What a write at a home slice is: an L1's write-back, a store written through, or an engine's write (R58 to R60). -/
inductive ReqSrc where
  | back
  | store
  | engine
  deriving DecidableEq, Repr

/-- A request waiting at a home slice (R74): a masked write of a row sector; `tok` names the core whose write it is, and
`pois` says what it does to the sector's poison (R61, R73, R98): sets it, clears it, or leaves it. -/
structure Req where
  id   : Nat
  loc  : Loc
  mask : Nat
  data : List Byte
  die  : Nat
  atoll : Nat
  tok  : Nat
  ctx  : Nat
  pois : Option Bool
  src  : ReqSrc
  deriving DecidableEq, Repr

/-- An invalidation on its way to a sharer, or its acknowledgement on the way back (R81). -/
structure Inval where
  die : Nat
  sec : Nat
  tok : Nat
  ack : Bool
  deriving DecidableEq, Repr

/-- A hold-table entry (R125). -/
structure Claim where
  sq    : Nat
  count : Nat
  nmu   : Bool
  deriving DecidableEq, Repr

/-- A tidal-tracker entry (R84). -/
structure Track where
  slice : Nat
  sq    : Nat
  atoll : Option Nat
  count : Nat
  lru   : Nat
  deriving DecidableEq, Repr

/-- A causeway (R85). -/
structure Causeway where
  slice : Nat
  sq    : Nat
  holder : Nat
  deriving DecidableEq, Repr

/-- A cached translation (R38): a core's (0 to 671) or a die's second level (1000 + die). -/
structure Tlb where
  unit  : Nat
  ctx   : Nat
  z     : Nat
  vpn   : Nat
  entry : Nat
  slot  : Nat
  deriving DecidableEq, Repr

/-- A walker (R50): the granule it translates and the descriptors it sampled (R36). -/
structure Walker where
  id   : Nat
  die  : Nat
  core : Nat
  ctx  : Nat
  granule : Nat
  write : Bool
  descs : SMap Nat
  recs : List Nat
  deriving DecidableEq, Repr

/-- A 128-byte line of an instruction cache (R362): level 0 line buffer, 1 L1I, 2 middle cache, 3 a fill
that is delivered to wave `unit` but not installed, with its poisoned sectors (R364). -/
structure ILine where
  level : Nat
  unit  : Nat
  ctx   : Nat
  line  : Nat
  data  : List Byte
  bad   : Nat
  lru   : Nat
  deriving DecidableEq, Repr

/-- The native form of a Pyratha run that a die keeps (R369, R370): the die, context and first PC of the run, the bytes of code
that it stands for, and when it was last used. -/
structure PTrans where
  die : Nat
  ctx : Nat
  pc  : Nat
  len : Nat
  lru : Nat
  deriving DecidableEq, Repr

/-- A residency handle in one die's copy of the handle table (R88). -/
structure ResH where
  ctx  : Nat
  prio : Nat
  dem  : Bool
  deriving DecidableEq, Repr

/-- A pending update of one die's copy of the handle table (R91): kind 0 set, 1 demote, 2 free, 3 sweep. -/
structure ResUpd where
  id   : Nat
  die  : Nat
  h    : Nat
  kind : Nat
  prio : Nat
  op   : Nat
  deriving DecidableEq, Repr

/-- The memory system (01 to 07): device and host bytes, caches, directories, translation caches. `unc` holds the sectors
whose next read, and `uncw` those whose next write by a near-memory unit, proves uncorrectable (R138, R405). -/
structure MemSys where
  dev    : SMap Byte := []
  host   : SMap Byte := []
  sealed : SMap Nat := []
  pois   : List Nat := []
  unc    : List Nat := []
  uncw   : List Nat := []
  l1     : List L1Sec := []
  split  : SMap Nat := []
  rdc    : List RdcSec := []
  sqs    : SMap Sq := []
  reqs   : List Req := []
  invals : List Inval := []
  claims : List Claim := []
  tracks : List Track := []
  cways  : List Causeway := []
  hints  : List Causeway := []
  tlbs   : List Tlb := []
  walks  : List Walker := []
  icache : List ILine := []
  ptrans : List PTrans := []
  resh   : SMap ResH := []
  resmap : SMap Nat := []
  resupd : List ResUpd := []
  deriving DecidableEq, Repr

/-! ### Engines (05, 07, 14, 15, 18) -/

/-- One element of a line operation (R94, R95): source and destination byte addresses, a zero element. -/
structure CpElem where
  src  : Nat
  dst  : Nat
  zero : Bool
  slot : Nat
  deriving DecidableEq, Repr

/-- A line operation of a stream copy engine (R95 to R101); `claims` is when it came to wait for room in a
hold table (R125). -/
structure LineOp where
  inst  : Nat
  core  : Nat
  team  : Nat
  wave  : Nat
  kind  : Nat
  size  : Nat
  elems : List CpElem
  pc    : Nat
  held  : Option Nat
  performed : Bool
  sqs   : List Nat := []
  claims : Option Nat := none
  deriving DecidableEq, Repr

/-- A copy instruction in flight (R100, R105): its tag, its object, and the counted sectors with the line
operations each still waits for. -/
structure CpInst where
  team : Nat
  tag  : Option Nat
  obj  : Option Nat
  inb  : Bool
  secs : List (Nat × List Nat)
  deriving DecidableEq, Repr

/-- A near-memory command (R133 to R139), numbered in the order in which it passed its checks and then in the order
in which it reached its NMU: the operation of its NMCMD, who issued it, its words, where its spans lie (high, low,
operand: storage address, physical address, key), whether it was sent, the fault record it waits on, and how
many side-log entries are older. -/
structure NmCmd where
  op    : Nat
  core  : Nat
  wave  : Nat
  slot  : Nat
  team  : Nat
  words : List Nat
  spans : List (Nat × Nat × Nat)
  nmu   : Nat
  sent  : Bool
  held  : Option Nat
  older : Nat
  pc    : Nat
  deriving DecidableEq, Repr

/-- What the command of an NMCMD's fibres have left to report (R139). -/
structure NmGroup where
  left : Nat
  vals : SMap Word
  deriving DecidableEq, Repr

/-- A started matrix operation (R312): its team and the wave whose signature or leaving started it, its major and modifier,
tile, operand words and A image; of a SCAN that has begun, its control block as it stood then (R317). -/
structure MxOp where
  id    : Nat
  team  : Nat
  wave  : Nat
  core  : Nat
  major : Nat
  m     : Nat
  d     : Nat
  words : List Nat
  a     : List (List Byte)
  specs : Nat × Nat
  det   : Bool
  begun : Bool
  held  : List Nat
  sc    : Nat
  bad   : Bool
  order : Nat
  blk   : List Byte
  deriving DecidableEq, Repr

/-- A contribution of this module to a collective instance (R292, R355 to R360): its operation, instance, issuer and
descriptor, whether it has ended the instance for every member, whether every member's descriptor is known to be the same, its
elements once they are read and those that are poisoned, the ranks it has sent its stream to, the result, and how it ended. -/
structure CollPart where
  op    : Nat
  group : Nat
  inst  : Nat
  wave  : Nat
  slot  : Nat
  pc    : Nat
  core  : Nat
  team  : Nat
  desc  : List Nat
  src   : Nat
  dst   : Nat
  failed : Bool := false
  agreed : Bool
  own   : Option (List (List Nat))
  bad   : List Nat
  held  : Option Nat
  sent  : List Nat
  res   : Option (List (List Nat))
  rbad  : List Nat
  ended : Bool
  done  : Bool
  code  : Nat
  deriving DecidableEq, Repr

/-- What another member has sent of an instance (R353): the bytes of its stream so far by their element offsets (R361), the
elements of it that are poisoned (R356), its descriptor, an ending code, and whether it has completed, or, of position 0, whether
it has reduced every member's source. -/
structure CollIn where
  group : Nat
  inst  : Nat
  src   : Nat
  parts : SMap (List Byte) := []
  bad   : List Nat := []
  desc  : Option (List Nat) := none
  code  : Nat := 0
  fin   : Bool := false
  deriving DecidableEq, Repr

/-- An installed collective group (R355). -/
structure CollGroup where
  members : List Nat
  gang    : Nat
  next    : Nat
  deriving DecidableEq, Repr

/-- One strait port (R353): sequences, replay buffer, failures, link state, credits, and flits waiting for a
route. -/
structure Port where
  txSeq  : Nat := 0
  rxSeq  : Nat := 0
  acked  : Nat := 0
  credit : Nat := 0
  replay : List (Nat × Flit) := []
  fails  : Nat := 0
  down   : Bool := false
  deriving DecidableEq, Repr

/-- A line of a core's register cache (R166, R167): the wave and the register of its window, when it was last used, when it
was marked evictable. -/
structure RegLine where
  wave : Nat
  reg  : Nat
  lru  : Nat
  mark : Option Nat
  deriving DecidableEq, Repr

/-- A core (R96, R136, R166, R409): the engine's idleness and when it left idle, if it waits to start, the waves that wait for its copy engine and
for its near-memory limit, and its register cache. -/
structure Core where
  idle   : Bool := true
  waitS  : Option Nat := none
  cpq    : List Nat := []
  nmq    : List Nat := []
  regs   : List RegLine := []
  deriving DecidableEq, Repr

/-- The run in progress (R148, R196): wave, PC, instructions issued so far, the wave's format table when the
run began (R171), the bits issued last and where they stood, how many instructions it may have (R166, R196), and whether it
only finishes an instruction whose hold has ended (R149). -/
structure Cur where
  wave  : Nat
  pc    : Nat
  count : Nat
  fmts  : SMap Nat
  len   : Nat
  raw   : Nat
  limit : Nat := 24
  again : Bool := false
  deriving DecidableEq, Repr

/-- An error entry that is to be written (R406): type, die, unit, context, address, detail, count. -/
structure ErrEnt where
  type   : Nat
  die    : Nat := 0
  unit   : Nat := 0
  ctx    : Nat := 0
  pa     : Nat := 0
  detail : Nat := 0
  count  : Nat := 1
  deriving DecidableEq, Repr

/-- What the module executes (05, 08, 11, 15 to 18). -/
structure Exec where
  ctxs   : SMap Ctx := []
  grids  : SMap Grid := []
  teams  : SMap Team := []
  waves  : SMap Wave := []
  cores  : SMap Core := []
  cur    : Option Cur := none
  agenda : List (Nat × Ev) := []
  tick   : Nat := 0
  fresh  : Nat := 1
  free   : Nat := 0
  rr     : Nat := 0
  ptr    : Nat := 0
  stages : SMap Nat := []
  copies : SMap LineOp := []
  insts  : SMap CpInst := []
  nms    : SMap NmCmd := []
  nmg    : SMap NmGroup := []
  mxs    : List MxOp := []
  msgs   : List Msg := []
  outs   : SMap Word := []
  colls  : SMap CollPart := []
  collIn : List CollIn := []
  groups : SMap CollGroup := []
  ports  : SMap Port := []
  txq    : List (Nat × Flit) := []
  rank   : Nat := 0
  routes : SMap Nat := []
  gangs  : List Nat := []
  stitch : SMap (Nat × Nat) := []
  hostq  : List (Nat × Nat × Nat × Nat) := []
  errq   : List ErrEnt := []
  deriving DecidableEq, Repr

/-! ### Trust and bring-up (26) -/

/-- An SPDM responder's session with a function (R400). -/
structure Spdm where
  version : Bool := false
  caps    : Bool := false
  algs    : Bool := false
  pending : Bool := false
  session : Bool := false
  keys    : Nat := 0
  deriving DecidableEq, Repr

/-- A spare in progress (R407). -/
structure SpareOp where
  die  : Nat
  kind : Nat
  unit : Nat
  deriving DecidableEq, Repr

/-- The root of trust, the manifest's mappings, the keys, the admin ring and the module error log
(R395 to R408). -/
structure Trust where
  status   : Nat
  failStep : Nat := 0
  failDie  : Nat := 255
  failUnit : Nat := 65535
  manifest : Manifest
  digests  : List (BitVec 256) := []
  keys     : SMap (BitVec 512) := []
  imgKeys  : SMap Nat := []
  coreMap  : SMap Nat := []
  sliceMap : SMap Nat := []
  tdisp    : SMap TdispState := []
  spdm     : SMap Spdm := []
  resp     : List (Nat × List Byte) := []
  ring     : BitVec 64 := 0
  ringSize : Nat := 0
  ringHead : Nat := 0
  ringTail : Nat := 0
  logBase  : BitVec 64 := 0
  logSize  : Nat := 0
  logIdx   : Nat := 0
  logCons  : Nat := 0
  logLost  : Nat := 0
  failPosted : Bool := false
  spares   : List SpareOp := []
  spareCount : Nat := 0
  corr     : SMap (Nat × Nat) := []
  hostRead : List Byte := []
  deriving DecidableEq, Repr

/-- The machine. -/
structure State where
  trust : Trust
  mem   : MemSys
  x     : Exec
  deriving DecidableEq, Repr

/-- Why the machine stops with a fault. -/
inductive Fault where
  /-- A host access to a device physical address at which R62 puts no storage: raised by
  HOST_ACCESS_TO_DEVICE_MEMORY. Safe: no claim is made of what stands there. -/
  | noStorage (pa : Nat)
  deriving DecidableEq, Repr

/-- Why an instruction has no meaning here. -/
inductive Refusal where
  /-- The model gives the instruction no meaning yet: raised by arms of `exec` only. Safe: nothing is
  claimed of it. -/
  | notModelled (mnemonic : String)
  deriving DecidableEq, Repr

/-- The machine's answer to one instruction or one step. -/
abbrev Out := Host.Outcome State Fault Refusal

/-- The firmware digests the model's module reports (log entry 6, DESIGN CHOICE: the manual gives no firmware). -/
def Trust.reset : Trust where
  status := 1
  manifest := Config.manifest
  digests := List.replicate 5 0

/-- The module after a reset that meets no failure (R404): ready, every device-memory sector zero, no
context, nothing resident, the manifest's mappings applied; what the manual gives no value is zero (log entry 28, DESIGN
CHOICE). -/
def State.reset : State := { trust := Trust.reset, mem := {}, x := {} }

end Sys2Proof.Machine
end

