-- ==== Sys2Proof/Machine/Ops.lean ====
section
/-! DEFINITION. The named operations over the executing state: finding and changing waves, teams and
fibres, register windows, scheduling device steps, and taking a deferred trap and returning from one
(08, 17). -/

namespace Sys2Proof.Machine

/-- A meaning that only executes: memory and trust state are untouched. -/
def State.onX (f : Exec → Exec) (s : State) : Out := .next { s with x := f s.x }

/-! ### Cause codes (R334) -/

def cOOB := 0x01
def cBADREC := 0x02
def cRIGHTS := 0x03
def cALIGN := 0x04
def cHOSTOP := 0x05
def cBADPTE := 0x06
def cPERM := 0x07
def cXLATE := 0x08
def cBADPA := 0x09
def cPOISON := 0x0a
def cPCALIGN := 0x0b
def cREGRNG := 0x0c
def cFMTBAD := 0x0d
def cTAGRNG := 0x0e
def cTBBAD := 0x0f
def cTBOVER := 0x10
def cTBLIMIT := 0x11
def cCPCTL := 0x12
def cRESHDL := 0x13
def cMSGOVF := 0x14
def cREJOIN := 0x15
def cDETPART := 0x16
def cBARDIV := 0x17
def cNOCOHORT := 0x18
def cHNDOP := 0x19
def cNOHANDLER := 0x1a
def cMXDIV := 0x1b
def cFRZMIS := 0x1c
def cFRZDUP := 0x1d
def cMXOPD := 0x1e
def cSWTRAP := 0x20
def cBREAK := 0x21
def cUNDEFOP := 0x30
def cDISABLEDOP := 0x31
def cRSVFIELD := 0x32

/-- The emulation handler serves these causes, the trap handler every other (R334). -/
def causeEmu (c : Nat) : Bool := decide (0x30 ≤ c)

/-! ### Finding and changing -/

def Exec.wave? (x : Exec) (u : Nat) : Option Wave := x.waves.find? u
def Exec.modWave (x : Exec) (u : Nat) (f : Wave → Wave) : Exec := { x with waves := x.waves.modify u f }
def Exec.modTeam (x : Exec) (t : Nat) (f : Team → Team) : Exec := { x with teams := x.teams.modify t f }
def Exec.modGrid (x : Exec) (g : Nat) (f : Grid → Grid) : Exec := { x with grids := x.grids.modify g f }
def Exec.modCtx (x : Exec) (c : Nat) (f : Ctx → Ctx) : Exec := { x with ctxs := x.ctxs.modify c f }
def Exec.teamOf (x : Exec) (w : Wave) : Option Team := x.teams.find? w.team
def Exec.gridOf (x : Exec) (t : Team) : Option Grid := x.grids.find? t.grid

/-- The core a wave's team is on; 0 when it has none. -/
def Exec.coreOf (x : Exec) (w : Wave) : Nat := (x.teamOf w).elim 0 Team.core
/-- The die of a core (R41): 168 physical cores each. -/
def dieOf (core : Nat) : Nat := core / 168
/-- The context a wave runs in. -/
def Exec.ctxOf (x : Exec) (w : Wave) : Nat := ((x.teamOf w).bind x.gridOf).elim 0 Grid.ctx
/-- Whether a wave's grid is deterministic (R322, byte 45 bit 1). -/
def Grid.byte (g : Grid) (i : Nat) : Nat := (g.lrec.getD i 0).toNat
def Grid.word (g : Grid) (i n : Nat) : Nat := leNat ((g.lrec.drop i).take n)
def Grid.determ (g : Grid) : Bool := bitOf (g.byte 45) 1
def Grid.cohort (g : Grid) : Bool := bitOf (g.byte 45) 0
def Exec.determ (x : Exec) (w : Wave) : Bool := ((x.teamOf w).bind x.gridOf).elim false Grid.determ

/-- The waves of a team that have not exited, handler waves left out or not. -/
def Exec.teamWaves (x : Exec) (t : Nat) : List (Nat × Wave) :=
  x.waves.filter fun p => decide (p.2.team = t) && !p.2.exited && p.2.handler.isNone
def Exec.handlerWaves (x : Exec) (t : Nat) : List (Nat × Wave) :=
  x.waves.filter fun p => decide (p.2.team = t) && !p.2.exited && p.2.handler.isSome

/-- Schedules a step of the device after a number of steps of the model's clock, behind earlier ones. -/
def agendaAdd : List (Nat × Ev) → Nat → Ev → List (Nat × Ev)
  | [], t, e => [(t, e)]
  | p :: r, t, e => if t < p.1 then (t, e) :: p :: r else p :: agendaAdd r t e
/-- Posts a step for a number of ticks from now (log entry 31, DESIGN CHOICE). -/
def Exec.post (x : Exec) (delay : Nat) (e : Ev) : Exec :=
  if x.agenda.any (fun p => decide (p.2 = e)) then x
  else { x with agenda := agendaAdd x.agenda (x.tick + delay) e }

/-- A new number for an operation, a wave, a message or a record. -/
def Exec.take (x : Exec) : Nat × Exec := (x.fresh, { x with fresh := x.fresh + 1 })

/-- Records an error entry to be written (R406). -/
def Exec.err (x : Exec) (e : ErrEnt) : Exec := { x with errq := x.errq ++ [e] }

/-! ### Fibres and register windows (R142, R165) -/

def Wave.fib (w : Wave) (f : Nat) : Fib := w.fibs.get {} f
def Wave.modFib (w : Wave) (f : Nat) (g : Fib → Fib) : Wave := { w with fibs := w.fibs.put {} f (g (w.fib f)) }
def Exec.fib (x : Exec) (u f : Nat) : Fib := (x.wave? u).elim {} (·.fib f)
def Exec.modFib (x : Exec) (u f : Nat) (g : Fib → Fib) : Exec := x.modWave u (·.modFib f g)

/-- The predicate k of a fibre: P7 reads true (R5). -/
def Fib.pred (f : Fib) (k : Nat) : Bool := decide (k = 7) || bitOf f.preds.toNat k
/-- Writes a predicate; a write of P7 is ignored (R5). -/
def Fib.setPred (f : Fib) (k : Nat) (b : Bool) : Fib :=
  if k < 7 then { f with preds := BitVec.ofNat 7 (bitSet f.preds.toNat k b) } else f
/-- Whether a guard is true in a fibre (R192). -/
def Fib.guard (f : Fib) (pg : Nat) (pn : Bool) : Bool := xor (f.pred pg) pn

def Fib.isReady (f : Fib) : Bool := decide (f.st = .ready)
def Fib.unfinished (f : Fib) : Bool := !decide (f.st = .free)

/-- The window (wave, slot) whose registers a fibre reads and writes: its own, or at depth 1 its origin's,
or at depth 2 that fibre's own origin's (R165, R338). -/
def Exec.window (x : Exec) (u f : Nat) : Nat × Nat :=
  match (x.fib u f).org with
  | none => (u, f)
  | some (u1, f1) =>
    match (x.fib u1 f1).org with
    | none => (u1, f1)
    | some p => p

/-- Register k of slot s of a wave's window. -/
def Wave.reg (w : Wave) (s k : Nat) : Word := w.v.get 0 (128 * k + s)
/-- V[k] of a fibre (R165). -/
def Exec.readV (x : Exec) (u f k : Nat) : Word :=
  let p := x.window u f
  (x.wave? p.1).elim 0 (·.reg p.2 k)
/-- Whether V[k] of a fibre is poisoned (R167). -/
def Exec.poisV (x : Exec) (u f k : Nat) : Bool :=
  let p := x.window u f
  (x.wave? p.1).elim false (fun w => w.vpois.contains (128 * k + p.2))
/-- Writes V[k] of a fibre and clears its poison (R167). -/
def Exec.writeV (x : Exec) (u f k : Nat) (v : Word) : Exec :=
  let p := x.window u f
  x.modWave p.1 fun w =>
    { w with v := w.v.put 0 (128 * k + p.2) v, vpois := setDel w.vpois (128 * k + p.2) }
/-- W[k] of a wave. -/
def Exec.readW (x : Exec) (u k : Nat) : Word := (x.wave? u).elim 0 (fun w => w.w.get 0 k)
def Exec.writeW (x : Exec) (u k : Nat) (v : Word) : Exec :=
  x.modWave u fun w => { w with w := w.w.put 0 k v }
/-- W[k] + 2^32 · W[k + 1]. -/
def Exec.readW2 (x : Exec) (u k : Nat) : Nat := (x.readW u k).toNat + 2 ^ 32 * (x.readW u (k + 1)).toNat

/-- The role budget of a wave's window (R145, R165). -/
def Exec.budget (x : Exec) (u f : Nat) : Nat :=
  let p := x.window u f
  match x.wave? p.1 with
  | none => 128
  | some w =>
    match (x.teamOf w).bind x.gridOf with
    | none => 128
    | some g => if w.role = 0 then g.byte 32 else g.byte 33

/-- Depth of a fibre (R211): 0 ordinary, 1 or 2 in a handler wave. -/
def Wave.depth (w : Wave) : Nat := w.handler.elim 0 HandlerInfo.depth

/-! ### The issuing group (R146, R147) -/

/-- What an instruction is issued for: the wave, its PC group's slots in increasing order, and the PC. -/
structure Iss where
  u   : Nat
  w   : Wave
  pc  : Nat
  grp : List Nat
  deriving DecidableEq, Repr

/-- The Ready fibres of a wave at a PC, in increasing slots (R147). -/
def Wave.groupAt (w : Wave) (pc : Nat) : List Nat :=
  (List.range 128).filter fun f => (w.fib f).isReady && decide ((w.fib f).pc = pc)

/-- The issuing group, if a run is in progress. -/
def Exec.issue? (x : Exec) : Option Iss :=
  match x.cur with
  | none => none
  | some c =>
    match x.wave? c.wave with
    | none => none
    | some w => some ⟨c.wave, w, c.pc, w.groupAt c.pc⟩

/-- The fibres of the group whose guard is true (R192). -/
def Iss.served (i : Iss) (h : Hd) : List Nat := i.grp.filter fun f => (i.w.fib f).guard h.pg.toNat h.pn

/-- The wave holds a Ready fibre outside the issuing group (R161, R220). -/
def Iss.diverged (i : Iss) : Bool := i.w.fibs.any fun p => p.2.isReady && !decide (p.2.pc = i.pc)

def Iss.inHandler (i : Iss) : Bool := i.w.handler.isSome

/-- Moves the fibres of a group that still stand Ready at the instruction on to the next (R215). -/
def Exec.advance (x : Exec) (i : Iss) (len : Nat) : Exec :=
  x.modWave i.u fun w =>
    i.grp.foldl (fun w f =>
      w.modFib f fun b => if b.isReady && decide (b.pc = i.pc) then { b with pc := (i.pc + len) % 2 ^ 48 } else b) w

/-! ### Ending a grid, error entries -/

/-- The origin tag of a trap of a fibre (R213). -/
def originTag (opnd cause team wave fibre pc : Nat) : Nat :=
  opnd * 2 ^ 104 + cause * 2 ^ 96 + team * 2 ^ 64 + wave * 2 ^ 55 + fibre * 2 ^ 48 + pc
/-- A wave's index in the 4 bits of an origin tag (R213): a handler wave is named by its slot. -/
def Wave.tagIdx (w : Wave) : Nat := w.idx % 16

/-- A fatal context fault or a HALT is accepted: no wave of the grid begins another run (R235, R339). -/
def Exec.endGrid (x : Exec) (g : Nat) (st : GSt) : Exec :=
  x.modGrid g fun r => if r.st = .running then { r with st := st } else r

/-- The lesser of two quantum, team and wave positions (R235). -/
def haltLess (a b : Nat × Nat × Nat × Nat) : Bool :=
  decide (a.1 < b.1) || (decide (a.1 = b.1) && (decide (a.2.1 < b.2.1) || (decide (a.2.1 = b.2.1) && decide (a.2.2.1 < b.2.2.1))))

/-- A HALT (code below 2^16) or a fatal context fault (code 2^16) of a wave at a position (round, team, wave): the
grid ends at once, or at its commit in deterministic mode, where the lowest position counts (R235, R339). -/
def Exec.stopGrid (x : Exec) (g : Nat) (p : Nat × Nat × Nat × Nat) : Exec :=
  match x.grids.find? g with
  | none => x
  | some r =>
    if r.determ then
      (x.modGrid g fun r =>
        { r with haltAt := match r.haltAt with
            | none => some p
            | some q => if haltLess p q then some p else some q }).post 0 (.quantumCommit g)
    else (x.endGrid g (if p.2.2.2 < 2 ^ 16 then .halted p.2.2.2 else .faulted)).post 0 (.gridCompletion g)

/-- The entry PC of the handler that serves a cause (R322, R334). -/
def Grid.handlerEntry (g : Grid) (cause : Nat) : Nat := if causeEmu cause then g.word 112 8 else g.word 104 8

/-! ### Lookahead windows (R198) -/

/-- Makes the writes of the first n open windows of a fibre, in their program order. -/
def Exec.closeWin (x : Exec) (u f : Nat) (l : LookWin) : Exec :=
  let x := l.v.foldl (fun x p => x.writeV u f p.1 p.2) x
  if l.w.isEmpty then x
  else
    let x := l.w.foldl (fun x p => x.writeW u p.1 p.2) x
    x.modWave u fun w =>
      { w with fibs := w.fibs.map fun p =>
          (p.1, { p.2 with wins := p.2.wins.map fun q => if q.id = l.id then { q with w := [] } else q }) }
def Exec.closeAll (x : Exec) (u f : Nat) : Exec :=
  let l := (x.fib u f).wins
  let x := l.foldl (fun x w => x.closeWin u f w) x
  x.modFib u f fun b => { b with wins := [] }

/-! ### Taking a deferred trap (R335), and returning from one (R229) -/

/-- Runs that a wave has issued, one in progress among them (R336). -/
def Exec.runsOf (x : Exec) (u : Nat) : Nat :=
  (x.wave? u).elim 0 Wave.runs + if x.cur.elim false (fun c => decide (c.wave = u) && !c.again) then 1 else 0

/-- Masks a fibre with a trap record. Open windows close first (R198). A trap of a depth-2 fibre, or a cause
whose handler entry is 0, is a fatal context fault (R339). -/
def Exec.takeTrap (x : Exec) (u f : Nat) (t : Trap) : Exec :=
  let x := x.closeAll u f
  let raw := match x.cur with
    | some c => if t.len ≠ 0 ∧ c.wave = u ∧ c.pc = t.pc ∧ t.raw = 0 then c.raw else t.raw
    | none => t.raw
  let x := (x.modFib u f fun b => { b with st := .masked, trap := some { t with age := x.fresh, raw := raw, runs := x.runsOf u } })
  let x := { x with fresh := x.fresh + 1 }
  match x.wave? u with
  | none => x
  | some w =>
    let x := x.post 0 (.waveRipens u)
    match x.teams.find? w.team with
    | none => x
    | some tm =>
      match x.grids.find? tm.grid with
      | none => x
      | some g =>
        if decide (w.depth = 2) || decide (g.handlerEntry t.cause = 0) then
          let x := x.err { type := 7, die := dieOf tm.core, unit := tm.core, ctx := g.ctx,
                           detail := originTag t.opnd t.cause tm.idx w.tagIdx f t.pc, count := w.depth }
          x.stopGrid tm.grid (g.round, tm.idx, w.idx, 2 ^ 16)
        else x

/-- The deferred trap of an instruction at its own PC. -/
def Iss.trap (i : Iss) (cause len : Nat) : Trap := { cause := cause, len := len, pc := i.pc }

/-- Traps several fibres of the group with one cause. -/
def Exec.trapAll (x : Exec) (i : Iss) (fs : List Nat) (cause len : Nat) : Exec :=
  fs.foldl (fun x f => x.takeTrap i.u f (i.trap cause len)) x

/-- Traps the lowest-numbered fibre of a list, as a uniform instruction does (R209, R272). -/
def Exec.trapLow (x : Exec) (i : Iss) (fs : List Nat) (cause len : Nat) : Exec := x.trapAll i (fs.take 1) cause len

/-- A wave that becomes eligible is the youngest of its priority (R330). -/
def Exec.restamp (x : Exec) (u : Nat) : Exec :=
  { x.modWave u (fun w => { w with stamp := x.fresh }) with fresh := x.fresh + 1 }

/-- A fibre becomes Ready at a PC; an asynchronous trap that waits for it masks it there at once (R410). A wave that had no
Ready fibre becomes eligible with it (R330). -/
def Exec.resume (x : Exec) (u f pc : Nat) : Exec :=
  let b := x.fib u f
  let gone := (x.wave? u).elim false fun w => !(w.fibs.any fun p => p.2.isReady)
  let x := if gone && x.cur.elim true (fun c => !decide (c.wave = u)) then x.restamp u else x
  match b.async with
  | [] => x.modFib u f fun b => { b with st := .ready, pc := pc, trap := none }
  | t :: r =>
    let x := x.modFib u f fun b => { b with st := .ready, pc := pc, trap := none, async := r }
    x.takeTrap u f { t with pc := pc }

/-- The error entry of an asynchronous trap that is not taken (R410). -/
def Exec.asyncLost (x : Exec) (u f cause ipc : Nat) : Exec :=
  match x.wave? u with
  | none => x.err { type := 13, detail := originTag 0 cause 0 0 f ipc }
  | some w =>
    x.err { type := 13, die := dieOf (x.coreOf w), unit := x.coreOf w, ctx := x.ctxOf w,
            detail := originTag 0 cause ((x.teamOf w).elim 0 Team.idx) w.tagIdx f ipc }
/-- The waiting asynchronous traps of a fibre that its handler ends (R410). -/
def Exec.dropAsync (x : Exec) (u f : Nat) : Exec :=
  (x.fib u f).async.foldl (fun x t => x.asyncLost u f t.cause t.ipc) x

/-- Delivers an asynchronous trap to a fibre by its state (R410). `ipc` is the PC of the instruction that
issued the failed access. -/
def Exec.asyncTrap (x : Exec) (u f cause ipc : Nat) : Exec :=
  match x.wave? u with
  | none => x.asyncLost u f cause ipc
  | some w =>
    if w.exited || decide ((w.fib f).st = .free) then x.asyncLost u f cause ipc
    else (x.modFib u f fun b => { b with async := b.async ++ [⟨cause, 0, 0, 0, ipc, ipc, false, 0, 0⟩] }).post 0 .asyncTrap

/-- A fibre of a list that a handler wave serves becomes Free, and its origin goes on as the mode says
(R229): `none` ends the origin fibre. -/
def Exec.handlerReturn (x : Exec) (u f : Nat) (target : Fib → Option Nat) : Exec :=
  match (x.fib u f).org with
  | none => x
  | some (ou, of) =>
    let ob := x.fib ou of
    let x := x.closeAll u f
    let x := x.modFib u f fun b => { b with st := .free }
    match target ob with
    | some pc => x.resume ou of pc
    | none => (x.dropAsync ou of).modFib ou of fun b => { b with st := .free, trap := none, async := [] }

/-! ### Holds and waits (R149) -/

/-- Why an instruction is held to issue again: its operands, the copy limit, the side log, the NMCMD limit, its code,
memory, a collective, a posted receive. -/
def rvMatrix := 1
def rvCopy := 2
def rvLog := 3
def rvNm := 4
def rvFetch := 5
def rvMem := 6
def rvColl := 7
def rvPost := 8

/-- Holds the wave at an instruction. -/
def Exec.hold (x : Exec) (i : Iss) (h : Hold) : Exec :=
  (x.modWave i.u fun w => { w with hold := some h, holdPc := i.pc }).post 0 (.waveRipens i.u)
/-- Whether a hold's instruction issues again when it ends; the others have moved past theirs, or have not issued. -/
def Hold.reissues : Hold → Bool
  | .retry n => decide (n ≠ rvFetch)
  | .handle _ => true
  | .tags _ _ => true
  | .phase _ _ _ => true
  | .tile _ => true
  | _ => false
/-- Whether a held instruction has still to write its registers when it goes on (R43, R350): lookahead windows over it close
only then (R198). -/
def Hold.late : Hold → Bool
  | .fault _ => true
  | .commit => true
  | _ => false

/-- An instruction has been executed under open windows: each is one instruction shorter, a static run end closes it,
and those that are over are closed in the order of their instructions. -/
def Exec.passWindows (x : Exec) (u : Nat) (stop : Bool) (l : List (Nat × List Nat)) : Exec :=
  let x := l.foldl (fun x p => x.modFib u p.1 fun b =>
    { b with wins := b.wins.map fun w => if p.2.contains w.id then { w with left := if stop then 0 else w.left - 1 } else w }) x
  let done_ := l.flatMap fun p => ((x.fib u p.1).wins.filter fun w => decide (w.left = 0) && p.2.contains w.id).map fun w => (w.id, p.1)
  (sortBy (fun (a b : Nat × Nat) => decide (a.1 < b.1)) done_).foldl (fun x p =>
    match List.find? (fun (w : LookWin) => decide (w.id = p.1)) (x.fib u p.2).wins with
    | none => x
    | some w => (x.closeWin u p.2 w).modFib u p.2 fun b => { b with wins := b.wins.filter fun v => !decide (v.id = p.1) }) x

/-- Ends a wave's hold; it is then the youngest eligible wave of its priority (R330), its team's park clock
stops (R111), and a team that was swapped out is re-queued (R113). -/
def Exec.unhold (x : Exec) (u : Nat) : Exec :=
  let t := (x.wave? u).elim 0 Wave.team
  let x := match ((x.wave? u).filter fun w => w.hold.elim false Hold.late).bind Wave.passing with
    | some p => x.passWindows u p.1 p.2
    | none => x
  let x := x.modWave u fun w =>
    { w with hold := none, stamp := x.fresh, resumed := (w.hold.map Hold.reissues).getD false, passing := none }
  let x : Exec := { x with fresh := x.fresh + 1, agenda := x.agenda.filter fun p => !decide (p.2 = .swapOut t) }
  if (x.teams.find? t).elim false (fun m => decide (m.st = .swapped)) then x.post 0 (.swapRequeue t) else x

/-- Ends every hold of a list of waves that meets a condition. -/
def Exec.unholdWhere (x : Exec) (p : Nat → Wave → Bool) : Exec :=
  x.waves.foldl (fun x q => if q.2.hold.isSome && p q.1 q.2 then x.unhold q.1 else x) x

/-! ### Future handles (R225) -/

def Wave.handle (w : Wave) (k : Nat) : Handle := w.handles.get {} k
/-- Binds a handle to an operation. -/
def Exec.bindHandle (x : Exec) (u k op : Nat) : Exec :=
  x.modWave u fun w => { w with handles := w.handles.put {} k { ready := false, op := op } }
/-- Makes a handle ready with one value for every slot. -/
def Exec.readyHandle (x : Exec) (u k : Nat) (v : Word) : Exec :=
  x.modWave u fun w => { w with handles := w.handles.put {} k { all := v } }
/-- An operation completes: every handle bound to it becomes ready with its values, and waves held on one
go on. -/
def Exec.complete (x : Exec) (op : Nat) (all : Word) (vals : SMap Word) : Exec :=
  let x : Exec := { x with waves := x.waves.map fun (p : Nat × Wave) =>
    (p.1, { p.2 with handles := p.2.handles.map fun q =>
      (q.1, if !q.2.ready && decide (q.2.op = op) then { ready := true, all := all, vals := vals } else q.2) }) }
  x.unholdWhere fun _ w => match w.hold with
    | some (.handle k) => (w.handle k).ready
    | _ => false

/-! ### Sector counters (R93) and status bits (R212) -/

/-- Adds n to counter `idx` of a die of a context. -/
def Exec.count (x : Exec) (ctx die idx n : Nat) : Exec :=
  if n = 0 then x
  else x.modCtx ctx fun c => { c with ctrs := c.ctrs.put 0 (8 * die + idx) (c.ctrs.get 0 (8 * die + idx) + BitVec.ofNat 64 n) }

end Sys2Proof.Machine
end

