-- ==== Sys2Proof/Machine/Flags.lean ====
section
/-! DEFINITION. The status register `%tstatus` and the conditions that set it (11 R212), and the result
of an instruction in one fibre with the conditions it raises. -/

namespace Sys2Proof.Machine

/-- Bits of `%tstatus` (R212). -/
def stOOB := 0
def stTBERR := 1
def stTBWRAP := 2
def stHANG := 3
def stOVF := 4
def stNAN := 5

/-- Sets a bit of a team's `%tstatus`. -/
def Exec.setStatus (x : Exec) (t bit : Nat) : Exec :=
  x.modTeam t fun m => { m with status := m.status ||| BitVec.ofNat 32 (2 ^ bit) }
def Exec.setStatusIf (x : Exec) (b : Bool) (t bit : Nat) : Exec := if b then x.setStatus t bit else x

/-- What an instruction does in one served fibre: register and predicate writes, the conditions it raises,
the draws it takes, or the cause of its deferred trap. -/
structure Res where
  v     : List (Nat × Word) := []
  p     : List (Nat × Bool) := []
  ovf   : Bool := false
  nan   : Bool := false
  draws : Nat := 0
  oob   : Bool := false
  trap  : Option Nat := none
  deriving DecidableEq, Repr

/-- A result of one V register. -/
def Res.word (d : Nat) (v : Nat) : Res := { v := [(d, BitVec.ofNat 32 v)] }
/-- A result of a V pair, low word first. -/
def Res.pair (d : Nat) (v : Nat) : Res :=
  { v := [(d, BitVec.ofNat 32 v), (d + 1, BitVec.ofNat 32 (v / 2 ^ 32))] }
/-- A result of a predicate. -/
def Res.pred (d : Nat) (b : Bool) : Res := { p := [(d, b)] }

/-- Adds to the draw count of a fibre, which a handler fibre takes from its origin (R181). -/
def Exec.addDraws (x : Exec) (u f n : Nat) : Exec :=
  if n = 0 then x
  else
    let p := x.window u f
    x.modFib p.1 p.2 fun b => { b with draws := (b.draws + n) % 2 ^ 32 }

/-- Writes V registers of a fibre for an instruction: at once, or at the close of a lookahead window of n instructions
(R198). -/
def Exec.putV (x : Exec) (u la f : Nat) (v : List (Nat × Word)) : Exec :=
  if la = 0 then v.foldl (fun x p => x.writeV u f p.1 p.2) x
  else
    let x' := x.modFib u f fun b => { b with wins := b.wins ++ [⟨x.fresh, la, v, []⟩] }
    { x' with fresh := x.fresh + 1 }

/-- Makes one fibre's result: its register writes at once, or at the close of a lookahead window of n
instructions (R198); predicates and status bits at once. A fibre that traps with a defined destination value has
it before the trap, at which its open windows close (R19, R21, R198). -/
def Exec.applyRes (x : Exec) (i : Iss) (la : Nat) (len f : Nat) (r : Res) : Exec :=
  let x := x.setStatusIf r.oob i.w.team stOOB
  match r.trap with
  | some c =>
    (if r.v.isEmpty then x else x.putV i.u la f r.v).takeTrap i.u f (i.trap c len)
  | none =>
    let x := x.putV i.u la f r.v
    let x := x.modFib i.u f fun b => r.p.foldl (fun b p => b.setPred p.1 p.2) b
    let x := x.addDraws i.u f r.draws
    (x.setStatusIf r.ovf i.w.team stOVF).setStatusIf r.nan i.w.team stNAN

end Sys2Proof.Machine
end

