-- ==== Sys2Proof/Machine/Operands.lean ====
section
/-! DEFINITION. Operand forms: V, W, immediate and cross-lane sources, register budget and poison checks, the
format table of a run, stochastic draws, and the one driver of every per-fibre instruction (08 R145, R146,
09 R171, R181, 12 R236 to R239, 13 R257). -/

namespace Sys2Proof.Machine

/-- A source operand. -/
inductive Operand where
  | none
  | v (k : Nat)
  | w (k : Nat)
  | imm (n : Nat)
  deriving DecidableEq, Repr

/-- The operands of an ALU instruction of any length (R187, R189, R190): the 16-bit and compact forms carry
the guard P7 and the modifier their rows name. -/
structure Opnds where
  len : Nat
  h   : Hd
  m   : AluM
  d   : Nat
  s1  : Operand
  s2  : Operand
  s3  : Nat
  deriving DecidableEq, Repr

/-- A header with guard P7 and no lookahead (R187, R189). -/
def hd0 : Hd := ⟨false, 7, 0, false⟩
/-- The all-zero ALU modifier but for rounding and format (R187, R189). -/
def mod0 (rnd : BitVec 2) (fmt : BitVec 4) : AluM := ⟨false, 0, 0, fmt, false, false, rnd⟩

/-- The operands of a 64-bit ALU instruction. -/
def opndsOf (w : AluI) : Opnds :=
  { len := 8, h := w.h, m := w.m, d := w.d.toNat, s1 := .v w.s1.toNat,
    s2 := if w.m.w2 then .w (w.s2.toNat % 64) else .v w.s2.toNat, s3 := w.s3.toNat }
/-- The operands of a 16-bit instruction: D = S1 = Vd, and Vs or imm5 (R187). -/
def opndsOf16 (w : Op16) (imm : Nat → Nat) : Opnds :=
  { len := 2, h := hd0, m := mod0 0 0, d := w.d.toNat, s1 := .v w.d.toNat,
    s2 := if w.i then .imm (imm w.s.toNat) else .v w.s.toNat, s3 := 0 }
/-- The operands of a compact A form (R189). -/
def opndsOfA (w : CompA) (rnd : BitVec 2) (fmt : BitVec 4) : Opnds :=
  { len := 4, h := hd0, m := mod0 rnd fmt, d := w.vd.toNat, s1 := .v w.va.toNat, s2 := .v w.vb.toNat,
    s3 := w.vd.toNat }
/-- The operands of a compact I form: imm9 sign-extended to 32 bits (R189). -/
def opndsOfI (w : CompI) : Opnds :=
  { len := 4, h := hd0, m := mod0 0 0, d := w.vd.toNat, s1 := .v w.va.toNat,
    s2 := .imm (wrap 32 w.imm.toInt), s3 := 0 }

/-- The stochastic key of a fibre, and its slot, wave and team as Philox takes them: a handler fibre's are its
origin's (R181). -/
def Exec.drawId (x : Exec) (u f : Nat) : Nat × Nat × Nat × Nat × Nat :=
  let p := x.window u f
  match x.wave? p.1 with
  | none => (0, 0, 0, 0, 0)
  | some w => (w.key, p.2, w.idx, (x.teamOf w).elim 0 Team.idx, (w.fib p.2).draws)

/-- The draw a fibre takes after j draws of the same instruction (R181). -/
def Exec.draw (x : Exec) (u f j : Nat) : Nat :=
  let (k, slot, wave, team, n0) := x.drawId u f
  let n := (n0 + j) % 2 ^ 32
  philoxWord (philox (k % 2 ^ 32) (k / 2 ^ 32) (n / 4) (slot + 128 * wave) team 0) (n % 4)

/-- The rounding mode of an ALU instruction for its j-th rounded element (R249, R257). -/
def Exec.mode (x : Exec) (m : AluM) (u f j : Nat) : Rm :=
  if m.sr then .sr (x.draw u f j) else Rm.ofCode m.rnd.toNat

/-- The descriptor of a format-table entry in force for the issuing run; 0 when unset (R171). -/
def Exec.desc (x : Exec) (n : Nat) : Nat :=
  if n < 8 then fixedDesc.getD n 0 else SMap.get (x.cur.elim [] Cur.fmts) 0 n
/-- The format of an entry, if set and valid (R171). -/
def Exec.fmt? (x : Exec) (n : Nat) : Option Fmt :=
  let d := x.desc n
  if n < 8 || descOk d then some (fmtOfDesc d) else none

/-- The slot fibre f reads S1 from under the cross-lane modifier; `none` is the fill (R238). -/
def xlSlot (mode p f : Nat) : Option Nat :=
  let g := 16 * (f / 16)
  let l := f % 16
  let d := 1 + p % 8
  if mode = 1 then some (g + p)
  else if mode = 2 then some (g + Nat.xor l p)
  else if mode = 3 then (if d ≤ l then some (f - d) else none)
  else if mode = 4 then (if l + d ≤ 15 then some (f + d) else none)
  else some f

/-- Register k of slot j as another fibre of the wave receives it; `none` is poison (R239). -/
def Exec.crossRead (x : Exec) (i : Iss) (j k : Nat) : Option Word :=
  if i.inHandler && decide ((i.w.fib j).org = none) then some 0
  else if i.inHandler && decide ((i.w.fib j).st = .free) then some 0
  else if x.poisV i.u j k then none else some (x.readV i.u j k)

/-- V[k] of a fibre itself; `none` is poison (R167). -/
def Exec.ownRead (x : Exec) (i : Iss) (f k : Nat) : Option Word :=
  if x.poisV i.u f k then none else some (x.readV i.u f k)

/-- A source operand of a fibre, with no cross-lane modifier. -/
def Exec.operand (x : Exec) (i : Iss) (f : Nat) (o : Operand) : Option Nat :=
  match o with
  | .none => some 0
  | .v k => (x.ownRead i f k).map BitVec.toNat
  | .w k => some (x.readW i.u k).toNat
  | .imm n => some n

/-- The S1 word after the cross-lane modifier (R238). -/
def Exec.operandXl (x : Exec) (i : Iss) (f : Nat) (m : AluM) (o : Operand) : Option Nat :=
  match o with
  | .v k =>
    if m.xl = 0 then (x.ownRead i f k).map BitVec.toNat
    else
      match xlSlot m.xl.toNat m.xlp.toNat f with
      | some j => (x.crossRead i j k).map BitVec.toNat
      | none => if m.xlp.toNat < 8 then some 0 else (x.ownRead i f k).map BitVec.toNat
  | o => x.operand i f o

/-- A V pair as one number, low word first. -/
def Exec.pair (x : Exec) (i : Iss) (f k : Nat) : Option Nat :=
  match x.ownRead i f k, x.ownRead i f (k + 1) with
  | some a, some b => some (a.toNat + 2 ^ 32 * b.toNat)
  | _, _ => none

/-- n consecutive V words. -/
def Exec.words (x : Exec) (i : Iss) (f k n : Nat) : Option (List Nat) :=
  (List.range n).mapM fun j => (x.ownRead i f (k + j)).map BitVec.toNat

/-- A named register past the role's budget (R145). -/
def Exec.pastBudget (x : Exec) (i : Iss) (f : Nat) (named : List Nat) : Bool :=
  named.any fun k => decide (x.budget i.u f ≤ k)

/-- The registers a source operand names. -/
def Operand.regs : Operand → List Nat
  | .v k => [k]
  | _ => []

/-- Issues a per-fibre instruction: each served fibre's result is computed from the state before the
instruction (R237), a register past the budget trapping first (R145), then all results are made and the
group moves on. -/
def Exec.perFibre (x : Exec) (len : Nat) (h : Hd) (named : List Nat) (g : Iss → Nat → Res) : Exec :=
  match x.issue? with
  | none => x
  | some i =>
    let rs := (i.served h).map fun f =>
      (f, if x.pastBudget i f named then { trap := some cREGRNG } else g i f)
    (rs.foldl (fun x p => x.applyRes i h.la.toNat len p.1 p.2) x).advance i len

/-- A result that a poisoned source turns into a trap (R167, R239, log entry 7, DEDUCED). -/
def orPoison {α : Type} (o : Option α) (g : α → Res) : Res :=
  match o with
  | some a => g a
  | none => { trap := some cPOISON }

/-- Issues a uniform instruction: once, if some fibre of the group has its guard true (R146). -/
def Exec.uniform (x : Exec) (len : Nat) (h : Hd) (g : Iss → Nat → Exec → Exec) : Exec :=
  match x.issue? with
  | none => x
  | some i =>
    match i.served h with
    | [] => x.advance i len
    | f :: _ => (g i f x).advance i len

/-- Issues an unguarded instruction for its whole group. -/
def Exec.whole (x : Exec) (len : Nat) (g : Iss → Exec → Exec) : Exec :=
  match x.issue? with
  | none => x
  | some i => (g i x).advance i len

end Sys2Proof.Machine
end

