-- ==== Sys2Proof/Machine/Integer.lean ====
section
/-! DEFINITION. Integer, bit and address instructions, in every length (12 R236 to R242). -/

namespace Sys2Proof.Machine

/-! ### The operations of R240 on 32-bit values -/

/-- Two's-complement value of a word. -/
def s32 (a : Nat) : Int := signed 32 a

/-- Result of IADD. -/
def vAdd (a b : Nat) : Nat := (a + b) % 2 ^ 32
/-- Result of ISUB. -/
def vSub (a b : Nat) : Nat := (a + (2 ^ 32 - b % 2 ^ 32)) % 2 ^ 32
/-- Result of IMUL. -/
def vMul (a b : Nat) : Nat := a * b % 2 ^ 32
/-- Result of IMULH. -/
def vMulh (a b : Nat) : Nat := wrap 32 ((s32 a * s32 b) / 2 ^ 32)
/-- Result of IMULHU. -/
def vMulhu (a b : Nat) : Nat := a * b / 2 ^ 32
/-- Quotient of IDIV (R241). -/
def vDiv (a b : Nat) : Nat :=
  if b = 0 then 2 ^ 32 - 1 else wrap 32 ((s32 a).tdiv (s32 b))
/-- Quotient of IDIVU (R241). -/
def vDivu (a b : Nat) : Nat := if b = 0 then 2 ^ 32 - 1 else a / b
/-- Remainder of IREM (R241). -/
def vRem (a b : Nat) : Nat := if b = 0 then a else wrap 32 ((s32 a).tmod (s32 b))
/-- Remainder of IREMU (R241). -/
def vRemu (a b : Nat) : Nat := if b = 0 then a else a % b
def vMin (a b : Nat) : Nat := if s32 a ≤ s32 b then a else b
def vMax (a b : Nat) : Nat := if s32 a ≤ s32 b then b else a
def vMinu (a b : Nat) : Nat := min a b
def vMaxu (a b : Nat) : Nat := max a b
def vAbs (a : Nat) : Nat := wrap 32 (s32 a).natAbs
def vNeg (a : Nat) : Nat := wrap 32 (-(a : Int))
/-- Result of IADDS. -/
def vAdds (a b : Nat) : Nat := wrap 32 (min (max (s32 a + s32 b) (-2 ^ 31)) (2 ^ 31 - 1))
def vAnd (a b : Nat) : Nat := Nat.land a b
def vOr (a b : Nat) : Nat := Nat.lor a b
def vXor (a b : Nat) : Nat := Nat.xor a b
def vNot (a : Nat) : Nat := 2 ^ 32 - 1 - a % 2 ^ 32
def vAndn (a b : Nat) : Nat := Nat.land a (vNot b)
def vShl (a b : Nat) : Nat := if b < 32 then a * 2 ^ b % 2 ^ 32 else 0
def vShr (a b : Nat) : Nat := if b < 32 then a / 2 ^ b else 0
def vSar (a b : Nat) : Nat := wrap 32 (s32 a / 2 ^ (min b 31))
def vRol (a b : Nat) : Nat := (a * 2 ^ (b % 32) + a / 2 ^ (32 - b % 32)) % 2 ^ 32
def vRor (a b : Nat) : Nat := vRol a (32 - b % 32)
def vShl64 (a b : Nat) : Nat := if b < 64 then a * 2 ^ b % 2 ^ 64 else 0
def vShr64 (a b : Nat) : Nat := if b < 64 then a / 2 ^ b else 0
def vPopc (a : Nat) : Nat := (List.range 32).countP (bitOf a ·)
def vClz (a : Nat) : Nat := if a = 0 then 32 else 31 - ilog2 a
def vCtz (a : Nat) : Nat := (findIdx (fun i => bitOf a i) (List.range 32) 0).getD 32
def vBrev (a : Nat) : Nat := (List.range 32).foldl (fun r i => r + (if bitOf a i then 2 ^ (31 - i) else 0)) 0
/-- Result of BFE: position and width are the low two bytes of b. -/
def vBfe (a b : Nat) : Nat := a / 2 ^ (b % 256) % 2 ^ (min (b / 256 % 256) 32)
/-- Result of BFI: position and width are the low two bytes of c. -/
def vBfi (a b c : Nat) : Nat :=
  let p := c % 256
  let m := (2 ^ (min (c / 256 % 256) 32) - 1) * 2 ^ p % 2 ^ 32
  Nat.lor (Nat.land a (vNot m)) (Nat.land (b * 2 ^ p) m)
/-- Byte i of PERM's result. -/
def permByte (ab c i : Nat) : Nat :=
  let n := c / 16 ^ i % 16
  let x := ab / 2 ^ (8 * (n % 8)) % 256
  if n < 8 then x else if 128 ≤ x then 255 else 0
def vPerm (a b c : Nat) : Nat :=
  let ab := a + 2 ^ 32 * b
  permByte ab c 0 + 2 ^ 8 * permByte ab c 1 + 2 ^ 16 * permByte ab c 2 + 2 ^ 24 * permByte ab c 3
/-- ICMP's conditions (R242). -/
def vCond (code a b : Nat) : Bool :=
  match code with
  | 0 => decide (a = b)
  | 1 => decide (a ≠ b)
  | 2 => decide (s32 a < s32 b)
  | 3 => decide (s32 a ≤ s32 b)
  | 4 => decide (s32 b < s32 a)
  | 5 => decide (s32 b ≤ s32 a)
  | 6 => decide (a < b)
  | 7 => decide (a ≤ b)
  | 8 => decide (b < a)
  | _ => decide (b ≤ a)

/-! ### Drivers -/

/-- The V registers an ALU instruction of one destination word names. -/
def Opnds.named (o : Opnds) : List Nat := o.d :: (o.s1.regs ++ o.s2.regs)

/-- Both words of a pair. -/
def pairRegs (k : Nat) : List Nat := [k, k + 1]

/-- The first two sources of a fibre, the cross-lane modifier on S1. -/
def Exec.ab (x : Exec) (i : Iss) (f : Nat) (o : Opnds) : Option (Nat × Nat) :=
  match x.operandXl i f o.m o.s1, x.operand i f o.s2 with
  | some a, some b => some (a, b)
  | _, _ => none

/-- One source, one destination word. -/
def Exec.alu1 (x : Exec) (o : Opnds) (g : Nat → Nat) : Exec :=
  x.perFibre o.len o.h (o.d :: o.s1.regs) fun i f =>
    orPoison (x.operandXl i f o.m o.s1) fun a => .word o.d (g a)

/-- Two sources, one destination word. -/
def Exec.alu2 (x : Exec) (o : Opnds) (g : Nat → Nat → Nat) : Exec :=
  x.perFibre o.len o.h o.named fun i f =>
    orPoison (x.ab i f o) fun p => .word o.d (g p.1 p.2)

/-- Two sources and a V register S3, one destination word. -/
def Exec.alu3 (x : Exec) (o : Opnds) (g : Nat → Nat → Nat → Nat) : Exec :=
  x.perFibre o.len o.h (o.named ++ [o.s3]) fun i f =>
    orPoison (x.ab i f o) fun p =>
      orPoison (x.operand i f (.v o.s3)) fun c => .word o.d (g p.1 p.2 c)

/-- Two sources and the predicate S3, one destination word and perhaps a new P[S3]. -/
def Exec.aluP (x : Exec) (o : Opnds) (g : Nat → Nat → Bool → Nat × Option Bool) : Exec :=
  x.perFibre o.len o.h o.named fun i f =>
    orPoison (x.ab i f o) fun p =>
      let r := g p.1 p.2 ((i.w.fib f).pred o.s3)
      { Res.word o.d r.1 with p := r.2.toList.map fun b => (o.s3, b) }

/-- A pair S1 and a word S2, a destination pair. -/
def Exec.alu64 (x : Exec) (o : Opnds) (k : Nat) (g : Nat → Nat → Nat) : Exec :=
  x.perFibre o.len o.h (pairRegs o.d ++ pairRegs k ++ o.s2.regs) fun i f =>
    orPoison (x.pair i f k) fun a => orPoison (x.operand i f o.s2) fun b => .pair o.d (g a b)

/-- A W-form compact instruction: once, on W values (R189, R237). -/
def Exec.aluW (x : Exec) (w : CompW) (g : Nat → Nat → Nat) : Exec :=
  x.uniform 4 hd0 fun i _ x =>
    x.writeW i.u w.wd.toNat
      (BitVec.ofNat 32 (g (x.readW i.u w.wa.toNat).toNat (x.readW i.u w.wb.toNat).toNat))

/-! ### 64-bit instructions -/

/-- IADD (R240). -/
def execIadd (w : AluI) (s : State) : Out := s.onX fun x => x.alu2 (opndsOf w) vAdd
/-- ISUB (R240). -/
def execIsub (w : AluI) (s : State) : Out := s.onX fun x => x.alu2 (opndsOf w) vSub
/-- IMUL (R240). -/
def execImul (w : AluI) (s : State) : Out := s.onX fun x => x.alu2 (opndsOf w) vMul
/-- IMULH (R240). -/
def execImulh (w : AluI) (s : State) : Out := s.onX fun x => x.alu2 (opndsOf w) vMulh
/-- IMULHU (R240). -/
def execImulhu (w : AluI) (s : State) : Out := s.onX fun x => x.alu2 (opndsOf w) vMulhu
/-- IDIV (R241). -/
def execIdiv (w : AluI) (s : State) : Out := s.onX fun x => x.alu2 (opndsOf w) vDiv
/-- IDIVU (R241). -/
def execIdivu (w : AluI) (s : State) : Out := s.onX fun x => x.alu2 (opndsOf w) vDivu
/-- IREM (R241). -/
def execIrem (w : AluI) (s : State) : Out := s.onX fun x => x.alu2 (opndsOf w) vRem
/-- IREMU (R241). -/
def execIremu (w : AluI) (s : State) : Out := s.onX fun x => x.alu2 (opndsOf w) vRemu
/-- IMIN (R240). -/
def execImin (w : AluI) (s : State) : Out := s.onX fun x => x.alu2 (opndsOf w) vMin
/-- IMAX (R240). -/
def execImax (w : AluI) (s : State) : Out := s.onX fun x => x.alu2 (opndsOf w) vMax
/-- IMINU (R240). -/
def execIminu (w : AluI) (s : State) : Out := s.onX fun x => x.alu2 (opndsOf w) vMinu
/-- IMAXU (R240). -/
def execImaxu (w : AluI) (s : State) : Out := s.onX fun x => x.alu2 (opndsOf w) vMaxu
/-- IADDS (R240). -/
def execIadds (w : AluI) (s : State) : Out := s.onX fun x => x.alu2 (opndsOf w) vAdds
/-- IAND (R240). -/
def execIand (w : AluI) (s : State) : Out := s.onX fun x => x.alu2 (opndsOf w) vAnd
/-- IOR (R240). -/
def execIor (w : AluI) (s : State) : Out := s.onX fun x => x.alu2 (opndsOf w) vOr
/-- IXOR (R240). -/
def execIxor (w : AluI) (s : State) : Out := s.onX fun x => x.alu2 (opndsOf w) vXor
/-- IANDN (R240). -/
def execIandn (w : AluI) (s : State) : Out := s.onX fun x => x.alu2 (opndsOf w) vAndn
/-- SHL (R240). -/
def execShl (w : AluI) (s : State) : Out := s.onX fun x => x.alu2 (opndsOf w) vShl
/-- SHR (R240). -/
def execShr (w : AluI) (s : State) : Out := s.onX fun x => x.alu2 (opndsOf w) vShr
/-- SAR (R240). -/
def execSar (w : AluI) (s : State) : Out := s.onX fun x => x.alu2 (opndsOf w) vSar
/-- ROL (R240). -/
def execRol (w : AluI) (s : State) : Out := s.onX fun x => x.alu2 (opndsOf w) vRol
/-- ROR (R240). -/
def execRor (w : AluI) (s : State) : Out := s.onX fun x => x.alu2 (opndsOf w) vRor
/-- BFE (R240). -/
def execBfe (w : AluI) (s : State) : Out := s.onX fun x => x.alu2 (opndsOf w) vBfe
/-- IABS (R240). -/
def execIabs (w : AluI) (s : State) : Out := s.onX fun x => x.alu1 (opndsOf w) vAbs
/-- INEG (R240). -/
def execIneg (w : AluI) (s : State) : Out := s.onX fun x => x.alu1 (opndsOf w) vNeg
/-- INOT (R240). -/
def execInot (w : AluI) (s : State) : Out := s.onX fun x => x.alu1 (opndsOf w) vNot
/-- POPC (R240). -/
def execPopc (w : AluI) (s : State) : Out := s.onX fun x => x.alu1 (opndsOf w) vPopc
/-- CLZ (R240). -/
def execClz (w : AluI) (s : State) : Out := s.onX fun x => x.alu1 (opndsOf w) vClz
/-- CTZ (R240). -/
def execCtz (w : AluI) (s : State) : Out := s.onX fun x => x.alu1 (opndsOf w) vCtz
/-- BREV (R240). -/
def execBrev (w : AluI) (s : State) : Out := s.onX fun x => x.alu1 (opndsOf w) vBrev
/-- MOV (R240). -/
def execMov (w : AluI) (s : State) : Out := s.onX fun x => x.alu1 (opndsOf w) id
/-- IMAD (R240). -/
def execImad (w : AluI) (s : State) : Out := s.onX fun x => x.alu3 (opndsOf w) (fun a b c => (a * b + c) % 2 ^ 32)
/-- BFI (R240). -/
def execBfi (w : AluI) (s : State) : Out := s.onX fun x => x.alu3 (opndsOf w) vBfi
/-- PERM (R240). -/
def execPerm (w : AluI) (s : State) : Out := s.onX fun x => x.alu3 (opndsOf w) vPerm
/-- IADDC (R240). -/
def execIaddc (w : AluI) (s : State) : Out := s.onX fun x => x.aluP (opndsOf w) fun a b c =>
  let t := a + b + (if c then 1 else 0)
  (t % 2 ^ 32, some (decide (2 ^ 32 ≤ t)))
/-- ISUBB (R240). -/
def execIsubb (w : AluI) (s : State) : Out := s.onX fun x => x.aluP (opndsOf w) fun a b c =>
  let t : Int := (a : Int) - b - (if c then 1 else 0)
  (wrap 32 t, some (decide (t < 0)))
/-- ISEL (R240). -/
def execIsel (w : AluI) (s : State) : Out := s.onX fun x => x.aluP (opndsOf w) fun a b c =>
  (if c then a else b, none)
/-- IADD64 (R240). -/
def execIadd64 (w : AluI) (s : State) : Out := s.onX fun x =>
  let d := w.d.toNat
  x.perFibre 8 w.h (pairRegs d ++ pairRegs w.s1.toNat ++ pairRegs w.s2.toNat) fun i f =>
    orPoison (x.pair i f w.s1.toNat) fun a => orPoison (x.pair i f w.s2.toNat) fun b =>
      .pair d ((a + b) % 2 ^ 64)
/-- IMAD64 (R240). -/
def execImad64 (w : AluI) (s : State) : Out := s.onX fun x =>
  let o := opndsOf w
  x.perFibre 8 w.h (pairRegs o.d ++ o.s1.regs ++ o.s2.regs ++ pairRegs o.s3) fun i f =>
    orPoison (x.ab i f o) fun p => orPoison (x.pair i f o.s3) fun c => .pair o.d ((p.1 * p.2 + c) % 2 ^ 64)
/-- SHL64 (R240). -/
def execShl64 (w : AluI) (s : State) : Out := s.onX fun x => x.alu64 (opndsOf w) w.s1.toNat vShl64
/-- SHR64 (R240). -/
def execShr64 (w : AluI) (s : State) : Out := s.onX fun x => x.alu64 (opndsOf w) w.s1.toNat vShr64
/-- LEA (R240). -/
def execLea (w : AluI) (s : State) : Out := s.onX fun x =>
  x.alu64 (opndsOf w) w.s1.toNat fun a b => (a + b * 2 ^ w.s3.toNat) % 2 ^ 64
/-- ICMP (R242). -/
def execIcmp (w : AluI) (s : State) : Out := s.onX fun x =>
  let o := opndsOf w
  x.perFibre 8 w.h (o.s1.regs ++ o.s2.regs) fun i f =>
    orPoison (x.ab i f o) fun p => .pred o.d (vCond o.s3 p.1 p.2)
/-- MOVI (R240). -/
def execMovi (w : LongI) (s : State) : Out := s.onX fun x =>
  x.perFibre 8 w.h [w.d.toNat] fun _ _ => .word w.d.toNat w.imm.toNat
/-- WMOV (R240). -/
def execWmov (w : AluI) (s : State) : Out := s.onX fun x =>
  x.perFibre 8 w.h [w.d.toNat] fun i _ => .word w.d.toNat (x.readW i.u w.s1.toNat).toNat

/-! ### 16-bit instructions (R187) -/

/-- MOV_16 (R187). -/
def execMov16 (w : Mov16) (s : State) : Out := s.onX fun x =>
  x.alu1 ⟨2, hd0, mod0 0 0, w.d.toNat, .v w.s.toNat, .none, 0⟩ id
/-- MOVI_16 (R187). -/
def execMovi16 (w : Mov16) (s : State) : Out := s.onX fun x =>
  x.alu1 ⟨2, hd0, mod0 0 0, w.d.toNat, .imm w.s.toNat, .none, 0⟩ id
/-- IADD_16 (R187). -/
def execIadd16 (w : Op16) (s : State) : Out := s.onX fun x => x.alu2 (opndsOf16 w id) vAdd
/-- ISUB_16 (R187). -/
def execIsub16 (w : Op16) (s : State) : Out := s.onX fun x => x.alu2 (opndsOf16 w id) vSub
/-- IMUL_16 (R187). -/
def execImul16 (w : Op16) (s : State) : Out := s.onX fun x => x.alu2 (opndsOf16 w id) vMul
/-- IAND_16 (R187). -/
def execIand16 (w : Op16) (s : State) : Out := s.onX fun x => x.alu2 (opndsOf16 w id) vAnd
/-- IOR_16 (R187). -/
def execIor16 (w : Op16) (s : State) : Out := s.onX fun x => x.alu2 (opndsOf16 w id) vOr
/-- IXOR_16 (R187). -/
def execIxor16 (w : Op16) (s : State) : Out := s.onX fun x => x.alu2 (opndsOf16 w id) vXor
/-- SHL_16 (R187). -/
def execShl16 (w : Op16) (s : State) : Out := s.onX fun x => x.alu2 (opndsOf16 w id) vShl
/-- SHR_16 (R187). -/
def execShr16 (w : Op16) (s : State) : Out := s.onX fun x => x.alu2 (opndsOf16 w id) vShr
/-- SAR_16 (R187). -/
def execSar16 (w : Op16) (s : State) : Out := s.onX fun x => x.alu2 (opndsOf16 w id) vSar
/-- IMIN_16 (R187). -/
def execImin16 (w : Op16) (s : State) : Out := s.onX fun x => x.alu2 (opndsOf16 w id) vMin
/-- IMAX_16 (R187). -/
def execImax16 (w : Op16) (s : State) : Out := s.onX fun x => x.alu2 (opndsOf16 w id) vMax

/-! ### Compact instructions (R189) -/

/-- IADD_C (R189). -/
def execIaddC (w : CompA) (s : State) : Out := s.onX fun x => x.alu2 (opndsOfA w 0 0) vAdd
/-- ISUB_C (R189). -/
def execIsubC (w : CompA) (s : State) : Out := s.onX fun x => x.alu2 (opndsOfA w 0 0) vSub
/-- IMUL_C (R189). -/
def execImulC (w : CompA) (s : State) : Out := s.onX fun x => x.alu2 (opndsOfA w 0 0) vMul
/-- IAND_C (R189). -/
def execIandC (w : CompA) (s : State) : Out := s.onX fun x => x.alu2 (opndsOfA w 0 0) vAnd
/-- IOR_C (R189). -/
def execIorC (w : CompA) (s : State) : Out := s.onX fun x => x.alu2 (opndsOfA w 0 0) vOr
/-- IXOR_C (R189). -/
def execIxorC (w : CompA) (s : State) : Out := s.onX fun x => x.alu2 (opndsOfA w 0 0) vXor
/-- SHL_C (R189). -/
def execShlC (w : CompA) (s : State) : Out := s.onX fun x => x.alu2 (opndsOfA w 0 0) vShl
/-- SHR_C (R189). -/
def execShrC (w : CompA) (s : State) : Out := s.onX fun x => x.alu2 (opndsOfA w 0 0) vShr
/-- SAR_C (R189). -/
def execSarC (w : CompA) (s : State) : Out := s.onX fun x => x.alu2 (opndsOfA w 0 0) vSar
/-- IMIN_C (R189). -/
def execIminC (w : CompA) (s : State) : Out := s.onX fun x => x.alu2 (opndsOfA w 0 0) vMin
/-- IMAX_C (R189). -/
def execImaxC (w : CompA) (s : State) : Out := s.onX fun x => x.alu2 (opndsOfA w 0 0) vMax
/-- IADD_CI (R189). -/
def execIaddCi (w : CompI) (s : State) : Out := s.onX fun x => x.alu2 (opndsOfI w) vAdd
/-- SHL_CI (R189). -/
def execShlCi (w : CompI) (s : State) : Out := s.onX fun x => x.alu2 (opndsOfI w) vShl
/-- SHR_CI (R189). -/
def execShrCi (w : CompI) (s : State) : Out := s.onX fun x => x.alu2 (opndsOfI w) vShr
/-- SAR_CI (R189). -/
def execSarCi (w : CompI) (s : State) : Out := s.onX fun x => x.alu2 (opndsOfI w) vSar
/-- IAND_CI (R189). -/
def execIandCi (w : CompI) (s : State) : Out := s.onX fun x => x.alu2 (opndsOfI w) vAnd
/-- IADD_CW (R189). -/
def execIaddCw (w : CompW) (s : State) : Out := s.onX fun x => x.aluW w vAdd
/-- ISUB_CW (R189). -/
def execIsubCw (w : CompW) (s : State) : Out := s.onX fun x => x.aluW w vSub
/-- IMUL_CW (R189). -/
def execImulCw (w : CompW) (s : State) : Out := s.onX fun x => x.aluW w vMul
/-- IAND_CW (R189). -/
def execIandCw (w : CompW) (s : State) : Out := s.onX fun x => x.aluW w vAnd
/-- IOR_CW (R189). -/
def execIorCw (w : CompW) (s : State) : Out := s.onX fun x => x.aluW w vOr
/-- SHL_CW (R189). -/
def execShlCw (w : CompW) (s : State) : Out := s.onX fun x => x.aluW w vShl
/-- SHR_CW (R189). -/
def execShrCw (w : CompW) (s : State) : Out := s.onX fun x => x.aluW w vShr
/-- MOV_C (R189). -/
def execMovC (w : CompA) (s : State) : Out := s.onX fun x => x.alu1 (opndsOfA w 0 0) id
/-- MOVI_C (R189). -/
def execMoviC (w : CompI) (s : State) : Out := s.onX fun x =>
  x.perFibre 4 hd0 [w.vd.toNat] fun _ _ => .word w.vd.toNat (wrap 32 w.imm.toInt)
/-- WMOV_C (R189). -/
def execWmovC (w : CompA) (s : State) : Out := s.onX fun x =>
  x.perFibre 4 hd0 [w.vd.toNat] fun i _ => .word w.vd.toNat (x.readW i.u w.va.toNat).toNat

end Sys2Proof.Machine
end

