-- ==== Sys2Proof/Machine/CrossLane.lean ====
section
/-! DEFINITION. Shuffles, votes, wave reductions and scans, arg-reductions, predicates (12 R243 to R248). -/

namespace Sys2Proof.Machine

/-! ### Shuffles -/

/-- A shuffle: S1 of the slot that f and the second source name (R243). -/
def Exec.shuffle (x : Exec) (o : Opnds) (slot : Nat → Nat → Nat) : Exec :=
  x.perFibre o.len o.h o.named fun i f =>
    orPoison (x.operand i f o.s2) fun b =>
      match o.s1 with
      | .v k => orPoison (x.crossRead i (slot f b) k) fun v => .word o.d v.toNat
      | _ => {}

/-- The slot SHFL names (R243). -/
def shflSlot (_f b : Nat) : Nat := b % 128
/-- The slot SHFLX names (R243). -/
def shflxSlot (f b : Nat) : Nat := Nat.xor f (b % 128)
/-- The slot SHFLUP names (R243). -/
def shflupSlot (f b : Nat) : Nat := if b ≤ f then f - b else f
/-- The slot SHFLDN names (R243). -/
def shfldnSlot (f b : Nat) : Nat := if f + b ≤ 127 then f + b else f

/-- SHFL (R243). -/
def execShfl (w : AluI) (s : State) : Out := s.onX fun x => x.shuffle (opndsOf w) shflSlot
/-- SHFLUP (R243). -/
def execShflup (w : AluI) (s : State) : Out := s.onX fun x => x.shuffle (opndsOf w) shflupSlot
/-- SHFLDN (R243). -/
def execShfldn (w : AluI) (s : State) : Out := s.onX fun x => x.shuffle (opndsOf w) shfldnSlot
/-- SHFLX (R243). -/
def execShflx (w : AluI) (s : State) : Out := s.onX fun x => x.shuffle (opndsOf w) shflxSlot
/-- SHFL_C (R189). -/
def execShflC (w : CompA) (s : State) : Out := s.onX fun x => x.shuffle (opndsOfA w 0 0) shflSlot
/-- SHFLX_C (R189). -/
def execShflxC (w : CompA) (s : State) : Out := s.onX fun x => x.shuffle (opndsOfA w 0 0) shflxSlot

/-! ### Votes and predicates -/

/-- VOTE: `.all`, `.any`, and `.ballot` into four W registers (R244). -/
def execVote (w : AluI) (s : State) : Out := s.onX fun x =>
  let d := w.d.toNat
  let p (i : Iss) (f : Nat) := (i.w.fib f).pred w.s1.toNat
  if w.s3 = 2 then
    x.uniform 8 w.h fun i _ x =>
      let n := ((i.served w.h).filter (p i)).foldl (fun n f => n + 2 ^ f) 0
      (List.range 4).foldl (fun x j => x.writeW i.u (d + j) (BitVec.ofNat 32 (n / 2 ^ (32 * j)))) x
  else
    x.perFibre 8 w.h [] fun i _ =>
      .pred d (if w.s3 = 0 then (i.served w.h).all (p i) else (i.served w.h).any (p i))

/-- PLOP: a bit of the four-bit table S3 (R248). -/
def execPlop (w : AluI) (s : State) : Out := s.onX fun x =>
  x.perFibre 8 w.h [] fun i f =>
    let b := i.w.fib f
    let n := (if b.pred w.s1.toNat then 2 else 0) + (if b.pred w.s2.toNat then 1 else 0)
    .pred w.d.toNat (bitOf w.s3.toNat n)

/-- PMOV: `.get` (S3 = 0) and `.set` (R248). -/
def execPmov (w : AluI) (s : State) : Out := s.onX fun x =>
  if w.s3 = 0 then
    x.perFibre 8 w.h [w.d.toNat] fun i f => .word w.d.toNat ((i.w.fib f).preds.toNat + 128)
  else
    x.perFibre 8 w.h [w.s1.toNat] fun i f =>
      orPoison (x.ownRead i f w.s1.toNat) fun a =>
        { p := (List.range 7).map fun k => (k, bitOf a.toNat k) }

/-! ### Combining over the contributing fibres (R150, R245) -/

/-- Issues an instruction that combines the values of the served fibres: `read` gives a fibre's value, `g` its
result from the slots that contribute and its own value. A fibre that traps contributes nothing
(log entry 8, DEDUCED). -/
def Exec.combine {α : Type} (x : Exec) (len : Nat) (h : Hd) (named : List Nat)
    (read : Iss → Nat → Option α) (g : Iss → List (Nat × α) → Nat → Res) : Exec :=
  match x.issue? with
  | none => x
  | some i =>
    let good := (i.served h).filterMap fun f =>
      if x.pastBudget i f named then none else (read i f).map fun a => (f, a)
    x.perFibre len h named fun i f => orPoison (read i f) fun _ => g i good f

/-- The WREDI operations (R245). -/
def rediOp (c : Nat) (a b : Nat) : Nat :=
  match c with
  | 0 => vAdd a b
  | 1 => vMin a b
  | 2 => vMax a b
  | 3 => vMinu a b
  | 4 => vMaxu a b
  | 5 => vAnd a b
  | 6 => vOr a b
  | _ => vXor a b
/-- Their identities (R245). -/
def rediId (c : Nat) : Nat :=
  match c with
  | 1 => 0x7fffffff
  | 2 => 0x80000000
  | 3 => 0xffffffff
  | 5 => 0xffffffff
  | _ => 0
/-- The combination of a list of values under a WREDI operation. -/
def rediFold (c : Nat) (l : List Nat) : Nat := l.foldl (rediOp c) (rediId c)

/-- S1 of a fibre as a number. -/
def Exec.s1Word (x : Exec) (w : AluI) (i : Iss) (f : Nat) : Option Nat :=
  (x.ownRead i f w.s1.toNat).map BitVec.toNat

/-- WREDI (R245). -/
def execWredi (w : AluI) (s : State) : Out := s.onX fun x =>
  x.combine 8 w.h [w.d.toNat, w.s1.toNat] (x.s1Word w) fun _ good _ =>
    .word w.d.toNat (rediFold w.s3.toNat (good.map (·.2)))

/-- The fixed format of an entry below 8 (R172). -/
def fixedFmt (n : Nat) : Fmt := fmtOfDesc (fixedDesc.getD n 0)

/-- The pattern of the smaller or larger of two patterns (R259). -/
def fminBits (big : Bool) (f : Fmt) (a b : Nat) : Nat :=
  match fminPick big (value f a) (value f b) with
  | none => f.defaultNan
  | some true => a
  | some false => b

/-- The pairwise tree of R245 over present and absent patterns. -/
def minTree (big : Bool) (f : Fmt) : Nat → List (Option Nat) → Option Nat
  | 0, l => l.headD none
  | n + 1, l =>
    let rec pairs : List (Option Nat) → List (Option Nat)
      | a :: b :: r =>
        (match a, b with
         | some a, some b => some (fminBits big f a b)
         | some a, none => some a
         | none, b => b) :: pairs r
      | _ => []
    minTree big f n (pairs l)

/-- Slot i's value among the contributions. -/
def slotVal (l : List (Nat × Nat)) (i : Nat) : Option Nat := SMap.find? l i

/-- The values of the 128 slots in a float format, −0 where a slot does not contribute (R245). -/
def slotValues (f : Fmt) (l : List (Nat × Nat)) : List XR :=
  (List.range 128).map fun i => ((slotVal l i).map (value f)).getD (.zero true)

/-- WREDF (R245). -/
def execWredf (w : AluI) (s : State) : Out := s.onX fun x =>
  let f := fixedFmt w.m.fmt.toNat
  x.combine 8 w.h [w.d.toNat, w.s1.toNat] (x.s1Word w) fun _ good _ =>
    let l := good.map fun p => (p.1, p.2 % 2 ^ f.width)
    if w.s3 = 0 then
      let r := treeSum f (Rm.ofCode w.m.rnd.toNat) 7 (slotValues f l)
      { Res.word w.d.toNat (encodeX f r.v) with ovf := r.ovf, nan := r.nan }
    else
      .word w.d.toNat ((minTree (decide (w.s3 = 2)) f 7 ((List.range 128).map (slotVal l))).getD 0)

/-- One step of the float scan of R246: x[j] := RoundTo(y[j − k] + y[j]) for j from k. -/
def scanStep (mode : Rm) (y : List Rd) (k : Nat) : List Rd :=
  y.take k ++ List.zipWith (fun a b =>
    let r := roundTo fp32 mode false (xsum mode.down [a.v, b.v])
    ⟨r.v, r.ovf || b.ovf, r.nan || b.nan⟩) y (y.drop k)

/-- The inclusive float scan of R246; each entry carries the conditions its own sums raised. -/
def floatScan (mode : Rm) (l : List XR) : List Rd :=
  [1, 2, 4, 8, 16, 32, 64].foldl (scanStep mode) (l.map fun v => ⟨v, false, false⟩)

/-- WSCAN (R246). -/
def execWscan (w : AluI) (s : State) : Out := s.onX fun x =>
  let c := w.s3.toNat % 16
  let excl := decide (16 ≤ w.s3.toNat)
  x.combine 8 w.h [w.d.toNat, w.s1.toNat] (x.s1Word w) fun _ good j =>
    if c < 8 then
      .word w.d.toNat (rediFold c ((good.filter fun p =>
        if excl then decide (p.1 < j) else decide (p.1 ≤ j)).map (·.2)))
    else
      let sc := floatScan (Rm.ofCode w.m.rnd.toNat) (slotValues fp32 good)
      let v : XR :=
        if excl && decide (j = 0) then .zero true
        else ((sc.map Rd.v).getD (if excl then j - 1 else j) (.zero true))
      { Res.word w.d.toNat (encodeX fp32 v) with ovf := sc.any Rd.ovf, nan := sc.any Rd.nan }

/-- Whether value a beats value b under a WARGX code (R247). -/
def wargBeats (c a b : Nat) : Bool :=
  match c with
  | 0 => decide (s32 a < s32 b)
  | 1 => decide (s32 b < s32 a)
  | 2 => decide (a < b)
  | 3 => decide (b < a)
  | _ =>
    let u := value fp32 a; let v := value fp32 b
    if u.isNan then false else if v.isNan then true
    else if c = 4 then u.lt v else v.lt u

/-- A WARGX candidate: value, index, tie hash. -/
structure Cand where
  slot : Nat
  a : Nat
  b : Nat
  h : Nat
  deriving DecidableEq, Repr

/-- The order of R247: the value, then the hash, then b, then the slot. -/
def Cand.beats (c : Nat) (p q : Cand) : Bool :=
  wargBeats c p.a q.a ||
  (!wargBeats c q.a p.a &&
    (decide (p.h < q.h) || (decide (p.h = q.h) &&
      (decide (p.b < q.b) || (decide (p.b = q.b) && decide (p.slot < q.slot))))))

/-- WARGX (R247). -/
def execWargx (w : AluI) (s : State) : Out := s.onX fun x =>
  let o := opndsOf w
  let c := o.s3
  x.combine 8 w.h (pairRegs o.d ++ o.s1.regs ++ o.s2.regs)
    (fun i f => x.ab i f o)
    fun i good _ =>
      let cands := good.map fun p =>
        let k := (x.drawId i.u p.1).1
        (⟨p.1, p.2.1, p.2.2, philoxWord (philox (k % 2 ^ 32) (k / 2 ^ 32) p.2.2 0 0 1) 0⟩ : Cand)
      match cands with
      | [] => {}
      | q :: r =>
        let b := r.foldl (fun best p => if p.beats c best then p else best) q
        .pair o.d (b.a + 2 ^ 32 * b.b)

end Sys2Proof.Machine
end

