-- ==== Sys2Proof/Machine/Convert.lean ====
section
/-! DEFINITION. Conversions between formats and integers, packing, and stochastic state
(12 R249 to R254). -/

namespace Sys2Proof.Machine

/-- One rounded pattern as the result of a fibre, with its conditions and draws. -/
def Res.ofPat (d : Nat) (p : Pat) (draws : Nat) : Res :=
  { Res.word d p.bits with ovf := p.ovf, nan := p.nan, draws := draws }

/-- Draws an instruction takes for n rounded elements (R181). -/
def drawsOf (m : AluM) (n : Nat) : Nat := if m.sr then n else 0

/-- A result that an unset or invalid format entry turns into a trap (R249). -/
def orFmtBad {α : Type} (o : Option α) (g : α → Res) : Res :=
  match o with
  | some a => g a
  | none => { trap := some cFMTBAD }

/-- CVTF (R250). -/
def execCvtf (w : AluI) (s : State) : Out := s.onX fun x =>
  let o := opndsOf w
  x.perFibre 8 w.h (o.d :: o.s1.regs) fun i f =>
    orPoison (x.operandXl i f o.m o.s1) fun a =>
      orFmtBad (x.fmt? o.s3) fun src => orFmtBad (x.fmt? o.m.fmt.toNat) fun dst =>
        .ofPat o.d (roundBits dst (x.mode o.m i.u f 0) o.m.sat (value src a)) (drawsOf o.m 1)

/-- Range of an integer type of R251. -/
def intRange (ity : Nat) : Int × Int :=
  match ity with
  | 0 => (-2 ^ 31, 2 ^ 31 - 1)
  | 1 => (0, 2 ^ 32 - 1)
  | 2 => (-128, 127)
  | _ => (-8, 7)

/-- CVTFI's conversion to a bounded integer (R251): word, OVF, NAN. -/
def cvtToInt (ity : Nat) (mode : Rm) (v : XR) : Nat × Bool × Bool :=
  let r := intRange ity
  let clip (n : Int) : Nat × Bool × Bool :=
    if n < r.1 then (wrap 32 r.1, true, false) else if r.2 < n then (wrap 32 r.2, true, false)
    else (wrap 32 n, false, false)
  match v with
  | .nan => (0, false, true)
  | .inf s => (wrap 32 (if s then r.1 else r.2), true, false)
  | .zero _ => (0, false, false)
  | .num m e => clip (roundInt mode m e)

/-- CVTFI's conversion to an E8M0 scale (R251): scale, OVF, NAN. -/
def cvtToScale (v : XR) : Nat × Bool × Bool :=
  match v with
  | .nan => (255, false, true)
  | .inf _ => (254, true, false)
  | .zero _ => (0, false, false)
  | .num m e =>
    let l : Int := (ilog2 m.natAbs : Int) + e
    ((min (max (l + 127) 0) 254).toNat, decide (128 ≤ l), false)

/-- CVTFI (R251). -/
def execCvtfi (w : AluI) (s : State) : Out := s.onX fun x =>
  let o := opndsOf w
  x.perFibre 8 w.h (o.d :: o.s1.regs) fun i f =>
    orPoison (x.operandXl i f o.m o.s1) fun a => orFmtBad (x.fmt? o.m.fmt.toNat) fun src =>
      let r := if o.s3 = 4 then cvtToScale (value src a)
               else cvtToInt o.s3 (x.mode o.m i.u f 0) (value src a)
      { Res.word o.d r.1 with ovf := r.2.1, nan := r.2.2, draws := drawsOf o.m 1 }

/-- The value of an E8M0 scale (R175). -/
def scaleValue (e : Nat) : XR := if e % 256 = 255 then .nan else .num 1 ((e % 256 : Nat) - (127 : Int))

/-- The value of an integer-typed source (R252). -/
def intValue (ity a : Nat) : XR :=
  match ity with
  | 0 => .ofInt (signed 32 a)
  | 1 => .ofInt a
  | 2 => .ofInt (signed 8 a)
  | 3 => .ofInt (signed 4 a)
  | _ => scaleValue a

/-- CVTIF (R252). -/
def execCvtif (w : AluI) (s : State) : Out := s.onX fun x =>
  let o := opndsOf w
  x.perFibre 8 w.h (o.d :: o.s1.regs) fun i f =>
    orPoison (x.operandXl i f o.m o.s1) fun a => orFmtBad (x.fmt? o.m.fmt.toNat) fun dst =>
      .ofPat o.d (roundBits dst (x.mode o.m i.u f 0) o.m.sat (intValue o.s3 a)) (drawsOf o.m 1)

/-- Storage width of an element of a format; 0 when it has none (R174). -/
def Fmt.storage (f : Fmt) : Nat :=
  let n := f.width
  if n ≤ 2 then 0 else if n ≤ 4 then 4 else if n ≤ 8 then 8 else if n ≤ 16 then 16 else 32

/-- The format of an entry whose storage width is wd bits. -/
def Exec.fmtOfWidth? (x : Exec) (n wd : Nat) : Option Fmt :=
  (x.fmt? n).filter fun f => decide (f.storage = wd)

/-- Field width and place of a PACK or UNPACK selector (R253). -/
def selWidth (s : Nat) : Nat := 4 * 2 ^ (s % 4)
def selShift (s : Nat) : Nat := s / 4 % 16 * selWidth s

/-- v placed in the field of a selector within a (R253). -/
def packInto (a v s : Nat) : Nat :=
  let m := (2 ^ selWidth s - 1) * 2 ^ selShift s
  Nat.lor (vAndn a m) (v % 2 ^ selWidth s * 2 ^ selShift s)

/-- PACK (R253). -/
def execPack (w : AluI) (s : State) : Out := s.onX fun x =>
  let o := opndsOf w
  x.perFibre 8 w.h o.named fun i f =>
    orPoison (x.ab i f o) fun p =>
      if o.m.fmt = 0 then .word o.d (packInto p.1 p.2 o.s3)
      else orFmtBad (x.fmtOfWidth? o.m.fmt.toNat (selWidth o.s3)) fun dst =>
        let r := roundBits dst (x.mode o.m i.u f 0) o.m.sat (value fp32 p.2)
        .ofPat o.d { r with bits := packInto p.1 r.bits o.s3 } (drawsOf o.m 1)

/-- UNPACK (R253). -/
def execUnpack (w : AluI) (s : State) : Out := s.onX fun x =>
  let o := opndsOf w
  x.perFibre 8 w.h (o.d :: o.s1.regs) fun i f =>
    orPoison (x.operandXl i f o.m o.s1) fun a =>
      let v := a / 2 ^ selShift o.s3 % 2 ^ selWidth o.s3
      if o.m.fmt = 0 then
        .word o.d (if 64 ≤ o.s3 then wrap 32 (signed (selWidth o.s3) v) else v)
      else orFmtBad (x.fmtOfWidth? o.m.fmt.toNat (selWidth o.s3)) fun src =>
        .ofPat o.d (roundBits fp32 (Rm.ofCode o.m.rnd.toNat) false (value src v)) 0

/-- SRSEED: the wave's key, and every slot's draw count (R254). -/
def execSrseed (w : AluI) (s : State) : Out := s.onX fun x =>
  x.uniform 8 w.h fun i f x =>
    if i.inHandler then x.trapAll i [f] cHNDOP 8
    else x.modWave i.u fun v =>
      { v with key := x.readW2 i.u w.s1.toNat, fibs := v.fibs.map fun p => (p.1, { p.2 with draws := 0 }) }

/-- SRDRAW (R254). -/
def execSrdraw (w : AluI) (s : State) : Out := s.onX fun x =>
  x.perFibre 8 w.h [w.d.toNat] fun i f =>
    { Res.word w.d.toNat (x.draw i.u f 0) with draws := 1 }

end Sys2Proof.Machine
end

