-- ==== Sys2Proof/Machine/Records.lean ====
section
/-! DEFINITION. Buffer records, global and local address formation, local memory, completion tags,
transaction barrier objects and team barriers (01 R14 to R24, 05 R99 to R110, 11 R219, R220). -/

namespace Sys2Proof.Machine

/-! ### Buffer records (R14 to R17) -/

/-- The fields of a buffer record (R14). -/
structure BufRec where
  type   : Nat
  scope  : Nat
  exNone : Bool
  near   : Bool
  atomic : Bool
  write  : Bool
  read   : Bool
  col    : Bool
  width  : Nat
  swzP   : Nat
  swz    : Nat
  stride : Nat
  extent : Nat
  base   : Nat
  deriving DecidableEq, Repr

/-- The fields of 128 record bits (R14). -/
def BufRec.ofNat (n : Nat) : BufRec where
  type := bitsOf n 124 4
  scope := bitsOf n 120 4
  exNone := bitOf n 119
  near := bitOf n 118
  atomic := bitOf n 117
  write := bitOf n 116
  read := bitOf n 115
  col := bitOf n 114
  width := bitsOf n 112 2
  swzP := bitsOf n 108 4
  swz := bitsOf n 104 4
  stride := bitsOf n 88 16
  extent := bitsOf n 48 40
  base := bitsOf n 0 48

/-- Whether a record is loaded as it stands (R15). -/
def BufRec.valid (r : BufRec) : Bool :=
  decide (r.type = 1 ∨ r.type = 2) && decide (1 ≤ r.scope ∧ r.scope ≤ 6) && decide (r.base % 16 = 0) &&
  decide (r.base + r.extent ≤ 2 ^ 48) &&
  decide ((r.swz = 0 ∧ r.swzP = 0) ∨ ((r.swz = 1 ∨ r.swz = 2) ∧ r.swzP ≤ 7)) &&
  (decide (r.swz = 0) || decide (r.base % 256 = 0 ∧ r.extent % 256 = 0)) &&
  (decide (r.type ≠ 2) || decide (r.width ≠ 0 ∧ r.stride = 0 ∧ r.base % 1024 = 0 ∧ r.extent % 1024 = 0))

/-- Bytes of an element width code (R14); 0 when unset. -/
def BufRec.elem (r : BufRec) : Nat := if r.width = 0 then 0 else 2 ^ (r.width - 1)

/-- Addresses from here on are the model's own names of the argument snapshots: device physical addresses above the
48 bits of a virtual address (R324). -/
def snapBase : Nat := 2 ^ 48

/-- Record n of a grid (R16). The argument slot's record lies over the grid's snapshot (R324). -/
def Grid.record (g : Grid) (n : Nat) : BufRec :=
  let r := BufRec.ofNat (g.recs.getD n 0).toNat
  if g.argVa ≠ 0 ∧ n = g.byte 47 % 16 then { r with base := g.argVa } else r
/-- Record n of a wave's team (R16). -/
def Exec.bufRec (x : Exec) (w : Wave) (n : Nat) : BufRec :=
  (((x.teamOf w).bind x.gridOf).map fun g => g.record n).getD (BufRec.ofNat 0)

/-- Swizzle (R20). -/
def swizzle (o mode p : Nat) : Nat :=
  if mode = 1 then Nat.xor o (o / 2 ^ (7 + p) % 8 * 16)
  else if mode = 2 then Nat.xor o (o / 2 ^ (8 + p) % 8 * 32) else o

/-- What a global or local address check gives (R19, R24): an offset, out of bounds, or a refusal. -/
inductive AddrRes where
  | ok (o : Nat)
  | oob
  | refuse (cause : Nat)
  deriving DecidableEq, Repr

/-- The rights of R22. -/
inductive Right where
  | read | write | atomic | near | code
  deriving DecidableEq, Repr

def BufRec.has (r : BufRec) : Right → Bool
  | .read => r.read
  | .write => r.write
  | .atomic => r.atomic
  | .near => r.near && r.write
  | .code => r.read && !r.exNone

/-- Record and rights checks, made once for an instruction (R19, R22). `need2` asks for Type 2, `only1` for
Type 1. -/
def BufRec.refusal (r : BufRec) (need2 only1 : Bool) (right : Right) : Option Nat :=
  if decide (r.type = 0) || (need2 && decide (r.type ≠ 2)) || (only1 && decide (r.type ≠ 1)) then some cBADREC
  else if !r.has right then some cRIGHTS else none

/-- Bounds and alignment of the offset of one fibre, before swizzling (R19). -/
def BufRec.offset (r : BufRec) (idx : Nat) (imm : Int) (s : Nat) : AddrRes :=
  let scale := if r.stride = 0 then s else r.stride
  let o : Int := (idx : Int) * scale + imm * s
  if o < 0 ∨ (r.extent : Int) < o + s then .oob
  else if o % (s : Int) ≠ 0 then .refuse cALIGN
  else .ok o.toNat

/-- The whole check of R19 with the virtual address. -/
def BufRec.form (r : BufRec) (need2 : Bool) (right : Right) (idx : Nat) (imm : Int) (s : Nat) : AddrRes :=
  match r.refusal need2 false right with
  | some c => .refuse c
  | none =>
    match r.offset idx imm s with
    | .ok o => .ok (r.base + swizzle o r.swz r.swzP)
    | e => e

/-! ### Local memory (R24, R54) -/

/-- Bytes of a team's local allocation (R322). -/
def Exec.localSize (x : Exec) (t : Nat) : Nat :=
  match x.teams.find? t with
  | none => 0
  | some m => (x.gridOf m).elim 0 (·.word 36 4)

/-- The check of R24. -/
def localOffset (size : Nat) (o : Int) (s : Nat) : AddrRes :=
  if o < 0 ∨ (size : Int) < o + s then .oob
  else if o % (s : Int) ≠ 0 then .refuse cALIGN
  else .ok o.toNat

/-- n bytes of a team's allocation. -/
def Team.bytes (m : Team) (o n : Nat) : List Byte := (List.range n).map fun i => m.mem.get 0 (o + i)
/-- Writes bytes at an offset. -/
def putBytes (m : SMap Byte) : Nat → List Byte → SMap Byte
  | _, [] => m
  | o, b :: r => putBytes (m.put 0 o b) (o + 1) r
/-- Whether a byte range touches a poisoned 32-byte sector. -/
def poisonHit (l : List Nat) (o n : Nat) : Bool := l.any fun s => decide (s * 32 < o + n) && decide (o < s * 32 + 32)
/-- Poison after a store: a whole sector is cleared, a partial one kept (R61). -/
def poisonStore (l : List Nat) (o n : Nat) : List Nat :=
  l.filter fun s => !(decide (o ≤ s * 32) && decide (s * 32 + 32 ≤ o + n))
/-- A store to local memory. -/
def Team.store (m : Team) (o : Nat) (b : List Byte) : Team :=
  { m with mem := putBytes m.mem o b, lpois := poisonStore m.lpois o b.length, lunc := poisonStore m.lunc o b.length }
/-- Sectors of a team's local memory that prove uncorrectable in a span become poisoned and are reported (R98, R405). -/
def Exec.detectLocal (x : Exec) (t o n : Nat) : Exec :=
  match x.teams.find? t with
  | none => x
  | some m => (m.lunc.filter fun k => poisonHit [k] o n).foldl (fun x k =>
      (x.modTeam t fun m => { m with lunc := setDel m.lunc k, lpois := setAdd m.lpois k }).err
        { type := 2, die := dieOf m.core, unit := m.core, ctx := (x.gridOf m).elim 0 Grid.ctx }) x

/-! ### Waking held waves -/

/-- The phase of the object at an offset (R103). -/
def Team.phaseAt (m : Team) (o : Nat) : Nat := leNat (m.bytes o 1) % 16
/-- The tag count of a team (R99). -/
def Exec.tagCount (x : Exec) (m : Team) : Nat := (x.gridOf m).elim 0 (·.byte 34)

/-- Whether what a held wave waits for has come about (R102, R108, R220, R226). -/
def Exec.holdMet (x : Exec) (m : Team) (w : Wave) : Bool :=
  match w.hold with
  | some (.handle k) => (w.handle k).ready
  | some (.barrier b gen) => !decide ((m.bars.get {} b).g = gen)
  | some (.tags mask all) =>
    let sel := mask % 2 ^ (x.tagCount m)
    if all then decide (Nat.land m.tdone sel = sel) else decide (sel = 0) || !decide (Nat.land m.tdone sel = 0)
  | some (.phase o p _) => !decide (m.phaseAt o = p)
  | _ => false

/-- Ends the holds of a team's waves that are met. -/
def Exec.wakeTeam (x : Exec) (t : Nat) : Exec :=
  match x.teams.find? t with
  | none => x
  | some m =>
    let met := (x.waves.filter fun p => decide (p.2.team = t) && x.holdMet m p.2).map (·.1)
    met.foldl Exec.unhold x

/-! ### Transaction barrier objects (R103 to R110) -/

/-- The fields of an object (R103). -/
structure TbObj where
  rsv     : Nat
  swapped : Bool
  counted : Bool
  outb    : Nat
  inb     : Nat
  reset   : Nat
  pending : Nat
  phase   : Nat
  deriving DecidableEq, Repr

def TbObj.ofNat (n : Nat) : TbObj where
  rsv := bitsOf n 86 42
  swapped := bitOf n 85
  counted := bitOf n 84
  outb := bitsOf n 60 24
  inb := bitsOf n 36 24
  reset := bitsOf n 20 16
  pending := bitsOf n 4 16
  phase := bitsOf n 0 4
def TbObj.toNat (b : TbObj) : Nat :=
  b.phase + 2 ^ 4 * b.pending + 2 ^ 20 * b.reset + 2 ^ 36 * b.inb + 2 ^ 60 * b.outb +
  2 ^ 84 * (if b.counted then 1 else 0) + 2 ^ 85 * (if b.swapped then 1 else 0) + 2 ^ 86 * b.rsv

def Team.tb (m : Team) (o : Nat) : TbObj := TbObj.ofNat (leNat (m.bytes o 16))
def Team.setTb (m : Team) (o : Nat) (b : TbObj) : Team := m.store o (leBytes 16 b.toNat)

/-- A sector count plus a signed change, and whether it passed between −2^23 and 2^23 − 1 (R105). -/
def tbAdd (c : Nat) (d : Int) : Nat × Bool :=
  let v := signed 24 c + d
  (wrap 24 v, decide (v < -2 ^ 23) || decide (2 ^ 23 - 1 < v))

/-- Who made an update, for the last arriver of R109. -/
inductive TbBy where
  | arrive (u : Nat)
  | detach
  | other
  deriving DecidableEq, Repr

/-- The last arriver the ended phase designates (R109): in deterministic mode the highest wave index that
arrived, else the wave that brought Pending to 0. -/
def Exec.lastArriver (x : Exec) (det : Bool) (i : TbInfo) : Option Nat :=
  if det then
    i.arrived.foldl (fun best u =>
      match best with
      | none => some u
      | some v => if ((x.wave? v).elim 0 Wave.idx) < ((x.wave? u).elim 0 Wave.idx) then some u else some v) none
  else i.by0

/-- Applies an update to the object at an offset, then the phase test (R105, R106), and wakes waiters. -/
def Exec.tbApply (x : Exec) (t o : Nat) (by_ : TbBy) (b : TbObj) (wrapped : Bool) : Exec :=
  match x.teams.find? t with
  | none => x
  | some m =>
    let det := (x.gridOf m).elim false Grid.determ
    let old := m.tb o
    let i := m.tbinfo.get {} o
    let i : TbInfo :=
      match by_ with
      | .arrive u =>
        { arrived := setAdd i.arrived u, last := i.last.filter fun p => !decide (p.2 = u),
          by0 := if b.pending = 0 && !decide (old.pending = 0) then some u else i.by0 }
      | .detach => if b.pending = 0 && !decide (old.pending = 0) then { i with by0 := none } else i
      | .other => i
    let adv := decide (b.pending = 0 ∧ b.inb = 0 ∧ b.outb = 0)
    let b' : TbObj := if adv then { b with phase := (b.phase + 1) % 16, pending := b.reset, swapped := false } else b
    let i' : TbInfo :=
      if adv then
        { arrived := [], by0 := none
          last := match x.lastArriver det i with
            | some u => i.last.insert b.phase u
            | none => i.last.erase b.phase }
      else i
    let x := x.modTeam t fun m => { m.setTb o b' with tbinfo := m.tbinfo.put {} o i' }
    (x.setStatusIf wrapped t stTBWRAP).wakeTeam t

/-- An engine's sector decrement (R105): TBERR when the object's reserved bits are set (R104). -/
def Exec.tbDecrement (x : Exec) (t o : Nat) (inbound : Bool) : Exec :=
  match x.teams.find? t with
  | none => x
  | some m =>
    let b := m.tb o
    if b.rsv ≠ 0 then x.setStatus t stTBERR
    else
      let p := tbAdd (if inbound then b.inb else b.outb) (-1)
      x.tbApply t o .other (if inbound then { b with inb := p.1 } else { b with outb := p.1 }) p.2

/-- The membership update of one joining or leaving wave on every registered object (R107): the state, and
whether some Reset would pass 65,535. R107 limits Reset alone: a Pending that stands at 65,535 below it wraps to 0 (log entry
79, DESIGN CHOICE). -/
def Exec.tbMembership (x : Exec) (t : Nat) (join : Bool) : Exec × Bool :=
  match x.teams.find? t with
  | none => (x, false)
  | some m =>
    m.tbreg.foldl (fun (acc : Exec × Bool) o =>
      match acc.1.teams.find? t with
      | none => acc
      | some m =>
        let b := m.tb o
        if b.rsv ≠ 0 then (acc.1.setStatus t stTBERR, acc.2)
        else if join then
          (if b.reset = 65535 then (acc.1, true)
           else (acc.1.tbApply t o .other { b with reset := b.reset + 1, pending := (b.pending + 1) % 2 ^ 16 } false, acc.2))
        else
          (acc.1.tbApply t o .detach { b with reset := b.reset - 1, pending := b.pending - 1 } false, acc.2))
      (x, false)

/-! ### Team barriers (R219, R220) -/

/-- Ordinary waves of a team that have not exited. -/
def Exec.waveCount (x : Exec) (t : Nat) : Nat := (x.teamWaves t).length

/-- Complete(b) of R220. -/
def Exec.barComplete (x : Exec) (t b : Nat) : Exec :=
  match x.teams.find? t with
  | none => x
  | some m =>
    let r := m.bars.get {} b
    let req := if r.n ≠ 0 then r.n else x.waveCount t
    if decide (req ≤ r.a) && decide (0 < r.a) then
      (x.modTeam t fun m => { m with bars := m.bars.put {} b { r with g := (r.g + 1) % 2 ^ 16, a := 0 } }).wakeTeam t
    else x

/-- Complete of every barrier of a team (R220). -/
def Exec.barCompleteAll (x : Exec) (t : Nat) : Exec := (List.range 16).foldl (fun x b => x.barComplete t b) x

end Sys2Proof.Machine
end

