-- ==== Sys2Proof/Machine/MatrixSign.lean ====
section
/-! DEFINITION. Signing and starting a frieze operation, and what a leaving member does to its frieze
(08 R159 to R162, 15 R293 to R303, R312). -/

namespace Sys2Proof.Machine

/-- Lets the waves held for a reason issue their instruction again. -/
def Exec.wakeRetry (x : Exec) (why : Nat) : Exec :=
  x.unholdWhere fun _ w => decide (w.hold = some (.retry why))

/-! ### Kinds of staged operations (R350) -/

def skStore := 1
def skAtomic := 2
def skTouch := 3
def skSend := 4
def skHostLoad := 5
def skArrive := 6
def skTbarv := 7
def skAttach := 8
def skDetach := 9
def skCopy := 10
def skMatrix := 11
def skNmcmd := 12
def skResid := 13
def skColl := 14

/-- Stages an operation of a wave's open quantum, ahead of what handler waves have staged for it (R342), with the bits of the
instruction that the run issues (R202). -/
def Exec.stage (x : Exec) (u : Nat) (e : Staged) : Exec :=
  let e : Staged := match x.cur with
    | some c => if c.wave = u then { e with len := c.len, raw := c.raw } else e
    | none => e
  x.modWave u fun w =>
    { w with staged := w.staged.filter (fun e => e.owner.isNone) ++ e :: w.staged.filter fun e => e.owner.isSome }

/-! ### Majors of the frieze operations (R293) -/

def mjMMA := 0x1c0
def mjMMAR := 0x1c1
def mjMMD := 0x1c2
def mjMMLR := 0x1c3
def mjTZERO := 0x1c4
def mjTLOAD := 0x1c5
def mjTSTORE := 0x1c6
def mjTNEW := 0x1c8
def mjTFREE := 0x1c9
def mjSCAN := 0x1cc

/-- The products: those that take A, B and the words 0 to 7. -/
def isProduct (mj : Nat) : Bool := decide (mj ≤ 0x1c3)
/-- Operand words an operation reads (R295). -/
def wordCount (mj : Nat) : Nat :=
  if mj = mjMMD ∨ mj = mjMMLR then 16 else if isProduct mj then 8
  else if mj = mjTZERO ∨ mj = mjTFREE then 0 else if mj = mjSCAN then 1 else 4

/-- Bits of a matrix modifier (R294). -/
def mxKeep (m : Nat) : Bool := bitOf m 15
def mxSq (m : Nat) : Bool := bitOf m 14
def mxCol (m : Nat) : Bool := bitOf m 13
def mxSc (mj m : Nat) : Bool := bitOf m 12 && !decide (mj = mjMMD)
def mxOl (mj m : Nat) : Bool := bitOf m 11 && !decide (mj = mjMMD)
/-- MMD's source and orientation of X. -/
def mdQx (m : Nat) : Bool := bitOf m 12
def mdOx (m : Nat) : Bool := bitOf m 11

/-! ### Operand formats (R297) -/

/-- An element type: 0 INT8, 1 INT4, d + 2 the format of descriptor d. -/
def Exec.elemSpec? (x : Exec) (int : Bool) (code : Nat) : Option Nat :=
  if int then some code
  else ((x.fmt? code).filter fun f => decide (3 ≤ f.width)).map fun _ => x.desc code + 2
/-- Storage bits of an element type (R174). -/
def specBits (n : Nat) : Nat := if n = 0 then 8 else if n = 1 then 4 else (fmtOfDesc (n - 2)).storage
/-- The value of an element's bits. -/
def specValue (n b : Nat) : XR :=
  if n = 0 then .ofInt (signed 8 b) else if n = 1 then .ofInt (signed 4 b) else value (fmtOfDesc (n - 2)) b

/-- K of a class (R297). -/
def classK (bits : Nat) : Nat := if bits = 4 then 128 else if bits = 8 then 64 else 32
/-- Row length of A: K, or 64 for MMD (R308). -/
def rowLen (mj bits : Nat) : Nat := if mj = mjMMD then 64 else classK bits
/-- Registers per A row block. -/
def regsPer (mj bits : Nat) : Nat := 8 * rowLen mj bits * bits / 8 / 512

/-! ### Checks at signing (R295, R297, R300, R303) -/

def word (l : List Nat) (i : Nat) : Nat := l.getD i 0

/-- Whether words i to i + 2 name a B or X source within range (R295). -/
def srcOk (sq : Bool) (l : List Nat) (i : Nat) : Bool :=
  if sq then decide (word l (i + 2) < 2 ^ 20) && decide (word l (i + 2) % 2 ^ 16 ≠ 0)
  else decide (word l (i + 1) = 0) && decide (word l (i + 2) = 0)

/-- The operand words' zero fields and ranges (R295). -/
def wordsOk (mj m : Nat) (l : List Nat) : Bool :=
  if isProduct mj then
    srcOk (mxSq m) l 0 &&
    decide (bitsOf (word l 3) 21 11 = 0) && decide (bitsOf (word l 3) 13 3 = 0) && decide (bitsOf (word l 3) 5 3 = 0) &&
    (mxSc mj m || decide (word l 4 = 0 ∧ word l 5 = 0)) && (mxOl mj m || decide (word l 6 = 0)) &&
    decide (word l 7 = 0) &&
    (if mj = mjMMLR then decide (1 ≤ word l 10 ∧ word l 10 ≤ 16) && (l.drop 11).all (· = 0)
     else if mj = mjMMD then srcOk (mdQx m) l 8 && (l.drop 11).all (· = 0) else true)
  else if mj = mjTLOAD ∨ mj = mjTSTORE ∨ mj = mjTNEW then
    decide (word l 0 < 2 ^ 7) && (bitOf (word l 0) 4 || decide (word l 0 % 16 = 0)) &&
    decide (word l 1 % 64 = 0) && decide (word l 2 = 0 ∧ word l 3 = 0)
  else true

/-- Bytes of a tile image (R309). -/
def imageSize (form : Nat) : Nat :=
  4096 * ((if form % 2 = 0 then 4 else 8) + (if 2 ≤ form then 4 else 0))

/-- Scale blocks of a row of A or a column of B (R301). -/
def scaleBlocks (k kq : Nat) : Nat := (k + kq + 31) / 32
def kqA (l : List Nat) : Nat := word l 3 % 32
def kqB (l : List Nat) : Nat := bitsOf (word l 3) 8 5
def lowpT (l : List Nat) : Nat := bitsOf (word l 3) 16 5

/-- The local spans an operation reads or writes: start, alignment, bytes (R303, step 6, log entry 41, DEDUCED). -/
def localSpans (mj m : Nat) (l : List Nat) (bits : Nat) : List (Nat × Nat × Nat) :=
  if isProduct mj then
    let k := rowLen mj bits
    let nbA := scaleBlocks k (kqA l)
    (if mxSq m then [] else [(word l 0, 32, k * 64 * bits / 8)]) ++
    (if mj = mjMMD ∧ mdQx m = false then [(word l 8, 32, k * 64 * bits / 8)] else []) ++
    (if mxSc mj m then [(word l 4, 1, 64 * nbA), (word l 5, 1, 64 * scaleBlocks k (kqB l))] else []) ++
    (if mxOl mj m then [(word l 6, 1, 16 * 64 * nbA)] else []) ++
    (if mj = mjMMLR then [(word l 8, 32, 2 * (16 * 63 + word l 10)), (word l 9, 32, 128 * word l 10)] else [])
  else if mj = mjTLOAD ∨ mj = mjTSTORE ∨ mj = mjTNEW then
    (if bitOf (word l 0) 4 then [] else [(word l 1, 1, imageSize (bitsOf (word l 0) 5 2))])
  else if mj = mjSCAN then [(word l 0, 128, 128)]
  else []

/-- The first failure among local spans: ALIGN of any, then OOB of any (R303). -/
def spansFail (size : Nat) (l : List (Nat × Nat × Nat)) : Option Nat :=
  if l.any fun p => decide (p.1 % p.2.1 ≠ 0) then some cALIGN
  else if l.any fun p => decide (size < p.1 + p.2.2) then some cOOB else none

/-- A stored element's record offset (R300). -/
def squareOffset (w wsq row col : Nat) : Nat :=
  1024 * ((row / 32) * wsq + col / (32 / w)) + 32 * (row % 32) + w * (col % (32 / w))

/-- The check of a square source in words i to i + 2, k deep (R300, R303). -/
def squareFail (r : BufRec) (l : List Nat) (i k bits : Nat) (col : Bool) : Option Nat :=
  match r.refusal true false .read with
  | some c => some c
  | none =>
    let w := r.elem
    let e := 32 / w
    let wsq := word l (i + 2) % 2 ^ 16
    let rows := if col then 64 else k
    let cols := if col then k else 64
    if decide (r.swz ≠ 0) || decide (wsq * e < word l (i + 1) + cols) then some cMXOPD
    else if 8 * w ≠ bits then some cFMTBAD
    else if word l i % 32 ≠ 0 ∨ word l (i + 1) % e ≠ 0 then some cALIGN
    else if r.extent < squareOffset w wsq (word l i + rows - 1) (word l (i + 1) + cols - 1) + w then some cOOB
    else none

/-- The check of a global tile image (R309). -/
def imageFail (r : BufRec) (mj : Nat) (l : List Nat) : Option Nat :=
  match r.refusal false false (if mj = mjTLOAD then .read else .write) with
  | some c => some c
  | none =>
    if r.stride ≠ 0 ∨ r.swz ≠ 0 then some cMXOPD
    else if r.extent < word l 1 + imageSize (bitsOf (word l 0) 5 2) then some cOOB else none

/-- The first failure of two optional ones. -/
def firstFail (a b : Option Nat) : Option Nat := match a with
  | some c => some c
  | none => b

/-- Squares and global images (R303, step 7). -/
def Exec.globalFail (x : Exec) (w : Wave) (mj m : Nat) (l : List Nat) (bits : Nat) : Option Nat :=
  let rec_ (i : Nat) := x.bufRec w (bitsOf (word l i) 16 4)
  if isProduct mj then
    firstFail (if mxSq m then squareFail (rec_ 2) l 0 (rowLen mj bits) bits (mxCol m) else none)
      (if mj = mjMMD ∧ mdQx m = true then squareFail (rec_ 10) l 8 64 bits (mdOx m) else none)
  else if (mj = mjTLOAD ∨ mj = mjTSTORE ∨ mj = mjTNEW) ∧ bitOf (word l 0) 4 = true then
    imageFail (x.bufRec w (word l 0 % 16)) mj l
  else none

/-! ### A supplied from V registers (R298) -/

/-- Blocks of a member of rank i of m. -/
def rankBlocks (i m : Nat) : List Nat := (List.range 8).filter fun b => decide (b % m = i)

/-- A fibre's A register: zero for a group fibre whose guard is false, else as it stands (R293, R298). -/
def Exec.aWord (x : Exec) (i : Iss) (h : Hd) (f k : Nat) : Option Word :=
  if i.grp.contains f && !((i.w.fib f).guard h.pg.toNat h.pn) then some 0 else x.ownRead i f k

/-- The image of one block in g registers from V[k]; `none` when a register is poisoned. -/
def Exec.blockImage (x : Exec) (i : Iss) (h : Hd) (k g : Nat) : Option (List Byte) :=
  ((List.range g).mapM fun r => (List.range 128).mapM fun f => (x.aWord i h f (k + r)).map fun v => leBytes 4 v.toNat).map
    fun l => (l.map List.flatten).flatten

/-- The blocks a member supplies from V[s1]. -/
def Exec.aImages (x : Exec) (i : Iss) (h : Hd) (s1 g : Nat) (blocks : List Nat) : Option (List (Nat × List Byte)) :=
  (blocks.zipIdx).mapM fun p => (x.blockImage i h (s1 + g * p.2) g).map fun b => (p.1, b)

/-! ### Convergence registers and armatures -/

def Team.conv (m : Team) (k : Nat) : Conv := m.convs.get {} k
def Team.setConv (m : Team) (k : Nat) (c : Conv) : Team := { m with convs := m.convs.put {} k c }
/-- The frieze a wave index belongs to (R159). -/
def Team.friezeOf (m : Team) (idx : Nat) : Option Nat := findIdx (fun k => bitOf (m.conv k).members idx) (List.range 8) 0
/-- The armature's key: a frieze's number, or a lone wave's own (R299). -/
def armKey (k : Option Nat) (u : Nat) : Nat := k.getD (8 + u)

/-- The convergence register as SRR reads it (R159). -/
def Conv.toNat (c : Conv) : Nat := c.members + 2 ^ 16 * c.signed + 2 ^ 32 * c.seq

/-- Started operations of the teams on a core, the head first: those of a team that was stopped are saved with it, but one of
them that runs, which completes, a SCAN aside (R314). The first 32 are the engine's queue (R312); others, of a team that came back to a queue without room, wait behind it (log entry
74, DEDUCED). -/
def Exec.mxOn (x : Exec) (core : Nat) : List MxOp :=
  x.mxs.filter fun o => decide (o.core = core) && !o.det &&
    ((o.begun && !decide (o.major = mjSCAN)) ||
     (x.teams.find? o.team).elim false fun m => decide (m.st = .resident) || decide (m.st = .ended))
/-- Whether a core's queue has a place: a deterministic grid's started operations take one each until their commit (R312, R350). -/
def Exec.mxRoom (x : Exec) (core : Nat) : Bool :=
  decide ((x.mxOn core).length + (x.mxs.filter fun o => decide (o.core = core) && o.det).length < 32)

/-- Enters a started operation in its core's queue; a deterministic grid's is staged (R312, R350). -/
def Exec.mxEnter (x : Exec) (o : MxOp) (u : Nat) : Exec :=
  let x := { x with mxs := x.mxs ++ [o] }
  if o.det then
    x.stage u { step := 3, kind := skMatrix, pc := 0, args := [o.id] }
  else x.post 1 (.matrixOpPerform o.core)

/-- The operation of a complete signature set starts (R161, R299): the armature takes A, Signed clears,
Sequence counts. `bits` are the signed instruction bits. -/
def Exec.mxStart (x : Exec) (t : Nat) (k : Option Nat) (key u : Nat) (g : Sig) : Exec :=
  match x.teams.find? t with
  | none => x
  | some m =>
    let mj := g.bits % 512
    let md := g.bits / 2 ^ 37
    let rk := rowLen mj (specBits g.specs.1)
    let a := match m.arms.find? key with
      | some r => r.img
      | none => (List.range 8).map fun b => (SMap.find? g.imgs b).getD []
    let det := (x.gridOf m).elim false Grid.determ
    let o : MxOp :=
      { id := g.op, team := t, wave := u, core := m.core, major := mj, m := md, d := g.bits / 512 % 128, words := g.words,
        a := a, specs := g.specs, det := det, begun := false, held := [], sc := 0, bad := false, order := x.fresh, blk := [] }
    let x := { x with fresh := x.fresh + 1 }
    let x := x.modTeam t fun m =>
      let m := match k with
        | none => m
        | some k =>
          let c := m.conv k
          m.setConv k { c with signed := 0, seq := (c.seq + 1) % 256, sig := none }
      if isProduct mj then
        { m with arms :=
          if mxKeep md then m.arms.insert key ⟨md / 16 % 16 + (if bitOf md 10 then 16 else 0), g.specs.1, rk, a⟩
          else m.arms.erase key }
      else m
    (x.mxEnter o u).wakeRetry rvMatrix

/-- The bits a signature records: major, D, S1, S2, S3, M (R161). -/
def OwnIbits (mj : Nat) (w : OwnI) : Nat :=
  mj + 2 ^ 9 * (w.d.toNat + 2 ^ 7 * (w.s1.toNat + 2 ^ 7 * (w.s2.toNat + 2 ^ 7 * (w.s3.toNat + 2 ^ 7 * w.m.toNat))))

/-- Checks 3 to 7 of R303, and the A images a member supplies. -/
def Exec.signChecks (x : Exec) (i : Iss) (mj : Nat) (w : OwnI) (ranks : List Nat) (arm : Option Armature)
    (l : List Nat) : Except Nat (List (Nat × List Byte) × (Nat × Nat)) :=
  let m := w.m.toNat
  if !wordsOk mj m l then .error cMXOPD
  else
    let specs : Option (Nat × Nat) :=
      if isProduct mj then
        match x.elemSpec? (bitOf m 10) (m / 16 % 16), x.elemSpec? (bitOf m 9) (m % 16) with
        | some a, some b =>
          let n := specBits a
          let armBad := match arm with
            | none => false
            | some r => !decide (r.fmt = m / 16 % 16 + (if bitOf m 10 then 16 else 0)) || !decide (r.spec = a) ||
              !decide (r.rowk = rowLen mj n)
          if decide (n ≠ specBits b) || ((mxSc mj m || mxOl mj m) && decide (8 < n)) ||
            (decide (mj = mjMMD) && !decide (n = 8 ∨ n = 16)) || armBad then none
          else some (a, b)
        | _, _ => none
      else some (0, 0)
    match specs with
    | none => .error cFMTBAD
    | some sp =>
      let n := specBits sp.1
      let g := regsPer mj n
      let mine := if isProduct mj && arm.isNone then
          rankBlocks ((findIdx (fun j => decide (j = i.w.idx)) ranks 0).getD 0) (max ranks.length 1) else []
      let regs := (List.range (g * mine.length)).map (w.s1.toNat + ·)
      if regs.any fun k => decide (x.budget i.u 0 ≤ k) then .error cREGRNG
      else
        match x.aImages i w.h w.s1.toNat g mine with
        | none => .error cPOISON
        | some imgs =>
          match spansFail (x.localSize i.w.team) (localSpans mj m l n) with
          | some c => .error c
          | none =>
            match x.globalFail i.w mj m l n with
            | some c => .error c
            | none => .ok (imgs, sp)

/-- Refuses a signature: every fibre of the group traps; OOB sets its status bit (R300, R303). -/
def Exec.signRefuse (x : Exec) (i : Iss) (c : Nat) : Exec :=
  (x.setStatusIf (decide (c = cOOB)) i.w.team stOOB).trapAll i i.grp c 8

/-- The signature itself, a release after the wave's side log (R45, R127): the handle is bound, and a complete set starts
unless the queue is full. -/
def Exec.signWith (x : Exec) (i : Iss) (k : Option Nat) (key : Nat) (w : OwnI) (c : Conv) (g : Sig) : Exec :=
  let s := if k.isSome then bitSet c.signed i.w.idx true else 0
  let full := decide (s = c.members) || k.isNone
  if !i.w.log.isEmpty then x.hold i (.retry rvLog)
  else if full && !x.mxRoom (x.coreOf i.w) then x.hold i (.retry rvMatrix)
  else
    let x := if g.bits % 512 = mjTFREE then x else x.bindHandle i.u w.s3.toNat g.op
    let x := match k with
      | none => x
      | some k => x.modTeam i.w.team fun m => m.setConv k { c with signed := s, sig := some g }
    (if full then x.mxStart i.w.team k key i.u g else x).advance i 8

/-- A frieze operation (R160, R161, R293, R303). `bind` says that S3 names a handle (log entry 43, DEDUCED). -/
def Exec.frieze (x : Exec) (mj : Nat) (w : OwnI) : Exec :=
  match x.issue? with
  | none => x
  | some i =>
    match x.teams.find? i.w.team with
    | none => x
    | some tm =>
      if i.inHandler then x.signRefuse i cHNDOP
      else
        let k := tm.friezeOf i.w.idx
        let key := armKey k i.u
        let l := (List.range (wordCount mj)).map fun j => (x.readW i.u (w.s2.toNat + j)).toNat
        let bits := OwnIbits mj w
        let c := (k.map tm.conv).getD {}
        if k.isSome && i.diverged && !i.w.resumed then x.signRefuse i cMXDIV
        else if k.isSome && bitOf c.signed i.w.idx then x.hold i (.retry rvMatrix)
        else
          match c.sig with
          | some g =>
            if g.bits ≠ bits ∨ g.words ≠ l then x.signRefuse i cFRZMIS
            else
              match x.signChecks i mj w g.ranks (tm.arms.find? key) l with
              | .error e => x.signRefuse i e
              | .ok (imgs, _) => x.signWith i k key w c { g with imgs := imgs.foldl (fun a p => SMap.insert a p.1 p.2) g.imgs }
          | none =>
            let ranks := if k.isSome then (List.range 16).filter (bitOf c.members ·) else [i.w.idx]
            match x.signChecks i mj w ranks (tm.arms.find? key) l with
            | .error e => x.signRefuse i e
            | .ok (imgs, sp) =>
              let t := x.take
              t.2.signWith i k key w c ⟨bits, l, ranks, t.1, imgs, sp⟩

/-- Whether every member has signed, so that the operation starts as soon as the queue has a place (R161, R162). -/
def Conv.complete (c : Conv) : Bool := decide (c.members ≠ 0 ∧ c.signed = c.members) && c.sig.isSome
/-- The operation of a frieze of a team starts, if every member has signed and its core's queue has a place; `u` is the wave
that brings it about (R162, R312, log entry 74, DEDUCED). -/
def Exec.mxReady (x : Exec) (t k u : Nat) : Exec :=
  match x.teams.find? t with
  | none => x
  | some m =>
    match (m.conv k).sig with
    | some g => if (m.conv k).complete && x.mxRoom m.core then x.mxStart t (some k) k u g else x
    | none => x
/-- The operations of a core that waited for a place start, those of the team that came first before others. -/
def Exec.mxReadyAll (x : Exec) (core : Nat) : Exec :=
  (x.teams.filter fun p => decide (p.2.core = core ∧ p.2.st = .resident)).foldl (fun x p =>
    (List.range 8).foldl (fun x k =>
      x.mxReady p.1 k (((x.teamWaves p.1).find? fun w => bitOf (p.2.conv k).members w.2.idx).elim 0 (·.1))) x) x

/-- A member leaves its frieze: by DETACH, by an exit with signatures pending, or because its index goes to an attached wave
(R157, R158, R162). -/
def Exec.friezeLeave (x : Exec) (t idx u : Nat) : Exec :=
  match x.teams.find? t with
  | none => x
  | some m =>
    match m.friezeOf idx with
    | none => x
    | some k =>
      let c := m.conv k
      let c' := { c with members := bitSet c.members idx false, signed := bitSet c.signed idx false }
      if c'.members = 0 then
        let x := x.modTeam t fun m =>
          { m.setConv k { c' with signed := 0, sig := none } with arms := m.arms.erase k }
        match c.sig with
        | none => x
        | some g => (x.complete g.op (BitVec.ofNat 32 (3 * 2 ^ 28)) []).wakeRetry rvMatrix
      else if c'.signed = 0 then
        (x.modTeam t fun m => m.setConv k { c' with sig := none }).wakeRetry rvMatrix
      else
        (x.modTeam t fun m => m.setConv k c').mxReady t k u

end Sys2Proof.Machine
end

