-- ==== Sys2Proof/Machine/Life.lean ====
section
/-! DEFINITION. How waves start, wait for one another and end: REJOIN releases, wave exit, joining waves, the
grid barrier's arrivals (08 R143 to R164, 17 R337, R347). -/

namespace Sys2Proof.Machine

/-! ### REJOIN (R153, R154) -/

/-- Whether fibre j satisfies a mask that waits at PC p: Free, or waiting in a REJOIN at p. -/
def Wave.rejoined (w : Wave) (p j : Nat) : Bool :=
  match (w.fib j).st with
  | .free => true
  | .waiting (.rejoin _ _) => decide ((w.fib j).pc = p)
  | _ => false

/-- The mask a fibre waits with, if it waits in a REJOIN. -/
def Fib.rejoin? (b : Fib) : Option (Nat × Nat) := match b.st with
  | .waiting (.rejoin m r) => some (m, r)
  | _ => none

/-- The fibres that R153 releases now. -/
def Wave.released (w : Wave) : List Nat :=
  (w.fibs.filter fun p =>
    match p.2.rejoin? with
    | some (m, _) => (List.range 128).all fun j => !bitOf m j || decide (j = p.1) || w.rejoined p.2.pc j
    | none => false).map (·.1)

/-- Every unfinished fibre waits in a REJOIN, and there is one. -/
def Wave.deadlocked (w : Wave) : Bool :=
  let l := w.fibs.filter fun p => p.2.unfinished
  !l.isEmpty && l.all fun p => p.2.rejoin?.isSome

/-- Releases the fibres of R153 or, when none can be and all wait, traps them all (R154). -/
def Exec.rejoinSettle (x : Exec) (u : Nat) : Exec :=
  match x.wave? u with
  | none => x
  | some w =>
    match w.released with
    | [] =>
      if w.deadlocked then
        w.fibs.foldl (fun x p => match p.2.rejoin? with
          | some (_, r) => x.takeTrap u p.1 { cause := cREJOIN, len := 8, raw := r, pc := p.2.pc }
          | none => x) x
      else x
    | l => l.foldl (fun x f => x.resume u f (((w.fib f).pc + 8) % 2 ^ 48)) x

/-! ### Starting a wave (R143, R144, R157) -/

/-- Ordinary waves that have not exited on a quadrant of a core. -/
def Exec.quadLoad (x : Exec) (core q : Nat) : Nat :=
  (x.waves.filter fun p => !p.2.exited && p.2.handler.isNone && decide (p.2.quad = q) &&
    ((x.teamOf p.2).elim false fun m => decide (m.core = core ∧ m.st = .resident))).length

/-- The quadrant with the fewest waves, the lowest first (R144). -/
def Exec.pickQuad (x : Exec) (core : Nat) : Nat := (leastBy (fun q => x.quadLoad core q) (List.range 4)).getD 0

/-- Ordinary waves resident on a core. -/
def Exec.coreLoad (x : Exec) (core : Nat) : Nat := ((List.range 4).map (x.quadLoad core)).sum

/-- Starts a wave with its first n fibres Ready at an entry (R143). -/
def Exec.startWave (x : Exec) (t idx role entry n : Nat) : Nat × Exec :=
  let core := (x.teams.find? t).elim 0 Team.core
  let w : Wave :=
    { team := t, idx := idx, role := role, quad := x.pickQuad core, stamp := x.fresh,
      fibs := (List.range n).map fun f => (f, { st := .ready, pc := entry }), starved := List.range n }
  (x.fresh, { x with waves := x.waves.insert x.fresh w, fresh := x.fresh + 1 })

/-- The lowest free wave index of a team. -/
def Exec.freeIndex (x : Exec) (t : Nat) : Nat :=
  let used := (x.teamWaves t).map (·.2.idx)
  ((List.range 16).find? fun i => !used.contains i).getD 16

/-- ATTACH's result word (R157). -/
def attachWord (fail : Bool) (reason idx : Nat) : Word :=
  BitVec.ofNat 32 ((if fail then 2 ^ 31 else 0) + reason * 2 ^ 16 + idx)

/-- ATTACH performed for a wave (R157): a refusal's reason, the lowest that holds, or the new wave (log entry 33, DEDUCED). -/
def Exec.attach (x : Exec) (u d role entry : Nat) : Exec :=
  match x.wave? u with
  | none => x
  | some w =>
    let t := w.team
    let core := x.coreOf w
    let reason :=
      if 16 ≤ x.waveCount t then 1 else if 64 ≤ x.coreLoad core then 2 else if 1 < role then 3
      else if entry % 8 ≠ 0 then 4 else 0
    if reason ≠ 0 then x.writeW u d (attachWord true reason 0)
    else
      let idx := x.freeIndex t
      let x := x.friezeLeave t idx u
      let p := x.startWave t idx role entry 128
      let x := p.2.writeW p.1 0 (BitVec.ofNat 32 w.idx)
      let q := x.tbMembership t true
      let x := if q.2 then q.1.takeTrap p.1 0 { cause := cTBOVER, len := 0, pc := entry } else q.1
      (x.barCompleteAll t).writeW u d (attachWord false 0 idx)

/-! ### The end of a wave (R152, R158, R347) -/

/-- Every slot is Free. -/
def Wave.finished (w : Wave) : Bool := w.fibs.all fun p => decide (p.2.st = .free)

/-- A team has no live wave of its own and no handler wave. -/
def Exec.teamOver (x : Exec) (t : Nat) : Bool := (x.teamWaves t).isEmpty && (x.handlerWaves t).isEmpty

/-- An exiting wave leaves its frieze where signatures are pending, or where it is the only member (R162). An exit with none
pending changes no convergence register, so that R390's state holds after the run (log entry 80, DEDUCED). -/
def Exec.friezeExit (x : Exec) (t idx u : Nat) : Exec :=
  match (x.teams.find? t).bind fun m => (m.friezeOf idx).map fun k => m.conv k with
  | some c => if c.signed ≠ 0 ∨ bitSet c.members idx false = 0 then x.friezeLeave t idx u else x
  | none => x

/-- A wave whose slots are all Free exits: it leaves its frieze, barriers count again, and a handler wave's slot
frees, its staged writes following those of its origin wave (R342). Its slot may let a team be placed (R328). -/
def Exec.exitSettle (x : Exec) (u : Nat) : Exec :=
  match x.wave? u with
  | none => x
  | some w =>
    if w.exited || !w.finished then x
    else
      let x := match w.handler with
        | some h =>
          let x := match h.orgs with
            | o :: _ => x.modWave o fun v =>
                { v with staged := v.staged ++ w.staged.map fun (e : Staged) => { e with owner := some (e.owner.getD u) } }
            | [] => x
          let x := x.modWave u fun v => { v with exited := true, hold := none, staged := [] }
          x.post 0 (.handlerDispatch (x.coreOf w) (w.idx - 16))
        | none =>
          let x := x.friezeExit w.team w.idx u
          let x := x.modWave u fun v => { v with exited := true, hold := none }
          x.barCompleteAll w.team
      let x := x.post 0 .teamPlacement
      let x := if x.determ w then x.post 0 (.quantumCommit ((x.teamOf w).elim 0 Team.grid)) else x
      if x.teamOver w.team then x.post 0 (.teamFree w.team) else x

/-- What follows a change of fibre states in a wave: REJOIN releases, then exit. -/
def Exec.settleWave (x : Exec) (u : Nat) : Exec := (x.rejoinSettle u).exitSettle u

/-- DETACH performed for a wave (R158). -/
def Exec.detach (x : Exec) (u : Nat) : Exec :=
  match x.wave? u with
  | none => x
  | some w =>
    let x := ((x.tbMembership w.team false).1).friezeLeave w.team w.idx u
    let x := w.fibs.foldl (fun x p => x.closeAll u p.1) x
    let x := x.modWave u fun v => { v with fibs := v.fibs.map fun p => (p.1, { p.2 with st := .free }) }
    x.exitSettle u

/-! ### Quanta (R348) -/

/-- Closes a wave's quantum in deterministic mode: it issues nothing more before the commit (R348). -/
def Exec.closeQuantum (x : Exec) (u : Nat) : Exec :=
  match x.wave? u with
  | none => x
  | some w =>
    if w.closed || w.handler.isSome || !x.determ w then x
    else (x.modWave u fun w => { w with closed := true, quanta := w.quanta + 1 }).post 0
      (.quantumCommit ((x.teamOf w).elim 0 Team.grid))

/-! ### The grid barrier (R164) -/

/-- Every unfinished fibre of a wave waits at a GRIDBAR. -/
def Wave.atGridbar (w : Wave) : Bool :=
  let l := w.fibs.filter fun p => p.2.unfinished
  !l.isEmpty && l.all fun p => decide (p.2.st = .waiting .gridbar)

/-- Live ordinary waves of a grid. -/
def Exec.gridWaves (x : Exec) (g : Nat) : List (Nat × Wave) :=
  x.waves.filter fun p => !p.2.exited && p.2.handler.isNone && ((x.teamOf p.2).elim false fun m => decide (m.grid = g))

/-- Releases every wave that waits at the barrier of a grid; in deterministic mode at a commit, before the next round opens. -/
def Exec.gridbarRelease (x : Exec) (g : Nat) : Exec :=
  let ws := x.gridWaves g
  let x := ws.foldl (fun x p =>
    let x := x.unhold p.1
    p.2.fibs.foldl (fun x q => if q.2.st = .waiting .gridbar then x.resume p.1 q.1 ((q.2.pc + 8) % 2 ^ 48) else x) x) x
  x.modGrid g fun r => { r with gbGen := r.gbGen + 1 }

end Sys2Proof.Machine
end

