-- ==== Sys2Proof/Machine/Control.lean ====
section
/-! DEFINITION. Branches, fibres, team membership, team barriers, convergence registers, future handles, quanta
and sleep, and encodings that go to the emulation handler (08 R151 to R164, 10 R200, 11 R209 to R227). -/

namespace Sys2Proof.Machine

/-! ### Drivers -/

/-- Sets the PCs of the group: Ready fibres that still stand at the instruction go where `to` says. -/
def Exec.advanceTo (x : Exec) (i : Iss) (target : Nat → Nat) : Exec :=
  x.modWave i.u fun w =>
    i.grp.foldl (fun w f =>
      w.modFib f fun b => if b.isReady && decide (b.pc = i.pc) then { b with pc := target f % 2 ^ 48 } else b) w

/-- A branch (R215): guard-true fibres go to their targets, a pair register's poison or a register past the
budget trapping them; `link` names the pair that receives the return address. -/
def Exec.branch (x : Exec) (len : Nat) (h : Hd) (named : List Nat) (link : Option Nat)
    (target : Iss → Nat → Option Nat) : Exec :=
  match x.issue? with
  | none => x
  | some i =>
    let ret := i.pc + 8
    let rs := (i.served h).map fun f =>
      (f, if x.pastBudget i f named then { trap := some cREGRNG }
          else orPoison (target i f) fun _ => match link with
            | some d => Res.pair d ret
            | none => {})
    let goes := (i.served h).filterMap fun f => (target i f).map fun t => (f, t)
    (rs.foldl (fun x p => x.applyRes i 0 len p.1 p.2) x).advanceTo i fun f =>
      (SMap.find? goes f).getD (i.pc + len)

/-- A target held in a V pair: 48 bits (R215). -/
def Exec.pairTarget (x : Exec) (k : Nat) (i : Iss) (f : Nat) : Option Nat :=
  (x.pair i f k).map fun a => a % 2 ^ 48

/-- A target at a signed halfword offset from the instruction. -/
def relTarget (pc : Nat) (off : Int) : Nat := wrap 48 ((pc : Int) + 2 * off)

/-- Issues an unguarded instruction; the group moves on only when the second part is false. -/
def Exec.wholeHold (x : Exec) (len : Nat) (g : Iss → Exec → Exec × Bool) : Exec :=
  match x.issue? with
  | none => x
  | some i =>
    let r := g i x
    if r.2 then r.1 else r.1.advance i len

/-- Issues a uniform instruction for the lowest guard-true fibre; the group moves on only when the second part
is false. -/
def Exec.uniformHold (x : Exec) (len : Nat) (h : Hd) (g : Iss → Nat → Exec → Exec × Bool) : Exec :=
  match x.issue? with
  | none => x
  | some i =>
    match i.served h with
    | [] => x.advance i len
    | f :: _ =>
      let r := g i f x
      if r.2 then r.1 else r.1.advance i len

/-! ### Nothing, branches, calls, loops (R215, R216, R227) -/

/-- NOP (R227). -/
def execNop (w : OwnI) (s : State) : Out := s.onX fun x => x.perFibre 8 w.h [] fun _ _ => {}
/-- NOP_C (R189). -/
def execNopC (_w : CompN) (s : State) : Out := s.onX fun x => x.perFibre 4 hd0 [] fun _ _ => {}
/-- BRA (R215). -/
def execBra (w : LongI) (s : State) : Out := s.onX fun x =>
  x.branch 8 w.h [] none fun i _ => some (relTarget i.pc w.imm.toInt)
/-- BRP: BRA that also directs fetch (R215). -/
def execBrp (w : LongI) (s : State) : Out := s.onX fun x =>
  x.branch 8 w.h [] none fun i _ => some (relTarget i.pc w.imm.toInt)
/-- The guard of a J form (R189). -/
def hdJ (w : CompJ) : Hd := ⟨w.neg, w.pg, 0, w.b⟩
/-- BRA_C (R189). -/
def execBraC (w : CompJ) (s : State) : Out := s.onX fun x =>
  x.branch 4 (hdJ w) [] none fun i _ => some (relTarget i.pc w.off.toInt)
/-- BRP_C (R189). -/
def execBrpC (w : CompJ) (s : State) : Out := s.onX fun x =>
  x.branch 4 (hdJ w) [] none fun i _ => some (relTarget i.pc w.off.toInt)
/-- BRX (R215). -/
def execBrx (w : OwnI) (s : State) : Out := s.onX fun x =>
  x.branch 8 w.h (pairRegs w.s1.toNat) none (x.pairTarget w.s1.toNat)
/-- CALL (R215). -/
def execCall (w : LongI) (s : State) : Out := s.onX fun x =>
  x.branch 8 w.h (pairRegs w.d.toNat) (some w.d.toNat) fun i _ => some (relTarget i.pc w.imm.toInt)
/-- CALLX (R215). -/
def execCallx (w : OwnI) (s : State) : Out := s.onX fun x =>
  x.branch 8 w.h (pairRegs w.d.toNat ++ pairRegs w.s1.toNat) (some w.d.toNat) (x.pairTarget w.s1.toNat)
/-- RET (R215). -/
def execRet (w : OwnI) (s : State) : Out := s.onX fun x =>
  x.branch 8 w.h (pairRegs w.s1.toNat) none (x.pairTarget w.s1.toNat)
/-- LOOPW: the counter once, then the whole group (R216). -/
def execLoopw (w : OwnI) (s : State) : Out := s.onX fun x =>
  match x.issue? with
  | none => x
  | some i =>
    let v := x.readW i.u w.d.toNat - 1
    (x.writeW i.u w.d.toNat v).advanceTo i fun _ => if v = 0 then i.pc + 8 else relTarget i.pc w.m.toInt

/-! ### Fibres (R151 to R154, R217) -/

/-- The Free slots of a wave, lowest first. -/
def Wave.freeSlots (w : Wave) : List Nat := (List.range 128).filter fun f => decide ((w.fib f).st = .free)

/-- One FSPAWN of a fibre (R151): a Free slot starts at the target with V0 = f (log entry 32, DEDUCED). -/
def Exec.spawn (x : Exec) (i : Iss) (f d target slot : Nat) : Exec :=
  let x := x.modFib i.u slot fun b =>
    { b with st := .ready, pc := target, draws := 0, org := none, trap := none, async := [], wins := [] }
  (x.writeV i.u slot 0 (BitVec.ofNat 32 f)).writeV i.u f d (BitVec.ofNat 32 slot)

/-- FSPAWN (R151, R217, R340): in a handler HNDOP comes before REGRNG (log entry 7, DEDUCED). -/
def execFspawn (w : OwnI) (s : State) : Out := s.onX fun x =>
  match x.issue? with
  | none => x
  | some i =>
    let l := i.served w.h
    if i.inHandler then (x.trapAll i l cHNDOP 8).advance i 8
    else
      let bad := l.filter fun f => x.pastBudget i f [w.d.toNat]
      let good := l.filter fun f => !x.pastBudget i f [w.d.toNat]
      let x := x.trapAll i bad cREGRNG 8
      let t := relTarget i.pc w.m.toInt
      let x := (good.zipIdx).foldl (fun x p =>
        match i.w.freeSlots[p.2]? with
        | some slot => x.spawn i p.1 w.d.toNat t slot
        | none => x.writeV i.u p.1 w.d.toNat 0xffffffff) x
      -- the group was fixed before the new fibres started, so a target at this PC does not move
      x.advance i 8

/-- FQUIT (R152, R340). -/
def execFquit (w : OwnI) (s : State) : Out := s.onX fun x =>
  match x.issue? with
  | none => x
  | some i =>
    let l := i.served w.h
    if i.inHandler then (x.trapAll i l cHNDOP 8).advance i 8
    else
      let x := l.foldl (fun x f => (x.closeAll i.u f).modFib i.u f fun b => { b with st := .free }) x
      (x.advance i 8).settleWave i.u

/-- REJOIN: the mask of each executing fibre is its four V words (R153, R217). -/
def execRejoin (w : OwnI) (s : State) : Out := s.onX fun x =>
  match x.issue? with
  | none => x
  | some i =>
    let k := w.s1.toNat
    let raw := x.cur.elim 0 Cur.raw
    let x' := (i.served w.h).foldl (fun y f =>
      if x.pastBudget i f [k, k + 1, k + 2, k + 3] then y.takeTrap i.u f (i.trap cREGRNG 8)
      else match x.words i f k 4 with
        | none => y.takeTrap i.u f (i.trap cPOISON 8)
        | some l => y.modFib i.u f fun b =>
            { b with st := .waiting (.rejoin (word l 0 + 2 ^ 32 * word l 1 + 2 ^ 64 * word l 2 + 2 ^ 96 * word l 3) raw) }) x
    (x'.advance i 8).settleWave i.u

/-- YIELD: ends the run; its wave is then the youngest of its priority (R227). In deterministic mode it closes the
quantum, as the step says (R349). -/
def execYield (_w : OwnI) (s : State) : Out := s.onX fun x =>
  x.whole 8 fun i x =>
    let x := x.modWave i.u fun w => { w with stamp := x.fresh, hold := if x.determ i.w then some .commit else w.hold }
    { x with fresh := x.fresh + 1 }

/-! ### Releases of a wave whose side log is not empty (R45) -/

/-- An operation of a wave that is a release at `.team` waits for the wave's side log: it is performed after every entry
(R45, R120, log entry 70, DEDUCED). -/
def Exec.afterLog (x : Exec) (i : Iss) (g : Exec → Exec) : Exec :=
  if i.w.log.isEmpty then g x else x.hold i (.retry rvLog)

/-! ### Membership (R157, R158, R217, R218) -/

/-- ATTACH (R157); in deterministic mode its effect is made at the commit, and the wave waits for it (R349). -/
def execAttach (w : OwnI) (s : State) : Out := s.onX fun x =>
  x.uniformHold 8 w.h fun i f x =>
    if i.inHandler then (x.trapAll i [f] cHNDOP 8, false)
    else if !i.w.log.isEmpty then (x.hold i (.retry rvLog), true)
    else
      let role := (x.readW i.u w.s1.toNat).toNat
      let entry := i.pc / 2 ^ 32 * 2 ^ 32 + (x.readW i.u w.s2.toNat).toNat
      if x.determ i.w then
        ((x.stage i.u { step := 2, kind := skAttach, pc := i.pc, args := [w.d.toNat, role, entry] }).hold i .commit, false)
      else (x.attach i.u w.d.toNat role entry, false)

/-- Every unfinished fibre of the wave stands in the issuing group. -/
def Iss.wholeWave (i : Iss) : Bool := i.w.fibs.all fun p => !p.2.unfinished || i.grp.contains p.1

/-- DETACH (R158). -/
def execDetach (_w : OwnI) (s : State) : Out := s.onX fun x =>
  match x.issue? with
  | none => x
  | some i =>
    if i.inHandler || !i.wholeWave then (x.trapAll i i.grp cDETPART 8).advance i 8
    else if x.determ i.w then
      ((x.stage i.u { step := 2, kind := skDetach, pc := i.pc }).hold i .commit).advance i 8
    else x.afterLog i fun x => x.detach i.u

/-! ### Team barriers (R218 to R222) -/

/-- An arrival of a wave at barrier b with n required (R220). -/
def Exec.barArrive (x : Exec) (u b n : Nat) : Exec :=
  match x.wave? u with
  | none => x
  | some w =>
    match x.teams.find? w.team with
    | none => x
    | some m =>
      let r := m.bars.get {} b
      let x := x.modWave u fun w => { w with arrGen := w.arrGen.insert b (r.g, 0) }
      let x := x.modTeam w.team fun m => { m with bars := m.bars.put {} b { r with n := n, a := r.a + 1 } }
      x.barComplete w.team b

/-- The generation that a wave that arrived in it must see change, if it waits at b (R220). -/
def Exec.barWaits (x : Exec) (u b : Nat) : Option Nat :=
  match x.wave? u with
  | none => none
  | some w =>
    let g := (x.teamOf w).elim 0 fun m => (m.bars.get {} b).g
    match w.arrGen.find? b with
    | some p => if p.1 = g then some g else none
    | none => none

/-- A team barrier instruction: mode 0 arrives, 1 arrives and waits, 2 waits (R220); an arrival, which is a release, waits
for the wave's side log (R45). -/
def Exec.teamBar (x : Exec) (mode b n : Nat) : Exec :=
  x.wholeHold 8 fun i x =>
    if i.inHandler then (x.trapAll i i.grp cHNDOP 8, false)
    else if i.diverged && !i.w.resumed then (x.trapAll i i.grp cBARDIV 8, false)
    else if x.determ i.w then
      let x := x.stage i.u { step := 2, kind := skArrive, pc := i.pc, args := [b, n, mode] }
      (if mode = 0 then x else x.hold i .commit, false)
    else if mode ≠ 2 ∧ !i.w.log.isEmpty then (x.hold i (.retry rvLog), true)
    else
      let x := if mode = 2 then x else x.barArrive i.u b n
      (if mode = 0 then x
       else match x.barWaits i.u b with
        | some g => x.hold i (.barrier b g)
        | none => x, false)

/-- BARARV (R220). -/
def execBararv (w : OwnI) (s : State) : Out := s.onX fun x =>
  x.teamBar 0 (w.m.toNat % 16) (w.m.toNat / 16 % 32)
/-- BARSYN (R220). -/
def execBarsyn (w : OwnI) (s : State) : Out := s.onX fun x =>
  x.teamBar 1 (w.m.toNat % 16) (w.m.toNat / 16 % 32)
/-- BARWT (R220). -/
def execBarwt (w : OwnI) (s : State) : Out := s.onX fun x =>
  x.teamBar 2 (w.m.toNat % 16) 0

/-! ### Convergence registers (R224) -/

/-- Whether CVSET applies a mask to Ck (R162, R224). -/
def Exec.cvsetOk (x : Exec) (t k mask : Nat) : Bool :=
  match x.teams.find? t with
  | none => false
  | some m =>
    let l := (List.range 16).filter (bitOf mask ·)
    let live := (x.teamWaves t).map (·.2.idx)
    decide (1 ≤ l.length ∧ l.length ≤ 8) &&
    l.all fun j => live.contains j && (match m.friezeOf j with | none => true | some q => decide (q = k))

/-- CVSET (R224). -/
def execCvset (w : OwnI) (s : State) : Out := s.onX fun x =>
  x.uniformHold 8 w.h fun i f x =>
    let k := w.d.toNat
    let mask := (x.readW i.u w.s1.toNat).toNat % 2 ^ 16
    if i.inHandler then (x.trapAll i [f] cHNDOP 8, false)
    else
      let c : Conv := ((x.teamOf i.w).map fun m => m.conv k).getD {}
      if c.signed ≠ 0 then (x.hold i (.retry rvMatrix), true)
      else if !x.cvsetOk i.w.team k mask then (x.trapAll i [f] cFRZDUP 8, false)
      else (x.modTeam i.w.team fun m =>
        { m.setConv k { c with members := mask, sig := none } with arms := m.arms.erase k }, false)

/-! ### Future handles (R225, R226) -/

/-- A handle's value in a slot. -/
def Handle.val (h : Handle) (f : Nat) : Word := (h.vals.find? f).getD h.all

/-- HWAIT (R226). -/
def execHwait (w : OwnI) (s : State) : Out := s.onX fun x =>
  match x.issue? with
  | none => x
  | some i =>
    let hd := i.w.handle w.s1.toNat
    if !(i.served w.h).isEmpty && !hd.ready then x.hold i (.handle w.s1.toNat)
    else
      x.perFibre 8 w.h (if w.m = 1 then [w.d.toNat] else []) fun _ f =>
        if w.m = 1 then Res.word w.d.toNat (hd.val f).toNat else {}

/-- HTEST (R226). -/
def execHtest (w : OwnI) (s : State) : Out := s.onX fun x =>
  x.perFibre 8 w.h [] fun i _ => .pred w.d.toNat (i.w.handle w.s1.toNat).ready

/-- HMOV (R226). -/
def execHmov (w : OwnI) (s : State) : Out := s.onX fun x =>
  x.uniform 8 w.h fun i _ x =>
    x.modWave i.u fun v => { v with handles := v.handles.put {} w.d.toNat (v.handle w.s1.toNat) }

/-! ### Quanta and sleep (R227) -/

/-- QSYNC: the commit of the quantum it closes is waited for; elsewhere it only ends the run (R227). -/
def execQsync (_w : OwnI) (s : State) : Out := s.onX fun x =>
  x.whole 8 fun i x => if x.determ i.w then x.hold i .commit else x

/-- SLEEPW (R227); QSYNC in deterministic mode (R349). -/
def execSleepw (w : OwnI) (s : State) : Out := s.onX fun x =>
  x.whole 8 fun i x =>
    let n := (x.readW i.u w.s1.toNat).toNat
    if x.determ i.w then x.hold i .commit
    else if n = 0 then x
    else (x.hold i .sleep).post n (.sleepwExpiry i.u)

/-- SLEEPW_EXPIRY: the sleeping wave goes on (R227). -/
def execSleepwExpiry (u : Nat) (s : State) : Out := s.onX fun x =>
  match x.wave? u with
  | some w => if w.hold = some .sleep then x.unhold u else x
  | none => x

/-! ### Encodings that do not execute (R200) -/

/-- The cause of a fate. -/
def fateCause : Fate → Nat
  | .undefop => cUNDEFOP
  | .disabledop => cDISABLEDOP
  | .rsvfield => cRSVFIELD

/-- The fibres of the group that an encoding that does not execute traps (R200). -/
def undefFibres (i : Iss) (u : Undef) : List Nat :=
  let g := rawGuard u.len u.raw.toNat
  let on := i.grp.filter fun f => (i.w.fib f).guard g.1 g.2
  match rawMajor u.len u.raw.toNat with
  | some m =>
    if rawUniform u.len u.raw.toNat then on.take 1
    else if unguardedMajor m || friezeMajor m then i.grp
    else on
  | none => on

/-- UNDEFINED_OPCODE: the fibres of R200 go to the emulation handler with the bits decoded (R200, R202). -/
def execUndefinedOpcode (u : Undef) (s : State) : Out := s.onX fun x =>
  x.whole u.len fun i x =>
    (undefFibres i u).foldl (fun x f =>
      x.takeTrap i.u f { cause := fateCause u.fate, len := u.len, raw := u.raw.toNat, pc := i.pc }) x

end Sys2Proof.Machine
end

