-- ==== Sys2Proof/Machine/System.lean ====
section
/-! DEFINITION. Special registers, software traps and returns from handlers, the reach of a handler into its
origin, the format table, priority and HALT (11 R211 to R214, R228 to R235). -/

namespace Sys2Proof.Machine

/-! ### Special registers (R211 to R214) -/

/-- `%origin` of a fibre: the origin tag of the fibre it serves, zero in an ordinary fibre (R213). -/
def Exec.originOf (x : Exec) (u f : Nat) : Nat :=
  match (x.fib u f).org with
  | none => 0
  | some (ou, of) =>
    match x.wave? ou, (x.fib ou of).trap with
    | some w, some t =>
      originTag t.opnd t.cause ((x.teamOf w).elim 0 Team.idx) w.tagIdx of t.pc
    | _, _ => 0

/-- `%origmask` of a fibre: the slots of its origin wave that fibres of its own handler wave serve (R213, log entry 63, DEDUCED). -/
def Exec.origMask (x : Exec) (u f : Nat) : Nat :=
  match (x.fib u f).org, x.wave? u with
  | some (ou, _), some w =>
    (w.fibs.filter fun p => p.2.unfinished).foldl (fun n p =>
      match p.2.org with
      | some (v, j) => if v = ou then bitSet n j true else n
      | none => n) 0
  | _, _ => 0

/-- The done bits a wave sees (R102): in deterministic mode those also in its observed mask. -/
def Exec.seenTags (x : Exec) (w : Wave) : Nat :=
  let d := (x.teamOf w).elim 0 Team.tdone
  if x.determ w then Nat.land d w.obsTags else d

/-- The cycle count a fibre reads: a free value (log entry 2, DESIGN CHOICE), or in deterministic mode the retired count (R211). -/
def Exec.cycle (x : Exec) (w : Wave) (f : Nat) : Nat :=
  if x.determ w then w.retired else (Config.freeCycle (x.free + f / 16)).toNat

/-- A special register as fibre f of wave u reads it (R211). -/
def Exec.special (x : Exec) (u f n : Nat) : Nat :=
  match x.wave? u with
  | none => 0
  | some w =>
    let m : Option Team := x.teamOf w
    match n with
    | 0x00 => f % 16
    | 0x01 => f
    | 0x02 => w.idx
    | 0x03 => m.elim 0 Team.idx
    | 0x04 => ((m.bind x.gridOf).elim 0 Grid.id) % 2 ^ 32
    | 0x05 => x.rank % 2 ^ 21
    | 0x06 => dieOf (x.coreOf w)
    | 0x07 => x.coreOf w
    | 0x08 => w.quanta
    | 0x09 => x.cycle w f
    | 0x0a => x.seenTags w
    | 0x0b => m.elim 0 fun m => m.status.toNat
    | 0x0c => x.origMask u f
    | 0x0d => x.originOf u f
    | 0x0e => w.depth
    | 0x0f => m.elim 0 Team.prio
    | n =>
      if n < 0x40 then m.elim 0 fun m => (m.conv (n - 0x10)).toNat
      else (x.ctxs.find? (x.ctxOf w)).elim 0 fun c => (c.ctrs.get 0 (n - 0x40)).toNat

/-- SRR (R214). A read of `%cycle` gives each slice of 16 slots the value at its own issue (R146, R211). -/
def execSrr (w : OwnI) (s : State) : Out := s.onX fun x =>
  let n := w.m.toNat % 256
  let x' := x.perFibre 8 w.h (pairRegs w.d.toNat) fun i f =>
    let v := x.special i.u f n
    .pair w.d.toNat (if bitOf w.m.toNat 8 then v / 2 ^ 64 else v)
  if n = 0x09 then { x' with free := x'.free + 8 } else x'

/-- SRW: `%tstatus` bits written as ones clear; a sector counter takes the value (R212, R214). -/
def execSrw (w : OwnI) (s : State) : Out := s.onX fun x =>
  x.uniform 8 w.h fun i _ x =>
    let n := w.m.toNat
    if n = 0x0b then
      x.modTeam i.w.team fun m => { m with status := m.status &&& ~~~ (x.readW i.u w.s1.toNat &&& 0x3f) }
    else
      x.modCtx (x.ctxOf i.w) fun c =>
        { c with ctrs := c.ctrs.put 0 (n - 0x40) (BitVec.ofNat 64 (x.readW2 i.u w.s1.toNat)) }

/-! ### Traps and returns (R228, R229) -/

/-- A software trap with an operand (R228). -/
def Exec.softTrap (x : Exec) (w : OwnI) (cause : Nat) : Exec :=
  x.whole 8 fun i x =>
    (i.served w.h).foldl (fun x f => x.takeTrap i.u f { i.trap cause 8 with opnd := w.m.toNat }) x

/-- TRAP (R228). -/
def execTrap (w : OwnI) (s : State) : Out := s.onX fun x => x.softTrap w cSWTRAP
/-- BRK (R228). -/
def execBrk (w : OwnI) (s : State) : Out := s.onX fun x => x.softTrap w cBREAK

/-- Settles every origin wave of a handler wave, then the handler wave itself. -/
def Exec.settleReturn (x : Exec) (i : Iss) : Exec :=
  let orgs := (i.w.handler.elim [] HandlerInfo.orgs)
  (orgs.foldl (fun x o => x.settleWave o) x).settleWave i.u

/-- A return of each guard-true handler fibre, once the handler wave's side log is empty, to where `target` sends its origin (R229):
no PC ends the origin, a cause traps the handler fibre. Outside a handler NOHANDLER comes before REGRNG (log entry 7, DEDUCED). -/
def Exec.returnWith (x : Exec) (h : Hd) (target : Iss → Nat → Fib → Except Nat (Option Nat)) : Exec :=
  match x.issue? with
  | none => x
  | some i =>
    let l := i.served h
    if !i.inHandler then (x.trapAll i l cNOHANDLER 8).advance i 8
    else if !i.w.log.isEmpty then x.hold i (.retry rvLog)
    else
      let x' := l.foldl (fun y f =>
        match (x.fib i.u f).org with
        | none => y
        | some (ou, of) =>
          match target i f (x.fib ou of) with
          | .error c => y.takeTrap i.u f (i.trap c 8)
          | .ok r => y.handlerReturn i.u f fun _ => r) x
      (x'.advance i 8).settleReturn i

/-- The PC and recorded length of a fibre's trap. -/
def Fib.trapPc (b : Fib) : Nat := b.trap.elim b.pc Trap.pc
def Fib.trapLen (b : Fib) : Nat := b.trap.elim 0 Trap.len

/-- ERET (R229). -/
def execEret (w : OwnI) (s : State) : Out := s.onX fun x =>
  let k := w.s1.toNat
  x.returnWith w.h fun i f b =>
    match w.m.toNat with
    | 0 => .ok (some b.trapPc)
    | 1 => .ok (some ((b.trapPc + b.trapLen) % 2 ^ 48))
    | 2 => .ok none
    | _ =>
      if x.pastBudget i f (pairRegs k) then .error cREGRNG
      else match x.pairTarget k i f with
        | none => .error cPOISON
        | some t => .ok (some t)

/-- EMRET: ERET.next for the causes of R200, a NOHANDLER trap otherwise (R229). -/
def execEmret (w : OwnI) (s : State) : Out := s.onX fun x =>
  x.returnWith w.h fun _ _ b =>
    if causeEmu (b.trap.elim 0 Trap.cause) then .ok (some ((b.trapPc + b.trapLen) % 2 ^ 48)) else .error cNOHANDLER

/-! ### EMOPR and EMOPW (R230) -/

/-- The decoded fields of a trapped instruction, selectors 0x03 to 0x0a (R202, R230). -/
def emField (sel len r : Nat) : Nat :=
  match sel with
  | 0x03 => r % 2 ^ 32
  | 0x04 => r / 2 ^ 32
  | 0x05 =>
    if len = 8 then bitsOf r 3 9 + 2 ^ 9 * bitsOf r 2 1 + 2 ^ 10 * bitsOf r 12 4 + 2 ^ 14 * bitsOf r 16 3 + 2 ^ 17 * bitsOf r 19 1
    else if len = 4 then bitsOf r 3 6 + 2 ^ 9 * bitsOf r 2 1 + 2 ^ 14 * bitsOf r 9 3 + 2 ^ 17 * bitsOf r 12 1
    else bitsOf r 1 4 + 2 ^ 14 * 7
  | 0x06 =>
    if len = 8 then bitsOf r 20 28
    else if len = 4 then bitsOf r 9 21
    else bitsOf r 5 5 + 2 ^ 7 * bitsOf r 5 5 + 2 ^ 14 * bitsOf r 10 5
  | 0x07 =>
    if len = 8 then bitsOf r 48 16 else if len = 4 then 2 ^ 16 * bitsOf r 30 2 else 2 ^ 18 * bitsOf r 15 1
  | 0x08 =>
    if len = 8 then r / 2 ^ 32 else if len = 4 then wrap 32 (signed 9 (bitsOf r 23 9)) else bitsOf r 10 5
  | 0x09 =>
    if len = 8 then wrap 32 (signed 10 (bitsOf r 38 10))
    else if len = 4 then wrap 32 (signed 19 (bitsOf r 13 19)) else 0
  | _ =>
    if len = 8 then bitsOf r 34 4
    else if len = 4 then bitsOf r 9 6 + 2 ^ 6 * bitsOf r 15 6 + 2 ^ 12 * bitsOf r 21 6 else 0

/-- What selectors below 0x10 deliver for a trap of an origin fibre of a given depth. -/
def emTrapWord (sel depth : Nat) (t : Trap) : Nat :=
  match sel with
  | 0x00 => t.cause + 2 ^ 8 * t.len + 2 ^ 12 * depth
  | 0x01 => t.pc % 2 ^ 32
  | 0x02 => t.pc / 2 ^ 32
  | 0x0b => t.ipc % 2 ^ 32
  | 0x0c => t.ipc / 2 ^ 32
  | _ => if t.len = 0 then 0 else emField sel t.len t.raw

/-- The register number k of selectors 0x10 and 0x11, refused with REGRNG or POISON. -/
def Exec.emReg (x : Exec) (i : Iss) (f : Nat) (w : OwnI) (sel : Nat) : Except Nat Nat :=
  if x.pastBudget i f [w.s1.toNat] then .error cREGRNG
  else match x.ownRead i f w.s1.toNat with
    | none => .error cPOISON
    | some v =>
      let k := v.toNat + w.m.toNat / 256
      if sel = 0x11 then (if 63 < k then .error cREGRNG else .ok k)
      else if decide (127 < k) || decide (x.budget i.u f ≤ k) then .error cREGRNG else .ok k

/-- EMOPR (R230): NOHANDLER first, then REGRNG (log entry 7, DEDUCED). -/
def execEmopr (w : OwnI) (s : State) : Out := s.onX fun x =>
  let sel := w.m.toNat % 256
  let d := w.d.toNat
  x.perFibre 8 w.h [] fun i f =>
    match (x.fib i.u f).org, i.inHandler with
    | some (ou, of), true =>
      let ob := x.fib ou of
      if x.pastBudget i f [d] then { trap := some cREGRNG }
      else if sel = 0x10 ∨ sel = 0x11 then
        match x.emReg i f w sel with
        | .error c => { trap := some c }
        | .ok k =>
          if sel = 0x11 then .word d (x.readW ou k).toNat
          else orPoison (x.ownRead i f k) fun v => .word d v.toNat
      else if sel = 0x12 then .word d (ob.preds.toNat + 128)
      else .word d (emTrapWord sel ((x.wave? ou).elim 0 Wave.depth) (ob.trap.getD ⟨0, 0, 0, 0, 0, 0, false, 0, 0⟩))
    | _, _ => { trap := some cNOHANDLER }

/-- EMOPW: guard-true fibres in increasing slot order (R230); NOHANDLER first, then REGRNG, then POISON (log entry 7, DEDUCED). -/
def execEmopw (w : OwnI) (s : State) : Out := s.onX fun x =>
  let sel := w.m.toNat % 256
  x.whole 8 fun i x =>
    (i.served w.h).foldl (fun y f =>
      match (x.fib i.u f).org, i.inHandler with
      | some (ou, of), true =>
        if x.pastBudget i f [w.s2.toNat] then y.takeTrap i.u f (i.trap cREGRNG 8)
        else match (if sel = 0x12 then .ok 0 else x.emReg i f w sel), x.ownRead i f w.s2.toNat with
          | .error c, _ => y.takeTrap i.u f (i.trap c 8)
          | .ok _, none => y.takeTrap i.u f (i.trap cPOISON 8)
          | .ok k, some v =>
            if sel = 0x12 then y.modFib ou of fun b => { b with preds := v.setWidth 7 }
            else if sel = 0x11 then y.writeW ou k v else y.writeV i.u f k v
      | _, _ => y.takeTrap i.u f (i.trap cNOHANDLER 8)) x

/-! ### Format table, priority, HALT (R232 to R235) -/

/-- FMTW: written at the end of the run (R171, R232). -/
def execFmtw (w : OwnI) (s : State) : Out := s.onX fun x =>
  x.uniform 8 w.h fun i f x =>
    let n := w.m.toNat
    let v := (x.readW i.u w.s1.toNat).toNat
    if decide (n < 8) || (decide (v ≠ 0) && !descOk v) then x.trapAll i [f] cFMTBAD 8
    else x.modTeam i.w.team fun m => { m with fmtw := m.fmtw ++ [(i.u, n, v)] }

/-- The format writes of a wave's run take effect at its end (R171). -/
def Exec.fmtCommit (x : Exec) (u : Nat) : Exec :=
  { x with teams := x.teams.map fun (t : Nat × Team) =>
      (t.1, { t.2 with
        fmts := (t.2.fmtw.filter fun p => decide (p.1 = u)).foldl (fun a p => a.put 0 p.2.1 p.2.2) t.2.fmts
        fmtw := t.2.fmtw.filter fun p => !decide (p.1 = u) }) }

/-- FMTR (R233). -/
def execFmtr (w : OwnI) (s : State) : Out := s.onX fun x =>
  x.uniform 8 w.h fun i _ x => x.writeW i.u w.d.toNat (BitVec.ofNat 32 (x.desc w.m.toNat))

/-- SETPRIO: the smaller of n and the launch priority (R234). -/
def execSetprio (w : OwnI) (s : State) : Out := s.onX fun x =>
  x.uniform 8 w.h fun i _ x =>
    let p := ((x.teamOf i.w).bind x.gridOf).elim 0 (·.byte 44)
    x.modTeam i.w.team fun m => { m with prio := min w.m.toNat p }

/-- HALT (R235). -/
def execHalt (w : OwnI) (s : State) : Out := s.onX fun x =>
  x.uniform 8 w.h fun i _ x =>
    match x.teamOf i.w with
    | none => x
    | some m => x.stopGrid m.grid ((x.gridOf m).elim 0 Grid.round, m.idx, i.w.idx, w.m.toNat)

end Sys2Proof.Machine
end

