-- ==== Sys2Proof/Machine/Translate.lean ====
section
/-! DEFINITION. Storage, and translation: device and host bytes as they are stored and read, table descriptors,
probing, the checks of an entry, translation caches, Accessed and Dirty, and fault records (02, 03 R62 to R68,
26 R401). -/

namespace Sys2Proof.Machine

/-- A meaning that acts on memory and on what executes; no program reaches the trust state. -/
def State.onMem (f : State → State) (s : State) : Out := .next { f s with trust := s.trust }

/-- Changes what executes. -/
def State.modX (s : State) (f : Exec → Exec) : State := { s with x := f s.x }
/-- Changes the memory system. -/
def State.modM (s : State) (f : MemSys → MemSys) : State := { s with mem := f s.mem }

/-! ### Storage (R62, R63, R66, R68, R401) -/

/-- Bytes of each window that exist (R62). -/
def dieBytes : Nat := 0x3000000000
/-- xor of all 2-bit fields (R63). -/
def xor2Go : Nat → Nat → Nat
  | 0, _ => 0
  | n + 1, x => Nat.xor (x % 4) (xor2Go n (x / 4))
def xor2 (x : Nat) : Nat := xor2Go 19 x
/-- Home(pa) under a placement code (R63, R68). -/
def homeOf (plc pa : Nat) : Nat :=
  let w := pa / 2 ^ 38 % 4
  let o := pa % 2 ^ 38
  if plc = 0 then Nat.xor w (xor2 (o / 4096)) else if plc = 1 then Nat.xor w (xor2 (o / 65536)) else w
/-- HomeSlice(pa) (R66): a logical slice of the home die. -/
def homeSlice (pa : Nat) : Nat := pa % 2 ^ 38 / 1024 * 0x9e3779b1 % 2 ^ 32 * 48 / 2 ^ 32
/-- Where a line of offset o of a die is stored: the keys of device memory. -/
def storageAt (home pa : Nat) : Nat := home * 2 ^ 38 + pa % 2 ^ 38
/-- The stack of its die that holds a stored byte (R131). -/
def stackOf (sa : Nat) : Nat := sa % 2 ^ 38 / 4096 % 3
/-- Where the byte of a translated address is stored, and its sector. -/
def Loc.sa (l : Loc) : Nat := storageAt l.home l.pa
def Loc.sec (l : Loc) : Nat := l.sa / 32
def RdcSec.sec (r : RdcSec) : Nat := r.loc.sec

/-- How a sector was written last (log entry 4, DESIGN CHOICE): 0 since reset or never under a key, 1 by the host as it stands,
otherwise the number of the key that sealed it. -/
def MemSys.sealOf (m : MemSys) (sec : Nat) : Nat := m.sealed.get 0 sec
/-- The number of a key. -/
def keyNumber (k : BitVec 512) : Nat := 2 + k.toNat
/-- The key that has a number: a slot's, or from 2^513 on a context's image key. -/
def keyBits (n : Nat) : Nat := if n < 2 ^ 513 then n - 2 else (Config.imageKey (n - 2 ^ 513)).toNat

/-- The bytes of a sector as they were written. -/
def MemSys.unit (m : MemSys) (sec : Nat) : List Byte := (List.range 32).map fun i => m.dev.get 0 (32 * sec + i)
/-- The bytes of a sector as they are stored: ciphertext, where a key sealed it, with the sector's storage address as the tweak
(R401, log entry 4, DESIGN CHOICE). -/
def MemSys.stored (m : MemSys) (sec : Nat) : List Byte :=
  if m.sealOf sec ≤ 1 then m.unit sec else xtsUnit true (keyBits (m.sealOf sec)) (32 * sec) (m.unit sec)

/-- A stored byte as an access through a page with a key reads it: what another key sealed, or the host wrote, decrypts to
unrelated bytes (R401). -/
def MemSys.byteAt (m : MemSys) (key sa : Nat) : Byte :=
  let s := m.sealOf (sa / 32)
  if s = 0 ∨ s = key then m.dev.get 0 sa
  else (xtsUnit false (keyBits key) (32 * (sa / 32)) (m.stored (sa / 32))).getD (sa % 32) 0
/-- A stored byte as the device itself reads it by physical address (R68): the byte as it was written. -/
def MemSys.rawAt (m : MemSys) (sa : Nat) : Byte := m.dev.get 0 sa
/-- A stored byte as the host reads it: ciphertext, where a key sealed it (R401). -/
def MemSys.hostView (m : MemSys) (sa : Nat) : Byte :=
  if m.sealOf (sa / 32) ≤ 1 then m.dev.get 0 sa else (m.stored (sa / 32)).getD (sa % 32) 0

/-- The 32 bytes of a sector through a key. -/
def MemSys.sector (m : MemSys) (key sec : Nat) : List Byte := (List.range 32).map fun i => m.byteAt key (32 * sec + i)

/-- The bytes of a new list where a mask has ones, the old ones elsewhere. -/
def mergeBytes (mask : Nat) (old new : List Byte) : List Byte :=
  (old.zip new).zipIdx.map fun p => if bitOf mask p.2 then p.1.2 else p.1.1
/-- The full mask of a sector. -/
def fullMask : Nat := 2 ^ 32 - 1

/-- Writes bytes at an address of a byte map. -/
def MemSys.putDev (m : MemSys) (sa : Nat) (b : List Byte) : MemSys := { m with dev := putBytes m.dev sa b }
def MemSys.putHost (m : MemSys) (a : Nat) (b : List Byte) : MemSys := { m with host := putBytes m.host a b }

/-- Writes the masked bytes of a sector under a key: the whole data unit is sealed again (R401). The write sets the
sector's poison, clears it, or leaves it (R61, R73). -/
def MemSys.putSector (m : MemSys) (key sec mask : Nat) (data : List Byte) (pois : Option Bool) : MemSys :=
  let new := mergeBytes mask (m.sector key sec) data
  let m := m.putDev (32 * sec) new
  let m := { m with sealed := m.sealed.put 0 sec (if key = 0 then m.sealOf sec else key) }
  match pois with
  | none => m
  | some true => { m with pois := setAdd m.pois sec }
  | some false => { m with pois := setDel m.pois sec, unc := setDel m.unc sec }

/-- Reads bytes of a 64-bit address of the device's own structures: bit 63 set names host memory (R399). -/
def MemSys.readPhys (m : MemSys) (a n : Nat) : List Byte :=
  (List.range n).map fun i =>
    if bitOf a 63 then m.host.get 0 (a % 2 ^ 63 + i) else m.rawAt (storageAt ((a + i) / 2 ^ 38 % 4) (a + i))
/-- Writes bytes at such an address, performed at the home: copies in remote-data caches go (R68, R81). -/
def MemSys.writePhys (m : MemSys) (a : Nat) (b : List Byte) : MemSys :=
  if bitOf a 63 then m.putHost (a % 2 ^ 63) b
  else
    let sa := storageAt (a / 2 ^ 38 % 4) a
    { m.putDev sa b with rdc := m.rdc.filter fun c => !(decide (sa / 32 ≤ c.sec) && decide (c.sec ≤ (sa + b.length - 1) / 32)) }
/-- Whether such a span meets a poisoned or uncorrectable sector. -/
def MemSys.badPhys (m : MemSys) (a n : Nat) : Bool :=
  !bitOf a 63 && (poisonHit m.pois (storageAt (a / 2 ^ 38 % 4) a) n || poisonHit m.unc (storageAt (a / 2 ^ 38 % 4) a) n)

/-! ### Uncorrectable reads (R73, R405) -/

/-- A sector read from HBM that proves uncorrectable becomes poisoned and is reported once, with its stack and its physical
address (R131, R138, R405, R406). -/
def State.detect (s : State) (sec pa ctx : Nat) : State :=
  if s.mem.unc.contains sec then
    (s.modM fun m => { m with unc := setDel m.unc sec, pois := setAdd m.pois sec }).modX fun x =>
      x.err { type := 2, die := sec / 2 ^ 33, unit := stackOf (32 * sec), ctx := ctx, pa := pa / 32 * 32 }
  else s

/-- A probe read that arrives uncorrectable or poisoned is reported with the slot's address (R51): the first as every
uncorrectable sector is, the second as poison that the core consumes, since its sector is not reported again (R405, log
entry 57, DESIGN CHOICE). -/
def State.badProbe (s : State) (core c slot : Nat) : State :=
  let sec := storageAt (slot / 2 ^ 38 % 4) slot / 32
  if s.mem.unc.contains sec then s.detect sec slot c
  else s.modX fun x => x.err { type := 3, die := slot / 2 ^ 38 % 4, unit := core, ctx := c, pa := slot }

/-! ### Descriptors and entries (R28 to R32) -/

def pageBytes (z : Nat) : Nat := if z = 0 then 2 ^ 16 else if z = 1 then 2 ^ 21 else 2 ^ 30
def dResizing (d : Nat) : Bool := bitOf d 160
def dMig (d : Nat) : Nat := bitsOf d 128 32
def dNewBase (d : Nat) : Nat := bitsOf d 76 44 * 2 ^ 12
def dNewLog (d : Nat) : Nat := bitsOf d 64 6
def dBase (d : Nat) : Nat := bitsOf d 12 44 * 2 ^ 12
def dLog (d : Nat) : Nat := bitsOf d 0 6
/-- Whether set-translation-table takes a descriptor (R29): both exponents lie in 8 to 28, whatever Resizing is. -/
def descriptorOk (d : Nat) : Bool :=
  decide (bitsOf d 161 95 = 0 ∧ bitsOf d 120 8 = 0 ∧ bitsOf d 70 6 = 0 ∧ bitsOf d 56 8 = 0 ∧ bitsOf d 6 6 = 0) &&
  decide (8 ≤ dLog d ∧ dLog d ≤ 28) && decide (8 ≤ dNewLog d ∧ dNewLog d ≤ 28)

/-- Fields of a page entry (R31). -/
def eAccessed (e : Nat) : Bool := bitOf e 59
def eDirty (e : Nat) : Bool := bitOf e 58
def eSize (e : Nat) : Nat := bitsOf e 56 2
def ePa (e : Nat) : Nat := bitsOf e 16 40 * 2 ^ 16
def eKey (e : Nat) : Nat := bitsOf e 10 2
def eClass (e : Nat) : Nat := bitsOf e 8 2
def eTidal (e : Nat) : Bool := bitOf e 7
def ePlc (e : Nat) : Nat := bitsOf e 4 3
def eAtomic (e : Nat) : Bool := bitOf e 3
def eExec (e : Nat) : Bool := bitOf e 2
def eWrite (e : Nat) : Bool := bitOf e 1
def eValid (e : Nat) : Bool := bitOf e 0

/-- Whether an entry of table z is malformed (R32). -/
def State.malformed (s : State) (c z e : Nat) : Bool :=
  decide (eSize e ≠ z) || decide (ePa e % pageBytes z ≠ 0) || decide (bitsOf e 12 4 ≠ 0) || decide (ePlc e = 2) ||
  decide (eClass e = 3) || (decide (ePlc e ≠ 3) && (s.trust.keys.find? (4 * c + eKey e)).isNone)

/-- Whether R62 refuses an entry. -/
def badPa (z e : Nat) : Bool :=
  decide (ePlc e ≠ 3) &&
  (decide (2 ^ 40 ≤ ePa e) || decide (dieBytes < ePa e % 2 ^ 38 + pageBytes z) ||
   (decide (4 ≤ ePlc e) && decide (ePa e / 2 ^ 38 ≠ ePlc e - 4)))

/-- What an access asks of its page (R35): whether it writes, is an atomic or near-memory command, and whether
host pages allow it. -/
structure Need where
  write  : Bool := false
  atomic : Bool := false
  host   : Bool := true
  exec   : Bool := false
  /-- CINV and CWB have no effect on host pages and never trap there (R13). -/
  idle   : Bool := false
  /-- Whether the access can wait for a walker (R50); a hint and the device's own records do not (log entry 54). -/
  wait   : Bool := true
  deriving DecidableEq, Repr

/-- CWB and CINV on a host page are dropped before any check (R13, R35). -/
def Need.dropped (n : Need) (e : Nat) : Bool := n.idle && decide (ePlc e = 3)

/-- The checks of R35 in their order. -/
def State.checkEntry (s : State) (c z e : Nat) (n : Need) : Option Nat :=
  if n.dropped e then none
  else if s.malformed c z e then some cBADPTE
  else if badPa z e then some cBADPA
  else if n.write && !eWrite e then some cPERM
  else if n.atomic && !eAtomic e then some cPERM
  else if n.exec && !eExec e then some cPERM
  else if decide (ePlc e = 3) && !n.host then some cHOSTOP else none

/-- The location of va under an entry. -/
def State.locOf (s : State) (c z e va : Nat) : Loc :=
  let pa := ePa e + va % pageBytes z
  if ePlc e = 3 then ⟨true, pa, 0, 0, false, eClass e, va, false⟩
  else ⟨false, pa, homeOf (ePlc e) pa, (s.trust.keys.find? (4 * c + eKey e)).elim 0 keyNumber, eTidal e, eClass e, va, false⟩

/-! ### Probing (R33, R34) -/

def multiplier (w : Nat) : Nat :=
  if w = 0 then 0xa5c31f276d09e4b3 else if w = 1 then 0x7b14e9d235c8a0f1 else 0xd3e64a8b92f15c07
def probeHash (key w m : Nat) : Nat := key * multiplier w % 2 ^ 64 / 2 ^ (64 - m)

/-- The slots an attempt probes in one table: those of the new array first, by way, then the others (R33, R34). -/
def probeSlots (z d c va : Nat) : List Nat :=
  let key := c * 2 ^ 32 + va / pageBytes z
  (if dResizing d then
    (List.range 3).map fun w => dNewBase d + (w * 2 ^ dNewLog d + probeHash key w (dNewLog d)) * 16 else []) ++
  ((List.range 3).filter fun w => !dResizing d || decide (dMig d ≤ probeHash key w (dLog d))).map fun w =>
    dBase d + (w * 2 ^ dLog d + probeHash key w (dLog d)) * 16

/-- What an attempt finds: a match, its table, slot and 16 bytes; nothing; or a probe read that arrived poisoned. -/
inductive Found where
  | hit (z slot n : Nat)
  | absent
  | bad (slot : Nat)
  deriving DecidableEq, Repr

/-- The match of one slot. -/
def State.matchAt (s : State) (c z va slot : Nat) : Option Found :=
  let n := leNat (s.mem.readPhys slot 16)
  if bitsOf n 48 16 = c ∧ c ≠ 0 ∧ bitsOf n 0 32 = va / pageBytes z ∧ eValid (n / 2 ^ 64) = true ∧
      va / pageBytes z ≤ 2 ^ 48 / pageBytes z - 1 then
    some (.hit z slot n) else none

/-- One translation attempt with sampled descriptors (R33, R34, R51). A table for which no descriptor was ever installed
contributes no slot (log entry 64, DESIGN CHOICE). -/
def State.probe (s : State) (c va : Nat) (descs : SMap Nat) : Found :=
  let slots := (List.range 3).map fun z =>
    match descs.find? z with
    | some d => (probeSlots z d c va).map fun a => (z, a)
    | none => []
  let all := slots.flatten
  match all.find? fun p => s.mem.badPhys p.2 16 with
  | some p => .bad p.2
  | none => ((all.map fun p => s.matchAt c p.1 va p.2).findSome? id).getD .absent

/-! ### Translation caches, Accessed and Dirty (R38 to R40) -/

/-- The number of a die's second-level translation cache. -/
def tlbDie (die : Nat) : Nat := 1000 + die

def MemSys.tlbFind (m : MemSys) (unit c va : Nat) : Option Tlb :=
  m.tlbs.find? fun t => decide (t.unit = unit ∧ t.ctx = c ∧ t.vpn = va / pageBytes t.z)

/-- Sets a bit of a page entry in its slot: the compare-and-swap of R40, made while the slot is as it was read. -/
def MemSys.setEntryBit (m : MemSys) (slot bit : Nat) : MemSys :=
  let e := leNat (m.readPhys (slot + 8) 8)
  m.writePhys (slot + 8) (leBytes 8 (bitSet e bit true))

/-- Places a translation into the caches of a core and of its die; Accessed is set (R38, R40, log entry 36, DESIGN CHOICE). -/
def MemSys.tlbPlace (m : MemSys) (core c va z slot e : Nat) : MemSys :=
  let m := if eAccessed e then m else m.setEntryBit slot 59
  let e := bitSet e 59 true
  let t (u : Nat) : Tlb := ⟨u, c, z, va / pageBytes z, e, slot⟩
  { m with tlbs := m.tlbs ++ [t core, t (tlbDie (dieOf core))] }

/-- Drops every cached copy of a slot. -/
def MemSys.tlbDrop (m : MemSys) (slot : Nat) : MemSys := { m with tlbs := m.tlbs.filter fun t => !decide (t.slot = slot) }

/-- Sets Dirty of a cached entry, in its slot and in every cached copy (R40). -/
def MemSys.dirtied (m : MemSys) (t : Tlb) : MemSys :=
  let m := m.setEntryBit t.slot 58
  { m with tlbs := m.tlbs.map fun q => if q.slot = t.slot ∧ q.ctx = t.ctx ∧ q.vpn = t.vpn then { q with entry := bitSet q.entry 58 true } else q }

/-- Sets Dirty at the first use for a write; false if the slot has changed since the probe (R40). -/
def MemSys.markDirty (m : MemSys) (t : Tlb) : MemSys × Bool :=
  if eDirty t.entry then (m, true)
  else if leNat (m.readPhys t.slot 16) = t.entry * 2 ^ 64 + t.ctx * 2 ^ 48 + t.vpn then (m.dirtied t, true)
  else (m.tlbDrop t.slot, false)

/-! ### Walkers (R50) -/

/-- The walkers that are granted, in arrival order: 64 of a die and 8 of a core; one that its core's limit keeps back stands in
no other core's way (R50, log entry 54, DEDUCED). -/
def MemSys.grants (m : MemSys) : List Walker :=
  m.walks.foldl (fun g w =>
    if (g.filter fun v => decide (v.die = w.die)).length < 64 ∧ (g.filter fun v => decide (v.core = w.core)).length < 8 then g ++ [w]
    else g) []
def MemSys.granted (m : MemSys) (w : Walker) : Bool := m.grants.contains w

/-- Whether a miss of a core waits for a walker: one of its die walks its granule, which the miss joins, or none can be
granted at once (R50). -/
def MemSys.walkBusy (m : MemSys) (core c va : Nat) : Bool :=
  m.walks.any (fun w => decide (w.die = dieOf core ∧ w.ctx = c ∧ w.granule = va / 65536)) ||
  decide (64 ≤ (m.grants.filter fun w => decide (w.die = dieOf core)).length) ||
  decide (8 ≤ (m.grants.filter fun w => decide (w.core = core)).length)

/-! ### Translation (R25, R35 to R40) -/

/-- What a translation gives. -/
inductive Xl where
  | ok (l : Loc)
  | fault
  | trap (cause : Nat)
  deriving DecidableEq, Repr

/-- What a cached translation gives: the trap of a check of R35, a location, or nothing, where Dirty could not be set because the
slot has changed (R40). -/
def State.tlbUse (s : State) (c va : Nat) (n : Need) (t : Tlb) : State × Option Xl :=
  match s.checkEntry c t.z t.entry n with
  | some cause => (s, some (.trap cause))
  | none =>
    if (n.write || n.atomic) && !n.dropped t.entry then
      let r := s.mem.markDirty t
      let s := { s with mem := r.1 }
      if r.2 then (s, some (.ok (s.locOf c t.z t.entry va))) else (s, none)
    else (s, some (.ok (s.locOf c t.z t.entry va)))

/-- A translation that misses: a walker probes the tables (R33 to R36, R50, R51), and what it finds is placed into the caches
with Accessed set, and Dirty for a write (R40). A miss that waits for a walker answers as a fault does, and its record waits
for the walker (log entry 54, DEDUCED). -/
def State.translateWalk (s : State) (core c va : Nat) (n : Need) (descs : SMap Nat) : State × Xl :=
  if n.wait && s.mem.walkBusy core c va then (s, .fault)
  else match s.probe c va descs with
  | .bad slot => (s.badProbe core c slot, .trap cXLATE)
  | .absent => (s, .fault)
  | .hit z slot m =>
    let e := m / 2 ^ 64
    if s.malformed c z e || decide (bitsOf m 32 16 ≠ 0) then
      (s, if n.dropped e then .ok (s.locOf c z e va) else .trap cBADPTE)
    else
      let s := s.modM fun m => m.tlbPlace core c va z slot e
      let t : Tlb := ⟨core, c, z, va / pageBytes z, bitSet e 59 true, slot⟩
      match s.checkEntry c z t.entry n with
      | some cause => (s, .trap cause)
      | none =>
        (if (n.write || n.atomic) && !n.dropped t.entry && !eDirty e then s.modM fun m => m.dirtied t else s,
          .ok (s.locOf c z t.entry va))

/-- One attempt through the caches: nothing where they hold no translation, or one whose slot has changed. -/
def State.translateOnce (s : State) (core c va : Nat) (n : Need) : State × Option Xl :=
  match s.mem.tlbFind core c va with
  | some t => s.tlbUse c va n t
  | none =>
    match s.mem.tlbFind (tlbDie (dieOf core)) c va with
    | some t => (s.modM fun m => { m with tlbs := m.tlbs ++ [{ t with unit := core }] }).tlbUse c va n t
    | none => (s, none)

/-- The address of memory that no page entry maps, under a context's image key (R68, R324). -/
def State.imageLoc (s : State) (c pa : Nat) : Loc :=
  ⟨false, pa, homeOf (4 + pa / 2 ^ 38 % 4) pa, s.trust.imgKeys.get 0 c, false, 0, snapBase + pa, true⟩

/-- The translation of an access of a core in a context (R25, R33 to R40): where the caches hold none, and where Dirty could
not be set, the tables are probed. An argument snapshot is reached without translation, sealed under the image key (R324). -/
def State.translate (s : State) (core c va : Nat) (n : Need) : State × Xl :=
  if snapBase ≤ va then
    let pa := va - snapBase
    (s, if n.write || n.exec then .trap cPERM else .ok (s.imageLoc c pa))
  else
  let descs := (s.x.ctxs.find? c).elim [] Ctx.tables
  let r := s.translateOnce core c va n
  match r.2 with
  | some q => (r.1, q)
  | none => r.1.translateWalk core c va n descs

/-- One translation among those of an instruction, with the granules whose probe was poisoned: such a granule is not
probed again (R25, R51). -/
def State.translateIn (s : State) (bad : List Nat) (core c va : Nat) (n : Need) : State × Xl × List Nat :=
  if bad.contains (va / 65536) then (s, .trap cXLATE, bad)
  else
    let t := s.translate core c va n
    (t.1, t.2, if t.2 = .trap cXLATE then bad ++ [va / 65536] else bad)

/-! ### Fault records (R41, R42) -/

/-- Waves held or logging on a record, the wave of the access that posts it among them; an engine's access holds none. -/
def Exec.waitersOf (x : Exec) (id : Nat) (new : Bool) : Nat :=
  let n := (x.waves.filter fun p =>
    p.2.pend.any (fun a => decide (a.frec = id)) || p.2.log.any (fun e => decide (e.held = some id)) ||
    p.2.staged.any fun g => g.accs.any (fun a => decide (a.frec = id)) || g.ents.any (fun e => decide (e.held = some id))).length
  min 1023 (if new then max 1 n else n)

/-- A fault record's 32 bytes (R41). -/
def FaultRec.bytes (r : FaultRec) (c waiters : Nat) : List Byte :=
  leBytes 32 (r.va % 2 ^ 48 + 2 ^ 48 * c + 2 ^ 64 * r.kind + 2 ^ 72 * dieOf r.core + 2 ^ 80 * r.core + 2 ^ 90 * r.slot +
    2 ^ 96 * waiters + 2 ^ 128 * r.seq)

/-- The fault-queue status word (R41). -/
def Ctx.faultStatus (c : Ctx) : Nat := c.fqSeq % 2 ^ 32 + (if c.fqOver then 2 ^ 32 else 0)

/-- Writes the fault-queue status word. -/
def State.faultStatus (s : State) (c : Nat) : State :=
  match s.x.ctxs.find? c with
  | none => s
  | some k => s.modM fun m => m.writePhys k.fqStat (leBytes 8 k.faultStatus)

/-- Posts the held-back records of a context in fault order, those that wait for a walker aside, while the ring has room, then the status word (R41,
R42). `new` is the record that an access of a wave has just made. -/
def State.postFaults (s : State) (c : Nat) (new : Option Nat := none) : State :=
  match s.x.ctxs.find? c with
  | none => s
  | some k =>
    match k.fqBase with
    | none => s
    | some base =>
      let held := k.faults.filter fun r => !r.posted && !r.walk
      if held.isEmpty then s
      else
        let room := k.fqSize - (k.fqSeq + 2 ^ 32 - k.fqCons) % 2 ^ 32
        let now := (held.take room).zipIdx
        let s := now.foldl (fun s p =>
          let r : FaultRec := { p.1 with seq := (k.fqSeq + p.2) % 2 ^ 32, posted := true }
          let s := s.modM fun m => m.writePhys (base + 32 * (r.seq % k.fqSize)) (r.bytes c (s.x.waitersOf r.id (decide (new = some r.id))))
          s.modX fun x => x.modCtx c fun q => { q with faults := q.faults.map fun t => if t.id = r.id then r else t }) s
        let done_ := decide (room < held.length)
        (s.modX fun x => x.modCtx c fun q =>
          { q with fqSeq := (k.fqSeq + now.length) % 2 ^ 32, fqOver := done_ }).faultStatus c

/-- A walker starts for a record, or the record joins the one of its die that walks its granule (R50). -/
def State.walk (s : State) (c : Nat) (r : FaultRec) : State :=
  match s.mem.walks.find? fun w => decide (w.die = dieOf r.core ∧ w.ctx = c ∧ w.granule = r.granule) with
  | some w => s.modM fun m => { m with walks := m.walks.map fun v => if v.id = w.id then { v with recs := setAdd v.recs r.id } else v }
  | none =>
    let t := s.x.take
    let w : Walker :=
      { id := t.1, die := dieOf r.core, core := r.core, ctx := c, granule := r.granule, write := r.write
        descs := (s.x.ctxs.find? c).elim [] Ctx.tables, recs := [r.id] }
    { s with mem := { s.mem with walks := s.mem.walks ++ [w] }, x := t.2.post 1 (.translationProbeReturn t.1) }

/-- Attaches a fault to the pending record of its granule and class, or makes one (R41); where the miss waits for a walker,
the record is not posted before its probes return (R50, log entry 54, DEDUCED). -/
def State.fault (s : State) (c core slot va kind : Nat) (write : Bool) : State × Nat :=
  let g := va / 65536
  let pend := (s.x.ctxs.find? c).bind fun k => k.faults.find? fun r => decide (r.granule = g) && decide (r.write = write)
  match pend with
  | some r => (s, r.id)
  | none =>
    let busy := s.mem.walkBusy core c va
    let t := s.x.take
    let r : FaultRec := ⟨t.1, 0, false, g, write, kind, va / 32 * 32, core, slot, busy⟩
    let s := { s with x := t.2.modCtx c fun k => { k with faults := k.faults ++ [r] } }
    if busy then (s.walk c r, t.1) else (s.postFaults c (if kind < 5 then some t.1 else none), t.1)

end Sys2Proof.Machine
end

