-- ==== Sys2Proof/Machine/Cache.lean ====
section
/-! DEFINITION. The path of a sector: L1, remote-data cache, home slice, directory and invalidations, tidal
lines, and the L1 actions of acquire, release and engines (03, 04, 06 R118 to R128). -/

namespace Sys2Proof.Machine

/-- A fresh recency stamp. -/
def State.stamp (s : State) : Nat × State := (s.x.fresh, s.modX fun x => { x with fresh := x.fresh + 1 })

/-! ### Residency ranks (R89, R90) -/

/-- The residency map index of a physical address (R89). -/
def frameOf (pa : Nat) : Nat := 3145728 * (pa / 2 ^ 38 % 4) + pa % 2 ^ 38 / 65536
/-- The key of a handle in the handle table copy of a die (R88). -/
def handleKey (die h : Nat) : Nat := 4096 * die + h
/-- The key of a frame in the residency map copy of a die (R89). -/
def frameKey (die frame : Nat) : Nat := 12582912 * die + frame
/-- The handle that owns the frame of a physical address, as a die's map copy says (R89). -/
def MemSys.owner (m : MemSys) (die pa : Nat) : Nat := m.resmap.get 0 (frameKey die (frameOf pa))
/-- The rank of a square in a die's victim selection (R90): lowest first. -/
def MemSys.rankOf (m : MemSys) (die pa : Nat) : Nat :=
  match m.resh.find? (handleKey die (m.owner die pa)) with
  | none => 1
  | some h => if h.dem then 0 else if h.prio = 0 then 1 else h.prio + 1

/-! ### The home slice (R69 to R74, R81, R84 to R86) -/

/-- The dies that hold sectors of a square, by its Sharers field (R81). -/
def sharerDies (home sharers : Nat) : List Nat := ((List.range 3).filter (bitOf sharers ·)).map fun i => (home + 1 + i) % 4
/-- The Sharers bit of a die. -/
def sharerBit (home die : Nat) : Nat := (die + 3 - home % 4) % 4

def MemSys.modSq (m : MemSys) (sq : Nat) (f : Sq → Sq) : MemSys := { m with sqs := m.sqs.modify sq f }

/-- Ends a turn (R71). -/
def Sq.turned (q : Sq) : Sq :=
  if q.turning then { q with orient := q.tcol, width := q.twid, turning := false, turn := 0 } else q

/-- The remote-data cache drops its sectors of a square on a die. -/
def MemSys.rdcDropSq (m : MemSys) (die sq : Nat) : MemSys :=
  { m with rdc := m.rdc.filter fun r => !decide (r.die = die ∧ r.loc.sec / 32 = sq) }

/-- Invalidates a whole square in every sharer, before an eviction, a hold or a recall (R81). -/
def MemSys.dropSharers (m : MemSys) (sq : Nat) : MemSys :=
  match m.sqs.find? sq with
  | none => m
  | some q =>
    let m := (sharerDies (sq / 2 ^ 28) q.sharers).foldl (fun m d => m.rdcDropSq d sq) m
    m.modSq sq fun q => { q with sharers := 0 }

/-- Evicts a square from its slice: sharers first; its handle, where it has a priority, becomes Demoted on all four dies
(R81, R90). -/
def State.evictSq (s : State) (q : Sq) : State :=
  let die := q.id / 2 ^ 28
  let h := s.mem.owner die q.pa
  let old := s.mem.resh.find? (handleKey die h)
  let s := s.modM fun m =>
    let m := m.dropSharers q.id
    { m with sqs := m.sqs.erase q.id
             cways := m.cways.filter fun c => !decide (c.sq = q.id)
             hints := m.hints.filter fun c => !decide (c.sq = q.id) }
  match old with
  | none => s
  | some r =>
    if r.prio = 0 then s
    else
      (s.modM fun m => { m with resh := (List.range 4).foldl (fun t d =>
        t.modify (handleKey d h) fun r => { r with dem := true }) m.resh }).modX fun x => x.count r.ctx die 7 1

/-- The slice number, over the module, that is home to a square. -/
def sliceOf (sq : Nat) : Nat := 48 * (sq / 2 ^ 28) + homeSlice (1024 * sq)

/-- The squares in the ways of a square's set of a slice: 128 sets (R1, log entry 11, DESIGN CHOICE). -/
def MemSys.sqWays (m : MemSys) (slice id : Nat) : List Sq :=
  ((m.sqs.map (·.2)).filter fun q => decide (q.holder = slice)).filter fun q =>
    decide (Config.l2Set q.id % 128 = Config.l2Set id % 128)

/-- A migrated square goes back to its home slice: its causeway and hints go, and it counts afresh (R87). -/
def MemSys.sqHome (m : MemSys) (sq : Nat) : MemSys :=
  { m.modSq sq (fun q => { q with holder := sliceOf sq }) with
    cways := m.cways.filter fun c => !decide (c.sq = sq)
    hints := m.hints.filter fun c => !decide (c.sq = sq)
    tracks := m.tracks.filter fun t => !decide (t.sq = sq) }

/-- Whether a square's set of a slice has a free way. -/
def MemSys.sqFree (m : MemSys) (slice id : Nat) : Bool :=
  decide ((m.sqs.filter fun p => decide (p.2.holder = slice)).length < 16) || decide ((m.sqWays slice id).length < 16)

/-- Room for a square in its slice: of 16 ways the held ones are passed over, and a migrated square that must yield is
written back and returned to its home slice, or dropped where that has no way for it (R1, R87, R90, R126). Where every way is
held there is none (log entry 11, DESIGN CHOICE). -/
def State.sqRoomGo : Nat → State → Nat → Nat → State
  | 0, s, _, _ => s
  | n + 1, s, slice, id =>
    if s.mem.sqFree slice id then s
    else match leastBy (fun q => s.mem.rankOf (q.id / 2 ^ 28) q.pa * 2 ^ 64 + q.lru) ((s.mem.sqWays slice id).filter fun q => !q.hold) with
      | none => s
      | some q =>
        if q.holder = sliceOf q.id then s.evictSq q
        else
          let s := State.sqRoomGo n s (sliceOf q.id) q.id
          if s.mem.sqFree (sliceOf q.id) q.id then s.modM fun m => (m.sqHome q.id).modSq q.id fun q => { q with dirty := 0 }
          else s.evictSq q
def State.sqRoom (s : State) (slice id : Nat) : State := State.sqRoomGo 8 s slice id

/-- A square's row sectors are written to HBM and invalidated, in its slice and in every sharer (R281). -/
def MemSys.sqInvalidate (m : MemSys) (sq : Nat) : MemSys :=
  (m.dropSharers sq).modSq sq fun q => { q with valid := 0, dirty := 0, cinv := false }

/-- The near slice of an atoll of the module (R84). -/
def State.nearSlice (s : State) (atoll : Nat) : Nat :=
  48 * (atoll / 21) + (s.trust.manifest.near.getD (atoll / 21) []).getD (atoll % 21) 0

/-- One request in a tidal tracker (R84): the new candidate and count. -/
def trackStep (t : Option Nat × Nat) (atoll : Nat) (sameDie : Bool) : Option Nat × Nat :=
  if t.1 = some atoll then (t.1, min 63 (t.2 + 1))
  else if 1 < t.2 then (t.1, t.2 - 1)
  else if sameDie then (some atoll, 1) else (none, 0)

/-- Counts a request to a tidal square, and starts its migration or return (R84, R85, R87). -/
def State.tidalCount (s : State) (sq core : Nat) : State :=
  match s.mem.sqs.find? sq with
  | none => s
  | some q =>
    if !q.tidal then s
    else
      let old := s.mem.tracks.find? fun t => decide (t.slice = q.holder ∧ t.sq = sq)
      let st := trackStep ((old.map fun t => (t.atoll, t.count)).getD (none, 0)) (core / 8) (decide (dieOf core = sq / 2 ^ 28))
      let p := s.stamp
      let rest := p.2.mem.tracks.filter fun t => !decide (t.slice = q.holder ∧ t.sq = sq)
      let mine := rest.filter fun t => decide (t.slice = q.holder)
      let rest := if mine.length < 256 then rest
        else match leastBy Track.lru mine with
          | some v => rest.filter fun t => !decide (t = v)
          | none => rest
      let s := p.2.modM fun m => { m with tracks := rest ++ [⟨q.holder, sq, st.1, st.2, p.1⟩] }
      match st.1 with
      | some a =>
        if 32 ≤ st.2 ∧ s.nearSlice a ≠ q.holder then
          s.modX fun x => x.post 1 (if q.holder = sliceOf sq then .tidalMigration sq else .tidalReturn sq)
        else s
      | none => s

/-- A square is allocated at its home slice for a request (R70, R71), unless every way of its set is held: the request is then
served past the L2 and leaves no square (R126, log entry 11, DESIGN CHOICE). One that stands there under another key slot is
no hit and gives way as a chosen victim does, its handle Demoted and counted: the manual does not say that this is an
eviction (R90, log entry 79, DESIGN CHOICE). -/
def State.sqAlloc (s : State) (ctx : Nat) (l : Loc) (col : Bool) (width : Nat) : State :=
  let sq := l.sec / 32
  let s := match s.mem.sqs.find? sq with
    | some q => s.evictSq q
    | none => s
  let s := s.sqRoom (sliceOf sq) sq
  let q : Sq :=
    { id := sq, key := l.key, holder := sliceOf sq, orient := col, width := width, turn := 0, turning := false,
      sharers := 0, hold := s.mem.claims.any fun c => decide (c.sq = sq), valid := 0, dirty := 0, lru := 0,
      tidal := l.tidal, tcol := col, twid := width, ctx := ctx, pa := l.pa / 1024 * 1024, va := l.va / 1024 * 1024, cinv := false }
  if s.mem.sqFree (sliceOf sq) sq then s.modM fun m => { m with sqs := m.sqs.insert sq q } else s

/-- A request reaches a square: it is allocated on a miss, its layout counts the access, the row sectors it needs
are valid and those it writes dirty; a migrated square's requests are forwarded (R70 to R73, R86). Only a sector request
counts in the tidal tracker (R84): `req`. A request of an atoll whose hint table names the square goes
directly, one of its engines' too: R86 does not say which way an engine's request goes (log entry 79, DESIGN CHOICE). -/
def State.sqTouch (s : State) (core ctx : Nat) (l : Loc) (req col : Bool) (width : Nat) (need wr : BitVec 32) : State :=
  let sq := l.sec / 32
  let s := if (s.mem.sqs.find? sq).any fun q => decide (q.key = l.key) then s else s.sqAlloc ctx l col width
  let p := s.stamp
  let s := p.2
  let q := ((s.mem.sqs.find? sq).map Sq.turned)
  match q with
  | none => s
  | some q =>
    let hit := decide (q.orient = col) && (!col || decide (q.width = width))
    let turns := !hit && decide (q.turn = 3)
    let q' : Sq := { q with
      turn := if hit || turns then 0 else q.turn + 1
      turning := turns, tcol := col, twid := if col then width else q.width
      valid := q.valid ||| need ||| wr, dirty := q.dirty ||| wr, lru := p.1, ctx := ctx, tidal := l.tidal }
    let s := s.modM fun m => m.modSq sq fun _ => q'
    let s := if turns then s.modX fun x => x.post 16 (.squareTurn sq) else s
    let s := if q.holder ≠ sliceOf sq ∧ !(s.mem.hints.any fun h => decide (h.slice = core / 8 ∧ h.sq = sq)) then
        s.modX fun x => x.count ctx (sq / 2 ^ 28) 5 1 else s
    if req then s.tidalCount sq core else s

/-- The bit of a row sector within its square. -/
def rowBit (sec : Nat) : BitVec 32 := BitVec.ofNat 32 (2 ^ (sec % 32))

/-- Sends an invalidation of a row sector to every sharer but the writing die (R81). -/
def State.sendInvals (s : State) (sec die tok : Nat) : State :=
  match s.mem.sqs.find? (sec / 32) with
  | none => s
  | some q =>
    ((sharerDies (sec / 2 ^ 33) q.sharers).filter fun d => !decide (d = die)).foldl (fun s d =>
      (s.modM fun m => { m with invals := m.invals ++ [⟨d, sec, tok, false⟩] }).modX fun x =>
        x.post 1 (.rdcInvalidation d sec)) s

/-- The home slice performs one queued write (R73, R74, R81): a write of fewer than all bytes fills the sector first, and
an engine's write that meets an uncorrectable sector leaves it poisoned (R98). -/
def State.performReq (s : State) (r : Req) : State :=
  let sec := r.loc.sec
  let spoilt := decide (r.src = .engine) && s.mem.unc.contains sec
  let s := if r.pois = some false ∧ !spoilt then s else s.detect sec r.loc.pa r.ctx
  let s := s.sqTouch (8 * r.atoll) r.ctx r.loc (!decide (r.src = .back)) false 0 0 (rowBit sec)
  let s := s.modM fun m =>
    let m := m.putSector r.loc.key sec r.mask r.data (if spoilt then some true else r.pois)
    { m with reqs := m.reqs.filter fun q => !decide (q.id = r.id) }
  s.sendInvals sec r.die r.tok

/-- The square of a request. -/
def Req.sq (r : Req) : Nat := r.loc.sec / 32
/-- Performs every queued write of a square in arrival order (R74). -/
def State.drainSq (s : State) (sq : Nat) : State :=
  (s.mem.reqs.filter fun r => decide (r.sq = sq)).foldl State.performReq s

/-! ### The remote-data cache (R77 to R82) -/

def RdcSec.key (r : RdcSec) : Nat := r.loc.key

def MemSys.rdcFind (m : MemSys) (die sec key : Nat) : Option RdcSec :=
  m.rdc.find? fun r => decide (r.die = die ∧ r.sec = sec ∧ r.key = key)

/-- An invalidation, or an own write whose bytes are decided at the home slice, reaches a die's copies of a sector:
a Valid one goes, a Filling one is not kept (R80, R82). -/
def MemSys.rdcLose (m : MemSys) (die sec : Nat) : MemSys :=
  { m with rdc := (m.rdc.filter fun r => !(decide (r.die = die ∧ r.sec = sec) && r.valid)).map fun r =>
      if r.die = die ∧ r.sec = sec then { r with drop := true } else r }

/-- An own write leaves the die: merged into a Valid copy, while a Filling one is not kept (R80, R82). -/
def MemSys.rdcMerge (m : MemSys) (die sec key mask : Nat) (data : List Byte) (pois : Option Bool) : MemSys :=
  { m with rdc := (m.rdc.filter fun r => !(decide (r.die = die ∧ r.sec = sec ∧ r.key ≠ key) && r.valid)).map fun r =>
      if r.die = die ∧ r.sec = sec then
        (if r.valid then { r with data := mergeBytes mask r.data data, pois := pois.getD r.pois }
         else { r with drop := true })
      else r }

/-- Fill data arrives: the sector becomes Valid, or Invalid when an invalidation or an own write came first
(R82). -/
def MemSys.rdcArrive (m : MemSys) (die sec : Nat) : MemSys :=
  { m with rdc := (m.rdc.filter fun r => !(decide (r.die = die ∧ r.sec = sec) && !r.valid && r.drop)).map fun r =>
      if r.die = die ∧ r.sec = sec then { r with valid := true } else r }

/-- Room for a square in a remote-data cache set of 16 ways, a way being tagged with the square and its key (R77, R90). -/
def MemSys.rdcRoom (m : MemSys) (die : Nat) (l : Loc) : MemSys :=
  let set := m.rdc.filter fun r => decide (r.die = die ∧ r.sec / 32 % 2048 = l.sec / 32 % 2048)
  let way (r : RdcSec) : Nat × Nat := (r.sec / 32, r.key)
  let ways := dedup (set.map way)
  if ways.contains (l.sec / 32, l.key) || decide (ways.length < 16) then m
  else
    let rank (w : Nat × Nat) : Nat :=
      let mine := set.filter fun r => decide (way r = w)
      m.rankOf die ((mine.map fun r => r.loc.pa).headD 0) * 2 ^ 64 + (mine.map RdcSec.lru).foldl max 0
    match leastBy rank ways with
    | some w => { m with rdc := m.rdc.filter fun r => !(decide (r.die = die) && decide (way r = w)) }
    | none => m

/-- A row sector read below the L1 by a core or its engines (R79): at its home slice on the home die, else
through the die's remote-data cache. `req` says that it is a sector request (R75), `rdc` that it may use the remote-data
cache. Answers the bytes and whether they are poisoned. -/
def State.fetch (s : State) (core ctx hint : Nat) (l : Loc) (req : Bool := true) (rdc : Bool := true) :
    State × List Byte × Bool :=
  let die := dieOf core
  let sec := l.sec
  let atHome (s : State) : State :=
    let s := (s.drainSq (sec / 32)).detect sec l.pa ctx
    s.sqTouch core ctx l req false 0 (rowBit sec) 0
  let stored (s : State) : List Byte × Bool := (s.mem.sector l.key sec, s.mem.pois.contains sec)
  if l.home = die ∨ !rdc then
    let s := atHome s
    (s, stored s)
  else
    let s := match s.mem.rdcFind die sec l.key with
      | some r => if r.valid then s else s.modM fun m => m.rdcArrive die sec
      | none => s
    match s.mem.rdcFind die sec l.key with
    | some r =>
      let p := s.stamp
      let s := (p.2.modM fun m => { m with rdc := m.rdc.map fun q => if q = r then { q with lru := p.1 } else q }).modX
        fun x => x.count ctx die 3 (if req then 1 else 0)
      (s, r.data, r.pois)
    | none =>
      let s := atHome s
      let d := stored s
      let claimed := s.mem.claims.any fun c => decide (c.sq = sec / 32)
      if hint = 2 || claimed || (s.mem.sqs.find? (sec / 32)).isNone then (s, d)
      else
        let p := s.stamp
        let s := p.2.modM fun m =>
          let m := m.rdcRoom die l
          let m := m.modSq (sec / 32) fun q => { q with sharers := bitSet q.sharers (sharerBit l.home die) true }
          { m with rdc := m.rdc ++ [⟨die, l, false, false, d.2, d.1, if hint = 1 then 0 else p.1⟩] }
        (s.modX fun x => (x.count ctx die 4 (if req then 1 else 0)).post 1 (.rdcFillArrival die sec), d)

/-- Sends a masked write of a sector to its home slice (R59, R80). -/
def State.send (s : State) (core ctx : Nat) (l : Loc) (mask : Nat) (data : List Byte) (pois : Option Bool) (src : ReqSrc) :
    State :=
  if mask = 0 then s
  else
    let die := dieOf core
    let s := if l.home = die then s else s.modM fun m => m.rdcMerge die l.sec l.key mask data pois
    let t := s.x.take
    let r : Req := ⟨t.1, l, mask, data, die, core / 8, core + 1, ctx, pois, src⟩
    { s with mem := { s.mem with reqs := s.mem.reqs ++ [r] }, x := t.2.post 1 (.homeSliceRequest (l.sec / 32)) }

/-! ### Invalidations in flight (R81, R82) -/

/-- An invalidation arrives at a remote-data cache (R82). -/
def State.invalArrive (s : State) (die sec : Nat) : State :=
  if s.mem.invals.any fun i => decide (i.die = die ∧ i.sec = sec ∧ i.ack = false) then
    (s.modM fun m =>
      let m := m.rdcLose die sec
      { m with invals := m.invals.map fun i => if i.die = die ∧ i.sec = sec then { i with ack := true } else i }).modX
        fun x => x.post 1 (.invalidationAck die sec)
  else s

/-- Its acknowledgement reaches the home slice, which clears the die's bit if no sector of the square is left (R81). -/
def State.invalAck (s : State) (die sec : Nat) : State :=
  if s.mem.invals.any fun i => decide (i.die = die ∧ i.sec = sec ∧ i.ack = true) then
    s.modM fun m =>
      let holds := m.rdc.any fun r => decide (r.die = die ∧ r.sec / 32 = sec / 32)
      let m := { m with invals := m.invals.filter fun i => !decide (i.die = die ∧ i.sec = sec ∧ i.ack = true) }
      if holds then m
      else m.modSq (sec / 32) fun q => { q with sharers := bitSet q.sharers (sharerBit (sec / 2 ^ 33) die) false }
  else s

/-- Invalidations of some writes arrive and are acknowledged. -/
def State.drainInvals (s : State) (p : Inval → Bool) : State :=
  (s.mem.invals.filter p).foldl (fun s i => (s.invalArrive i.die i.sec).invalAck i.die i.sec) s

/-- Every write that a core has sent is performed at `.mod` (R119): merged at its home slice, in the order of each
square, with every acknowledgement of R81. -/
def State.drainCore (s : State) (core : Nat) : State :=
  let sqs := dedup ((s.mem.reqs.filter fun r => decide (r.tok = core + 1)).map Req.sq)
  (sqs.foldl State.drainSq s).drainInvals fun i => decide (i.tok = core + 1)

/-! ### The L1 (R56 to R59) -/

def L1Sec.sec (c : L1Sec) : Nat := c.loc.sec
def L1Sec.key (c : L1Sec) : Nat := c.loc.key
/-- The tag of a sector's line: the line and its key (R56). -/
def L1Sec.line (c : L1Sec) : Nat × Nat := (c.sec / 4, c.key)

def MemSys.l1Find (m : MemSys) (core sec key : Nat) : Option L1Sec :=
  m.l1.find? fun c => decide (c.core = core ∧ c.sec = sec ∧ c.key = key)
def MemSys.l1Drop (m : MemSys) (core sec : Nat) : MemSys :=
  { m with l1 := m.l1.filter fun c => !decide (c.core = core ∧ c.sec = sec) }
def MemSys.l1Put (m : MemSys) (c : L1Sec) : MemSys :=
  { m with l1 := (m.l1.filter fun d => !decide (d.core = c.core ∧ d.sec = c.sec ∧ d.key = c.key)) ++ [c] }

/-- The context of a grid. -/
def State.gridCtx (s : State) (g : Nat) : Nat := (s.x.grids.find? g).elim 0 Grid.ctx

/-- Writes back a sector's dirty bytes; it stays valid and clean (R59). Only a store of the whole sector among them clears
the home's poison: R61 has such a store clear it, and R73's table leaves it unchanged at a write-back (log entry 79, DESIGN
CHOICE). -/
def State.writeBack (s : State) (c : L1Sec) (src : ReqSrc := .back) : State :=
  if c.dirty = 0 then s
  else
    (s.send c.core (s.gridCtx (c.grids.headD 0)) c.loc c.dirty c.data (if c.whole then some false else none) src).modM fun m =>
      { m with l1 := m.l1.map fun d =>
          if d.core = c.core ∧ d.sec = c.sec ∧ d.key = c.key then { d with dirty := 0, whole := false, grids := [] } else d }

/-- Writes back some sectors of a core. -/
def State.writeBackIf (s : State) (core : Nat) (p : L1Sec → Bool) (src : ReqSrc := .back) : State :=
  (s.mem.l1.filter fun c => decide (c.core = core) && p c).foldl (fun s c => s.writeBack c src) s

/-- Every dirty sector of a core's L1 is written back. -/
def State.l1Flush (s : State) (core : Nat) : State := s.writeBackIf core fun _ => true
/-- The L1's clean bytes that a condition names go: its sectors without dirty bytes are invalidated, and of a partly dirty
one the dirty bytes stay (R57, R120, log entry 65, DEDUCED). -/
def MemSys.l1CleanIf (m : MemSys) (p : L1Sec → Bool) : MemSys :=
  let kept := m.l1.filter fun c => !(p c && decide (c.dirty = 0))
  { m with l1 := kept.map fun c => if p c then { c with have_ := Nat.land c.have_ c.dirty } else c }
/-- Every clean byte of a core's L1 is invalidated. -/
def State.l1Clean (s : State) (core : Nat) : State := s.modM fun m => m.l1CleanIf fun c => decide (c.core = core)
/-- One sector is written back, then invalidated. -/
def State.l1Evict (s : State) (core sec : Nat) : State :=
  (s.writeBackIf core fun c => decide (c.sec = sec)).modM fun m => m.l1Drop core sec

/-- Ways of a core's L1 (R52, R56). -/
def MemSys.l1Ways (m : MemSys) (core : Nat) : Nat := (524288 - m.split.get 131072 core) / 32768

/-- Room for a sector's line in its set (R56, R58). -/
def State.l1Room (s : State) (core : Nat) (l : Loc) : State :=
  let set := s.mem.l1.filter fun c => decide (c.core = core ∧ c.sec / 4 % 256 = l.sec / 4 % 256)
  let lines := dedup (set.map L1Sec.line)
  if lines.contains (l.sec / 4, l.key) || decide (lines.length < s.mem.l1Ways core) then s
  else
    let of (n : Nat × Nat) := set.filter fun c => decide (c.line = n)
    let soft := lines.filter fun n => !((of n).any L1Sec.keep)
    match leastBy (fun n => ((of n).map L1Sec.lru).foldl max 0) (if soft.isEmpty then lines else soft) with
    | some v =>
      (s.writeBackIf core fun c => decide (c.line = v)).modM fun m =>
        { m with l1 := m.l1.filter fun c => !(decide (c.core = core) && decide (c.line = v)) }
    | none => s

/-- Places a sector with its hint's recency and persistence (R58): a line placed with hint 1 is the next of its set to
go. What a hint does on a hit, where R58 speaks of allocation, is taken to be the same (log entry 66, DESIGN CHOICE). -/
def State.l1Place (s : State) (hint : Nat) (c : L1Sec) : State :=
  let s := s.l1Room c.core c.loc
  let p := s.stamp
  let held := dedup ((s.mem.l1.filter fun d =>
    decide (d.core = c.core ∧ d.sec / 4 % 256 = c.sec / 4 % 256 ∧ d.line ≠ c.line) && d.keep).map L1Sec.line)
  let keep := c.keep || (decide (hint = 3) && decide (held.length < s.mem.l1Ways c.core / 2))
  p.2.modM fun m =>
    let m := m.l1Put { c with lru := p.1, keep := keep }
    if hint = 1 then { m with l1 := m.l1.map fun d => if d.core = c.core ∧ d.line = c.line then { d with lru := 0 } else d } else m

/-- Who accesses: a core, a context and a grid. -/
structure Who where
  core : Nat
  ctx  : Nat
  grid : Nat
  deriving DecidableEq, Repr

/-- A row load of the masked bytes of one sector (R57, R58): on a miss of some of them the sector is fetched, and only the dirty
bytes of the copy stand over what comes (R116). Memory that no page entry maps is never held in an L1 (R68).
`rdc` says that a miss may use the remote-data cache (R79). -/
def State.loadSec (s : State) (o : Who) (wide : Bool) (hint mask : Nat) (l : Loc) (rdc : Bool := true) :
    State × List Byte × Bool :=
  if wide || l.image then
    let s := s.writeBackIf o.core fun c => decide (c.sec = l.sec)
    let r := s.fetch o.core o.ctx hint l true rdc
    (r.1.modM fun m => m.l1Drop o.core l.sec, r.2)
  else
    match s.mem.l1Find o.core l.sec l.key with
    | some c =>
      if Nat.land c.have_ mask = mask then
        (s.l1Place hint c, c.data, c.pois)
      else
        let r := s.fetch o.core o.ctx hint l true rdc
        let d := mergeBytes c.dirty r.2.1 c.data
        let bad := r.2.2 || c.pois
        (r.1.l1Place hint { c with have_ := fullMask, data := d, pois := bad }, d, bad)
    | none =>
      let r := s.fetch o.core o.ctx hint l true rdc
      if hint = 2 then r
      else (r.1.l1Place hint ⟨o.core, l, fullMask, 0, false, r.2.2, r.2.1, 0, false, []⟩, r.2)

/-- What a store of some bytes of a sector does to its poison (R61). -/
def storePois (mask : Nat) : Option Bool := if mask = fullMask then some false else none

/-- A row store of the masked bytes of one sector (R57, R58). With hint 2 its own bytes alone are sent, and a copy that holds
other dirty bytes keeps them and its mask, at a wide scope too, where R57 writes the sector back and R58 keeps the mask (log
entry 79, DESIGN CHOICE). -/
def State.storeSec (s : State) (o : Who) (wide : Bool) (hint mask : Nat) (data : List Byte) (l : Loc) : State :=
  let old := s.mem.l1Find o.core l.sec l.key
  let c : L1Sec := old.getD ⟨o.core, l, 0, 0, false, false, List.replicate 32 0, 0, false, []⟩
  let c' : L1Sec := { c with
    have_ := Nat.lor c.have_ mask, data := mergeBytes mask c.data data, pois := (storePois mask).getD c.pois }
  if hint = 2 then
    let s := if old.isSome then s.modM fun m => m.l1Put c' else s
    s.send o.core o.ctx l mask data (storePois mask) .store
  else
    let s := s.l1Place hint { c' with
      dirty := Nat.lor c.dirty mask, whole := c.whole || decide (mask = fullMask), grids := setAdd c.grids o.grid }
    if wide then s.writeBackIf o.core (fun d => decide (d.sec = l.sec ∧ d.key = l.key)) .store
    else if c.dirty = 0 then s.modX fun x => x.post 8192 (.l1WritebackTimeout o.core l.sec) else s

/-- An indivisible update of one sector (R57, R80, R124): in the L1 at a narrow scope, at the home slice at a wide
one, and never in the remote-data cache (R79). `f` gives the new masked bytes; a poisoned sector is left as it is. Answers
the old bytes and poison (log entry 29, DEDUCED). `req` says that it is the first of its instruction in its sector, which is
the one that reaches the home slice as a sector request (R75). -/
def State.atomicSec (s : State) (o : Who) (wide : Bool) (hint : Nat) (l : Loc) (f : List Byte → Nat × List Byte)
    (req : Bool := true) : State × List Byte × Bool :=
  if wide then
    let s := (s.l1Evict o.core l.sec).drainSq (l.sec / 32)
    let s := if l.home = dieOf o.core then s else s.modM fun m => m.rdcLose (dieOf o.core) l.sec
    let s := s.detect l.sec l.pa o.ctx
    let s := if req then s.sqTouch o.core o.ctx l true false 0 (rowBit l.sec) (rowBit l.sec) else s
    let old := s.mem.sector l.key l.sec
    if s.mem.pois.contains l.sec then (s, old, true)
    else
      let n := f old
      ((s.modM fun m => m.putSector l.key l.sec n.1 n.2 none).sendInvals l.sec (dieOf o.core) (o.core + 1), old, false)
  else
    let r := s.loadSec o false (if hint = 2 then 0 else hint) fullMask l false
    if r.2.2 then r
    else
      let n := f r.2.1
      (r.1.storeSec o false (if hint = 2 then 0 else hint) n.1 n.2 l, r.2)

/-- The L1 action of a wide release (R57) and the order of R120: every dirty sector is written back and every
write the core has sent is performed (log entry 35, DESIGN CHOICE). -/
def State.release (s : State) (core : Nat) : State := (s.l1Flush core).drainCore core

/-! ### Engines and columns (R57, R60) -/

/-- An engine's read of a row sector. -/
def State.engineRead (s : State) (o : Who) (l : Loc) : State × List Byte × Bool :=
  (s.writeBackIf o.core fun c => decide (c.sec = l.sec)).fetch o.core o.ctx 0 l
/-- An engine's write of a row sector: poisoned data poison it, a whole sector of good data clears its poison (R61, R98). -/
def State.engineWrite (s : State) (o : Who) (l : Loc) (mask : Nat) (data : List Byte) (bad : Bool) (src : ReqSrc := .engine) : State :=
  (s.l1Evict o.core l.sec).send o.core o.ctx l mask data (if bad then some true else storePois mask) src

/-- The column sector, for elements of w bytes, that holds a byte of a square (R69). -/
def colSector (w byte : Nat) : Nat := w * (byte % 32 / w) + byte / 32 / (32 / w)
/-- The rows that a column sector crosses (R69). -/
def colRows (w k : Nat) : List Nat := (List.range (32 / w)).map fun i => 32 / w * (k % w) + i

/-- One column sector of a square is read at its home slice (R57, R69 to R73): the row sectors it crosses are written back
from the core's L1, its copies of them invalidated, and the sector is poisoned if one of them is. -/
def State.columnSector (s : State) (o : Who) (l : Loc) (w k : Nat) : State × Bool :=
  let sq := l.sec / 32
  let rows := colRows w k
  let s := rows.foldl (fun s n => s.l1Evict o.core (32 * sq + n)) s
  let s := rows.foldl (fun s n => s.detect (32 * sq + n) (l.pa / 1024 * 1024 + 32 * n) o.ctx) (s.drainSq sq)
  let s := s.sqTouch o.core o.ctx l true true w (rows.foldl (fun b n => b ||| rowBit n) 0) 0
  (s, rows.any fun n => s.mem.pois.contains (32 * sq + n))

/-! ### Sector-request counters (R75, R76, R93) -/

/-- Counts one sector request of a core. -/
def Exec.countReq (x : Exec) (o : Who) (l : Loc) : Exec :=
  x.count o.ctx (dieOf o.core) (if l.host then 2 else if l.home = dieOf o.core then 0 else 1) 1

/-! ### Device steps of the memory system -/

/-- L1_WRITEBACK_TIMEOUT (R59). -/
def execL1WritebackTimeout (core sector : Nat) (s : State) : Out :=
  s.onMem fun s => s.writeBackIf core fun c => decide (c.sec = sector)

/-- HOME_SLICE_REQUEST: the oldest request of a square (R74). -/
def execHomeSliceRequest (square : Nat) (s : State) : Out := s.onMem fun s =>
  match s.mem.reqs.find? fun r => decide (r.sq = square) with
  | none => s
  | some r =>
    let s := s.performReq r
    if s.mem.reqs.any fun r => decide (r.sq = square) then s.modX fun x => x.post 1 (.homeSliceRequest square) else s

/-- SQUARE_TURN (R71). -/
def execSquareTurn (square : Nat) (s : State) : Out := s.onMem fun s => s.modM fun m => m.modSq square Sq.turned

/-- RDC_FILL_ARRIVAL (R82). -/
def execRdcFillArrival (die sector : Nat) (s : State) : Out := s.onMem fun s => s.modM fun m => m.rdcArrive die sector
/-- RDC_INVALIDATION (R82). -/
def execRdcInvalidation (die sector : Nat) (s : State) : Out := s.onMem fun s => s.invalArrive die sector
/-- INVALIDATION_ACK (R81). -/
def execInvalidationAck (die sector : Nat) (s : State) : Out := s.onMem fun s => s.invalAck die sector

/-- TIDAL_MIGRATION: the square moves to its candidate atoll's near slice, unless it is turning or held, or the home
slice or the target has no free causeway, or the target no free way (R85, log entry 67, DEDUCED). -/
def execTidalMigration (square : Nat) (s : State) : Out := s.onMem fun s =>
  match s.mem.sqs.find? square with
  | none => s
  | some q =>
    let home := sliceOf square
    match (s.mem.tracks.find? fun t => decide (t.slice = home ∧ t.sq = square)).bind Track.atoll with
    | none => s
    | some a =>
      let target := s.nearSlice a
      let ways (slice : Nat) : Bool := decide ((s.mem.cways.filter fun c => decide (c.slice = slice)).length < 1024)
      let room := s.mem.sqFree target square
      if q.turning || q.hold || !(ways home && ways target && room) || decide (q.holder ≠ home) || decide (target = home) then s
      else
        let s := (s.drainSq square).modM fun m =>
          let near := m.hints.filter fun h => decide (h.slice = a)
          let hints := if near.length < 64 then m.hints else m.hints.filter fun h => !decide (some h = near.head?)
          { m.modSq square (fun q => { q with holder := target }) with
            cways := m.cways ++ [⟨home, square, target⟩], hints := hints ++ [⟨a, square, target⟩],
            tracks := m.tracks.filter fun t => !decide (t.sq = square) }
        s.modX fun x => x.count q.ctx (square / 2 ^ 28) 6 1

/-- A migrated square returns to its home slice, or leaves the L2 where that has no way for it (R87). -/
def State.tidalHome (s : State) (square : Nat) : State :=
  let s := s.drainSq square
  match (s.mem.sqs.find? square).filter fun q => !decide (q.holder = sliceOf square) with
  | none => s
  | some q =>
    let s := s.sqRoom (sliceOf square) square
    if s.mem.sqFree (sliceOf square) square then s.modM fun m => m.sqHome square else s.evictSq q

/-- TIDAL_RETURN (R87). -/
def execTidalReturn (square : Nat) (s : State) : Out := s.onMem fun s => s.tidalHome square

end Sys2Proof.Machine
end

