-- ==== Sys2Proof/Machine/Access.lean ====
section
/-! DEFINITION. What a fibre's access does once its address is translated: atomics, sector entries and their
effect, loads and value-returning atomics and how they end, the store side log's entries (02 R43 to R48, 03 R57,
06 R115 to R121, 14 R273 to R281). -/

namespace Sys2Proof.Machine

/-! ### Kinds of accesses and of log entries -/

def akLoad := 0
def akAtb := 1
def akAtbf := 2
def akAtbc := 3
def akCas := 4
def akColumn := 5
def akLdw := 6
def akRhnew := 7
def akFetch := 8
def ekStore := 0
def ekAtb := 1
def ekAtbf := 2
def ekAtbc := 3
def ekCwb := 4
def ekCinv := 5

/-- The core, context and grid a wave acts for. -/
def Exec.who (x : Exec) (w : Wave) : Who := ⟨x.coreOf w, x.ctxOf w, (x.teamOf w).elim 0 Team.grid⟩
/-- A core-local slot number of a wave (R41, log entry 12, DEDUCED): its quadrant and its place among the quadrant's waves. -/
def Exec.slotOf (x : Exec) (u : Nat) (w : Wave) : Nat :=
  (16 * w.quad + (x.waves.filter fun p => decide (p.1 < u ∧ p.2.quad = w.quad) && !p.2.exited &&
    decide (x.coreOf p.2 = x.coreOf w)).length) % 64

/-- The core-local slot of a wave that an engine acts for (R41). -/
def Exec.slotNo (x : Exec) (u : Nat) : Nat := (x.wave? u).elim 0 (x.slotOf u)

/-! ### Atomic operations (R277 to R279) -/

/-- The new value of an ATB or ATL of n bits. -/
def atbNew (op n old x : Nat) : Nat :=
  match op with
  | 0 => (old + x) % 2 ^ n
  | 1 => Nat.land old x
  | 2 => Nat.lor old x
  | 3 => Nat.xor old x
  | 4 => if signed n x < signed n old then x else old
  | 5 => if signed n old < signed n x then x else old
  | 6 => max old x
  | _ => x

/-- The element format of an ATBF: size in bytes, element bit. -/
def atbfFmt (size : Nat) (bf : Bool) : Fmt := if size = 4 then fp32 else if bf then fp16 else bf16
/-- The new value of an ATBF (R277): op 0 add, 1 min, 2 max. -/
def atbfNew (f : Fmt) (op old x : Nat) : Nat :=
  let a := value f old
  let b := value f x
  if op = 0 then encodeX f (rne f (XR.add false a b))
  else match fminPick (decide (op = 2)) a b with
    | none => f.defaultNan
    | some true => old
    | some false => x

/-- The new pair of an ATBC (R278). -/
def atbcNew (old x0 x1 : Nat) : Nat :=
  let v := value fp32 (old % 2 ^ 32)
  let r := value fp32 (old / 2 ^ 32)
  let a := value fp32 x0
  let b := value fp32 x1
  let t := twoSum fp32 v a
  let r' := if t.1.isInf then XR.zero false else rne fp32 (xsum false [r, t.2, b])
  if v.isNan || r.isNan || a.isNan || b.isNan || t.1.isNan || r'.isNan then fp32.defaultNan
  else encodeX fp32 t.1 + 2 ^ 32 * encodeX fp32 r'

/-- The new value of an atomic entry: kind, the M [7:4] field, size in bytes. -/
def atomicNew (kind fld size old x0 x1 : Nat) : Nat :=
  if kind = akCas then (if old = x0 then x1 else old)
  else if kind = akAtbc then atbcNew old x0 x1
  else if kind = akAtbf then atbfNew (atbfFmt size (bitOf fld 0)) (fld / 2 % 4) old x0
  else atbNew (fld % 8) (8 * size) old x0

/-- n bytes of a sector from an offset. -/
def sliceOf32 (d : List Byte) (off n : Nat) : List Byte := (d.drop off).take n
/-- A sector whose bytes from an offset are the given ones. -/
def placeAt (off : Nat) (b : List Byte) : List Byte :=
  List.replicate off 0 ++ b ++ List.replicate (32 - off - b.length) 0
/-- The mask of n bytes from an offset. -/
def maskAt (off n : Nat) : Nat := (2 ^ n - 1) * 2 ^ off

/-- An atomic on the bytes of a sector. -/
def atomicOn (kind fld size off x0 x1 : Nat) (d : List Byte) : Nat × List Byte :=
  (maskAt off size, placeAt off (leBytes size (atomicNew kind fld size (leNat (sliceOf32 d off size)) x0 x1)))

/-! ### Host pages (R13, R65, R116) -/

/-- A host address. -/
def hostLoc (pa : Nat) : Loc := ⟨true, pa, 0, 0, false, 0, 0, false⟩

/-- Bytes of host memory; what nothing has written reads 0 (log entry 5, DESIGN CHOICE). -/
def MemSys.hostBytes (m : MemSys) (a n : Nat) : List Byte := (List.range n).map fun i => m.host.get 0 (a + i)
/-- The masked bytes of a sector written over PCIe. -/
def MemSys.hostMask (m : MemSys) (a mask : Nat) (d : List Byte) : MemSys :=
  d.zipIdx.foldl (fun m p => if bitOf mask p.2 then m.putHost (a + p.2) [p.1] else m) m

/-! ### Performing a sector entry (R44, R57, R281) -/

/-- One value-less atomic of an entry, its first or a later one; true when it met poison. -/
def State.entAtomic (s : State) (o : Who) (e : LogEnt) (l : Loc) (hint : Nat) (first : Bool) (a : Nat × Nat × Nat) :
    State × Bool :=
  let size := e.op / 16
  if l.host then
    (s.modM fun m => m.putHost (l.pa + a.1)
      (leBytes size (atomicNew e.kind (e.op % 16) size (leNat (m.hostBytes (l.pa + a.1) size)) a.2.1 a.2.2)), false)
  else
    let r := s.atomicSec o (decide (4 ≤ e.scope) || decide (e.kind = ekAtbc)) hint l
      (atomicOn e.kind (e.op % 16) size a.1 a.2.1 a.2.2) first
    (r.1, r.2.2)

/-- CINV at its scope (R281, log entry 38, DEDUCED); at a claimed square its home slice's part waits for the release
(R126). -/
def State.cinv (s : State) (o : Who) (scope : Nat) (l : Loc) : State :=
  let s := s.l1Evict o.core l.sec
  if scope < 4 then s
  else
    let s := s.modM fun m => m.rdcLose (dieOf o.core) l.sec
    if scope < 5 then s
    else
      let s := s.drainSq (l.sec / 32)
      s.modM fun m =>
        if (m.sqs.find? (l.sec / 32)).any Sq.hold then m.modSq (l.sec / 32) fun q => { q with cinv := true }
        else m.sqInvalidate (l.sec / 32)

/-- Performs one entry at its translated sector, whose address is aligned to 32 bytes, with the release before it and the
acquire after it that its order asks (R57). Answers the positions of the fibres whose reduction met poison (R61). -/
def State.performEnt (s : State) (o : Who) (e : LogEnt) (hint : Nat) (l : Loc) : State × List Nat :=
  let wide := decide (4 ≤ e.scope)
  let s := if decide (2 ≤ e.ord) && wide then s.release o.core else s
  let r : State × List Nat :=
    if e.kind = ekCwb then
      (if wide && !l.host then s.writeBackIf o.core fun c => decide (c.sec = l.sec) else s, [])
    else if e.kind = ekCinv then (if l.host then s else s.cinv o e.scope l, [])
    else if e.kind = ekStore then
      (if l.host then s.modM fun m => m.hostMask l.pa e.mask e.data
       else s.storeSec o wide hint e.mask e.data l, [])
    else
      e.args.zipIdx.foldl (fun r p =>
        let q := r.1.entAtomic o e l hint (decide (p.2 = 0)) p.1
        (q.1, if q.2 then r.2 ++ [p.2] else r.2)) (s, [])
  (if decide (e.ord = 1 ∨ e.ord = 3) && wide then r.1.l1Clean o.core else r.1, r.2)

/-- Counts the request of an entry (R75): CWB and CINV are write-backs and are not counted. -/
def State.countEnt (s : State) (o : Who) (e : LogEnt) (l : Loc) : State :=
  if e.kind = ekCwb ∨ e.kind = ekCinv then s else s.modX fun x => x.countReq o l

/-- What the translation of an entry asks (R35). -/
def LogEnt.need (e : LogEnt) : Need :=
  if e.kind = ekCwb then { idle := true }
  else if e.kind = ekCinv then { write := true, idle := true }
  else if e.kind = ekStore then { write := true }
  else { write := true, atomic := true, host := decide (e.kind = ekAtb) }
/-- The kind of its fault record (R41). -/
def LogEnt.faultKind (e : LogEnt) : Nat := if e.kind = ekAtb ∨ e.kind = ekAtbf ∨ e.kind = ekAtbc then 2 else 1

/-! ### Own staged writes (R130) -/

/-- A sector of a deterministic wave's view: committed bytes overlaid with its own staged stores and
reductions in program order (log entry 40, DEDUCED). -/
def Wave.overlay (w : Wave) (va : Nat) (d : List Byte) : List Byte :=
  (w.staged.map Staged.ents).flatten.foldl (fun d e =>
    if e.va / 32 ≠ va / 32 then d
    else if e.kind = ekStore then mergeBytes e.mask d e.data
    else if e.kind = ekCwb ∨ e.kind = ekCinv then d
    else e.args.foldl (fun d a =>
      let n := atomicOn e.kind (e.op % 16) (e.op / 16) a.1 a.2.1 a.2.2 d
      mergeBytes n.1 d n.2) d) d

/-! ### Loads (R57, R116, R117, R274 to R280) -/

/-- Elements of a narrow load, in FP32 patterns (R275): b is the storage size in bits. -/
def narrowLoad (f : Fmt) (n m : Nat) : List Nat :=
  (List.range m).map fun i => encodeX fp32 (rne fp32 (value f (n / 2 ^ (f.storage * i) % 2 ^ f.width)))
/-- The bytes of a narrow store, as a number (R275). -/
def narrowStore (f : Fmt) (l : List Nat) : Nat :=
  (l.zipIdx.map fun p => (roundBits f .rne true (value fp32 p.1)).bits * 2 ^ (f.storage * p.2)).sum

/-- Words of n bytes, low first. -/
def bytesWords (n : Nat) (b : List Byte) : List Nat :=
  (List.range ((n + 3) / 4)).map fun j => leNat ((b.drop (4 * j)).take 4)

/-- The result of an access from the bytes it read. -/
def PendAcc.result (a : PendAcc) (b : List Byte) : Res :=
  if a.fmt = 0 then { v := (bytesWords a.size b).zipIdx.map fun p => (a.d + p.2, BitVec.ofNat 32 p.1) }
  else
    let f := fmtOfDesc a.fmt
    { v := (narrowLoad f (leNat b) (8 * a.size / f.storage)).zipIdx.map fun p => (a.d + p.2, BitVec.ofNat 32 p.1) }
/-- The words an access writes when it is refused: zero in every destination register (R19, R21, R42). -/
def PendAcc.zeros (a : PendAcc) : List (Nat × Word) :=
  let n := if a.fmt = 0 then (a.size + 3) / 4 else 8 * a.size / (fmtOfDesc a.fmt).storage
  (List.range n).map fun j => (a.d + j, 0)
def PendAcc.refused (a : PendAcc) (c : Nat) : Res := { v := a.zeros, trap := some c }

/-- Writes the destination of an access: V registers, or once for the wave the W registers of an LDW, at once or at the close
of its window, which every fibre of its issuing group shares (R198, R276). -/
def Exec.putAcc (x : Exec) (u : Nat) (a : PendAcc) (v : List (Nat × Word)) : Exec :=
  if !a.wdst then x.putV u a.look a.slot v
  else if a.look = 0 then v.foldl (fun x p => x.writeW u p.1 p.2) x
  else
    let id := x.fresh
    let x := { x with fresh := x.fresh + 1 }
    x.modWave u fun w => { w with fibs := w.fibs.map fun p =>
      (p.1, if bitOf a.args.1 p.1 then { p.2 with wins := p.2.wins ++ [⟨id, a.look, [], v⟩] } else p.2) }

/-- Makes the result of an access. A trap comes after the destination value (R19, R21, R198). -/
def Exec.applyAcc (x : Exec) (u : Nat) (a : PendAcc) (r : Res) : Exec :=
  match x.wave? u with
  | none => x
  | some w =>
    match r.trap with
    | some c =>
      let x := x.setStatusIf r.oob w.team stOOB
      (if r.v.isEmpty then x else x.putAcc u a r.v).takeTrap u a.slot { cause := c, len := a.len, raw := a.raw, pc := a.pc }
    | none =>
      if !a.wdst then x.applyRes ⟨u, w, a.pc, []⟩ a.look a.len a.slot r
      else (x.setStatusIf r.oob w.team stOOB).putAcc u a r.v

/-- A fibre consumes poison: it is reported (R61, R405). -/
def State.poisoned (s : State) (o : Who) (l : Loc) : State :=
  s.modX fun x => x.err { type := 3, die := dieOf o.core, unit := o.core, ctx := o.ctx, pa := l.pa }

/-- The 32 bytes of a load's sector, with poison. -/
def State.readSector (s : State) (o : Who) (a : PendAcc) (mask : Nat) (l : Loc) : State × List Byte × Bool :=
  if l.host then (s, s.mem.hostBytes l.pa 32, false)
  else s.loadSec o (decide (4 ≤ a.scope)) a.hint mask l

/-- Distinct sectors of a list of translated accesses, in order. -/
def sectorsOf (l : List (PendAcc × Loc)) : List (Bool × Nat) := dedup (l.map fun p => (p.2.host, p.2.pa / 32))

/-- A read of a wave has met a sector whose last write is still on its way to the home slice or awaits an acknowledgement:
the response is unsettled (R122). -/
def State.noteRead (s : State) (u : Nat) (l : Loc) : State :=
  if !l.host && (s.mem.invals.any (fun i => decide (i.sec = l.sec)) || s.mem.reqs.any fun r => decide (r.loc.sec = l.sec)) then
    s.modX fun x => x.modWave u fun w => { w with unset := setAdd w.unset l.sec }
  else s

/-- Row loads, sector by sector: every fibre that reads a byte reads it from the same write (R117). -/
def State.performRows (s : State) (u : Nat) (o : Who) (l : List (PendAcc × Loc)) : State :=
  (sectorsOf l).foldl (fun s k =>
    let mine := l.filter fun p => decide (p.2.host = k.1 ∧ p.2.pa / 32 = k.2)
    match mine with
    | [] => s
    | p :: _ =>
      let mask := mine.foldl (fun n q => Nat.lor n (maskAt (q.2.pa % 32) q.1.size)) 0
      let base : Loc := { p.2 with pa := p.2.pa / 32 * 32 }
      let s := s.modX fun x => x.countReq o base
      let s := s.noteRead u base
      let r := s.readSector o p.1 mask base
      let d := ((r.1.x.wave? u).elim r.2.1 fun w => w.overlay (p.1.va / 32 * 32) r.2.1)
      let s := if r.2.2 then r.1.poisoned o base else r.1
      mine.foldl (fun s q =>
        let res := if r.2.2 then q.1.refused cPOISON else q.1.result (sliceOf32 d (q.2.pa % 32) q.1.size)
        s.modX fun x => x.applyAcc u q.1 res) s) s

/-- Value-returning atomics in increasing fibre number (R117, R277 to R279); those of one sector make one sector request (R75). -/
def State.performAtomics (s : State) (u : Nat) (o : Who) (l : List (PendAcc × Loc)) : State :=
  let s := (sectorsOf l).foldl (fun s k =>
    match l.find? fun p => decide (p.2.host = k.1 ∧ p.2.pa / 32 = k.2) with
    | some p => s.modX fun x => x.countReq o p.2
    | none => s) s
  l.foldl (fun s p =>
    let a := p.1
    let off := p.2.pa % 32
    let base : Loc := { p.2 with pa := p.2.pa / 32 * 32 }
    if base.host then
      let b := s.mem.hostBytes p.2.pa a.size
      let n := atomicNew a.kind a.sub a.size (leNat b) a.args.1 a.args.2.1
      (s.modM fun m => m.putHost p.2.pa (leBytes a.size n)).modX fun x => x.applyAcc u a (a.result b)
    else
      let r := (s.noteRead u base).atomicSec o (decide (4 ≤ a.scope) || decide (a.kind = akAtbc)) a.hint base
        (atomicOn a.kind a.sub a.size off a.args.1 a.args.2.1)
        (decide ((l.find? fun q => decide (q.2.host = false ∧ q.2.pa / 32 = p.2.pa / 32)) = some p))
      if r.2.2 then (r.1.poisoned o base).modX fun x => x.applyAcc u a (a.refused cPOISON)
      else r.1.modX fun x => x.applyAcc u a (a.result (sliceOf32 r.2.1 off a.size))) s

/-- Positions, within the square, of the elements of a column load: `sub` holds the width, swizzle mode and
parameter, `args` the record offset of element 0, the record base and the element count (R280, R20). -/
def PendAcc.columnBytes (a : PendAcc) : List Nat :=
  let w := a.sub % 8
  let mode := a.sub / 8 % 4
  let p := a.sub / 32
  ((List.range a.args.2.2).map fun j => (List.range w).map fun i => swizzle (a.args.1 + 32 * j) mode p + i).flatten

/-- The column sectors a column load names in its square (R69, R280). -/
def PendAcc.columnSecs (a : PendAcc) : List Nat := dedup (a.columnBytes.map fun b => colSector (a.sub % 8) (b % 1024))

/-- Column loads: each distinct column sector of the instruction is one request, served once for all its fibres (R57, R71,
R75, R280). -/
def State.performColumns (s : State) (u : Nat) (o : Who) (l : List (PendAcc × Loc)) : State :=
  let secs := dedup (l.flatMap fun p => p.1.columnSecs.map fun k => (p.2.sec / 32, k))
  let r := secs.foldl (fun (r : State × List (Nat × Nat)) k =>
    match l.find? fun p => decide (p.2.sec / 32 = k.1 ∧ k.2 ∈ p.1.columnSecs) with
    | none => r
    | some p =>
      let w := p.1.sub % 8
      let at_ (n : Nat) : Loc := { p.2 with pa := p.2.pa / 1024 * 1024 + 32 * n }
      let s := (colRows w k.2).foldl (fun s n => s.noteRead u (at_ n)) r.1
      let q := (s.modX fun x => x.countReq o p.2).columnSector o p.2 w k.2
      (if q.2 then q.1.poisoned o p.2 else q.1, if q.2 then r.2 ++ [k] else r.2)) (s, [])
  l.foldl (fun s p =>
    let poss := p.1.columnBytes.map (· % 1024)
    let base := p.1.args.2.1 + p.1.args.1 / 1024 * 1024
    let sq := p.2.sec / 32
    let rows := (dedup (poss.map (· / 32))).map fun n =>
      let d := s.mem.sector p.2.key (32 * sq + n)
      (n, (s.x.wave? u).elim d fun w => w.overlay (base + 32 * n) d)
    let b := poss.map fun n => ((SMap.find? rows (n / 32)).getD []).getD (n % 32) 0
    let bad := p.1.columnSecs.any fun k => r.2.contains (sq, k)
    s.modX fun x => x.applyAcc u p.1 (if bad then p.1.refused cPOISON else p.1.result b)) r.1

/-- The release of an access before it and the acquire after it (R57, R120). -/
def State.ordered (s : State) (o : Who) (scope ord : Nat) (f : State → State) : State :=
  let wide := decide (4 ≤ scope)
  let s := if wide && decide (2 ≤ ord) then s.release o.core else s
  let s := f s
  if wide && decide (ord = 1 ∨ ord = 3) then s.l1Clean o.core else s

/-- Performs translated accesses of one instruction. -/
def State.performAccs (s : State) (u : Nat) (o : Who) (l : List (PendAcc × Loc)) : State :=
  match l with
  | [] => s
  | p :: _ =>
    s.ordered o p.1.scope p.1.ord fun s =>
      if p.1.kind = akLoad ∨ p.1.kind = akLdw then s.performRows u o l
      else if p.1.kind = akColumn then s.performColumns u o l
      else s.performAtomics u o l

/-- What the translation of an access asks (R13, R35). A load with a nonzero `sub` is LDSQ on the row axis, which host
pages refuse. R13 lists a CASB of 16 bytes neither among the operations a host page performs nor among those it refuses:
it is refused with HOSTOP (log entry 68, DESIGN CHOICE). -/
def PendAcc.need (a : PendAcc) : Need :=
  if a.kind = akLoad ∨ a.kind = akLdw then { host := decide (a.sub = 0) }
  else if a.kind = akColumn then { host := false }
  else if a.kind = akFetch then { exec := true }
  else { write := true, atomic := true,
         host := decide (a.kind = akAtb) || (decide (a.kind = akCas) && decide (a.size ≤ 8)) }
/-- The kind of its fault record (R41); R41 gives the translations of RHNEW a class and no kind, and they post kind 0 (log
entry 69, DESIGN CHOICE). -/
def PendAcc.faultKind (a : PendAcc) : Nat :=
  if a.kind = akFetch then 4 else if a.kind = akAtb ∨ a.kind = akAtbf ∨ a.kind = akAtbc ∨ a.kind = akCas then 3 else 0

/-- Stages the loads of host pages of a deterministic wave, which waits for its commit (R349, R350). -/
def Exec.stageHost (x : Exec) (u : Nat) (l : List PendAcc) : Exec :=
  ((x.stage u { step := 1, kind := skHostLoad, pc := 0, accs := l }).closeQuantum u).modWave u fun w =>
    { w with hold := some .commit }

/-- Translates the accesses of one instruction. A failing check refuses an access, a page fault makes it wait for
a verdict, a load of a host page waits for its completion; the others are performed (R25, R35, R43, R65). -/
def State.tryAccs (s : State) (u : Nat) (l : List PendAcc) : State :=
  match s.x.wave? u with
  | none => s
  | some w =>
    let o := s.x.who w
    let r := (l.foldl (fun (r : (State × List (PendAcc × Loc)) × List Nat) a =>
      let t := r.1.1.translateIn r.2 o.core o.ctx a.va a.need
      (match t.2.1 with
      | .trap c => (t.1.modX fun x => x.applyAcc u a (a.refused c), r.1.2)
      | .fault =>
        let q := t.1.fault o.ctx o.core (t.1.x.slotOf u w) a.va a.faultKind a.need.write
        (q.1.modX fun x => x.modWave u fun w => { w with pend := w.pend ++ [{ a with frec := q.2, host := none }] }, r.1.2)
      | .ok p =>
        if p.host then
          (t.1.modX fun x => x.modWave u fun w => { w with pend := w.pend ++ [{ a with frec := 0, host := some p.pa }] }, r.1.2)
        else (t.1, r.1.2 ++ [(a, p)]), t.2.2)) ((s, []), [])).1
    let s := r.1.performAccs u o r.2
    match s.x.wave? u with
    | none => s
    | some w =>
      let hosts := w.pend.filter fun a => a.host.isSome
      if hosts.isEmpty then s
      else if s.x.determ w then
        s.modX fun x =>
          (x.modWave u fun w => { w with pend := w.pend.filter fun a => a.host.isNone }).stageHost u hosts
      else if s.x.hostq.any fun h => decide (h.2.1 = u) then s
      else
        let t := s.x.take
        { s with x := { t.2 with hostq := t.2.hostq ++ [(t.1, u, 0, 0)] }.post 1 (.pcieReadCompletion t.1) }

/-- The hold of a wave whose accesses wait, and its end once none does (R43); one whose loads of host pages are staged goes on
waiting, for its commit (R349). -/
def Exec.holdPend (x : Exec) (u pc : Nat) : Exec :=
  match x.wave? u with
  | none => x
  | some w =>
    if w.pend.isEmpty then
      match w.hold with
      | some (.fault _) =>
        if w.staged.any fun e => decide (e.kind = skHostLoad) then x.modWave u fun w => { w with hold := some .commit } else x.unhold u
      | _ => x
    else (x.modWave u fun w => { w with hold := some (.fault (dedup (w.pend.map PendAcc.frec))), holdPc := pc }).post 0 (.waveRipens u)

/-- PCIE_READ_COMPLETION: the waiting reads of host memory of one instruction return (R65, log entry 60, DESIGN CHOICE). -/
def execPcieReadCompletion (i : Nat) (s : State) : Out := s.onMem fun s =>
  match s.x.hostq.find? fun h => decide (h.1 = i) with
  | none => s
  | some h =>
    let u := h.2.1
    let s := s.modX fun x => { x with hostq := x.hostq.filter fun h => !decide (h.1 = i) }
    match s.x.wave? u with
    | none => s
    | some w =>
      let mine := w.pend.filter fun a => a.host.isSome
      let s := s.modX fun x => x.modWave u fun w => { w with pend := w.pend.filter fun a => a.host.isNone }
      let s := s.performAccs u (s.x.who w) (mine.filterMap fun a => a.host.map fun pa => (a, hostLoc pa))
      s.modX fun x => x.holdPend u w.holdPc

/-! ### The side log (R44 to R48) -/

/-- A load's sector matches a pending entry of its wave's log (R48). -/
def Wave.logHit (w : Wave) (va : Nat) : Bool := w.log.any fun e => decide (e.va / 32 = va / 32)

/-- An entry is discarded: each issuing fibre takes an asynchronous trap (R42, R46, R410). -/
def State.discardEnt (s : State) (u : Nat) (e : LogEnt) (cause : Nat) : State :=
  s.modX fun x => e.fibs.foldl (fun x f => x.asyncTrap u f cause e.pc) x

/-- The fibres of an entry whose reduction met poison after the instruction had retired (R61, R410). -/
def State.latePoison (s : State) (u : Nat) (o : Who) (e : LogEnt) (l : Loc) (at_ : List Nat) : State :=
  if at_.isEmpty then s
  else (s.poisoned o l).modX fun x => (at_.filterMap fun j => e.fibs[j]?).foldl (fun x f => x.asyncTrap u f cPOISON e.pc) x

/-- What follows the removal of the entry at a position of the log: commands and copies that waited for it, and waves held on a
full log or on a matching entry (R45, R47, R48). -/
def State.logMoved (s : State) (u : Nat) (pos : Nat := 0) : State :=
  s.modX fun x =>
    let x : Exec := { x with nms := x.nms.map fun (p : Nat × NmCmd) =>
      (p.1, if p.2.wave = u ∧ pos < p.2.older then { p.2 with older := p.2.older - 1 } else p.2) }
    let x := x.copies.foldl (fun x p => if p.2.wave = u ∧ !p.2.performed then x.post 1 (.lineOperationPerform p.1) else x) x
    let x := x.nms.foldl (fun x p => if p.2.wave = u then x.post 1 (.nmcmdSend p.2.core) else x) x
    let x := x.unholdWhere fun v w => decide (v = u) && decide (w.hold = some (.retry rvLog))
    let x := x.unholdWhere fun v w => decide (v = u) && (match w.hold with
      | some (.writes _) => decide (w.log.length ≤ 64)
      | _ => false)
    match x.wave? u with
    | some w => if w.log.isEmpty then x else x.post 1 (.sideLogReplay u)
    | none => x

/-- SIDE_LOG_REPLAY: the oldest entry of a wave's log translates again and is performed, held back or discarded
(R46). An entry of R44 holds no cache hint, and it is performed with hint 0 (log entry 79, DESIGN CHOICE). A reduction that meets poison gives its fibre an asynchronous trap (R61, R410, log entry 37, DEDUCED). -/
def State.replay (s : State) (u : Nat) : State :=
  match s.x.wave? u with
  | none => s
  | some w =>
    match w.log with
    | [] => s
    | e :: rest =>
      if e.held.isSome then s
      else
        let o := s.x.who w
        let t := s.translate o.core o.ctx e.va e.need
        match t.2 with
        | .fault =>
          let q := t.1.fault o.ctx o.core (s.x.slotOf u w) e.va e.faultKind true
          q.1.modX fun x => x.modWave u fun w => { w with log := { e with held := some q.2 } :: rest }
        | .trap c =>
          ((t.1.modX fun x => x.modWave u fun w => { w with log := rest }).discardEnt u e c).logMoved u
        | .ok l =>
          let s := t.1.modX fun x => x.modWave u fun w => { w with log := rest }
          let q := (s.countEnt o e l).performEnt o e 0 l
          (q.1.latePoison u o e l q.2).logMoved u

/-- SIDE_LOG_REPLAY (R46). -/
def execSideLogReplay (u : Nat) (s : State) : Out := s.onMem fun s => s.replay u

/-- Issues the sector entries of a store, a reduction, a CWB or a CINV (R44, R45, R47). While the wave's log is not empty
every entry goes to the log whatever its translation, and translates when replay reaches it. Otherwise a failing check
traps the entry's fibres at the instruction, a fault sends the entry to the log, every other entry is performed at once. In
deterministic mode the entries are staged (R130, log entry 37, DEDUCED). -/
def State.issueEnts (s : State) (i : Iss) (len hint : Nat) (l : List LogEnt) : State :=
  let o := s.x.who i.w
  let det := s.x.determ i.w
  let r : State × List LogEnt := if !det && !i.w.log.isEmpty then (s, l) else
    (l.foldl (fun (r : (State × List LogEnt) × List Nat) e =>
      let t := r.1.1.translateIn r.2 o.core o.ctx e.va e.need
      (match t.2.1 with
      | .trap c => (t.1.modX fun x => x.trapAll i e.fibs c len, r.1.2)
      | .fault =>
        let q := t.1.fault o.ctx o.core (t.1.x.slotOf i.u i.w) e.va e.faultKind true
        (q.1, r.1.2 ++ [{ e with held := some q.2 }])
      | .ok p =>
        if (e.kind = ekCwb ∨ e.kind = ekCinv) ∧ p.host = true then (t.1, r.1.2)
        else if det then (t.1, r.1.2 ++ [e])
        else
          let q := (t.1.countEnt o e p).performEnt o e hint p
          let bad := q.2.filterMap fun j => e.fibs[j]?
          let s := if bad.isEmpty then q.1 else q.1.poisoned o p
          (s.modX fun x => x.trapAll i bad cPOISON len, r.1.2), t.2.2)) ((s, []), [])).1
  match r.2 with
  | [] => r.1
  | kept =>
    if det then
      r.1.modX fun x => x.stage i.u { step := 1, kind := skStore, pc := i.pc, ents := kept }
    else
      let s := r.1.modX fun x => (x.modWave i.u fun w => { w with log := w.log ++ kept }).post 1 (.sideLogReplay i.u)
      if 64 < i.w.log.length + kept.length then s.modX fun x => x.hold i (.writes 0) else s

end Sys2Proof.Machine
end

