-- ==== Sys2Proof/Machine/Funs.lean ====
section
/-! DEFINITION. Exact values of the correctly rounded functions (13 R262): rationals where the value is
one, and enclosures in fixed point elsewhere. Log entry 9. -/

namespace Sys2Proof.Machine

/-- An exact real result: a special value, a rational ±(n / d) · 2^e, or a value strictly between lo · 2^e
and hi · 2^e. -/
inductive Ex where
  | val (x : XR)
  | rat (neg : Bool) (n d : Nat) (e : Int)
  | between (neg : Bool) (lo hi : Nat) (e : Int)
  deriving DecidableEq, Repr

/-- Rounds an exact real. Where an enclosure's two ends round apart, which log entry 9 (DEDUCED) says no FP32, BF16
or FP16 operand reaches, the value is free. -/
def roundEx (f : Fmt) (mode : Rm) (sat : Bool) (key : Nat × Nat) (x : Ex) : Rd :=
  match x with
  | .val v => roundTo f mode sat v
  | .rat neg n d e => roundRat f mode sat neg n d e
  | .between neg lo hi e =>
    let a := roundRat f mode sat neg (4 * lo + 1) 4 e
    let b := roundRat f mode sat neg (4 * hi - 1) 4 e
    if a = b then a
    else ⟨value f (Config.functionValue key.1 key.2 a.v.dy.1.natAbs), a.ovf, false⟩

/-- Floor of the square root, by bits: the result so far, and the bits left. -/
def isqrtGo (n : Nat) : Nat → Nat → Nat
  | 0, r => r
  | b + 1, r =>
    let t := r + 2 ^ b
    isqrtGo n b (if t * t ≤ n then t else r)

/-- Floor of the square root. -/
def isqrt (n : Nat) : Nat := isqrtGo n (ilog2 n / 2 + 1) 0

/-- Fixed-point precision of the enclosures. -/
def fxP : Nat := 700
/-- The unit of the enclosures. -/
def fxOne : Nat := 2 ^ fxP
/-- Half-width of every enclosure, far above the error of the sums below. -/
def fxSlack : Nat := 2 ^ 40

/-- Σ (−1)^k / ((2k + 1) q^(2k+1)), scaled: the arctangent of 1/q when `alt`, its hyperbolic form when not. -/
def atanGo (alt : Bool) (q2 : Nat) : Nat → Nat → Nat → Bool → Int → Int
  | 0, _, _, _, acc => acc
  | n + 1, p, k, s, acc =>
    if p = 0 then acc
    else
      let t : Int := p / (2 * k + 1)
      atanGo alt q2 n (p / q2) (k + 1) (if alt then !s else s) (if s then acc - t else acc + t)

/-- π scaled, by Machin's formula. -/
def fxPi : Nat :=
  let a (q : Nat) := atanGo true (q * q) 400 (fxOne / q) 0 false 0
  (16 * a 5 - 4 * a 239).toNat

/-- atanh of z / 2^700, scaled, for 0 ≤ z ≤ 2^700 / 3. -/
def fxAtanh (z : Nat) : Nat :=
  let z2 := z * z / fxOne
  let rec go : Nat → Nat → Nat → Nat → Nat
    | 0, _, _, acc => acc
    | n + 1, p, k, acc => if p = 0 then acc else go n (p * z2 / fxOne) (k + 1) (acc + p / (2 * k + 1))
  go 400 z 0 0

/-- ln 2 scaled. -/
def fxLn2 : Nat := 2 * fxAtanh (fxOne / 3)

/-- exp(y / 2^700) or exp(−y / 2^700), scaled, for small y. -/
def fxExp (neg : Bool) (y : Nat) : Nat :=
  let rec go : Nat → Nat → Nat → Bool → Int → Int
    | 0, _, _, _, acc => acc
    | n + 1, p, k, s, acc =>
      if p = 0 then acc
      else go n (p * y / fxOne / (k + 1)) (k + 1) (if neg then !s else s)
        (if s then acc - (p : Int) else acc + p)
  (go 300 fxOne 0 false 0).toNat

/-- sin(y / 2^700), scaled, for 0 ≤ y ≤ π / 2. -/
def fxSin (y : Nat) : Nat :=
  let y2 := y * y / fxOne
  let rec go : Nat → Nat → Nat → Bool → Int → Int
    | 0, _, _, _, acc => acc
    | n + 1, p, k, s, acc =>
      if p = 0 then acc
      else go n (p * y2 / fxOne / ((k + 1) * (k + 2))) (k + 2) (!s) (if s then acc - (p : Int) else acc + p)
  (go 300 y 1 false 0).toNat

/-- The enclosure of a scaled value. -/
def enclose (neg : Bool) (t : Nat) : Ex := .between neg (t - fxSlack) (t + fxSlack) (-(fxP : Int))

/-- 1 / a (R262). -/
def exRcp (a : XR) : Ex :=
  match a with
  | .nan => .val .nan
  | .inf s => .val (.zero s)
  | .zero s => .val (.inf s)
  | .num m e => .rat (decide (m < 0)) 1 m.natAbs (-e)

/-- a / b (R258). -/
def exDiv (a b : XR) : Ex :=
  match a, b with
  | .nan, _ => .val .nan
  | _, .nan => .val .nan
  | .inf s, y => if y.isInf then .val .nan else .val (.inf (xor s y.neg?))
  | x, .inf s => .val (.zero (xor x.neg? s))
  | .zero s, y => if y.isZero then .val .nan else .val (.zero (xor s y.neg?))
  | .num m _, .zero s => .val (.inf (xor (decide (m < 0)) s))
  | .num m e, .num n f => .rat (xor (decide (m < 0)) (decide (n < 0))) m.natAbs n.natAbs (e - f)

/-- m · 2^e with an even exponent. -/
def evenExp (m : Nat) (e : Int) : Nat × Int := if e % 2 = 0 then (m, e) else (2 * m, e - 1)

/-- √a (R262). -/
def exSqrt (a : XR) : Ex :=
  match a with
  | .nan => .val .nan
  | .inf s => .val (if s then .nan else .inf false)
  | .zero s => .val (.zero s)
  | .num m e =>
    if m < 0 then .val .nan
    else
      let p := evenExp m.natAbs e
      let n := p.1 * 2 ^ 240
      let r := isqrt n
      if r * r = n then .rat false r 1 (p.2 / 2 - 120) else .between false r (r + 1) (p.2 / 2 - 120)

/-- 1 / √a (R262). -/
def exRsqrt (a : XR) : Ex :=
  match a with
  | .nan => .val .nan
  | .inf s => .val (if s then .nan else .zero false)
  | .zero s => .val (.inf s)
  | .num m e =>
    if m < 0 then .val .nan
    else
      let p := evenExp m.natAbs e
      let r := isqrt (2 ^ 400 / p.1)
      if r * r * p.1 = 2 ^ 400 then .rat false r 1 (-(p.2 / 2) - 200)
      else .between false r (r + 1) (-(p.2 / 2) - 200)

/-- The fraction of m · 2^e in [0, 1) scaled, and its floor; e at least −700 or a multiple of 1. -/
def fracOf (m e : Int) : Int × Nat :=
  if 0 ≤ e then (m * (2 : Int) ^ e.toNat, 0)
  else
    let d : Int := (2 : Int) ^ (-e).toNat
    (m / d, ((m % d) * (fxOne : Int) / d).toNat)

/-- 2^a (R262). -/
def exExp2 (a : XR) : Ex :=
  match a with
  | .nan => .val .nan
  | .inf s => .val (if s then .zero false else .inf false)
  | .zero _ => .val (.num 1 0)
  | .num m e =>
    if (12 : Int) < (ilog2 m.natAbs : Int) + e then .rat false 1 1 (if m < 0 then -5000 else 5000)
    else
      let p := fracOf m e
      if p.2 = 0 then .rat false 1 1 p.1
      else
        let t := fxExp false (p.2 * fxLn2 / fxOne)
        .between false (t - fxSlack) (t + fxSlack) (p.1 - fxP)

/-- log2 a (R262). -/
def exLog2 (a : XR) : Ex :=
  match a with
  | .nan => .val .nan
  | .inf s => .val (if s then .nan else .inf false)
  | .zero _ => .val (.inf true)
  | .num m e =>
    if m < 0 then .val .nan
    else
      let k := ilog2 m.natAbs
      let l : Int := (k : Int) + e
      if m.natAbs = 2 ^ k then .val (XR.mk l 0 false)
      else
        let x := m.natAbs * fxOne / 2 ^ k
        let z := (x - fxOne) * fxOne / (x + fxOne)
        let t : Int := l * fxOne + 2 * fxAtanh z * fxOne / fxLn2
        enclose (decide (t < 0)) t.natAbs

/-- sin of 2π times a fraction g / 2^700 of a turn, 0 < g ≤ 1/4. -/
def exSinTurn (neg : Bool) (g : Nat) : Ex :=
  if 4 * g = fxOne then .val (.num (if neg then -1 else 1) 0)
  else enclose neg (fxSin (2 * g * fxPi / fxOne))

/-- sin(2π f) for a fraction of a turn; `none` at the half turns. -/
def sinFrac (g : Nat) : Option Ex :=
  if g = 0 || 2 * g = fxOne then none
  else
    let neg := decide (fxOne < 2 * g)
    let h := if neg then g - fxOne / 2 else g
    some (exSinTurn neg (if fxOne < 4 * h then fxOne / 2 - h else h))

/-- sin(2πa) (R262). -/
def exSinr (a : XR) : Ex :=
  match a with
  | .nan => .val .nan
  | .inf _ => .val .nan
  | .zero s => .val (.zero s)
  | .num m e =>
    match sinFrac (fracOf m e).2 with
    | some x => x
    | none => .val (.zero (decide (m < 0)))

/-- cos(2πa) = sin(2π(a + 1/4)) (R262). -/
def exCosr (a : XR) : Ex :=
  match a with
  | .nan => .val .nan
  | .inf _ => .val .nan
  | .zero _ => .val (.num 1 0)
  | .num m e =>
    match sinFrac (((fracOf m e).2 + fxOne / 4) % fxOne) with
    | some x => x
    | none => .val (.zero false)

/-- tanh a (R262). -/
def exTanh (a : XR) : Ex :=
  match a with
  | .nan => .val .nan
  | .inf s => .val (.num (if s then -1 else 1) 0)
  | .zero s => .val (.zero s)
  | .num m e =>
    let neg := decide (m < 0)
    if (5 : Int) ≤ (ilog2 m.natAbs : Int) + e then .between neg (2 ^ 80 - 2) (2 ^ 80) (-80)
    else
      let y := if 0 ≤ e then m.natAbs * 2 ^ e.toNat * fxOne else m.natAbs * fxOne / 2 ^ (-e).toNat
      let u := iter (fun t => t * t / fxOne) 8 (fxExp true (2 * y / 256))
      enclose neg ((fxOne - u) * fxOne / (fxOne + u))

end Sys2Proof.Machine
end

