-- ==== Sys2Proof/Machine/Float.lean ====
section
/-! DEFINITION. Floating point, correctly rounded functions, packed and error-free operations, in every
length (13 R255 to R266). -/

namespace Sys2Proof.Machine

/-! ### Drivers (R257) -/

/-- The word format of an instruction: entries 0 to 2 are fixed (R172). -/
def wordFmt (m : AluM) : Fmt := fixedFmt m.fmt.toNat

/-- Encode(Rnd(x)) of an exact real. -/
def patEx (f : Fmt) (mode : Rm) (sat : Bool) (key : Nat × Nat) (v : Ex) : Pat :=
  let r := roundEx f mode sat key v
  ⟨encodeX f r.v, r.ovf, r.nan⟩

/-- A function of one operand, rounded once (R262). `id` keys the free value of log entry 9, DEDUCED. -/
def Exec.flt1 (x : Exec) (o : Opnds) (id : Nat) (g : Rm → XR → Ex) : Exec :=
  let f := wordFmt o.m
  x.perFibre o.len o.h (o.d :: o.s1.regs) fun i q =>
    orPoison (x.operandXl i q o.m o.s1) fun a =>
      let mode := x.mode o.m i.u q 0
      .ofPat o.d (patEx f mode o.m.sat (id, a) (g mode (value f a))) (drawsOf o.m 1)

/-- A function of two operands, rounded once (R258). -/
def Exec.flt2 (x : Exec) (o : Opnds) (g : Rm → XR → XR → Ex) : Exec :=
  let f := wordFmt o.m
  x.perFibre o.len o.h o.named fun i q =>
    orPoison (x.ab i q o) fun p =>
      let mode := x.mode o.m i.u q 0
      .ofPat o.d (patEx f mode o.m.sat (0, 0) (g mode (value f p.1) (value f p.2))) (drawsOf o.m 1)

/-- Two elements a word, each rounded once, element 0 drawing first (R263). -/
def pack2 (f : Fmt) (d : Nat) (draws : Nat) (sat : Bool) (mode : Nat → Rm) (v : Rm → Nat → XR) : Res :=
  let p (e : Nat) := roundBits f (mode e) sat (v (mode e) e)
  let p0 := p 0
  let p1 := p 1
  { Res.word d (p0.bits + 2 ^ 16 * p1.bits) with ovf := p0.ovf || p1.ovf, nan := p0.nan || p1.nan, draws := draws }

/-- Half e of a word. -/
def half (a e : Nat) : Nat := a / 2 ^ (16 * e) % 2 ^ 16

/-- A packed operation of two operands (R263). -/
def Exec.packed2 (x : Exec) (o : Opnds) (g : Rm → XR → XR → XR) : Exec :=
  let f := wordFmt o.m
  x.perFibre o.len o.h o.named fun i q =>
    orPoison (x.ab i q o) fun p =>
      pack2 f o.d (drawsOf o.m 2) o.m.sat (x.mode o.m i.u q) fun m e =>
        g m (value f (half p.1 e)) (value f (half p.2 e))

/-- A fused multiply-add's exact value. -/
def fmaX (m : Rm) (a b c : XR) : XR := xsum m.down [a.mul b, c]

/-- HFMA2 (R263). -/
def Exec.packed3 (x : Exec) (o : Opnds) : Exec :=
  let f := wordFmt o.m
  x.perFibre o.len o.h (o.named ++ [o.s3]) fun i q =>
    orPoison (x.ab i q o) fun p => orPoison (x.operand i q (.v o.s3)) fun c =>
      pack2 f o.d (drawsOf o.m 2) o.m.sat (x.mode o.m i.u q) fun m e =>
        fmaX m (value f (half p.1 e)) (value f (half p.2 e)) (value f (half c e))

/-- FFMA (R258). -/
def Exec.ffma (x : Exec) (o : Opnds) : Exec :=
  let f := wordFmt o.m
  x.perFibre o.len o.h (o.named ++ [o.s3]) fun i q =>
    orPoison (x.ab i q o) fun p => orPoison (x.operand i q (.v o.s3)) fun c =>
      let m := x.mode o.m i.u q 0
      .ofPat o.d (roundBits f m o.m.sat (fmaX m (value f p.1) (value f p.2) (value f c))) (drawsOf o.m 1)

/-- FMIN and FMAX: bit for bit as the operand word (R259). -/
def Exec.fpick (x : Exec) (o : Opnds) (big : Bool) : Exec :=
  let f := wordFmt o.m
  x.alu2 o fun a b => fminBits big f (a % 2 ^ f.width) (b % 2 ^ f.width)

/-- The rounded result of an error-free transform and its error (R264). -/
def errorPair (f : Fmt) (mode : Rm) (sat : Bool) (v : XR) : Rd × XR :=
  let s := roundTo f mode sat v
  (s, if s.v.isFinite && !s.ovf then plusZero (rne f (xsum false [v, s.v.negate])) else .zero false)

/-- Two words of a format as a destination pair. -/
def Res.ofPair (d : Nat) (f : Fmt) (s : Rd) (e : XR) (draws : Nat) : Res :=
  { Res.pair d (encodeX f s.v + 2 ^ 32 * encodeX f e) with ovf := s.ovf, nan := s.nan, draws := draws }

/-- ADDX, SUBX, MULX (R264). -/
def Exec.transform (x : Exec) (o : Opnds) (g : Rm → XR → XR → XR) : Exec :=
  let f := wordFmt o.m
  x.perFibre o.len o.h ((o.d + 1) :: o.named) fun i q =>
    orPoison (x.ab i q o) fun p =>
      let m := x.mode o.m i.u q 0
      let r := errorPair f m o.m.sat (g m (value f p.1) (value f p.2))
      .ofPair o.d f r.1 r.2 (drawsOf o.m 1)

/-- a + b, a − b and a × b under a mode. -/
def opAdd (m : Rm) (a b : XR) : XR := a.add m.down b
def opSub (m : Rm) (a b : XR) : XR := a.sub m.down b
def opMul (_ : Rm) (a b : XR) : XR := a.mul b

/-! ### 64-bit instructions -/

/-- FADD (R258). -/
def execFadd (w : AluI) (s : State) : Out := s.onX fun x => x.flt2 (opndsOf w) fun m a b => .val (opAdd m a b)
/-- FSUB (R258). -/
def execFsub (w : AluI) (s : State) : Out := s.onX fun x => x.flt2 (opndsOf w) fun m a b => .val (opSub m a b)
/-- FMUL (R258). -/
def execFmul (w : AluI) (s : State) : Out := s.onX fun x => x.flt2 (opndsOf w) fun m a b => .val (opMul m a b)
/-- FDIV (R258, R262). -/
def execFdiv (w : AluI) (s : State) : Out := s.onX fun x => x.flt2 (opndsOf w) fun _ a b => exDiv a b
/-- FFMA (R258). -/
def execFfma (w : AluI) (s : State) : Out := s.onX fun x => x.ffma (opndsOf w)
/-- FMIN (R259). -/
def execFmin (w : AluI) (s : State) : Out := s.onX fun x => x.fpick (opndsOf w) false
/-- FMAX (R259). -/
def execFmax (w : AluI) (s : State) : Out := s.onX fun x => x.fpick (opndsOf w) true
/-- FCMP (R260). -/
def execFcmp (w : AluI) (s : State) : Out := s.onX fun x =>
  let o := opndsOf w
  let f := wordFmt o.m
  x.perFibre 8 w.h (o.s1.regs ++ o.s2.regs) fun i q =>
    orPoison (x.ab i q o) fun p => .pred o.d (fcond o.s3 (value f p.1) (value f p.2))
/-- FSEL (R261). -/
def execFsel (w : AluI) (s : State) : Out := s.onX fun x => x.aluP (opndsOf w) fun a b c =>
  (if c then a else b, none)
/-- The class of R261 as a bit number. -/
def fclassOf (f : Fmt) (a : Nat) : Nat :=
  match value f a with
  | .nan => 8
  | .inf s => if s then 0 else 7
  | .zero s => if s then 3 else 4
  | .num m _ =>
    let sub := decide (a / 2 ^ f.m % 2 ^ f.e = 0)
    if m < 0 then (if sub then 2 else 1) else (if sub then 5 else 6)
/-- FCLASS (R261). -/
def execFclass (w : AluI) (s : State) : Out := s.onX fun x =>
  x.alu1 (opndsOf w) fun a => 2 ^ fclassOf (wordFmt w.m) a
/-- FSCALE: S2 is a 32-bit integer whatever the format (R258). -/
def execFscale (w : AluI) (s : State) : Out := s.onX fun x =>
  let o := opndsOf w
  let f := wordFmt o.m
  x.perFibre 8 w.h o.named fun i q =>
    orPoison (x.ab i q o) fun p =>
      .ofPat o.d (roundBits f (x.mode o.m i.u q 0) o.m.sat ((value f p.1).scale (s32 p.2))) (drawsOf o.m 1)
/-- A value rounded to an integer, a zero keeping the sign (R258). -/
def roundIntX (m : Rm) (a : XR) : XR :=
  match a with
  | .num n e => XR.mk (roundInt m n e) 0 (decide (n < 0))
  | a => a
/-- FRINT (R258). -/
def execFrint (w : AluI) (s : State) : Out := s.onX fun x =>
  x.flt1 (opndsOf w) 0 fun m a => .val (roundIntX m a)
/-- FRCP (R262). -/
def execFrcp (w : AluI) (s : State) : Out := s.onX fun x => x.flt1 (opndsOf w) 1 fun _ a => exRcp a
/-- FRSQ (R262). -/
def execFrsq (w : AluI) (s : State) : Out := s.onX fun x => x.flt1 (opndsOf w) 2 fun _ a => exRsqrt a
/-- FSQRT (R262). -/
def execFsqrt (w : AluI) (s : State) : Out := s.onX fun x => x.flt1 (opndsOf w) 3 fun _ a => exSqrt a
/-- FEXP2 (R262). -/
def execFexp2 (w : AluI) (s : State) : Out := s.onX fun x => x.flt1 (opndsOf w) 4 fun _ a => exExp2 a
/-- FLOG2 (R262). -/
def execFlog2 (w : AluI) (s : State) : Out := s.onX fun x => x.flt1 (opndsOf w) 5 fun _ a => exLog2 a
/-- FSINR (R262). -/
def execFsinr (w : AluI) (s : State) : Out := s.onX fun x => x.flt1 (opndsOf w) 6 fun _ a => exSinr a
/-- FCOSR (R262). -/
def execFcosr (w : AluI) (s : State) : Out := s.onX fun x => x.flt1 (opndsOf w) 7 fun _ a => exCosr a
/-- FTANH (R262). -/
def execFtanh (w : AluI) (s : State) : Out := s.onX fun x => x.flt1 (opndsOf w) 8 fun _ a => exTanh a
/-- HADD2 (R263). -/
def execHadd2 (w : AluI) (s : State) : Out := s.onX fun x => x.packed2 (opndsOf w) opAdd
/-- HMUL2 (R263). -/
def execHmul2 (w : AluI) (s : State) : Out := s.onX fun x => x.packed2 (opndsOf w) opMul
/-- HFMA2 (R263). -/
def execHfma2 (w : AluI) (s : State) : Out := s.onX fun x => x.packed3 (opndsOf w)
/-- ADDX (R264). -/
def execAddx (w : AluI) (s : State) : Out := s.onX fun x => x.transform (opndsOf w) opAdd
/-- SUBX (R264). -/
def execSubx (w : AluI) (s : State) : Out := s.onX fun x => x.transform (opndsOf w) opSub
/-- MULX (R264). -/
def execMulx (w : AluI) (s : State) : Out := s.onX fun x => x.transform (opndsOf w) opMul
/-- The error triple of R265. -/
def errorTriple (f : Fmt) (mode : Rm) (sat : Bool) (v : XR) : Rd × XR × XR :=
  let s := roundTo f mode sat v
  if s.v.isFinite && !s.ovf then
    let w1 := rne f (xsum false [v, s.v.negate])
    let w2 := rne f (xsum false [v, s.v.negate, w1.negate])
    (s, plusZero w1, plusZero w2)
  else (s, .zero false, .zero false)
/-- FMAE (R265). -/
def execFmae (w : AluI) (s : State) : Out := s.onX fun x =>
  let o := opndsOf w
  let f := wordFmt o.m
  x.perFibre 8 w.h ([o.d + 1, o.d + 2, o.s3] ++ o.named) fun i q =>
    orPoison (x.ab i q o) fun p => orPoison (x.operand i q (.v o.s3)) fun c =>
      let m := x.mode o.m i.u q 0
      let t := errorTriple f m o.m.sat (fmaX m (value f p.1) (value f p.2) (value f c))
      let r := Res.ofPair o.d f t.1 t.2.1 (drawsOf o.m 1)
      { r with v := r.v ++ [(o.d + 2, BitVec.ofNat 32 (encodeX f t.2.2))] }
/-- FASTX (R266). -/
def execFastx (w : AluI) (s : State) : Out := s.onX fun x =>
  let o := opndsOf w
  let f := wordFmt o.m
  x.perFibre 8 w.h ((o.d + 1) :: o.named) fun i q =>
    orPoison (x.ab i q o) fun p =>
      let a := value f p.1
      let b := value f p.2
      let m := x.mode o.m i.u q 0
      let s := roundTo f m o.m.sat (a.add m.down b)
      let z := roundTo f .rne false (s.v.sub false a)
      let e := roundTo f .rne false (b.sub false z.v)
      let ev := if s.v.isFinite && !(s.ovf || z.ovf || e.ovf) then plusZero e.v else .zero false
      .ofPair o.d f ⟨s.v, s.ovf || z.ovf || e.ovf, s.nan || z.nan || e.nan⟩ ev (drawsOf o.m 1)

/-! ### 16-bit and compact instructions (R187, R189) -/

/-- imm5 as an exact FP32 pattern (R187). -/
def immFp32 (n : Nat) : Nat := encodeX fp32 (.ofInt n)

/-- FADD_16 (R187). -/
def execFadd16 (w : Op16) (s : State) : Out := s.onX fun x => x.flt2 (opndsOf16 w immFp32) fun m a b => .val (opAdd m a b)
/-- FSUB_16 (R187). -/
def execFsub16 (w : Op16) (s : State) : Out := s.onX fun x => x.flt2 (opndsOf16 w immFp32) fun m a b => .val (opSub m a b)
/-- FMUL_16 (R187). -/
def execFmul16 (w : Op16) (s : State) : Out := s.onX fun x => x.flt2 (opndsOf16 w immFp32) fun m a b => .val (opMul m a b)
/-- FMAX_16 (R187). -/
def execFmax16 (w : Op16) (s : State) : Out := s.onX fun x => x.fpick (opndsOf16 w immFp32) true
/-- FADD_C (R189). -/
def execFaddC (w : CompA) (s : State) : Out := s.onX fun x => x.flt2 (opndsOfA w w.fn2 0) fun m a b => .val (opAdd m a b)
/-- FSUB_C (R189). -/
def execFsubC (w : CompA) (s : State) : Out := s.onX fun x => x.flt2 (opndsOfA w w.fn2 0) fun m a b => .val (opSub m a b)
/-- FMUL_C (R189). -/
def execFmulC (w : CompA) (s : State) : Out := s.onX fun x => x.flt2 (opndsOfA w w.fn2 0) fun m a b => .val (opMul m a b)
/-- FMIN_C (R189). -/
def execFminC (w : CompA) (s : State) : Out := s.onX fun x => x.fpick (opndsOfA w 0 0) false
/-- FMAX_C (R189). -/
def execFmaxC (w : CompA) (s : State) : Out := s.onX fun x => x.fpick (opndsOfA w 0 0) true
/-- FFMA_C: S3 := Vd (R189). -/
def execFfmaC (w : CompA) (s : State) : Out := s.onX fun x => x.ffma (opndsOfA w w.fn2 0)
/-- ADDX_C (R189). -/
def execAddxC (w : CompA) (s : State) : Out := s.onX fun x => x.transform (opndsOfA w w.fn2 0) opAdd
/-- MULX_C (R189). -/
def execMulxC (w : CompA) (s : State) : Out := s.onX fun x => x.transform (opndsOfA w w.fn2 0) opMul
/-- HADD2_C (R189). -/
def execHadd2C (w : CompA) (s : State) : Out := s.onX fun x => x.packed2 (opndsOfA w w.fn2 2) opAdd
/-- HMUL2_C (R189). -/
def execHmul2C (w : CompA) (s : State) : Out := s.onX fun x => x.packed2 (opndsOfA w w.fn2 2) opMul
/-- HFMA2_C: S3 := Vd (R189). -/
def execHfma2C (w : CompA) (s : State) : Out := s.onX fun x => x.packed3 (opndsOfA w w.fn2 2)

end Sys2Proof.Machine
end

