-- ==== Sys2Proof/Machine/Expansion.lean ====
section
/-! DEFINITION. Expansion arithmetic (13 R256, R267 to R271). -/

namespace Sys2Proof.Machine

/-- The registers of an n-word expansion. -/
def expRegs (k n : Nat) : List Nat := (List.range n).map (k + ·)

/-- The value of an n-word expansion in V registers, or of one W word (R184), rounded under RDN or not. -/
def Exec.expOperand (x : Exec) (i : Iss) (q : Nat) (f : Fmt) (o : Operand) (n : Nat) (down : Bool := false) : Option XR :=
  match o with
  | .v k => (x.words i q k n).map fun l => expValue down (l.map (value f))
  | o => (x.operand i q o).map (value f)

/-- The registers an expansion source names. -/
def Operand.expRegs (o : Operand) (n : Nat) : List Nat :=
  match o with
  | .v k => Machine.expRegs k n
  | _ => []

/-- The words of a result, low index first, with the conditions raised. -/
def Res.ofWords (d : Nat) (f : Fmt) (r : List XR × Bool × Bool) : Res :=
  { v := (r.1.zipIdx).map (fun p => (d + p.2, BitVec.ofNat 32 (encodeX f p.1))), ovf := r.2.1, nan := r.2.2 }

/-- XADD, XSUB, XMUL, XFMA: D := Canon(x, nd, F), the old D an operand of XFMA (R268). -/
def Exec.expArith (x : Exec) (w : AluI) (addend : Bool) (g : XR → XR → XR → XR) : Exec :=
  let o := opndsOf w
  let f := wordFmt o.m
  let nd := xWords (o.s3 % 4)
  let na := xWords (o.s3 / 4 % 4)
  let nb := xWords (o.s3 / 16 % 4)
  x.perFibre 8 w.h (expRegs o.d nd ++ o.s1.expRegs na ++ o.s2.expRegs nb) fun i q =>
    orPoison (x.expOperand i q f o.s1 na) fun a => orPoison (x.expOperand i q f o.s2 nb) fun b =>
      orPoison (if addend then x.expOperand i q f (.v o.d) nd else some (.zero false)) fun c =>
        .ofWords o.d f (canon f nd (g a b c))

/-- XADD (R268). -/
def execXadd (w : AluI) (s : State) : Out := s.onX fun x => x.expArith w false fun a b _ => a.add false b
/-- XSUB (R268). -/
def execXsub (w : AluI) (s : State) : Out := s.onX fun x => x.expArith w false fun a b _ => a.sub false b
/-- XMUL (R268). -/
def execXmul (w : AluI) (s : State) : Out := s.onX fun x => x.expArith w false fun a b _ => a.mul b
/-- XFMA (R268). -/
def execXfma (w : AluI) (s : State) : Out := s.onX fun x =>
  x.expArith w true fun a b c => xsum false [a.mul b, c]

/-- XREN (R268). -/
def execXren (w : AluI) (s : State) : Out := s.onX fun x =>
  let o := opndsOf w
  let f := wordFmt o.m
  let nd := xWords (o.s3 % 4)
  let na := xWords (o.s3 / 4 % 4)
  x.perFibre 8 w.h (expRegs o.d nd ++ o.s1.expRegs na) fun i q =>
    orPoison (x.expOperand i q f o.s1 na) fun a => .ofWords o.d f (canon f nd a)

/-- XCPR: S1 in the source word format, D in format FMT (R268). -/
def execXcpr (w : AluI) (s : State) : Out := s.onX fun x =>
  let o := opndsOf w
  let f := wordFmt o.m
  let nd := xWords (o.s3 % 4)
  let na := xWords (o.s3 / 4 % 4)
  x.perFibre 8 w.h (expRegs o.d nd ++ o.s1.expRegs na) fun i q =>
    orPoison (x.expOperand i q (fixedFmt (o.s3 / 16 % 4)) o.s1 na) fun a => .ofWords o.d f (canon f nd a)

/-- XCMP (R270). -/
def execXcmp (w : AluI) (s : State) : Out := s.onX fun x =>
  let o := opndsOf w
  let f := wordFmt o.m
  let nb := xWords (o.s3 % 4)
  let na := xWords (o.s3 / 4 % 4)
  x.perFibre 8 w.h (o.s1.expRegs na ++ o.s2.expRegs nb) fun i q =>
    orPoison (x.expOperand i q f o.s1 na) fun a => orPoison (x.expOperand i q f o.s2 nb) fun b =>
      .pred o.d (fcond (o.s3 / 16) a b)

/-- XSPLIT (R269). -/
def execXsplit (w : AluI) (s : State) : Out := s.onX fun x =>
  let o := opndsOf w
  let f := wordFmt o.m
  let nd := xWords (o.s3 % 4)
  x.perFibre 8 w.h (expRegs o.d nd ++ o.s1.regs) fun i q =>
    orPoison (x.operand i q o.s1) fun a =>
      .ofWords o.d f (xsplit f nd (value (fixedFmt (o.s3 / 16 % 4)) a))

/-- XTOF (R271). -/
def execXtof (w : AluI) (s : State) : Out := s.onX fun x =>
  let o := opndsOf w
  let na := xWords (o.s3 / 4 % 4)
  x.perFibre 8 w.h (o.d :: o.s1.expRegs na) fun i q =>
    let m := x.mode o.m i.u q 0
    orPoison (x.expOperand i q (fixedFmt (o.s3 / 16 % 4)) o.s1 na m.down) fun a =>
      orFmtBad (x.fmt? o.m.fmt.toNat) fun f =>
        .ofPat o.d (roundBits f m o.m.sat a) (drawsOf o.m 1)

/-- XACC: D := Canon(vd + a × b) with single words a and b (R268). -/
def execXacc (w : AluI) (s : State) : Out := s.onX fun x =>
  let o := opndsOf w
  let f := wordFmt o.m
  let nd := xWords (o.s3 % 4)
  x.perFibre 8 w.h (expRegs o.d nd ++ o.s1.regs ++ o.s2.regs) fun i q =>
    orPoison (x.ab i q o) fun p => orPoison (x.expOperand i q f (.v o.d) nd) fun c =>
      .ofWords o.d f (canon f nd (xsum false [c, (value f p.1).mul (value f p.2)]))

end Sys2Proof.Machine
end

