-- ==== Sys2Proof/Machine/Memory.lean ====
section
/-! DEFINITION. The memory instructions: global and local loads and stores, atomics, square loads, prefetch,
write-back and invalidate (14 R272 to R281). -/

namespace Sys2Proof.Machine

/-- Access size in bytes (R194). -/
def memSize (w : MemI) : Nat := 2 ^ w.m.size.toNat
/-- The effective scope (R17). -/
def memScope (w : MemI) (r : BufRec) : Nat := if w.m.scope = 0 then r.scope else w.m.scope.toNat

/-- The conversion of LDB, STB, LDL and STL (R275): 0 for none, a descriptor, or `none` for FMTBAD. -/
def Exec.memDesc (x : Exec) (w : MemI) : Option Nat :=
  if w.m.fmt = 0 then some 0
  else
    (x.fmt? w.m.fmt.toNat).bind fun f =>
      let s := memSize w
      let ok := (decide (f.storage = 16) && decide (s = 2 ∨ s = 4 ∨ s = 8)) ||
        (decide (f.storage = 8) && decide (s = 1 ∨ s = 2 ∨ s = 4)) || (decide (f.storage = 4) && decide (s = 1 ∨ s = 2))
      if ok && decide (w.d.toNat % (8 * s / f.storage) = 0) then some (x.desc w.m.fmt.toNat) else none

/-- Data registers of an access of s bytes under a conversion. -/
def dataCount (desc s : Nat) : Nat := if desc = 0 then (s + 3) / 4 else 8 * s / (fmtOfDesc desc).storage
/-- The registers from k on. -/
def regsFrom (k n : Nat) : List Nat := (List.range n).map (k + ·)

/-- The common part of an access of fibre f. -/
def baseAcc (x : Exec) (i : Iss) (f : Nat) (w : MemI) (kind scope : Nat) : PendAcc :=
  { slot := f, va := 0, size := memSize w, kind := kind, sub := 0, d := w.d.toNat, fmt := 0, args := (0, 0, 0),
    scope := scope, hint := w.m.hint.toNat, ord := w.m.ord.toNat, frec := 0, host := none, pc := i.pc, wdst := false,
    len := 8, look := w.h.la.toNat, raw := x.cur.elim 0 Cur.raw }

/-- What forming an access gives: an access, or a result without one. -/
inductive Formed where
  | go (a : PendAcc)
  | done (r : Res)
  deriving DecidableEq, Repr

/-- An out-of-bounds load or atomic: zero, the OOB bit, and a trap when the modifier asks (R21). -/
def oobRes (w : MemI) (v : List (Nat × Word)) : Res :=
  { v := v, oob := true, trap := if w.m.oobt then some cOOB else none }

/-- Forms an access of a fibre: registers past the budget, a poisoned source, then the address (R145, R167,
R19, R24). `srcs` are the data registers read. -/
def Exec.formAcc (x : Exec) (i : Iss) (f : Nat) (w : MemI) (named srcs : List Nat) (a : PendAcc) (addr : Nat → AddrRes)
    (fill : List Nat → PendAcc → PendAcc) : Formed :=
  if x.pastBudget i f named then .done { trap := some cREGRNG }
  else match x.ownRead i f w.s1.toNat, srcs.mapM fun k => (x.ownRead i f k).map BitVec.toNat with
    | some idx, some l =>
      match addr idx.toNat with
      | .ok va => .go (fill l { a with va := va })
      | .oob => .done (oobRes w a.zeros)
      | .refuse c => .done (a.refused c)
    | _, _ => .done { trap := some cPOISON }

/-- The address of a fibre's global access (R19). -/
def globalAddr (r : BufRec) (w : MemI) (need2 : Bool) (right : Right) (idx : Nat) : AddrRes :=
  r.form need2 right idx w.imm.toInt (memSize w)
/-- The address of a fibre's local access (R24): the immediate is scaled by the size. -/
def localAddr (size : Nat) (imm : Int) (s idx : Nat) : AddrRes := localOffset size ((idx : Int) + imm * s) s

/-! ### Loads and value-returning atomics -/

/-- Addresses an access reads, enough to name its sectors. -/
def PendAcc.touched (a : PendAcc) : List Nat :=
  if a.kind = akColumn then a.columnBytes.map (a.args.2.1 + ·) else [a.va]

/-- Issues the accesses of an instruction that returns values: refusals at once; a load of a sector that waits in
the log, or a release while the log is not empty, holds the wave and issues again (R45, R48); in deterministic mode an atomic is staged and the wave waits for
its commit (R279, R349, R350). -/
def State.perAccess (s : State) (w : MemI) (staged : Bool) (form : Exec → Iss → Nat → Formed) : State :=
  match s.x.issue? with
  | none => s
  | some i =>
    let fs := (i.served w.h).map fun f => (f, form s.x i f)
    let accs := fs.filterMap fun p => match p.2 with
      | .go a => some a
      | .done _ => none
    if accs.any fun a => (decide (2 ≤ a.ord) && !i.w.log.isEmpty) || a.touched.any fun v => i.w.logHit v then s.modX fun x => x.hold i (.retry rvLog)
    else
      let s := fs.foldl (fun s p => match p.2 with
        | .go _ => s
        | .done r => s.modX fun x => x.applyRes i w.h.la.toNat 8 p.1 r) s
      if staged && s.x.determ i.w then
        let o := s.x.who i.w
        let q := (accs.foldl (fun (q : (State × List PendAcc) × List Nat) a =>
          let t := q.1.1.translateIn q.2 o.core o.ctx a.va a.need
          (match t.2.1 with
          | .trap c => (t.1.modX fun x => x.applyAcc i.u a (a.refused c), q.1.2)
          | .fault =>
            let r := t.1.fault o.ctx o.core (t.1.x.slotOf i.u i.w) a.va a.faultKind true
            (r.1, q.1.2 ++ [{ a with frec := r.2 }])
          | .ok _ => (t.1, q.1.2 ++ [a]), t.2.2)) ((s, []), [])).1
        q.1.modX fun x =>
          let x := if q.2.isEmpty then x
            else (x.stage i.u { step := 1, kind := skAtomic, pc := i.pc, accs := q.2 }).hold i .commit
          x.advance i 8
      else (s.tryAccs i.u accs).modX fun x => (x.advance i 8).holdPend i.u i.pc

/-- LDB (R274, R275). -/
def execLdb (w : MemI) (s : State) : Out := s.onMem fun s =>
  s.perAccess w false fun x i f =>
    match x.memDesc w with
    | none => .done { trap := some cFMTBAD }
    | some d =>
      let r := x.bufRec i.w w.bn.toNat
      x.formAcc i f w (w.s1.toNat :: regsFrom w.d.toNat (dataCount d (memSize w))) []
        { baseAcc x i f w akLoad (memScope w r) with fmt := d } (globalAddr r w false .read) fun _ a => a

/-- The data registers an ATB, ATBF or ATBC reads: with a one-word addend an ATBC reads V[D] alone (R273, R278). -/
def atomicSrcs (w : MemI) (atbc : Bool) : List Nat :=
  regsFrom w.d.toNat (if atbc then (if w.m.fmt.toNat % 8 = 1 then 2 else 1) else (memSize w + 3) / 4)

/-- The access of an ATB, ATBF or ATBC whose result is kept (R277, R278). -/
def Exec.atomicForm (x : Exec) (i : Iss) (f : Nat) (w : MemI) (kind : Nat) : Formed :=
  let r := x.bufRec i.w w.bn.toNat
  let n := (memSize w + 3) / 4
  x.formAcc i f w (w.s1.toNat :: regsFrom w.d.toNat n) (atomicSrcs w (decide (kind = akAtbc)))
    { baseAcc x i f w kind (memScope w r) with sub := w.m.fmt.toNat } (globalAddr r w false .atomic) fun l a =>
      { a with args := if kind = akAtbc then (word l 0, if w.m.fmt.toNat % 8 = 1 then word l 1 else 0, 0)
                       else ((word l 0 + 2 ^ 32 * word l 1) % 2 ^ (8 * a.size), 0, 0) }

/-- CASB (R279). -/
def execCasb (w : MemI) (s : State) : Out := s.onMem fun s =>
  s.perAccess w true fun x i f =>
    let r := x.bufRec i.w w.bn.toNat
    let n := memSize w / 4
    x.formAcc i f w (w.s1.toNat :: regsFrom w.d.toNat (2 * n)) (regsFrom w.d.toNat (2 * n))
      (baseAcc x i f w akCas (memScope w r)) (globalAddr r w false .atomic) fun l a =>
        { a with args := (leNat ((l.take n).map (leBytes 4)).flatten, leNat ((l.drop n).map (leBytes 4)).flatten, 0) }

/-- The offset of a column load, from the exact element offset (R280). -/
def columnOffset (r : BufRec) (o : Int) (k : Nat) : AddrRes :=
  match r.refusal true false .read with
  | some c => .refuse c
  | none =>
    if o < 0 ∨ (r.extent : Int) < o + (32 * (k - 1) + r.elem : Nat) then .oob
    else if o % (r.elem : Int) ≠ 0 ∨ 32 < o.toNat % 1024 / 32 + k then .refuse cALIGN
    else .ok o.toNat

/-- LDSQ (R280). -/
def execLdsq (w : MemI) (s : State) : Out := s.onMem fun s =>
  s.perAccess w false fun x i f =>
    let r := x.bufRec i.w w.bn.toNat
    let col := if w.m.fmt = 0 then r.col else decide (w.m.fmt = 2)
    let named := w.s1.toNat :: regsFrom w.d.toNat ((memSize w + 3) / 4)
    if !col then
      x.formAcc i f w named [] { baseAcc x i f w akLoad (memScope w r) with sub := 1 } (globalAddr r w true .read)
        fun _ a => a
    else
      let e := max r.elem 1
      let k := memSize w / e
      x.formAcc i f w named [] { baseAcc x i f w akColumn (memScope w r) with sub := e + 8 * r.swz + 32 * r.swzP }
        (fun idx => columnOffset r ((idx : Int) * e + w.imm.toInt * e) k) fun _ a =>
          { a with va := r.base + swizzle a.va r.swz r.swzP, args := (a.va, r.base, k) }

/-- LDW: one address for the wave; a refusal is the lowest guard-true fibre's (R23, R276). -/
def execLdw (w : MemI) (s : State) : Out := s.onMem fun s =>
  match s.x.issue? with
  | none => s
  | some i =>
    match i.served w.h with
    | [] => s.modX fun x => x.advance i 8
    | f :: _ =>
      let r := s.x.bufRec i.w w.bn.toNat
      let a : PendAcc := { baseAcc s.x i f w akLdw (memScope w r) with
        wdst := true, args := (i.grp.foldl (fun n j => bitSet n j true) 0, 0, 0) }
      match globalAddr r w false .read (s.x.readW i.u w.s1.toNat).toNat with
      | .oob => s.modX fun x => (x.applyAcc i.u a (oobRes w a.zeros)).advance i 8
      | .refuse c => s.modX fun x => (x.applyAcc i.u a (a.refused c)).advance i 8
      | .ok va =>
        if i.w.logHit va then s.modX fun x => x.hold i (.retry rvLog)
        else (s.tryAccs i.u [{ a with va := va }]).modX fun x => (x.advance i 8).holdPend i.u i.pc

/-! ### Stores, reductions, CWB and CINV -/

/-- A write of one fibre to the bytes of one sector. -/
structure SecWrite where
  fib  : Nat
  va   : Nat
  size : Nat
  data : List Byte
  args : Nat × Nat
  deriving DecidableEq, Repr

/-- The sector entries of an instruction: sectors in the order of the fibres that name them first (log entry 13, DEDUCED),
a byte that several fibres store taking the highest one's value (R117). -/
def sectorEnts (kind op scope ord pc : Nat) (l : List SecWrite) : List LogEnt :=
  (dedup (l.map fun a => a.va / 32)).map fun sec =>
    let mine := l.filter fun a => decide (a.va / 32 = sec)
    let m := mine.foldl (fun (m : Nat × List Byte) a =>
      let k := maskAt (a.va % 32) a.size
      (Nat.lor m.1 k, mergeBytes k m.2 (placeAt (a.va % 32) a.data))) (0, List.replicate 32 0)
    { va := 32 * sec, mask := m.1, data := m.2, op := op,
      args := if kind = ekStore then [] else mine.map fun a => (a.va % 32, a.args.1, a.args.2),
      scope := scope, ord := ord, fibs := mine.map SecWrite.fib, pc := pc, kind := kind }

/-- What forming a write gives. -/
inductive WFormed where
  | go (a : SecWrite)
  | done (r : Res)
  deriving DecidableEq, Repr

/-- Issues the writes of an instruction (R45, R130). -/
def State.perWrite (s : State) (w : MemI) (kind op : Nat) (form : Exec → Iss → Nat → WFormed) : State :=
  match s.x.issue? with
  | none => s
  | some i =>
    let fs := (i.served w.h).map fun f => (f, form s.x i f)
    let ws := fs.filterMap fun p => match p.2 with
      | .go a => some a
      | .done _ => none
    let s := fs.foldl (fun s p => match p.2 with
      | .go _ => s
      | .done r => s.modX fun x => x.applyRes i 0 8 p.1 r) s
    let scope := memScope w (s.x.bufRec i.w w.bn.toNat)
    (s.issueEnts i 8 w.m.hint.toNat (sectorEnts kind op scope w.m.ord.toNat i.pc ws)).modX fun x => x.advance i 8

/-- Forms a write of a fibre: it names n data registers from D and reads `srcs`. -/
def Exec.formWrite (x : Exec) (i : Iss) (f : Nat) (w : MemI) (n : Nat) (srcs : List Nat) (right : Right)
    (fill : List Nat → List Byte × (Nat × Nat)) : WFormed :=
  if x.pastBudget i f (w.s1.toNat :: regsFrom w.d.toNat n) then .done { trap := some cREGRNG }
  else match x.ownRead i f w.s1.toNat, srcs.mapM fun k => (x.ownRead i f k).map BitVec.toNat with
    | some idx, some l =>
      match globalAddr (x.bufRec i.w w.bn.toNat) w false right idx.toNat with
      | .ok va => let p := fill l; .go ⟨f, va, memSize w, p.1, p.2⟩
      | .oob => .done (oobRes w [])
      | .refuse c => .done { trap := some c }
    | _, _ => .done { trap := some cPOISON }

/-- The bytes a store stores from its data words under a conversion (R274, R275). -/
def storeBytes (desc s : Nat) (l : List Nat) : List Byte :=
  if desc = 0 then (l.map (leBytes 4)).flatten.take s else leBytes s (narrowStore (fmtOfDesc desc) l)

/-- STB (R274, R275). -/
def execStb (w : MemI) (s : State) : Out := s.onMem fun s =>
  s.perWrite w ekStore 0 fun x i f =>
    match x.memDesc w with
    | none => .done { trap := some cFMTBAD }
    | some d =>
      let n := dataCount d (memSize w)
      x.formWrite i f w n (regsFrom w.d.toNat n) .write fun l =>
        (storeBytes d (memSize w) l, 0, 0)

/-- A global atomic of a kind: a reduction, or a value-returning atomic (R277, R278). -/
def State.globalAtomic (s : State) (w : MemI) (akind ekind : Nat) : State :=
  if w.red then
    s.perWrite w ekind (w.m.fmt.toNat % 8 + 16 * memSize w) fun x i f =>
      x.formWrite i f w ((memSize w + 3) / 4) (atomicSrcs w (decide (ekind = ekAtbc))) .atomic fun l =>
        ([], if ekind = ekAtbc then (word l 0, if w.m.fmt.toNat % 8 = 1 then word l 1 else 0)
             else ((word l 0 + 2 ^ 32 * word l 1) % 2 ^ (8 * memSize w), 0))
  else s.perAccess w true fun x i f => x.atomicForm i f w akind

/-- ATB (R277). -/
def execAtb (w : MemI) (s : State) : Out := s.onMem fun s => s.globalAtomic w akAtb ekAtb
/-- ATBF (R277). -/
def execAtbf (w : MemI) (s : State) : Out := s.onMem fun s => s.globalAtomic w akAtbf ekAtbf
/-- ATBC (R278). -/
def execAtbc (w : MemI) (s : State) : Out := s.onMem fun s => s.globalAtomic w akAtbc ekAtbc

/-- CWB (R281). -/
def execCwb (w : MemI) (s : State) : Out := s.onMem fun s =>
  s.perWrite w ekCwb 0 fun x i f => x.formWrite i f w 0 [] .read fun _ => ([], 0, 0)
/-- CINV (R281). -/
def execCinv (w : MemI) (s : State) : Out := s.onMem fun s =>
  s.perWrite w ekCinv 0 fun x i f => x.formWrite i f w 0 [] .write fun _ => ([], 0, 0)

/-- One prefetch: it never traps, and a fault or a failing check drops it (R281); a probe that arrives poisoned is
reported (R51). Also answers the granules whose probe was poisoned. -/
def State.prefetch (s : State) (bad : List Nat) (o : Who) (scope hint va : Nat) : State × List Nat :=
  let t := s.translateIn bad o.core o.ctx va { wait := false }
  (match t.2.1 with
  | .ok l =>
    if l.host then t.1
    else
      let s := t.1.modX fun x => x.countReq o l
      if scope < 4 then (s.loadSec o false hint fullMask l).1 else (s.fetch o.core o.ctx hint l).1
  | _ => t.1, t.2.2)

/-- PREF (R281). -/
def execPref (w : MemI) (s : State) : Out := s.onMem fun s =>
  match s.x.issue? with
  | none => s
  | some i =>
    let r := s.x.bufRec i.w w.bn.toNat
    let vas := (i.served w.h).filterMap fun f =>
      if s.x.pastBudget i f [w.s1.toNat] then none
      else (s.x.ownRead i f w.s1.toNat).bind fun v => match globalAddr r w false .read v.toNat with
        | .ok va => some (va / 32 * 32)
        | _ => none
    let o := s.x.who i.w
    ((dedup vas).foldl (fun s va => s.1.prefetch s.2 o (memScope w r) w.m.hint.toNat va) (s, [])).1.modX fun x => x.advance i 8

/-! ### Local memory (R24, R55, R61, R274, R277, R279) -/

/-- One fibre's local access: `eff` gives the loaded bytes' result and the bytes stored. -/
def Exec.localAcc (x : Exec) (i : Iss) (la len f : Nat) (oobt : Bool) (zeros : List (Nat × Word)) (a : AddrRes) (s : Nat)
    (reads : Bool) (eff : List Byte → Res × Option (List Byte)) : Exec :=
  match a with
  | .oob => x.applyRes i la len f { v := zeros, oob := true, trap := if oobt then some cOOB else none }
  | .refuse c => x.applyRes i la len f { v := zeros, trap := some c }
  | .ok o =>
    let x := if reads then x.detectLocal i.w.team o s else x
    match x.teams.find? i.w.team with
    | none => x
    | some m =>
      if reads && poisonHit m.lpois o s then x.applyRes i la len f { v := zeros, trap := some cPOISON }
      else
        let r := eff (m.bytes o s)
        let x := match r.2 with
          | some b => x.modTeam i.w.team fun m => m.store o b
          | none => x
        x.applyRes i la len f r.1

/-- Issues a local instruction: fibres in increasing order (R55, R117). One of release order waits for the wave's side log
(R45, R120, log entry 70, DEDUCED). -/
def Exec.perLocal (x : Exec) (len : Nat) (h : Hd) (stores : Bool) (ord : Nat) (named srcs : List Nat) (s1 : Nat)
    (g : Iss → Nat → Nat → List Nat → Exec → Exec) : Exec :=
  match x.issue? with
  | none => x
  | some i =>
    if decide (2 ≤ ord) && !i.w.log.isEmpty then x.hold i (.retry rvLog)
    else
    let fs := (i.served h).map fun f =>
      (f, if x.pastBudget i f named then Except.error cREGRNG
          else match x.ownRead i f s1, srcs.mapM fun k => (x.ownRead i f k).map BitVec.toNat with
            | some v, some l => Except.ok (v.toNat, l)
            | _, _ => Except.error cPOISON)
    let x := fs.foldl (fun x p => match p.2 with
      | .error c => x.takeTrap i.u p.1 (i.trap c len)
      | .ok q => g i p.1 q.1 q.2 x) x
    (if stores then x.wakeTeam i.w.team else x).advance i len

/-- A local load of any encoding. -/
def Exec.localLoad (x : Exec) (len : Nat) (h : Hd) (w : MemI) : Exec :=
  match x.memDesc w with
  | none => x.perFibre len h [] fun _ _ => { trap := some cFMTBAD }
  | some d =>
    let n := dataCount d (memSize w)
    x.perLocal len h false 0 (w.s1.toNat :: regsFrom w.d.toNat n) [] w.s1.toNat fun i f v _ x =>
      let a : PendAcc := { baseAcc x i f w akLoad 2 with fmt := d }
      x.localAcc i h.la.toNat len f w.m.oobt a.zeros (localAddr (x.localSize i.w.team) w.imm.toInt (memSize w) v)
        (memSize w) true fun b => (a.result b, none)

/-- A local store of any encoding. -/
def Exec.localStore (x : Exec) (len : Nat) (h : Hd) (w : MemI) : Exec :=
  match x.memDesc w with
  | none => x.perFibre len h [] fun _ _ => { trap := some cFMTBAD }
  | some d =>
    let srcs := regsFrom w.d.toNat (dataCount d (memSize w))
    x.perLocal len h true w.m.ord.toNat (w.s1.toNat :: srcs) srcs w.s1.toNat fun i f v l x =>
      x.localAcc i 0 len f w.m.oobt [] (localAddr (x.localSize i.w.team) w.imm.toInt (memSize w) v) (memSize w) false
        fun _ => ({}, some (storeBytes d (memSize w) l))

/-- The memory fields of a compact LDL or STL (R189): size 4, scope `.team`, relaxed. -/
def compMem (w : CompI) : MemI :=
  { h := hd0, m := ⟨false, 0, 0, 2, 0, 2⟩, imm := BitVec.ofInt 10 w.imm.toInt, bn := 0, s1 := w.va, d := w.vd }

/-- LDL (R274). -/
def execLdl (w : MemI) (s : State) : Out := s.onX fun x => x.localLoad 8 w.h w
/-- STL (R274). -/
def execStl (w : MemI) (s : State) : Out := s.onX fun x => x.localStore 8 w.h w
/-- LDL_C (R189). -/
def execLdlC (w : CompI) (s : State) : Out := s.onX fun x => x.localLoad 4 hd0 (compMem w)
/-- STL_C (R189). -/
def execStlC (w : CompI) (s : State) : Out := s.onX fun x => x.localStore 4 hd0 (compMem w)

/-- ATL (R277). -/
def execAtl (w : MemI) (s : State) : Out := s.onX fun x =>
  let n := memSize w / 4
  let srcs := regsFrom w.d.toNat n
  x.perLocal 8 w.h true w.m.ord.toNat (w.s1.toNat :: srcs) srcs w.s1.toNat fun i f v l x =>
    let a := baseAcc x i f w akAtb 2
    x.localAcc i w.h.la.toNat 8 f w.m.oobt a.zeros (localAddr (x.localSize i.w.team) w.imm.toInt a.size v) a.size true fun b =>
      (a.result b, some (leBytes a.size (atbNew (w.m.fmt.toNat % 8) (8 * a.size) (leNat b) (word l 0 + 2 ^ 32 * word l 1))))

/-- CASL (R279). -/
def execCasl (w : MemI) (s : State) : Out := s.onX fun x =>
  let n := memSize w / 4
  let srcs := regsFrom w.d.toNat (2 * n)
  x.perLocal 8 w.h true w.m.ord.toNat (w.s1.toNat :: srcs) srcs w.s1.toNat fun i f v l x =>
    let a := baseAcc x i f w akCas 2
    let cmp := leNat ((l.take n).map (leBytes 4)).flatten
    let swp := leNat ((l.drop n).map (leBytes 4)).flatten
    x.localAcc i w.h.la.toNat 8 f w.m.oobt a.zeros (localAddr (x.localSize i.w.team) w.imm.toInt a.size v) a.size true fun b =>
      (a.result b, if leNat b = cmp then some (leBytes a.size swp) else none)

end Sys2Proof.Machine
end

