-- ==== Sys2Proof/Machine/Fetch.lean ====
section
/-! DEFINITION. Fences and the grid barrier, the instruction caches, fetch, ICINV and FETCHB (06 R121, R122, 08
R164, 11 R223, R227, R231, 19 R362 to R371). -/

namespace Sys2Proof.Machine

/-! ### FENCE and GRIDBAR -/

/-- Every write that a read of a wave has met unsettled is performed: it is merged at its home slice with every
acknowledgement, whoever wrote it (R122). -/
def State.settleReads (s : State) (u : Nat) : State :=
  match s.x.wave? u with
  | none => s
  | some w =>
    let s := (dedup (w.unset.map fun k => k / 32)).foldl State.drainSq s
    (s.drainInvals fun i => w.unset.contains i.sec).modX fun x => x.modWave u fun w => { w with unset := [] }

/-- The L1 action of a wide fence of a wave and its waiting (R57, R121, R122): a settling fence also waits for the writes
that the wave's reads met unsettled. -/
def State.fenceAt (s : State) (u core scope ord : Nat) : State :=
  if scope < 4 then s
  else
    let s := s.release core
    let s := if 5 ≤ scope ∧ (ord = 0 ∨ ord = 3) then s.settleReads u else s
    s.l1Clean core

/-- FENCE (R121, R227): it waits for the wave's log (R48); in deterministic mode it closes the quantum (R349). -/
def execFence (w : OwnI) (s : State) : Out := s.onMem fun s =>
  match s.x.issue? with
  | none => s
  | some i =>
    if !i.w.log.isEmpty then s.modX fun x => x.hold i (.retry rvLog)
    else
      (s.fenceAt i.u (s.x.coreOf i.w) (w.m.toNat / 256 % 8) (w.m.toNat / 2 ^ 11 % 4)).modX fun x =>
        (if x.determ i.w then x.hold i .commit else x).advance i 8

/-- GRIDBAR: the executing fibres wait; the wave arrives when all of its unfinished fibres do (R164, R223). -/
def execGridbar (_w : OwnI) (s : State) : Out := s.onX fun x =>
  match x.issue? with
  | none => x
  | some i =>
    if i.inHandler then (x.trapAll i i.grp cHNDOP 8).advance i 8
    else if !(((x.teamOf i.w).bind x.gridOf).elim false Grid.cohort) then (x.trapAll i i.grp cNOCOHORT 8).advance i 8
    else i.grp.foldl (fun x f => x.modFib i.u f fun b => { b with st := .waiting .gridbar }) x

/-- A wave at the grid barrier arrives once its side log is empty: its arrival is a release at `.mod`, and it is
then held until the barrier completes (R164). -/
def State.gridArrive (s : State) (u : Nat) : State :=
  match s.x.wave? u with
  | none => s
  | some w =>
    if w.exited || w.handler.isSome || w.hold.isSome || !w.atGridbar || !w.log.isEmpty then s
    else
      let gen := ((s.x.teamOf w).bind s.x.gridOf).elim 0 Grid.gbGen
      (s.release (s.x.coreOf w)).modX fun x =>
        (x.modWave u fun w => { w with hold := some (.gridbar gen) }).post 0 (.waveRipens u)

/-- Every team of a grid has been placed, and every live wave has arrived at its barrier. -/
def Exec.gridbarFull (x : Exec) (g : Nat) : Bool :=
  let ws := x.gridWaves g
  !ws.isEmpty && ws.all fun p => match p.2.hold with
    | some (.gridbar _) => true
    | _ => false

/-- Arrivals and completions of grid barriers (R164): the return is an acquire at `.mod`, with the L1 action of
R57 on every core of the grid. A deterministic grid's barrier completes at its commit (R349, R350, log entry 42, DESIGN CHOICE). -/
def State.gridSettle (s : State) (commit : Option Nat) : State :=
  let s := (s.x.waves.map (·.1)).foldl State.gridArrive s
  s.x.grids.foldl (fun s p =>
    if (!p.2.determ || decide (commit = some p.1)) && s.x.gridbarFull p.1 &&
        s.x.teams.all fun t => !decide (t.2.grid = p.1) || !decide (t.2.st = .queued false) then
      let cores := dedup ((s.x.gridWaves p.1).map fun q => s.x.coreOf q.2)
      (cores.foldl State.l1Clean s).modX fun x => x.gridbarRelease p.1
    else s) s

/-! ### The instruction caches (R362 to R364) -/

/-- Bytes of a line. -/
def lineBytes : Nat := 128

def MemSys.iFind (m : MemSys) (level unit ctx line : Nat) : Option ILine :=
  m.icache.find? fun l => decide (l.level = level ∧ l.unit = unit ∧ l.ctx = ctx ∧ l.line = line)

/-- Whether a line of one cache is contained in a level of a unit: line buffers in their core's L1I, that in its
atoll's middle cache. -/
def ILine.within (l : ILine) (level unit : Nat) : Bool :=
  (decide (l.level = level ∧ l.unit = unit)) ||
  (decide (level = 1 ∧ l.level = 0 ∧ l.unit / 4 = unit)) ||
  (decide (level = 2 ∧ l.level = 1 ∧ l.unit / 8 = unit)) ||
  (decide (level = 2 ∧ l.level = 0 ∧ l.unit / 32 = unit))

/-- A line leaves a level, and with it every level contained in it (R362). -/
def MemSys.iDrop (m : MemSys) (level unit ctx line : Nat) : MemSys :=
  { m with icache := m.icache.filter fun l => !(l.within level unit && decide (l.ctx = ctx ∧ l.line = line)) }

/-- Sets and ways of a level (R362). -/
def iShape (level : Nat) : Nat × Nat := if level = 0 then (1, 4) else if level = 1 then (128, 4) else (512, 8)

/-- Installs a line at a level, the least recently used of its set giving way. -/
def MemSys.iPut (m : MemSys) (l : ILine) : MemSys :=
  let sh := iShape l.level
  let set := m.icache.filter fun q => decide (q.level = l.level ∧ q.unit = l.unit ∧ q.line % sh.1 = l.line % sh.1)
  let m := if set.any fun q => decide (q.ctx = l.ctx ∧ q.line = l.line) then m
    else if set.length < sh.2 then m
    else match leastBy ILine.lru set with
      | some v => m.iDrop v.level v.unit v.ctx v.line
      | none => m
  { m with icache := (m.icache.filter fun q =>
      !decide (q.level = l.level ∧ q.unit = l.unit ∧ q.ctx = l.ctx ∧ q.line = l.line)) ++ [l] }

/-- A line as a quadrant of a core has it now, brought to its line buffer and L1I when an outer level holds it, or as it was
delivered to wave u without being installed. -/
def State.iGet (s : State) (u core quad ctx line : Nat) : Option (State × ILine) :=
  let p := s.stamp
  let s := p.2
  let hit := (s.mem.iFind 0 (4 * core + quad) ctx line).orElse fun _ => (s.mem.iFind 1 core ctx line).orElse fun _ =>
    s.mem.iFind 2 (core / 8) ctx line
  match hit with
  | some l =>
    let put (m : MemSys) (level unit : Nat) : MemSys := m.iPut { l with level := level, unit := unit, lru := p.1 }
    some (s.modM fun m => put (put (put m 2 (core / 8)) 1 core) 0 (4 * core + quad), l)
  | none => (s.mem.iFind 3 u ctx line).map fun l => (s, l)

/-- What a fill of a line finds. -/
inductive FillRes where
  | got (data : List Byte) (bad : Nat)
  | fault
  | trap (cause : Nat)
  deriving DecidableEq, Repr

/-- Translates a line and reads its four sectors as row reads at `.mod` (R363). A fetch from an Executable host page, which
R13 lists neither among the operations performed there nor among those refused, is performed (log entry 68, DESIGN
CHOICE). `wait` says whether the fetch can wait for a walker (R50). -/
def State.readLine (s : State) (core ctx line : Nat) (wait : Bool := true) : State × FillRes :=
  let t := s.translate core ctx (lineBytes * line) { exec := true, wait := wait }
  match t.2 with
  | .fault => (t.1, .fault)
  | .trap c => (t.1, .trap c)
  | .ok l =>
    let r := (List.range 4).foldl (fun (r : State × List Byte × Nat) k =>
      let at_ : Loc := { l with pa := l.pa + 32 * k }
      if l.host then (r.1, r.2.1 ++ r.1.mem.hostBytes at_.pa 32, r.2.2)
      else
        let q := r.1.fetch core ctx 0 at_ false
        let q' := if q.2.2 then q.1.poisoned ⟨core, ctx, 0⟩ at_ else q.1
        (q', r.2.1 ++ (if q.2.2 then List.replicate 32 0 else q.2.1), if q.2.2 then bitSet r.2.2 k true else r.2.2)) (t.1, [], 0)
    (r.1, .got r.2.1 r.2.2)

/-- Installs a read line in a core's caches; one that holds a poisoned sector is delivered to the waves that fetch it and
installed nowhere (R364). -/
def State.iFill (s : State) (us : List Nat) (core ctx line : Nat) (data : List Byte) (bad : Nat) : State :=
  let p := s.stamp
  p.2.modM fun m =>
    if bad = 0 then (m.iPut ⟨2, core / 8, ctx, line, data, 0, p.1⟩).iPut ⟨1, core, ctx, line, data, 0, p.1⟩
    else us.foldl (fun m u => m.iPut ⟨3, u, ctx, line, data, bad, p.1⟩) m

/-- The lines that 8 bytes at a PC meet. -/
def linesAt (pc : Nat) : List Nat := dedup [pc / lineBytes, (pc + 7) % 2 ^ 48 / lineBytes]

/-- Waves of a core and context held for a fetch that needs a line. -/
def Exec.fetchers (x : Exec) (core ctx line : Nat) : List (Nat × Wave) :=
  x.waves.filter fun p => !p.2.exited && decide (p.2.hold = some (.retry rvFetch)) && decide (x.coreOf p.2 = core) &&
    decide (x.ctxOf p.2 = ctx) && (linesAt p.2.holdPc).contains line

/-- FETCH_FILL: a missing line arrives (R363). A failing check traps the fetching fibres at their PC with recorded
length 0; a page fault holds their waves as a load does (R26, R43, R335). -/
def State.fetchFill (s : State) (core ctx line : Nat) : State :=
  let ws := s.x.fetchers core ctx line
  if ws.isEmpty then s
  else
    let r := s.readLine core ctx line
    match r.2 with
    | .got data bad =>
      (r.1.iFill (ws.map (·.1)) core ctx line data bad).modX fun x => ws.foldl (fun x p => x.unhold p.1) x
    | .trap c =>
      r.1.modX fun x => ws.foldl (fun x p =>
        let x := (p.2.groupAt p.2.holdPc).foldl (fun x f =>
          x.takeTrap p.1 f { cause := c, len := 0, pc := p.2.holdPc }) x
        x.unhold p.1) x
    | .fault =>
      ws.foldl (fun s p =>
        let q := s.fault ctx core (s.x.slotOf p.1 p.2) (lineBytes * line) 4 false
        let accs := (p.2.groupAt p.2.holdPc).map fun f =>
          ({ slot := f, va := lineBytes * line, size := 0, kind := akFetch, sub := 0, d := 0, fmt := 0, args := (0, 0, 0),
             scope := 5, hint := 0, ord := 0, frec := q.2, host := none, pc := p.2.holdPc, wdst := false, len := 0,
             look := 0, raw := 0 } : PendAcc)
        q.1.modX fun x => (x.modWave p.1 fun w => { w with pend := w.pend ++ accs }).holdPend p.1 p.2.holdPc) r.1

/-- FETCH_FILL (R363). -/
def execFetchFill (core ctx line : Nat) (s : State) : Out := s.onMem fun s => s.fetchFill core ctx line

/-- What fetching at a PC gives: up to 8 bytes, with the poisoned ones marked, or the lines that are missing. -/
inductive Fetched where
  | bytes (l : List Byte) (bad : List Bool)
  | missing (lines : List Nat)
  deriving DecidableEq, Repr

/-- The code bytes at a PC for a wave of a quadrant (R186, R362): 8, or fewer where the line's end holds all that is needed; code
space wraps at 2^48. -/
def State.fetchAt (s : State) (u core quad ctx pc : Nat) : State × Fetched :=
  let first := pc / lineBytes
  let next := (first + 1) % (2 ^ 48 / lineBytes)
  match s.iGet u core quad ctx first with
  | none => (s, .missing [first])
  | some (s, a) =>
    let off := pc % lineBytes
    let here := (a.data.drop off).take 8
    let badHere := (List.range here.length).map fun k => bitOf a.bad ((off + k) / 32)
    if here.length = 8 then (s, .bytes here badHere)
    else
      let n := lenOf (leVal (here.take 2))
      let need := if pc % 4 = 0 then n else 2
      if need ≤ here.length then (s, .bytes here badHere)
      else match s.iGet u core quad ctx next with
        | none => (s, .missing [next])
        | some (s, b) =>
          let rest := b.data.take (8 - here.length)
          (s, .bytes (here ++ rest) (badHere ++ (List.range rest.length).map fun k => bitOf b.bad (k / 32)))

/-- Asks for a missing line and holds the wave until it is there (R197, R363). -/
def Exec.fetchMiss (x : Exec) (u pc core ctx : Nat) (lines : List Nat) : Exec :=
  let x := x.modWave u fun w => { w with hold := some (.retry rvFetch), holdPc := pc }
  lines.foldl (fun x l => x.post 1 (.fetchFill core ctx l)) x

/-! ### ICINV and FETCHB (R231, R370) -/

/-- The lines of a range of code space. -/
def rangeLines (va len : Nat) : Nat × Nat := (va / lineBytes, (va + len - 1) / lineBytes)

/-- The checks of ICINV and FETCHB: the range's address and length, or what refuses it (R231, log entry 39, DEDUCED). -/
def Exec.codeRange (x : Exec) (i : Iss) (w : OwnI) : AddrRes × Nat :=
  let r := x.bufRec i.w (w.s1.toNat % 16)
  let o := (x.readW i.u w.s2.toNat).toNat
  let n := (x.readW i.u w.s3.toNat).toNat
  match r.refusal false true .code with
  | some c => (.refuse c, n)
  | none => (if n ≠ 0 ∧ r.extent < o + n then .oob else .ok (r.base + o), n)

/-- Whether a translation of a context holds a byte of a range of code (R370). -/
def PTrans.meets (t : PTrans) (ctx va len : Nat) : Bool := decide (t.ctx = ctx ∧ va < t.pc + t.len ∧ t.pc < va + len)

/-- ICINV's invalidation at a scope: instruction caches, and translations of Pyratha runs (R231, R370). -/
def MemSys.icinv (m : MemSys) (core ctx scope va len : Nat) : MemSys :=
  let p := rangeLines va len
  let die (l : ILine) : Nat := if l.level = 0 then dieOf (l.unit / 4) else if l.level = 2 then l.unit / 21 else dieOf l.unit
  let atoll (l : ILine) : Nat := if l.level = 0 then l.unit / 32 else if l.level = 2 then l.unit else l.unit / 8
  let covers (l : ILine) : Bool :=
    decide (5 ≤ scope) || (decide (scope = 4) && decide (die l = dieOf core)) || (decide (scope ≤ 3) && decide (atoll l = core / 8))
  { m with
    icache := m.icache.filter fun l => !(covers l && decide (l.ctx = ctx ∧ p.1 ≤ l.line ∧ l.line ≤ p.2))
    ptrans := m.ptrans.filter fun t =>
      !(t.meets ctx va len && (decide (5 ≤ scope) || decide (t.die = dieOf core))) }

/-- ICINV (R231). -/
def execIcinv (w : OwnI) (s : State) : Out := s.onMem fun s =>
  match s.x.issue? with
  | none => s
  | some i =>
    match i.served w.h with
    | [] => s.modX fun x => x.advance i 8
    | f :: _ =>
      let s := match s.x.codeRange i w with
        | (.refuse c, _) => s.modX fun x => x.trapAll i [f] c 8
        | (.oob, _) => s.modX fun x => x.setStatus i.w.team stOOB
        | (.ok va, n) =>
          if n = 0 then s
          else s.modM fun m => m.icinv (s.x.coreOf i.w) (s.x.ctxOf i.w) (w.m.toNat / 256 % 8) va n
      s.modX fun x => x.advance i 8

/-- FETCHB requests its range into the core's L1I, a line of the atoll's middle cache from there, and translates and reads only
what that misses (R231, R363); faults of the request are dropped, and a probe that arrives poisoned is reported (R51). -/
def State.fetchAhead (s : State) (core ctx va len : Nat) : State :=
  let p := rangeLines va len
  ((List.range (p.2 + 1 - p.1)).foldl (fun (q : State × List Nat) k =>
    let s := q.1
    let line := p.1 + k
    match s.mem.iFind 1 core ctx line with
    | some _ => q
    | none =>
      match s.mem.iFind 2 (core / 8) ctx line with
      | some l =>
        let n := s.stamp
        (n.2.modM fun m => (m.iPut { l with lru := n.1 }).iPut { l with level := 1, unit := core, lru := n.1 }, q.2)
      | none =>
        if q.2.contains (lineBytes * line / 65536) then q
        else
          let r := s.readLine core ctx line false
          match r.2 with
          | .got d 0 => (r.1.iFill [] core ctx line d 0, q.2)
          | .trap c => (r.1, if c = cXLATE then q.2 ++ [lineBytes * line / 65536] else q.2)
          | _ => (r.1, q.2)) (s, [])).1

/-- FETCHB (R231): it waits for the wave's earlier writes at its scope; in deterministic mode for their
commit. -/
def execFetchb (w : OwnI) (s : State) : Out := s.onMem fun s =>
  match s.x.issue? with
  | none => s
  | some i =>
    match i.served w.h with
    | [] => s.modX fun x => x.advance i 8
    | f :: _ =>
      match s.x.codeRange i w with
      | (.refuse c, _) => s.modX fun x => (x.trapAll i [f] c 8).advance i 8
      | (.oob, _) => s.modX fun x => (x.setStatus i.w.team stOOB).advance i 8
      | (.ok va, n) =>
        let core := s.x.coreOf i.w
        if n = 0 then s.modX fun x => x.advance i 8
        else if !i.w.log.isEmpty then s.modX fun x => x.hold i (.retry rvLog)
        else if i.w.staged.any fun e => decide (e.kind = skStore ∨ e.kind = skAtomic) then s.modX fun x => (x.hold i (.retry rvLog)).closeQuantum i.u
        else
          let s := if 4 ≤ w.m.toNat / 256 % 8 then s.release core else s
          (s.fetchAhead core (s.x.ctxOf i.w) va n).modX fun x => x.advance i 8

/-! ### Pyratha translations (R369, R370) -/

/-- The bytes of the Pyratha run at a PC, as far as a middle cache of the die has its code: at most n instructions, up to the
static end (R196, R369). -/
def MemSys.pyrBytes : Nat → MemSys → Nat → Nat → Nat → Nat
  | 0, _, _, _, _ => 0
  | n + 1, m, die, ctx, pc =>
    match m.icache.find? fun l => decide (l.level = 2 ∧ l.unit / 21 = die ∧ l.ctx = ctx ∧ l.line = pc / lineBytes) with
    | none => 0
    | some l =>
      8 + if rawStaticEnd 8 (leVal ((l.data.drop (pc % lineBytes)).take 8)) then 0
        else MemSys.pyrBytes n m die ctx ((pc + 8) % 2 ^ 48)

/-- The least recently used translations of a die and context give way, at most n of them, while those it keeps exceed 16 MiB
(R369). -/
def ptransTrim : Nat → List PTrans → Nat → Nat → List PTrans
  | 0, l, _, _ => l
  | n + 1, l, die, ctx =>
    let mine := l.filter fun t => decide (t.die = die ∧ t.ctx = ctx)
    if (mine.map PTrans.len).sum ≤ 2 ^ 24 then l
    else match leastBy PTrans.lru mine with
      | some v => ptransTrim n (l.filter fun t => !decide (t = v)) die ctx
      | none => l

/-- Whether a die keeps the translation of a run. -/
def MemSys.ptransHas (m : MemSys) (die ctx pc : Nat) : Bool := m.ptrans.any fun t => decide (t.die = die ∧ t.ctx = ctx ∧ t.pc = pc)

/-- A run starts at a PC: its translation, if the die has one, is what it issues from, and is now the one used last (R369). -/
def State.ptransUse (s : State) (die ctx pc : Nat) : State :=
  let p := s.stamp
  p.2.modM fun m => { m with ptrans := m.ptrans.map fun t =>
    if t.die = die ∧ t.ctx = ctx ∧ t.pc = pc then { t with lru := p.1 } else t }

/-- PYRATHA_RUN_TRANSLATION: a die's translation unit completes a run's native form, which changes time only; it is taken to be as
long as the run (R369, log entry 58, DESIGN CHOICE). -/
def execPyrathaRunTranslation (die ctx : Nat) (pc : BitVec 48) (s : State) : Out := s.onMem fun s =>
  let p := s.stamp
  p.2.modM fun m =>
    let old := m.ptrans.filter fun t => !decide (t.die = die ∧ t.ctx = ctx ∧ t.pc = pc.toNat)
    { m with ptrans := ptransTrim 24 (old ++ [⟨die, ctx, pc.toNat, max 8 (m.pyrBytes 24 die ctx pc.toNat), p.1⟩]) die ctx }

end Sys2Proof.Machine
end

