-- ==== Sys2Proof/Machine/Residency.lean ====
section
/-! DEFINITION. Residency handles: their table, claims of frames, sweeps and the instructions (04 R88 to R92, 14
R282). -/

namespace Sys2Proof.Machine

/-- Kinds of pending handle operations (R91). -/
def ruSet := 0
def ruDemote := 1
def ruFree := 2
def ruSweep := 3

/-- The handle numbers in use: those of which some die keeps an entry (R88). -/
def MemSys.handles (m : MemSys) : List Nat := dedup (m.resh.map fun p => p.1 % 4096)
/-- Live handles of the module and of a context. -/
def MemSys.liveHandles (m : MemSys) : Nat := m.handles.length
def MemSys.ctxHandles (m : MemSys) (c : Nat) : Nat :=
  (dedup ((m.resh.filter fun p => decide (p.2.ctx = c)).map fun p => p.1 % 4096)).length
/-- The lowest free handle number. -/
def MemSys.freeHandle (m : MemSys) : Nat := ((List.range 4095).find? fun k => !m.handles.contains (k + 1)).elim 0 (· + 1)
/-- Whether a frame has an owner in some die's map. -/
def MemSys.owned (m : MemSys) (f : Nat) : Bool := (List.range 4).any fun d => !decide (m.resmap.get 0 (frameKey d f) = 0)
/-- A handle's entry changes in every die's copy of the table. -/
def MemSys.modHandle (m : MemSys) (h : Nat) (f : ResH → ResH) : MemSys :=
  { m with resh := (List.range 4).foldl (fun t d => t.modify (handleKey d h) f) m.resh }

/-- RHNEW's result word (R92). -/
def rhWord (reason h : Nat) : Word := BitVec.ofNat 32 ((if reason = 0 then 0 else 2 ^ 31) + reason * 2 ^ 16 + h)

/-- What translating a range gives: every frame, a fault at an address, or a failing check. -/
inductive RangeRes where
  | ok (frames : List Nat) (host : Bool)
  | fault (va : Nat)
  | trap (cause : Nat)
  deriving DecidableEq, Repr

/-- Translates n granules from an address (R91); one past the end of the address space matches no entry (R34). -/
def State.frames : Nat → State → Nat → Nat → Nat → List Nat → Bool → State × RangeRes
  | 0, s, _, _, _, acc, host => (s, .ok acc host)
  | n + 1, s, core, ctx, va, acc, host =>
    if 2 ^ 48 ≤ va then (s, .fault va)
    else
    let t := s.translate core ctx va {}
    match t.2 with
    | .ok l => State.frames n t.1 core ctx (va + 65536) (if l.host then acc else acc ++ [frameOf l.pa]) (host || l.host)
    | .fault => (t.1, .fault va)
    | .trap c => (t.1, .trap c)

/-- RHNEW for a wave (R91, R92): `a.args` holds base, length and priority; the lowest reason that holds is
reported, those that need no translation first (log entry 14, DEDUCED). A page fault holds the wave as a load does. -/
def State.rhnew (s : State) (u : Nat) (a : PendAcc) : State :=
  match s.x.wave? u with
  | none => s
  | some w =>
    let o := s.x.who w
    let base := a.args.1
    let len := a.args.2.1
    let prio := a.args.2.2
    let fail (s : State) (r : Nat) : State := s.modX fun x => x.writeW u a.d (rhWord r 0)
    if 4095 ≤ s.mem.liveHandles then fail s 1
    else if 256 ≤ s.mem.ctxHandles o.ctx then fail s 2
    else if base % 65536 ≠ 0 ∨ len % 65536 ≠ 0 ∨ len = 0 then fail s 3
    else if 7 < prio then fail s 6
    else
      let r := State.frames (len / 65536) s o.core o.ctx base [] false
      match r.2 with
      | .fault va =>
        let q := r.1.fault o.ctx o.core (s.x.slotOf u w) va 0 false
        q.1.modX fun x => x.modWave u fun w => { w with pend := w.pend ++ [{ a with frec := q.2, va := va }] }
      | .trap c => r.1.modX fun x => x.takeTrap u a.slot { cause := c, len := a.len, raw := a.raw, pc := a.pc }
      | .ok fs host =>
        if fs.any r.1.mem.owned then fail r.1 4
        else if host then fail r.1 5
        else
          let h := r.1.mem.freeHandle
          let s := r.1.modM fun m =>
            { m with resh := (List.range 4).foldl (fun t d => SMap.insert t (handleKey d h) ⟨o.ctx, prio, false⟩) m.resh
                     resmap := (List.range 4).foldl (fun q d => fs.foldl (fun q f => SMap.insert q (frameKey d f) h) q) m.resmap }
          s.modX fun x => x.writeW u a.d (rhWord 0 h)

/-- RHNEW (R282); in deterministic mode it is performed with the engine operations of the commit (R350). -/
def execRhnew (w : OwnI) (s : State) : Out := s.onMem fun s =>
  match s.x.issue? with
  | none => s
  | some i =>
    match i.served w.h with
    | [] => s.modX fun x => x.advance i 8
    | f :: _ =>
      let base := (s.x.readW i.u w.s1.toNat).toNat + 2 ^ 32 * ((s.x.readW i.u (w.s1.toNat + 1)).toNat % 2 ^ 16)
      let a : PendAcc :=
        { slot := f, va := base, size := 0, kind := akRhnew, sub := 0, d := w.d.toNat, fmt := 0
          args := (base, s.x.readW2 i.u w.s2.toNat, (s.x.readW i.u w.s3.toNat).toNat)
          scope := 5, hint := 0, ord := 0, frec := 0, host := none, pc := i.pc, wdst := true, len := 8, look := 0
          raw := s.x.cur.elim 0 Cur.raw }
      if s.x.determ i.w then
        s.modX fun x => ((x.stage i.u { step := 3, kind := skResid, pc := i.pc, accs := [a] }).hold i .commit).advance i 8
      else (s.rhnew i.u a).modX fun x => (x.advance i 8).holdPend i.u i.pc

/-- A residency operation on a handle begins, a step for each die (R91): `op` is what its future waits for. A freed handle
is live in no context from then on. -/
def State.rhStart (s : State) (kind h prio op : Nat) : State :=
  let s := s.modM fun m => if kind = ruFree then m.modHandle h fun r => { r with ctx := 0 } else m
  (List.range 4).foldl (fun s d =>
    let t := s.x.take
    { s with mem := { s.mem with resupd := s.mem.resupd ++ [⟨t.1, d, h, kind, prio, op⟩] },
             x := t.2.post 1 (if kind = ruSweep then .residencySweep d h else .handleTableCopyUpdate t.1) }) s

/-- RHSET, RHDEMOTE, RHEVICT and RHFREE (R91, R282). -/
def State.rhOp (s : State) (w : OwnI) (kind : Nat) (hasPrio : Bool) : State :=
  match s.x.issue? with
  | none => s
  | some i =>
    match i.served w.h with
    | [] => s.modX fun x => x.advance i 8
    | f :: _ =>
      let h := (s.x.readW i.u w.s1.toNat).toNat
      let prio := if hasPrio then (s.x.readW i.u w.s2.toNat).toNat else 0
      let ctx := s.x.ctxOf i.w
      let live := match s.mem.resh.find? (handleKey (dieOf (s.x.coreOf i.w)) h) with
        | some r => decide (r.ctx = ctx)
        | none => false
      if decide (4095 < h) || !live || decide (7 < prio) then
        s.modX fun x => ((x.readyHandle i.u w.d.toNat 1).trapAll i [f] cRESHDL 8).advance i 8
      else
        let t := s.x.take
        let s := { s with x := t.2.bindHandle i.u w.d.toNat t.1 }
        let s := if s.x.determ i.w then
            s.modX fun x => x.stage i.u { step := 3, kind := skResid, pc := i.pc, args := [kind, h, prio, t.1] }
          else s.rhStart kind h prio t.1
        s.modX fun x => x.advance i 8

/-- RHSET (R91). -/
def execRhset (w : OwnI) (s : State) : Out := s.onMem fun s => s.rhOp w ruSet true
/-- RHDEMOTE (R91). -/
def execRhdemote (w : OwnI) (s : State) : Out := s.onMem fun s => s.rhOp w ruDemote false
/-- RHEVICT (R91). -/
def execRhevict (w : OwnI) (s : State) : Out := s.onMem fun s => s.rhOp w ruSweep false
/-- RHFREE (R91). -/
def execRhfree (w : OwnI) (s : State) : Out := s.onMem fun s => s.rhOp w ruFree false

/-- HANDLE_TABLE_COPY_UPDATE: one die's copy of the table, and of the map, is updated; the future becomes ready with the last
of them; a freed number waits for every sweep of its handle (R91). -/
def State.rhUpdate (s : State) (i : Nat) : State :=
  match s.mem.resupd.find? fun r => decide (r.id = i) with
  | none => s
  | some r =>
    if r.kind = ruFree ∧ (s.mem.resupd.any fun q => decide (q.kind = ruSweep ∧ q.h = r.h)) = true then
      s.modX fun x => x.post 1 (.handleTableCopyUpdate i)
    else
      let s := s.modM fun m =>
        let m := { m with resupd := m.resupd.filter fun q => !decide (q.id = i) }
        let k := handleKey r.die r.h
        if r.kind = ruSet then { m with resh := m.resh.modify k fun q => { q with prio := r.prio, dem := false } }
        else if r.kind = ruDemote then { m with resh := m.resh.modify k fun q => { q with dem := true } }
        else { m with resh := m.resh.erase k
                      resmap := m.resmap.filter fun p => !decide (p.1 / 12582912 = r.die ∧ p.2 = r.h) }
      if s.mem.resupd.any fun q => decide (q.op = r.op) then s else s.modX fun x => x.complete r.op 0 []

/-- HANDLE_TABLE_COPY_UPDATE (R91). -/
def execHandleTableCopyUpdate (i : Nat) (s : State) : Out := s.onMem fun s => s.rhUpdate i

/-- RESIDENCY_SWEEP: every square of the tensor present on a die is written back and invalidated; a claimed one
is waited for (R91, R126). -/
def State.rhSweep (s : State) (die h : Nat) : State :=
  match s.mem.resupd.find? fun r => decide (r.kind = ruSweep ∧ r.die = die ∧ r.h = h) with
  | none => s
  | some r =>
    let mine := (s.mem.sqs.map (·.2)).filter fun q =>
      decide (q.id / 2 ^ 28 = die) && decide (s.mem.owner die q.pa = h)
    if mine.any Sq.hold then s.modX fun x => x.post 1 (.residencySweep die h)
    else
      let s := mine.foldl (fun s q =>
        (s.drainSq q.id).modM fun m =>
          let m := m.dropSharers q.id
          { m with sqs := m.sqs.erase q.id, cways := m.cways.filter (fun c => !decide (c.sq = q.id)),
                   hints := m.hints.filter (fun c => !decide (c.sq = q.id)) }) s
      let s := s.modM fun m =>
        let swept (c : RdcSec) : Bool := decide (c.die = die) && decide (m.owner die c.loc.pa = h)
        { m with rdc := (m.rdc.filter fun c => !(swept c && c.valid)).map fun c => if swept c then { c with drop := true } else c
                 resupd := m.resupd.filter fun q => !decide (q.id = r.id) }
      if s.mem.resupd.any fun q => decide (q.op = r.op) then s else s.modX fun x => x.complete r.op 0 []

/-- RESIDENCY_SWEEP (R91). -/
def execResidencySweep (die h : Nat) (s : State) : Out := s.onMem fun s => s.rhSweep die h

end Sys2Proof.Machine
end

