-- ==== Sys2Proof/Machine/Copy.lean ====
section
/-! DEFINITION. Asynchronous copies and the stream copy engine, completion tags, and transaction barrier
instructions (05 R94 to R110, 06 R125, 14 R283 to R285). -/

namespace Sys2Proof.Machine

/-- Addresses of the sectors of a span. -/
def spanSectors (va n : Nat) : List Nat :=
  if n = 0 then [] else (List.range ((va + n - 1) / 32 + 1 - va / 32)).map fun i => 32 * (va / 32 + i)

/-! ### Forming elements (R94, R95, R105, R283) -/

/-- Bytes of a copy element. -/
def cpSize (m : Nat) : Nat := 4 * 2 ^ (m % 4)

/-- What forming the copy element of one fibre gives: refused, out of bounds at the destination, or an
element; the nominal sectors of its counted side; whether some side was out of bounds. -/
structure CpForm where
  slot  : Nat
  trap  : Option Nat := none
  elem  : Option CpElem := none
  secs  : List Nat := []
  mine  : List Nat := []
  oob   : Bool := false
  deriving DecidableEq, Repr

/-- 32-byte sectors of a span of offsets. -/
def secsOf (o n : Nat) : List Nat := dedup [o / 32, (o + n - 1) / 32]

/-- The nominal offset of a global side (R19, R105), swizzled where the record asks. -/
def BufRec.nominal (r : BufRec) (idx s : Nat) : Nat := swizzle (idx * (if r.stride = 0 then s else r.stride)) r.swz r.swzP

/-- The page checks of one side (R35), each granule of an instruction probed once (R25): a failing check refuses the element (log
entry 15, DEDUCED). Also answers the granules whose probe was poisoned (R51). -/
def State.pageRefuse (s : State) (bad : List Nat) (o : Who) (va : Nat) (write : Bool) : State × Option Nat × List Nat :=
  let t := s.translateIn bad o.core o.ctx va { write := write, host := false, wait := false }
  (t.1, match t.2.1 with
    | .trap c => some c
    | _ => none, t.2.2)

/-- Forms the element of fibre f (R94): source side first, then destination; kind 0 CPA, 1 CPS, 2 CPL. -/
def Exec.cpForm (x : Exec) (i : Iss) (w : OwnI) (kind f : Nat) : CpForm :=
  let s := cpSize w.m.toNat
  let rg := x.bufRec i.w (w.s2.toNat % 16)
  let rm := x.bufRec i.w (w.m.toNat / 16 % 16)
  if x.pastBudget i f [w.d.toNat, w.s1.toNat] then { slot := f, trap := some cREGRNG }
  else match x.ownRead i f w.d.toNat, x.ownRead i f w.s1.toNat with
    | some vd, some vi =>
      let d := vd.toNat
      let g := vi.toNat
      let loc := localOffset (x.localSize i.w.team) d s
      let glob := rg.form false (if kind = 1 then .write else .read) g 0 s
      let src := if kind = 1 then loc else glob
      let dst := if kind = 0 then loc else if kind = 1 then glob else rm.form false .write d 0 s
      let nominal := if kind = 2 then rm.nominal d s else d
      let base : CpForm := { slot := f, secs := secsOf nominal s, mine := secsOf nominal s }
      match src, dst with
      | .refuse c, _ => { base with trap := some c }
      | .oob, .refuse c => { base with trap := some c, oob := true }
      | .ok _, .refuse c => { base with trap := some c }
      | .oob, .oob => { base with oob := true }
      | .ok _, .oob => { base with oob := true }
      | .oob, .ok b => { base with oob := true, elem := some ⟨0, b, true, f⟩, mine := if kind = 1 then [] else base.mine }
      | .ok a, .ok b => { base with elem := some ⟨a, b, false, f⟩ }
    | _, _ => { slot := f, trap := some cPOISON }

/-- The element of fibre f, with the sectors of its counted side: whatever refuses the fibre, they count where V[D] can be
read (R105). -/
def Exec.cpFormed (x : Exec) (i : Iss) (w : OwnI) (kind f : Nat) : CpForm :=
  let a := x.cpForm i w kind f
  if !a.secs.isEmpty || x.pastBudget i f [w.d.toNat] then a
  else match x.ownRead i f w.d.toNat with
    | none => a
    | some v =>
      let s := cpSize w.m.toNat
      let n := if kind = 2 then (x.bufRec i.w (w.m.toNat / 16 % 16)).nominal v.toNat s else v.toNat
      { a with secs := secsOf n s, mine := secsOf n s }

/-- The refusal of a copy control word (R283); for an object outside the allocation R24 sets the OOB bit too, as with every
other barrier-object instruction (log entry 71, DEDUCED). -/
def Exec.cpctl (x : Exec) (i : Iss) (c : Nat) : Option Nat :=
  let o := bitOf c 15
  let t := bitOf c 14
  if (!o && !t) || decide (c % 256 ≠ 0) then some cCPCTL
  else if t && decide ((x.teamOf i.w).elim 0 x.tagCount ≤ bitsOf c 8 6) then some cTAGRNG
  else if o && decide (x.localSize i.w.team < 16 * (c / 2 ^ 16) + 16) then some cOOB else none

/-- The key of an element's line operation (R95). -/
def CpElem.key (e : CpElem) : Bool × Nat × Nat := (e.zero, if e.zero then 0 else e.src / 128, e.dst / 128)

/-- Line operations in flight on a core (R96): those of a deterministic grid only from step 3 of its commit, after which
they stand here while they wait for a verdict (R350, log entry 52, DEDUCED). -/
def Exec.inFlight (x : Exec) (core : Nat) : Nat :=
  (x.copies.filter fun p => decide (p.2.core = core) && !p.2.performed &&
    (p.2.held.isSome || !((x.teams.find? p.2.team).bind x.gridOf).elim false Grid.determ)).length

def Exec.modCore (x : Exec) (c : Nat) (f : Core → Core) : Exec :=
  { x with cores := x.cores.insert c (f (x.cores.get {} c)) }

/-- A tag's done bit becomes 0: it leaves every observed mask of the team (R102). -/
def Exec.tagDown (x : Exec) (t mask : Nat) : Exec :=
  let x := x.modTeam t fun m => { m with tdone := Nat.xor m.tdone (Nat.land m.tdone mask) }
  { x with waves := x.waves.map fun (p : Nat × Wave) =>
      (p.1, if p.2.team = t then { p.2 with obsTags := Nat.xor p.2.obsTags (Nat.land p.2.obsTags mask) } else p.2) }

/-- Accepts a copy instruction (R95, R96, R100, R105): its line operations start, its tag counts them, and the
counted sectors that no operation moves are decremented at once. -/
def Exec.cpAccept (x : Exec) (i : Iss) (kind size ctl : Nat) (fs : List CpForm) : Exec :=
  let core := x.coreOf i.w
  let elems := fs.filterMap CpForm.elem
  let keys := dedup (elems.map CpElem.key)
  let t := x.take
  let inst := t.1
  let first := t.2.fresh
  let x : Exec := { t.2 with fresh := first + keys.length }
  let ops : List (Nat × LineOp) := keys.zipIdx.map fun p =>
    let op : LineOp := { inst := inst, core := core, team := i.w.team, wave := i.u, kind := kind, size := size,
                         elems := elems.filter (fun e => decide (e.key = p.1)), pc := i.pc, held := none,
                         performed := false }
    (first + p.2, op)
  let x : Exec := { x with copies := ops.foldl (fun m p => SMap.insert m p.1 p.2) x.copies }
  let tag := if bitOf ctl 14 then some (bitsOf ctl 8 6) else none
  let obj := if bitOf ctl 15 then some (16 * (ctl / 2 ^ 16)) else none
  let x : Exec := match tag with
    | some n =>
      if keys.isEmpty then x
      else (x.modTeam i.w.team fun m => { m with tpend := m.tpend.put 0 n (m.tpend.get 0 n + keys.length) }).tagDown i.w.team (2 ^ n)
    | none => x
  let secs := dedup ((fs.map CpForm.secs).flatten)
  let opsOf (sec : Nat) : List Nat :=
    (ops.filter fun p => p.2.elems.any fun e => fs.any fun f => decide (f.slot = e.slot) && f.mine.contains sec).map (·.1)
  let counted : List (Nat × List Nat) := if obj.isSome then secs.map fun sec => (sec, opsOf sec) else []
  let inb := decide (kind ≠ 1)
  let waiting := counted.filter fun (p : Nat × List Nat) => !p.2.isEmpty
  let x : Exec := { x with insts := x.insts.insert inst ⟨i.w.team, tag, obj, inb, waiting⟩ }
  let x : Exec := match obj with
    | some o => (counted.filter fun (p : Nat × List Nat) => p.2.isEmpty).foldl (fun (x : Exec) _ => x.tbDecrement i.w.team o inb) x
    | none => x
  if x.determ i.w then x.stage i.u { step := 3, kind := skCopy, pc := i.pc, args := ops.map (·.1) }
  else ops.foldl (fun x p => x.post 1 (.lineOperationPerform p.1)) x

/-- Waves that wait at the copy limit of a core, in the order they reached it, those aside that cannot issue: their team has
left the core or their grid has ended (R96). -/
def Exec.copyQueue (x : Exec) (core : Nat) : List Nat :=
  (x.cores.get {} core).cpq.filter fun u => match x.wave? u with
    | some w => (decide (w.hold = some (.retry rvCopy)) || w.resumed) &&
        (x.teamOf w).elim false fun m => decide (m.st = .resident) && (x.gridOf m).elim false fun g => decide (g.st = .running)
    | none => false
/-- The wave at the head of the queue tries again. -/
def Exec.wakeCopy (x : Exec) (core : Nat) : Exec :=
  match x.copyQueue core with
  | u :: _ => if (x.wave? u).elim false fun w => decide (w.hold = some (.retry rvCopy)) then x.unhold u else x
  | [] => x

/-- CPA, CPS and CPL (R94, R283). -/
def State.copy (s : State) (w : OwnI) (kind : Nat) : State :=
  match s.x.issue? with
  | none => s
  | some i =>
    match i.served w.h with
    | [] => s.modX fun x => x.advance i 8
    | low :: _ =>
      let ctl := (s.x.readW i.u w.s3.toNat).toNat
      match s.x.cpctl i ctl with
      | some c => s.modX fun x => ((x.setStatusIf (decide (c = cOOB)) i.w.team stOOB).trapAll i [low] c 8).advance i 8
      | none =>
        let o := s.x.who i.w
        let fs := (i.served w.h).map fun f => s.x.cpFormed i w kind f
        let r := (fs.foldl (fun (r : (State × List CpForm) × List Nat) f =>
          match f.elem with
          | none => ((r.1.1, r.1.2 ++ [f]), r.2)
          | some e =>
            let a := if kind = 1 || e.zero then (r.1.1, none, r.2) else r.1.1.pageRefuse r.2 o e.src false
            let b := if kind = 0 || a.2.1.isSome then a else a.1.pageRefuse a.2.2 o e.dst true
            ((b.1, r.1.2 ++ [match b.2.1 with
              | some c => { f with trap := some c, elem := none }
              | none => f]), b.2.2)) ((s, []), [])).1
        let s := r.1
        let fs := r.2
        let core := s.x.coreOf i.w
        let need := (dedup ((fs.filterMap CpForm.elem).map CpElem.key)).length
        let q := s.x.copyQueue core
        if decide (1024 < s.x.inFlight core + need) || (!q.isEmpty && !decide (q.head? = some i.u)) then
          s.modX fun x =>
            (x.modCore core fun c => { c with cpq := if q.contains i.u then q else q ++ [i.u] }).hold i (.retry rvCopy)
        else
          s.modX fun x =>
            let x := if q.contains i.u then x.modCore core fun c => { c with cpq := q.filter (fun v => !decide (v = i.u)) } else x
            let x := fs.foldl (fun x f => x.setStatusIf f.oob i.w.team stOOB) x
            let x := fs.foldl (fun x f => match f.trap with
              | some c => x.takeTrap i.u f.slot (i.trap c 8)
              | none => x) x
            ((x.cpAccept i kind (cpSize w.m.toNat) ctl fs).advance i 8).wakeCopy core

/-- CPA (R283). -/
def execCpa (w : OwnI) (s : State) : Out := s.onMem fun s => s.copy w 0
/-- CPS (R283). -/
def execCps (w : OwnI) (s : State) : Out := s.onMem fun s => s.copy w 1
/-- CPL (R283). -/
def execCpl (w : OwnI) (s : State) : Out := s.onMem fun s => s.copy w 2

/-! ### Engine claims (R125, R126) -/

/-- Whether the hold table of every slice has room for the claims on some squares: 512 entries each (R125). -/
def State.claimFits (s : State) (sqs : List Nat) : Bool :=
  let new := sqs.filter fun q => !(s.mem.claims.any fun c => decide (c.sq = q))
  (dedup (new.map sliceOf)).all fun k =>
    decide ((s.mem.claims.filter fun c => decide (sliceOf c.sq = k)).length +
      (new.filter fun q => decide (sliceOf q = k)).length ≤ 512)

/-- An engine write takes its squares: their sharers are invalidated and each has a claim. -/
def State.claim (s : State) (sqs : List Nat) : State :=
  sqs.foldl (fun s q =>
    let s := (s.drainSq q).tidalHome q
    s.modM fun m =>
      let m := (m.dropSharers q).modSq q fun r => { r with hold := true }
      if m.claims.any fun c => decide (c.sq = q) then
        { m with claims := m.claims.map fun c => if c.sq = q then { c with count := c.count + 1 } else c }
      else { m with claims := m.claims ++ [⟨q, 1, false⟩] }) s

/-- A claim is released; the last one clears the hold, and a CINV that waited for it acts (R126). -/
def State.unclaim (s : State) (sqs : List Nat) : State :=
  sqs.foldl (fun s q =>
    s.modM fun m =>
      let less := m.claims.map fun c => if c.sq = q then { c with count := c.count - 1 } else c
      let m := { m with claims := less.filter fun c => !decide (c.sq = q ∧ c.count = 0) }
      if m.claims.any fun c => decide (c.sq = q) then m
      else
        let m := if (m.sqs.find? q).any Sq.cinv then m.sqInvalidate q else m
        m.modSq q fun r => { r with hold := false }) s

/-! ### Engine access to memory (R60, R75, R97) -/

/-- Bytes an engine reads at translated sectors, each sector once: pairs of sector address and its bytes and
poison. -/
def State.engineReads (s : State) (o : Who) (locs : List Loc) : State × List (Nat × List Byte × Bool) :=
  locs.foldl (fun r l =>
    let base : Loc := { l with pa := l.pa / 32 * 32 }
    if r.2.any fun p => decide (p.1 = base.pa) then r
    else
      let s := r.1.modX fun x => x.countReq o base
      let q := s.engineRead o base
      let s := q.1
      (s, r.2 ++ [(base.pa, q.2)])) (s, [])

/-- Writes of an engine: a translated address with bytes and poison each; one request for each sector. -/
def State.engineWrites (s : State) (o : Who) (l : List (Loc × List Byte × Bool)) : State :=
  (dedup (l.map fun p => p.1.pa / 32)).foldl (fun s sec =>
    let mine := l.filter fun p => decide (p.1.pa / 32 = sec)
    match mine with
    | [] => s
    | p :: _ =>
      let m := mine.foldl (fun (m : Nat × List Byte × Bool) q =>
        let k := maskAt (q.1.pa % 32) q.2.1.length
        (Nat.lor m.1 k, mergeBytes k m.2.1 (placeAt (q.1.pa % 32) q.2.1), m.2.2 || q.2.2)) (0, List.replicate 32 0, false)
      let base : Loc := { p.1 with pa := 32 * sec }
      (s.modX fun x => x.countReq o base).engineWrite o base m.1 m.2.1 m.2.2) s

/-! ### The context image (R11, R68, R165, R344; log entry 48, DESIGN CHOICE)

The lower half of a context's image area keeps the argument snapshots. Place k of the upper half is 4 MiB that one placed team
has: its waves' register windows at 64 KiB each, its local memory from 1 MiB on, its tiles from 1.5 MiB on. -/

/-- The sectors of a span of place k of a context's image, as far as the area reaches. -/
def State.imageAt (s : State) (ctx k off size : Nat) : List Loc :=
  match s.x.ctxs.find? ctx with
  | none => []
  | some c =>
    ((List.range (size / 32)).map fun j => c.imgSize / 2 + 2 ^ 22 * k + off + 32 * j).filterMap fun o =>
      if o + 32 ≤ c.imgSize then some (s.imageLoc ctx (c.imgBase + o)) else none

/-- Register k of a wave's window (R165). -/
def windowOff (idx k : Nat) : Nat := 2 ^ 16 * idx + 512 * k
/-- An offset of a team's local memory. -/
def localOff (o : Nat) : Nat := 2 ^ 20 + o
/-- A tile of a team. -/
def tileOff (name : Nat) : Nat := 2 ^ 20 + 2 ^ 19 + 2 ^ 16 * name

/-- Writes whole sectors of the image, each with its poison, through their home slices. -/
def State.imageWrite (s : State) (core ctx : Nat) (l : List (Loc × List Byte × Bool)) : State :=
  l.foldl (fun s p => (s.send core ctx p.1 fullMask p.2.1 (some p.2.2) .back).drainSq (p.1.sec / 32)) s

/-- Sectors of a team's local memory are written to its image. -/
def State.saveLocal (s : State) (t o n : Nat) : State :=
  match s.x.teams.find? t with
  | none => s
  | some m =>
    let ctx := (s.x.gridOf m).elim 0 Grid.ctx
    s.imageWrite m.core ctx ((s.imageAt ctx m.img (localOff o) n).zipIdx.map fun (p : Loc × Nat) =>
      (p.1, m.bytes (o + 32 * p.2) 32, m.lpois.contains (o / 32 + p.2)))

/-- An engine has written bytes of a team's local memory: where the team has left its core and their block is saved, the image
holds the current copy of their sectors and is written too (R101, R112). -/
def State.saveLate (s : State) (t o n : Nat) : State :=
  match s.x.teams.find? t with
  | none => s
  | some m =>
    if m.st = .resident ∨ m.saving.contains (o / 1024) = true then s
    else s.saveLocal t (o / 32 * 32) ((o % 32 + n + 31) / 32 * 32)

/-- The same over the machine. -/
def State.detectLocal (s : State) (t o n : Nat) : State := s.modX fun x => x.detectLocal t o n

/-! ### Performing and retiring a line operation (R97 to R101) -/

/-- Who a line operation acts for: the engine has the core of its issuing wave, which is where the team stands now (R114). -/
def Exec.opWho (x : Exec) (op : LineOp) : Who :=
  match x.teams.find? op.team with
  | none => ⟨op.core, 0, 0⟩
  | some m => ⟨m.core, (x.gridOf m).elim 0 Grid.ctx, m.grid⟩

/-- A line operation's global addresses: those it reads, and those it writes. -/
def LineOp.reads (op : LineOp) : List Nat := if op.kind = 1 then [] else (op.elems.filter fun e => !e.zero).map CpElem.src
def LineOp.writes (op : LineOp) : List Nat := if op.kind = 0 then [] else op.elems.map CpElem.dst

/-- What translating one side of an operation gives. -/
inductive SideRes where
  | ok (l : List Loc)
  | fault (va : Nat)
  | trap (cause : Nat)
  deriving DecidableEq, Repr

/-- Translates a list of addresses for an engine, in order. -/
def State.xlSide (s : State) (o : Who) (n : Need) (vas : List Nat) : State × SideRes :=
  vas.foldl (fun (r : State × SideRes) va =>
    match r.2 with
    | .ok l =>
      let t := r.1.translate o.core o.ctx va n
      (t.1, match t.2 with
        | .ok p => .ok (l ++ [p])
        | .fault => .fault va
        | .trap c => .trap c)
    | _ => r) (s, .ok [])

/-- A line operation's data are moved: elements are read, then written; a poisoned source sector poisons every
destination sector that receives a byte of it, and a destination sector that proves uncorrectable is reported and poisoned
(R98). A local sector that is saved already is written in the image (R112). -/
def State.moveLine (s : State) (id : Nat) (op : LineOp) (o : Who) (src dst : List Loc) : State :=
  let live := op.elems.filter fun e => !e.zero
  let r := s.engineReads o src
  let s := if op.kind = 1 then live.foldl (fun s e => s.detectLocal op.team e.src op.size) r.1 else r.1
  let tm := (s.x.teams.find? op.team)
  let data : List (CpElem × List Byte × Bool) :=
    (if op.kind = 1 then live.map fun e =>
        (e, ((tm.map fun m => m.bytes e.src op.size).getD []), (tm.map fun m => poisonHit m.lpois e.src op.size).getD false)
     else (live.zip src).map fun p =>
        let q := (SMap.find? r.2 (p.2.pa / 32 * 32)).getD ([], false)
        (p.1, sliceOf32 q.1 (p.2.pa % 32) op.size, q.2)) ++
    (op.elems.filter CpElem.zero).map fun e => (e, List.replicate op.size 0, false)
  let s :=
    if op.kind = 0 then
      (data.foldl (fun s p =>
        ((s.modX fun x => x.modTeam op.team fun m =>
          let m := m.store p.1.dst p.2.1
          if p.2.2 then { m with lpois := setAdd m.lpois (p.1.dst / 32) } else m).detectLocal op.team p.1.dst op.size).saveLate
            op.team p.1.dst op.size) s).modX fun x => x.wakeTeam op.team
    else
      let at_ (e : CpElem) : Option Loc := (SMap.find? ((op.elems.map CpElem.dst).zip dst) e.dst)
      let sqs := dedup (dst.map fun l => l.sec / 32)
      ((s.claim sqs).engineWrites o (data.filterMap fun p => (at_ p.1).map fun l => (l, p.2))).modX fun x =>
        { x with copies := x.copies.modify id fun q => { q with sqs := sqs, claims := none } }
  s.modX fun x => ({ x with copies := x.copies.modify id fun q => { q with performed := true } }).post 1 (.lineOperationRetire id)

/-- A line operation is discarded: its fibres take an asynchronous trap, and it counts as retired (R98). -/
def State.dropLine (s : State) (id : Nat) (op : LineOp) (cause : Nat) : State :=
  s.modX fun x =>
    let x := (dedup (op.elems.map CpElem.slot)).foldl (fun x f => x.asyncTrap op.wave f cause op.pc) x
    ({ x with copies := x.copies.modify id fun q =>
        { q with performed := true, held := none, sqs := [], claims := none } }).post 1 (.lineOperationRetire id)

/-- A line operation goes on when it can: in deterministic mode with its grid's commit. -/
def Exec.goLine (x : Exec) (id : Nat) (op : LineOp) : Exec :=
  let t := x.teams.find? op.team
  if (t.bind x.gridOf).elim false Grid.determ then x.post 1 (.quantumCommit (t.elim 0 Team.grid)) else x.post 1 (.lineOperationPerform id)

/-- Whether a line operation must wait for room in a hold table, or for one that came to wait there before it (R125). -/
def State.claimWaits (s : State) (id : Nat) (op : LineOp) (sqs : List Nat) : Bool :=
  let slices := sqs.map sliceOf
  !s.claimFits sqs || s.x.copies.any fun p =>
    !decide (p.1 = id) && !p.2.performed && p.2.sqs.any (fun q => slices.contains (sliceOf q)) &&
    match p.2.claims, op.claims with
    | some a, some b => decide (a < b)
    | some _, none => true
    | none, _ => false

/-- LINE_OPERATION_PERFORM: it waits for an entry of its wave's log that names one of its sectors (R45), for
a verdict on a page fault (R98), and for room in the hold tables of the slices it writes (R125). -/
def State.performLine (s : State) (id : Nat) : State :=
  match s.x.copies.find? id with
  | none => s
  | some op =>
    let blocked := match s.x.wave? op.wave with
      | some w => (op.reads ++ op.writes).any fun va => w.logHit va
      | none => false
    if op.performed || op.held.isSome || blocked then s
    else
      let o := s.x.opWho op
      let stop (s : State) (va : Nat) (write : Bool) : State :=
        let q := s.fault o.ctx o.core (s.x.slotNo op.wave) va 5 write
        q.1.modX fun x => { x with copies := x.copies.modify id fun p => { p with held := some q.2, sqs := [], claims := none } }
      let a := s.xlSide o { host := false } op.reads
      match a.2 with
      | .fault va => stop a.1 va false
      | .trap c => a.1.dropLine id op c
      | .ok src =>
        let b := a.1.xlSide o { write := true, host := false } op.writes
        match b.2 with
        | .fault va => stop b.1 va true
        | .trap c => b.1.dropLine id op c
        | .ok dst =>
          let sqs := dedup (dst.map fun l => l.sec / 32)
          if b.1.claimWaits id op sqs then
            b.1.modX fun x =>
              let t := x.take
              ({ t.2 with copies := t.2.copies.modify id fun p =>
                  { p with sqs := sqs, claims := some (p.claims.getD t.1) } }).goLine id op
          else b.1.moveLine id op o src dst

/-- LINE_OPERATION_PERFORM (R97). -/
def execLineOperationPerform (op : Nat) (s : State) : Out := s.onMem fun s => s.performLine op

/-- LINE_OPERATION_RETIRE: its global writes are performed with their acknowledgements, its claims are released,
its tag and its counted sectors move on (R100, R101, R105), the object in the image too where it is saved already (R112). -/
def State.retireLine (s : State) (id : Nat) : State :=
  match s.x.copies.find? id with
  | none => s
  | some op =>
    if !op.performed then s
    else
      let s := op.sqs.foldl State.drainSq s
      let s := (s.drainInvals fun i => op.sqs.contains (i.sec / 32)).unclaim op.sqs
      let s := s.modX fun x => { x with copies := x.copies.erase id }
      let s := match s.x.insts.find? op.inst with
        | none => s
        | some c =>
          let left := c.secs.map fun (p : Nat × List Nat) => (p.1, p.2.filter fun k => !decide (k = id))
          let done := left.filter fun (p : Nat × List Nat) => p.2.isEmpty
          let s := s.modX fun x =>
            let last := !(x.copies.any fun p => decide (p.2.inst = op.inst))
            let insts := if last then x.insts.erase op.inst
              else x.insts.modify op.inst fun c => { c with secs := left.filter fun (p : Nat × List Nat) => !p.2.isEmpty }
            let x : Exec := { x with insts := insts }
            let x : Exec := match c.obj with
              | some o => done.foldl (fun (x : Exec) _ => x.tbDecrement c.team o c.inb) x
              | none => x
            match c.tag with
            | some n =>
              (x.modTeam c.team fun m =>
                let k := m.tpend.get 0 n - 1
                { m with tpend := m.tpend.put 0 n k, tdone := bitSet m.tdone n (decide (k = 0) || bitOf m.tdone n) }).wakeTeam c.team
            | none => x
          match c.obj with
          | some o => s.saveLate op.team o 16
          | none => s
      s.modX fun x =>
        let x := x.wakeCopy op.core
        let g := ((x.teams.find? op.team).elim 0 Team.grid)
        if x.teamOver op.team then (x.post 0 (.teamFree op.team)).post 0 (.gridCompletion g) else x

/-- LINE_OPERATION_RETIRE (R100). -/
def execLineOperationRetire (op : Nat) (s : State) : Out := s.onMem fun s => s.retireLine op

/-- Room for a claim on one square: while its slice's hold table is full, the line operations whose claims came before
retire (R125, log entry 72, DESIGN CHOICE). -/
def State.claimRoom (s : State) (sq : Nat) : State :=
  (s.x.copies.map (·.1)).foldl (fun s id =>
    if !s.claimFits [sq] && (s.x.copies.find? id).any fun op => op.sqs.any fun q => decide (sliceOf q = sliceOf sq) then s.retireLine id
    else s) s

/-- A collective's or a matrix operation's writes: each square is claimed, written, performed at `.mod`, and released
(R125, R127). -/
def State.claimedWrites (s : State) (o : Who) (l : List (Loc × List Byte × Bool)) : State :=
  (dedup (l.map fun p => p.1.sec / 32)).foldl (fun s q =>
    let s := ((s.claimRoom q).claim [q]).engineWrites o (l.filter fun p => decide (p.1.sec / 32 = q))
    ((s.drainSq q).drainInvals fun i => decide (i.sec / 32 = q)).unclaim [q]) s

/-! ### Completion tags (R102, R284) -/

/-- Whether a tag wait is over, for a wave's view. -/
def Exec.tagsMet (x : Exec) (t mask : Nat) (all : Bool) : Bool :=
  match x.teams.find? t with
  | none => true
  | some m =>
    let sel := mask % 2 ^ (x.tagCount m)
    if all then decide (Nat.land m.tdone sel = sel) else decide (sel = 0) || !decide (Nat.land m.tdone sel = 0)

/-- TAGWALL and TAGWANY (R102): in deterministic mode TAGWANY behaves as TAGWALL. A wave whose wait was met is not held again. -/
def Exec.tagWait (x : Exec) (w : OwnI) (any : Bool) : Exec :=
  x.uniformHold 8 w.h fun i _ x =>
    let mask := x.readW2 i.u w.s1.toNat
    let all := !any || x.determ i.w
    if i.w.resumed || x.tagsMet i.w.team mask all then
      let n := (x.teamOf i.w).elim 0 x.tagCount
      let done_ := (x.teamOf i.w).elim 0 Team.tdone
      (if x.determ i.w then x.modWave i.u fun v => { v with obsTags := Nat.lor v.obsTags (Nat.land done_ (mask % 2 ^ n)) } else x, false)
    else (x.hold i (.tags mask all), true)

/-- TAGWALL (R102). -/
def execTagwall (w : OwnI) (s : State) : Out := s.onX fun x => x.tagWait w false
/-- TAGWANY (R102). -/
def execTagwany (w : OwnI) (s : State) : Out := s.onX fun x => x.tagWait w true

/-- TAGFFR (R102). -/
def execTagffr (w : OwnI) (s : State) : Out := s.onX fun x =>
  x.uniform 8 w.h fun i _ x =>
    let n := (x.teamOf i.w).elim 0 x.tagCount
    let d := Nat.land (x.seenTags i.w) (x.readW2 i.u w.s1.toNat % 2 ^ n)
    x.writeW i.u w.d.toNat (BitVec.ofNat 32 ((findIdx (bitOf d ·) (List.range 64) 0).getD 64))

/-- TAGCLR (R100, R102). -/
def execTagclr (w : OwnI) (s : State) : Out := s.onX fun x =>
  x.uniform 8 w.h fun i _ x =>
    let n := (x.teamOf i.w).elim 0 x.tagCount
    x.tagDown i.w.team (x.readW2 i.u w.s1.toNat % 2 ^ n)

/-! ### Transaction barrier instructions (R104 to R109, R285) -/

/-- A barrier-object instruction: the offset is checked, then `g` acts. `whole` asks for every Ready fibre, of an
instruction that was held when it first issued. -/
def Exec.tbInstr (x : Exec) (w : OwnI) (whole : Bool) (g : Iss → Nat → Nat → Exec → Exec × Bool) : Exec :=
  x.uniformHold 8 w.h fun i f x =>
    if whole && i.diverged && !i.w.resumed then (x.trapAll i i.grp cBARDIV 8, false)
    else
      let o := (x.readW i.u w.s1.toNat).toNat
      match localOffset (x.localSize i.w.team) o 16 with
      | .oob => ((x.setStatus i.w.team stOOB).trapAll i [f] cOOB 8, false)
      | .refuse c => (x.trapAll i [f] c 8, false)
      | .ok o => g i f o x

/-- TBINIT (R105, R107). R107 says that a ninth registration is not applied: nothing of such a TBINIT is, its fields neither (log
entry 79, DESIGN CHOICE). -/
def execTbinit (w : OwnI) (s : State) : Out := s.onX fun x =>
  x.tbInstr w true fun i f o x =>
    let n := (x.readW i.u w.s2.toNat).toNat
    let reg := bitOf w.m.toNat 0
    let l := (x.teamOf i.w).elim [] Team.tbreg
    if 65535 < n then (x.trapAll i [f] cTBBAD 8, false)
    else if reg && !l.contains o && decide (8 ≤ l.length) then (x.trapAll i [f] cTBLIMIT 8, false)
    else
      ((x.modTeam i.w.team fun m =>
        { m.setTb o ⟨0, false, reg, 0, 0, n, n, 0⟩ with
          tbreg := if reg then setAdd m.tbreg o else setDel m.tbreg o, tbinfo := m.tbinfo.put {} o {} }).wakeTeam i.w.team, false)

/-- TBEXP (R105). -/
def execTbexp (w : OwnI) (s : State) : Out := s.onX fun x =>
  x.tbInstr w true fun i f o x =>
    let a := (x.readW i.u w.s2.toNat).toNat
    let b := (x.readW i.u (w.s2.toNat + 1)).toNat
    let t := ((x.teamOf i.w).map fun m => m.tb o).getD (TbObj.ofNat 0)
    if decide (2 ^ 23 ≤ a) || decide (2 ^ 23 ≤ b) || decide (t.rsv ≠ 0) then (x.trapAll i [f] cTBBAD 8, false)
    else
      let p := tbAdd t.inb a
      let q := tbAdd t.outb b
      (x.tbApply i.w.team o .other { t with inb := p.1, outb := q.1 } (p.2 || q.2), false)

/-- TBARV applied for a wave (R105, R106): the cause when it is not applied. -/
def Exec.tbArrive (x : Exec) (t u o c a b : Nat) : Except Nat Exec :=
  let k := ((x.teams.find? t).map fun m => m.tb o).getD (TbObj.ofNat 0)
  if k.rsv ≠ 0 then .error cTBBAD
  else if k.pending < c then .error cTBOVER
  else
    let p := tbAdd k.inb a
    let q := tbAdd k.outb b
    .ok (x.tbApply t o (.arrive u) { k with inb := p.1, outb := q.1, pending := k.pending - c } (p.2 || q.2))

/-- TBARV: once for each issuing group, after the wave's side log (R45, R108); TBOVER is every guard-true fibre's (R105). In
deterministic mode it is applied at the commit (R350). -/
def execTbarv (w : OwnI) (s : State) : Out := s.onX fun x =>
  x.tbInstr w false fun i f o x =>
    let c := (x.readW i.u w.s2.toNat).toNat
    let a := (x.readW i.u w.s3.toNat).toNat
    let b := (x.readW i.u (w.s3.toNat + 1)).toNat
    if decide (c = 0) || decide (65535 < c) || decide (2 ^ 23 ≤ a) || decide (2 ^ 23 ≤ b) then (x.trapAll i [f] cTBBAD 8, false)
    else if x.determ i.w then
      (x.stage i.u { step := 2, kind := skTbarv, pc := i.pc, args := [o, c, a, b] ++ i.served w.h }, false)
    else if !i.w.log.isEmpty then (x.hold i (.retry rvLog), true)
    else match x.tbArrive i.w.team i.u o c a b with
      | .ok x => (x, false)
      | .error e => (x.trapAll i (if e = cTBOVER then i.served w.h else [f]) e 8, false)

/-- TBWAIT (R108, R109): the predicate is written in every guard-true fibre of the group. -/
def execTbwait (w : OwnI) (s : State) : Out := s.onX fun x =>
  x.tbInstr w true fun i _ o x =>
    let p := (x.readW i.u w.s2.toNat).toNat % 16
    match x.teamOf i.w with
    | none => (x, false)
    | some m =>
      if m.phaseAt o = p then (x.hold i (.phase o p w.d.toNat), true)
      else
        let mine := decide ((m.tbinfo.get {} o).last.find? p = some i.u)
        ((i.served w.h).foldl (fun x f => x.modFib i.u f fun b => b.setPred w.d.toNat mine) x, false)

end Sys2Proof.Machine
end

