-- ==== Sys2Proof/Machine/Fabric.lean ====
section
/-! DEFINITION. The strait fabric: flits sent, received, acknowledged and forwarded (18 R353, R354; log entries
17 and 18, DESIGN CHOICE). -/

namespace Sys2Proof
open Machine (leBytes)

/-! ### The flit's image and its check (R353) -/

/-- One bit of a division by the polynomial of R353. -/
def crcBit (c : Nat) : Nat := if 2 ^ 63 ≤ c then (2 * c - 2 ^ 64) ^^^ 0x42f0e1eba9ea3693 else 2 * c
/-- The CRC-64 of R353: it starts at 0 and takes each byte from its highest bit (log entry 17, DESIGN CHOICE). -/
def crc64 (l : List Byte) : BitVec 64 :=
  BitVec.ofNat 64 (l.foldl (fun c b => (List.range 8).foldl (fun c _ => crcBit c) (c ^^^ (b.toNat * 2 ^ 56))) 0)

/-- Bytes 0 to 247 of a flit; payload bytes past its Length are zero (log entry 17, DESIGN CHOICE). -/
def Flit.bytes (f : Flit) : List Byte :=
  [f.type, f.channel] ++ leBytes 2 f.len ++ leBytes 4 f.seq.toNat ++ leBytes 4 f.dst ++ leBytes 4 f.src ++
  leBytes 16 f.hdr.toNat ++ (List.range 208).map (fun i => f.payload.getD i 0) ++ leBytes 4 f.ack.toNat ++ leBytes 4 f.credits.toNat
/-- The flit with the check that its bytes have. -/
def Flit.sealed (f : Flit) : Flit := { f with check := crc64 f.bytes }
/-- Whether a flit's check holds. -/
def Flit.ok (f : Flit) : Bool := decide (f.check = crc64 f.bytes)

end Sys2Proof

namespace Sys2Proof.Machine

/-! ### Sending (R353, R354) -/

def ftMessage := 1
def ftContribution := 2
def ftResult := 3
def ftRetire := 4
def ftGang := 5

def Exec.port (x : Exec) (p : Nat) : Port := x.ports.get {} p
def Exec.setPort (x : Exec) (p : Nat) (q : Port) : Exec := { x with ports := x.ports.put {} p q }

/-- Whether a port carries flits: its strait is enabled by the manifest (R403) and the link is not down. -/
def State.portUp (s : State) (p : Nat) : Bool :=
  decide (p < 32) && bitOf s.trust.manifest.straits.toNat p && !(s.x.port p).down

/-- Puts a flit on its link, or leaves it waiting at the sender: no route, a link that is down, or a full replay
buffer (R353, R354). -/
def State.sendNow (s : State) (op : Nat) (f : Flit) : State × Bool :=
  let p := s.x.routes.get 255 f.dst
  let q := s.x.port p
  if s.portUp p && decide (q.replay.length < 256) then
    (s.modX fun x => x.setPort p { q with
      txSeq := (q.txSeq + 1) % 2 ^ 32
      replay := q.replay ++ [(op, { f with port := p, seq := BitVec.ofNat 32 q.txSeq,
                                           ack := BitVec.ofNat 32 (q.rxSeq + 2 ^ 32 - 1) }.sealed)] }, true)
  else (s, false)

/-- Sends a flit; `op` is the operation whose last acknowledged flit completes it. -/
def State.sendFlit (s : State) (op : Nat) (f : Flit) : State :=
  let r := s.sendNow op f
  if r.2 then r.1
  else
    s.modX fun x =>
      let x : Exec := { x with txq := x.txq ++ [(op, f)] }
      if x.routes.get 255 f.dst = 255 then x.err { type := 4, unit := 255, detail := f.dst } else x

/-- A flit to a rank. -/
def Exec.flitTo (x : Exec) (dst type : Nat) (hdr : Nat) (payload : List Byte) : Flit :=
  { port := 0, check := 0, type := BitVec.ofNat 8 type, channel := 0, len := payload.length, seq := 0, dst := dst,
    src := x.rank, hdr := BitVec.ofNat 128 hdr, payload := payload, ack := 0, credits := 0 }

/-- Waiting flits go out in order, once a route is there. -/
def State.drainTx (s : State) : State :=
  s.x.txq.foldl (fun s p =>
    let r := s.sendNow p.1 p.2
    if r.2 then r.1 else s.modX fun x => { x with txq := x.txq ++ [p] }) (s.modX fun x => { x with txq := [] })

/-- The flits kept for links that are down, oldest first, wait with the others for a route (R353). -/
def State.reroute (s : State) : State :=
  (s.modX fun x => { x with
    txq := ((x.ports.filter fun k => k.2.down).map fun k => k.2.replay).flatten ++ x.txq
    ports := x.ports.map fun k => (k.1, if k.2.down then { k.2 with replay := [] } else k.2) }).drainTx

/-! ### Receiving (R353) -/

/-- Whether a sequence number is acknowledged by another: at most 2^31 behind it, modulo 2^32. -/
def acked (seq ack : Nat) : Bool := decide ((ack + 2 ^ 32 - seq) % 2 ^ 32 < 2 ^ 31)

/-- Whether flits of an operation are still to be acknowledged. -/
def Exec.flitsOf (x : Exec) (op : Nat) : Bool :=
  (x.ports.any fun k => k.2.replay.any fun r => decide (r.1 = op)) || x.txq.any fun r => decide (r.1 = op)

/-- The deterministic grid that has a handle bound to an operation. -/
def Exec.detGridOf (x : Exec) (op : Nat) : Option Nat :=
  (List.find? (fun (p : Nat × Wave) => x.determ p.2 && p.2.handles.any fun h => !h.2.ready && decide (h.2.op = op)) x.waves).bind
    fun p => (x.teamOf p.2).map Team.grid

/-- An acknowledgement on a port: replayed flits are no longer needed, and operations all of whose flits are
acknowledged complete with the value they keep in `outs`, those of a deterministic grid at a commit (R352). -/
def State.flitAck (s : State) (p ack credits : Nat) : State :=
  let q := s.x.port p
  let gone := (q.replay.filter fun r => acked r.2.seq.toNat ack).map (·.1)
  let s := s.modX fun x => x.setPort p { q with replay := q.replay.filter fun r => !acked r.2.seq.toNat ack,
                                                acked := ack, credit := credits }
  let s := s.drainTx
  (dedup gone).foldl (fun s op =>
    match s.x.outs.find? op with
    | some v =>
      if s.x.flitsOf op then s
      else match s.x.detGridOf op with
        | some g => s.modX fun x => x.post 0 (.quantumCommit g)
        | none => s.modX fun x => { x with outs := x.outs.erase op }.complete op v []
    | none => s) s

/-- Receives a flit on its port (R353): one that fails its check is not taken, and after 16 failures in a row the
link is reported down; one out of sequence is not taken either; one for another rank goes on by the routing
table. `g` acts on a flit for this module. -/
def State.flitIn (s : State) (f : Flit) (g : State → State) : State :=
  let q := s.x.port f.port
  if !f.ok then
    let n := q.fails + 1
    let s := s.modX fun x => x.setPort f.port { q with fails := n, down := q.down || decide (n = 16) }
    if n = 16 then s.modX fun x => x.err { type := 4, die := f.port / 8, unit := f.port } else s
  else if q.down then s
  else
    let fresh := decide (f.seq.toNat = q.rxSeq)
    let s := s.modX fun x => x.setPort f.port { q with fails := 0, rxSeq := if fresh then (q.rxSeq + 1) % 2 ^ 32 else q.rxSeq }
    let s := s.flitAck f.port f.ack.toNat f.credits.toNat
    if !fresh then s
    else if f.dst ≠ s.x.rank ∧ f.type.toNat ∈ [1, 2, 3, 4, 5] then s.sendFlit 0 f
    else g s

/-- LINK_CONTROL_FLIT (R353). -/
def execLinkControlFlit (f : Flit) (s : State) : Out := s.onMem fun s => s.flitIn f id
/-- IDLE_FLIT (R353). -/
def execIdleFlit (f : Flit) (s : State) : Out := s.onMem fun s => s.flitIn f id
/-- DISCARDED_FLIT_TYPE: counted in the error record (R353). -/
def execDiscardedFlitType (f : Flit) (s : State) : Out := s.onMem fun s =>
  s.flitIn f fun s => s.modX fun x => x.err { type := 9, die := f.port / 8, unit := f.port, detail := f.type.toNat }

end Sys2Proof.Machine
end

