-- ==== Sys2Proof/Machine/Message.lean ====
section
/-! DEFINITION. Messages between teams: sending, posting, probing, matching and delivery (14 R286 to R290, 18 R351,
R353; log entry 18, DESIGN CHOICE). -/

namespace Sys2Proof.Machine

/-! ### Status words and matching (R287, R288) -/

def mcDone := 0
def mcTrunc := 1
def mcOob := 2
def mcNoteam := 3
def mcCancelled := 4
def mcDropped := 5
def mcWilddet := 6
def mcPoison := 7
def mcFull := 8

/-- The status word of a message handle: length in 16-byte units. -/
def msgWord (code len tag : Nat) : Word := BitVec.ofNat 32 (code * 2 ^ 28 + len % 256 * 2 ^ 16 + tag % 2 ^ 16)

def wildWord : Nat := 2 ^ 32 - 1
/-- Whether a receive of rank, team and tag word takes an arrival; bit 16 of the tag word is the tag wildcard. -/
def takesMsg (rank team tag : Nat) (m : Msg) : Bool :=
  (decide (rank = wildWord) || decide (rank = m.rank)) && (decide (team = wildWord) || decide (team = m.team)) &&
  (bitOf tag 16 || decide (tag % 2 ^ 16 = m.tag))
def Post.takes (p : Post) (m : Msg) : Bool := takesMsg p.rank p.team p.tag m
/-- Any wildcard among the operand words. -/
def wildAny (rank team tag : Nat) : Bool := decide (rank = wildWord) || decide (team = wildWord) || bitOf tag 16

/-- The 16-byte header of a delivered message (R286). -/
def msgHeader (rank team tag len : Nat) : List Byte :=
  leBytes 4 rank ++ leBytes 4 team ++ leBytes 4 (tag % 2 ^ 16 + len % 256 * 2 ^ 16) ++ leBytes 4 0

/-- A team's number and record by its grid and index. -/
def Exec.teamAt (x : Exec) (g idx : Nat) : Option (Nat × Team) :=
  List.find? (fun (p : Nat × Team) => decide (p.2.grid = g ∧ p.2.idx = idx)) x.teams

/-! ### Delivery (R286 to R288) -/

/-- Writes an arrival into a matched receive's buffer, marks its poisoned bytes (R98), and makes both handles
ready. -/
def Exec.deliver (x : Exec) (t : Nat) (p : Post) (m : Msg) : Exec :=
  let n := m.data.length / 16
  let k := min n p.cap
  let bad := (List.range k).filter (bitOf m.pois ·)
  let x := x.modTeam t fun tm =>
    let tm := tm.store p.off (msgHeader m.rank m.team m.tag n ++ m.data.take (16 * k))
    { tm with lpois := bad.foldl (fun l i => setAdd l ((p.off + 16 + 16 * i) / 32)) tm.lpois }
  let code := if bad ≠ [] then mcPoison else if p.cap < n then mcTrunc else mcDone
  let x := x.complete p.op (msgWord code k m.tag) []
  let x := if m.local_ then x.complete m.id (msgWord (if m.pois ≠ 0 then mcPoison else mcDone) n m.tag) [] else x
  x.wakeTeam t

/-- Unmatched arrivals in a core's overflow queue: those of every team that is, or last was, on it (R288). -/
def Exec.overflowOf (x : Exec) (core : Nat) : Nat :=
  ((x.teams.filter fun p => decide (p.2.core = core)).map fun p => p.2.unmat.length).sum

/-- The lowest-numbered wave of a team with a Ready fibre, and its lowest-numbered Ready fibre. -/
def Exec.firstReady (x : Exec) (t : Nat) : Option (Nat × Nat) :=
  let l := x.waves.filter fun p => decide (p.2.team = t) && !p.2.exited && p.2.fibs.any fun q => q.2.isReady
  (leastBy (fun (p : Nat × Wave) => p.2.idx) l).bind fun p =>
    (List.find? (fun (q : Nat × Fib) => q.2.isReady) p.2.fibs).map fun q => (p.1, q.1)

/-- A message whose receiving core's overflow queue is full is discarded (R288). -/
def Exec.msgOverflow (x : Exec) (t : Nat) (tm : Team) (m : Msg) : Exec :=
  let x := if m.local_ then x.complete m.id (msgWord mcDropped (m.data.length / 16) m.tag) [] else x
  let x := x.err { type := 6, die := dieOf tm.core, unit := tm.core, ctx := (x.gridOf tm).elim 0 Grid.ctx,
                   detail := m.rank + 2 ^ 32 * m.team + 2 ^ 64 * tm.idx + 2 ^ 96 * m.tag }
  match x.firstReady t with
  | some p => x.asyncTrap p.1 p.2 cMSGOVF 0
  | none => x

/-- An arrival at its team: matched, queued or discarded (R288); a team not yet placed lets it wait, one that has
ended answers NOTEAM (R287). Delivery acquires for the receiving core (R290). -/
def State.arrive (s : State) (i : Nat) : State :=
  match List.find? (fun (m : Msg) => decide (m.id = i)) s.x.msgs with
  | none => s
  | some m =>
    let s' := s.modX fun x => { x with msgs := x.msgs.filter fun q => !decide (q.id = i) }
    match s.x.teamAt m.grid m.dteam with
    | none => if m.local_ then s'.modX fun x => x.complete m.id (msgWord mcNoteam (m.data.length / 16) m.tag) [] else s'
    | some (t, tm) =>
      match tm.st with
      | .ended => if m.local_ then s'.modX fun x => x.complete m.id (msgWord mcNoteam (m.data.length / 16) m.tag) [] else s'
      | .queued false => s
      | _ =>
        match List.find? (fun (p : Post) => p.takes m) tm.posts with
        | some p =>
          (s'.l1Clean tm.core).modX fun x =>
            (x.modTeam t fun tm => { tm with posts := tm.posts.filter fun q => !decide (q.op = p.op) }).deliver t p m
        | none =>
          if 256 ≤ s.x.overflowOf tm.core then s'.modX fun x => x.msgOverflow t tm m
          else
            s'.modX fun x =>
              let x := x.modTeam t fun tm => { tm with unmat := tm.unmat ++ [{ m with local_ := false }] }
              if m.local_ then x.complete m.id (msgWord (if m.pois ≠ 0 then mcPoison else mcDone) (m.data.length / 16) m.tag) [] else x

/-- MESSAGE_ARRIVAL (R288). -/
def execMessageArrival (i : Nat) (s : State) : Out := s.onMem fun s => s.arrive i

/-! ### Sending (R286, R287, R290) -/

/-- The offset of a flit that carries no part of its message but the marks of its poisoned units, 32 bytes ahead of it (log
entry 18, DESIGN CHOICE). -/
def msgPoisonOff : Nat := 2 ^ 32 - 1

/-- The flits of a message: the marks of its poisoned units, if it has any, then its header and payload in runs of 208 bytes
(R287, log entry 18, DESIGN CHOICE). -/
def State.sendFlits (s : State) (op dst dteam tag pois : Nat) (stream : List Byte) : State :=
  let n := stream.length
  let hdr (off : Nat) : Nat := dteam + 2 ^ 32 * tag + 2 ^ 64 * off + 2 ^ 96 * n
  let s := if pois = 0 then s else s.sendFlit op (s.x.flitTo dst ftMessage (hdr msgPoisonOff) (leBytes 32 pois))
  (List.range ((n + 207) / 208)).foldl (fun s k =>
    s.sendFlit op (s.x.flitTo dst ftMessage (hdr (208 * k)) ((stream.drop (208 * k)).take 208))) s

/-- A message leaves its sender: to a team of this module, or over the straits, where the sender learns its
outcome by a free value (log entry 18, DESIGN CHOICE). -/
def State.sendMsg (s : State) (dst : Nat) (m : Msg) : State :=
  let n := m.data.length / 16
  if dst = s.x.rank then
    s.modX fun x => { x with msgs := x.msgs ++ [m] }.post 1 (.messageArrival m.id)
  else
    let k := (Config.freeWord s.x.free).toNat % 3
    let code := if m.pois ≠ 0 then mcPoison else if k = 0 then mcDone else if k = 1 then mcNoteam else mcDropped
    let s := s.modX fun x => { x with free := x.free + 1, outs := x.outs.insert m.id (msgWord code n m.tag) }
    s.sendFlits m.id dst m.dteam m.tag m.pois (msgHeader m.rank m.team m.tag n ++ m.data)

/-- MSEND (R286 to R290): the payload is read at issue; in deterministic mode the message leaves at the commit
(R350). A wave whose side log is not empty waits for it first (log entry 18, DESIGN CHOICE). A source outside the allocation
gives the status OOB alone: R24 and R21 name no OOB bit for it (log entry 71, DESIGN CHOICE). -/
def execMsend (w : OwnI) (s : State) : Out := s.onMem fun s =>
  match s.x.issue? with
  | none => s
  | some i =>
    match i.served w.h, s.x.teamOf i.w with
    | f :: _, some tm =>
      let dst := (s.x.readW i.u w.s1.toNat).toNat
      let dteam := (s.x.readW i.u (w.s1.toNat + 1)).toNat
      let c := (s.x.readW i.u w.s2.toNat).toNat
      let off := (s.x.readW i.u w.s3.toNat).toNat
      let tag := c % 2 ^ 16
      let n := bitsOf c 16 8
      if !i.w.log.isEmpty then s.modX fun x => x.hold i (.retry rvLog)
      else if s.x.localSize i.w.team < off + 16 * n then
        s.modX fun x => (x.readyHandle i.u w.d.toNat (msgWord mcOob 0 tag)).advance i 8
      else if off % 16 ≠ 0 then s.modX fun x => (x.trapAll i [f] cALIGN 8).advance i 8
      else if (s.x.gridOf tm).elim 0 (fun g => g.word 16 4 * g.word 20 4 * g.word 24 4) ≤ dteam then
        s.modX fun x => (x.readyHandle i.u w.d.toNat (msgWord mcNoteam 0 tag)).advance i 8
      else
        let t := s.x.take
        let pois := (List.range n).foldl (fun p k => if poisonHit tm.lpois (off + 16 * k) 16 then bitSet p k true else p) 0
        let m : Msg := { id := t.1, local_ := true, rank := s.x.rank, team := tm.idx, grid := tm.grid, dteam := dteam,
                         tag := tag, data := tm.bytes off (16 * n), pois := pois, total := 16 * n }
        let s : State := { s with x := t.2.bindHandle i.u w.d.toNat t.1 }
        if s.x.determ i.w then
          s.modX fun x =>
            let x : Exec := { x with msgs := x.msgs ++ [m] }
            (x.stage i.u { step := 1, kind := skSend, pc := i.pc, args := [m.id, dst] }).advance i 8
        else ((s.release (s.x.coreOf i.w)).sendMsg dst m).modX fun x => x.advance i 8
    | _, _ => s.modX fun x => x.advance i 8

/-- The staged message of a deterministic wave leaves at its commit (R350, step 1). -/
def State.sendStaged (s : State) (id dst : Nat) : State :=
  match List.find? (fun (m : Msg) => decide (m.id = id)) s.x.msgs with
  | none => s
  | some m =>
    if dst = s.x.rank then s.arrive id
    else (s.modX fun x => { x with msgs := x.msgs.filter fun q => !decide (q.id = id) }).sendMsg dst m

/-! ### Receiving (R288, R289) -/

/-- MPOST: the buffer is checked, then unmatched arrivals are searched, then the receive is posted (R288). A buffer outside the
allocation gives the status OOB alone (R21, log entry 71, DESIGN CHOICE). -/
def execMpost (w : OwnI) (s : State) : Out := s.onMem fun s =>
  match s.x.issue? with
  | none => s
  | some i =>
    match i.served w.h, s.x.teamOf i.w with
    | f :: _, some tm =>
      let rank := (s.x.readW i.u w.s1.toNat).toNat
      let team := (s.x.readW i.u (w.s1.toNat + 1)).toNat
      let c := (s.x.readW i.u w.s2.toNat).toNat
      let off := (s.x.readW i.u w.s3.toNat).toNat
      let tag := c % 2 ^ 17
      let cap := bitsOf c 24 8
      let now (code : Nat) : State := s.modX fun x => (x.readyHandle i.u w.d.toNat (msgWord code 0 tag)).advance i 8
      if s.x.localSize i.w.team < off + 16 + 16 * cap then now mcOob
      else if off % 16 ≠ 0 then s.modX fun x => (x.trapAll i [f] cALIGN 8).advance i 8
      else if s.x.determ i.w && wildAny rank team tag then now mcWilddet
      else
        let t := s.x.take
        let p : Post := { op := t.1, wave := i.u, rank := rank, team := team, tag := tag, cap := cap, off := off }
        match List.find? p.takes tm.unmat with
        | some m =>
          let s : State := { s with x := t.2.bindHandle i.u w.d.toNat t.1 }
          (s.l1Clean tm.core).modX fun x =>
            ((x.modTeam i.w.team fun tm => { tm with unmat := tm.unmat.filter fun q => !decide (q.id = m.id) }).deliver
              i.w.team p m).advance i 8
        | none =>
          if 64 ≤ tm.posts.length then now mcFull
          else
            let s : State := { s with x := t.2.bindHandle i.u w.d.toNat t.1 }
            s.modX fun x => (x.modTeam i.w.team fun tm => { tm with posts := tm.posts ++ [p] }).advance i 8
    | _, _ => s.modX fun x => x.advance i 8

/-- MPROBE (R289). -/
def execMprobe (w : OwnI) (s : State) : Out := s.onX fun x =>
  x.uniform 8 w.h fun i _ x =>
    let rank := (x.readW i.u w.s1.toNat).toNat
    let team := (x.readW i.u (w.s1.toNat + 1)).toNat
    let tag := (x.readW i.u w.s2.toNat).toNat % 2 ^ 17
    let r : Nat :=
      if x.determ i.w && wildAny rank team tag then 0
      else match List.find? (takesMsg rank team tag) ((x.teamOf i.w).elim [] Team.unmat) with
        | some m => 2 ^ 31 + m.data.length / 16 * 2 ^ 16 + m.tag
        | none => 0
    x.writeW i.u w.d.toNat (BitVec.ofNat 32 r)

/-- Withdraws an unmatched receive (R289). -/
def Exec.cancelPost (x : Exec) (t op : Nat) : Exec :=
  match (x.teams.find? t).bind fun tm => List.find? (fun (p : Post) => decide (p.op = op)) tm.posts with
  | none => x
  | some p =>
    (x.modTeam t fun tm => { tm with posts := tm.posts.filter fun q => !decide (q.op = op) }).complete op
      (msgWord mcCancelled 0 p.tag) []

/-- MCANCEL (R289). -/
def execMcancel (w : OwnI) (s : State) : Out := s.onX fun x =>
  x.uniform 8 w.h fun i _ x =>
    let h := i.w.handle w.s1.toNat
    if h.ready then x else x.cancelPost i.w.team h.op

/-! ### Message flits (R351, R353) -/

/-- The grid an incoming message is for: the first dispatched of those that run and have its team (log entry 18, DESIGN CHOICE). -/
def Exec.gridWithTeam (x : Exec) (dteam : Nat) : Nat :=
  let l := x.grids.filter fun p => decide (p.2.st = .running) && (x.teamAt p.1 dteam).isSome
  (leastBy (fun (p : Nat × Grid) => p.2.order) l).elim 0 (·.1)

/-- A whole message has come in: outside deterministic mode it arrives at its team; a deterministic grid's waits
for the commit of a round in which a wave awaits it (R351). -/
def Exec.msgWhole (x : Exec) (id : Nat) : Exec :=
  match List.find? (fun (m : Msg) => decide (m.id = id)) x.msgs with
  | none => x
  | some m =>
    let g := x.gridWithTeam m.dteam
    let m' : Msg := { m with rank := leNat (m.data.take 4), team := leNat ((m.data.drop 4).take 4), grid := g
                             data := m.data.drop 16, total := m.total - 16 }
    let x : Exec := { x with msgs := x.msgs.map fun q => if q.id = id then m' else q }
    if (x.grids.find? g).elim false Grid.determ then x.post 0 (.quantumCommit g) else x.post 1 (.messageArrival id)

/-- MESSAGE_FLIT: the flits of a message are put together in their order, behind the marks of its poisoned units (R287,
R353). -/
def execMessageFlit (f : Flit) (s : State) : Out := s.onMem fun s =>
  s.flitIn f fun s => s.modX fun x =>
    let h := f.hdr.toNat
    let dteam := bitsOf h 0 32
    let tag := bitsOf h 32 16
    let off := bitsOf h 64 32
    let total := bitsOf h 96 32
    let part (m : Msg) : Bool :=
      !m.local_ && decide (m.rank = f.src ∧ m.dteam = dteam ∧ m.tag = tag ∧ m.total = total ∧ m.data.length = off)
    let bytes := f.payload.take f.len
    let new (data : List Byte) (pois : Nat) : Nat × Exec :=
      let t := x.take
      (t.1, { t.2 with msgs := t.2.msgs ++ [{ id := t.1, local_ := false, rank := f.src, team := 0, grid := 0,
                                              dteam := dteam, tag := tag, data := data, pois := pois, total := total }] })
    let r : Nat × Exec :=
      if off = msgPoisonOff then new [] (leNat bytes)
      else match List.find? part x.msgs with
        | some m => (m.id, { x with msgs := x.msgs.map fun q => if q.id = m.id then { q with data := q.data ++ bytes } else q })
        | none => if off = 0 then new bytes 0 else (0, x)
    match List.find? (fun (m : Msg) => decide (m.id = r.1)) r.2.msgs with
    | some m => if total ≤ m.data.length then r.2.msgWhole r.1 else r.2
    | none => r.2

end Sys2Proof.Machine
end

