-- ==== Sys2Proof/Machine/NearMemory.lean ====
section
/-! DEFINITION. Near-memory commands: their checks, their sending, and their performance in the base dies
(07 R131 to R140, 14 R291, 06 R128). -/

namespace Sys2Proof.Machine

/-! ### The command's fields (R133, R134) -/

/-- The command as one number. -/
def nmBits (l : List Nat) : Nat := (l.zipIdx.map fun p => p.1 * 2 ^ (32 * p.2)).sum
def nmOp (l : List Nat) : Nat := bitsOf (word l 0) 0 8
def nmBh (l : List Nat) : Nat := bitsOf (word l 0) 8 4
def nmBl (l : List Nat) : Nat := bitsOf (word l 0) 12 4
def nmBg (l : List Nat) : Nat := bitsOf (word l 0) 16 4
def nmGf (l : List Nat) : Nat := bitsOf (word l 0) 20 4
def nmPf (l : List Nat) : Nat := bitsOf (word l 0) 24 2
def nmN (l : List Nat) : Nat := word l 4 % 2 ^ 16
def nmA (l : List Nat) : Nat := word l 5
def nmF (l : List Nat) : Nat := word l 6

def opAXPY := 0x01
def opSTEP := 0x02
def opSCALE := 0x03
def opSET := 0x04

/-- A word format by its code: 0 FP32, 1 BF16, 2 FP16. -/
def nmFmt (c : Nat) : Fmt := if c = 0 then fp32 else if c = 1 then bf16 else fp16
def nmWidth (c : Nat) : Nat := if c = 0 then 4 else 2
/-- Whether the operand span is used. -/
def nmUsesG (l : List Nat) : Bool := !decide (nmOp l = opSCALE)

/-- Status codes (R139). -/
def nsDone := 0
def nsBadcmd := 1
def nsBadop := 2
def nsOob := 3
def nsRegion := 4
def nsStackmix := 5
def nsXlate := 6
def nsRefused := 7
def nsUncorr := 8
def nsPoison := 9
def nsCancelled := 10
def nmStatus (code : Nat) (ovf nan : Bool) (prog : Nat) : Word :=
  BitVec.ofNat 32 (code * 2 ^ 28 + (if ovf then 2 ^ 27 else 0) + (if nan then 2 ^ 26 else 0) + prog % 2 ^ 16)

/-- Check 1 of R135: reserved fields and formats, unused fields, the element count. -/
def nmBadFields (l : List Nat) : Bool :=
  decide (word l 7 ≠ 0) || decide (word l 4 / 2 ^ 16 ≠ 0) || decide (bitsOf (word l 0) 26 6 ≠ 0) || decide (nmPf l = 3) ||
  decide (2 < nmGf l) || decide (nmN l = 0) || decide ((if nmPf l = 0 then 1024 else 2048) < nmN l) ||
  (decide (nmOp l = opAXPY) && decide (nmF l ≠ 0)) ||
  (decide (nmOp l = opSCALE) && decide (nmF l ≠ 0 ∨ nmBg l ≠ 0 ∨ word l 3 ≠ 0 ∨ nmGf l ≠ 0)) ||
  (decide (nmOp l = opSET) && decide (nmF l ≠ 0 ∨ nmA l ≠ 0))

/-- A span: record, element index, element width, the right it needs. -/
structure NmSpan where
  r   : BufRec
  idx : Nat
  w   : Nat
  right : Right
  deriving DecidableEq, Repr

/-- The spans a command uses: high, low, operand. -/
def Exec.nmSpans (x : Exec) (w : Wave) (l : List Nat) : List NmSpan :=
  let p := nmWidth (nmPf l)
  [⟨x.bufRec w (nmBh l), word l 1, p, .near⟩, ⟨x.bufRec w (nmBl l), word l 2, p, .near⟩] ++
  (if nmUsesG l then [⟨x.bufRec w (nmBg l), word l 3, nmWidth (nmGf l), .read⟩] else [])

def NmSpan.va (p : NmSpan) : Nat := p.r.base + p.idx * p.w

/-- Checks 1 to 5 of R135: a status code, and for REFUSED its cause. -/
def Exec.nmCheck (x : Exec) (w : Wave) (l : List Nat) : Option (Nat × Nat) :=
  let sp := x.nmSpans w l
  let n := nmN l
  if nmBadFields l then some (nsBadcmd, 0)
  else if nmOp l = 0 ∨ 4 < nmOp l then some (nsBadop, 0)
  else match sp.findSome? fun p => p.r.refusal false false p.right with
    | some c => some (nsRefused, c)
    | none =>
      if sp.any fun p => decide (p.r.stride ≠ 0 ∨ p.r.swz ≠ 0 ∨ p.va % 32 ≠ 0 ∨ 4096 < p.va % 4096 + n * p.w) then
        some (nsBadcmd, 0)
      else if sp.any fun p => decide (p.r.extent < p.idx * p.w + n * p.w) then some (nsOob, 0) else none

/-! ### Reporting (R139) -/

/-- One command of an NMCMD has its status: the handle is ready once all have (R139). -/
def Exec.nmReport (x : Exec) (op slot : Nat) (v : Word) : Exec :=
  match x.nmg.find? op with
  | none => x
  | some g =>
    let vals := g.vals.insert slot v
    if g.left ≤ 1 then ({ x with nmg := x.nmg.erase op }).complete op 0 vals
    else { x with nmg := x.nmg.insert op ⟨g.left - 1, vals⟩ }

/-- Waves that wait for entries of a core, in the order they came (R136). -/
def Exec.nmQueue (x : Exec) (core : Nat) : List Nat :=
  (x.cores.get {} core).nmq.filter fun u => match x.wave? u with
    | some w => decide (w.hold = some (.retry rvNm)) || w.resumed
    | none => false
/-- The NMCMD wave at the head of a core's queue tries again (R136). -/
def Exec.wakeNm (x : Exec) (core : Nat) : Exec :=
  match x.nmQueue core with
  | u :: _ => if (x.wave? u).elim false fun w => decide (w.hold = some (.retry rvNm)) then x.unhold u else x
  | [] => x

/-- A command is done with: its wave's NMFENCE, and the first wave that waits for entries of the core, try again, and a
command of the core that it kept back is sent (R136). -/
def Exec.nmDone (x : Exec) (id : Nat) (c : NmCmd) (v : Word) : Exec :=
  let x := ({ x with nms := x.nms.erase id }).nmReport c.op c.slot v
  let x := (x.unholdWhere fun u w => decide (w.hold = some (.retry rvNm)) && decide (u = c.wave)).wakeNm c.core
  let x := x.post 1 (.nmcmdSend c.core)
  let g := (x.teams.find? c.team).elim 0 Team.grid
  if x.teamOver c.team then (x.post 0 (.teamFree c.team)).post 0 (.gridCompletion g) else x

/-! ### Checks 6 to 9 (R135) -/

/-- The number of the NMU over the module that stores a location (R131). -/
def nmuOf (l : Loc) : Nat := 3 * l.home + l.pa % 2 ^ 38 / 4096 % 3

/-- What the checks of the spans' addresses give. -/
inductive NmAddr where
  | ok (locs : List Loc)
  | fault (va : Nat) (write : Bool)
  | status (code cause : Nat)
  deriving DecidableEq, Repr

/-- Translates the spans: a page fault of any first, then a failing check of any, then regions, then stacks (log entry 44, DEDUCED). -/
def State.nmAddr (s : State) (core ctx : Nat) (sp : List (Nat × Bool)) : State × NmAddr :=
  let r := sp.foldl (fun (r : State × List Xl) p =>
    let t := r.1.translate core ctx p.1 { write := p.2, atomic := p.2, host := false }
    (t.1, r.2 ++ [t.2])) (s, [])
  let locs := r.2.filterMap fun t => match t with
    | .ok l => some l
    | _ => none
  (r.1,
    match (sp.zip r.2).find? fun p => decide (p.2 = .fault) with
    | some p => .fault p.1.1 p.1.2
    | none =>
      match r.2.findSome? fun t => match t with
          | .trap c => some c
          | _ => none with
      | some c => .status nsRefused c
      | none =>
        match locs with
        | h :: l :: _ =>
          if h.cls ≠ 1 ∨ l.cls ≠ 2 then .status nsRegion 0
          else if locs.any fun p => !decide (nmuOf p = nmuOf h) then .status nsStackmix 0 else .ok locs
        | _ => .status nsBadcmd 0)

/-- Addresses of a waiting command's spans: high and low ask for a write. -/
def NmCmd.vas (c : NmCmd) : List (Nat × Bool) := c.spans.zipIdx.map fun p => (p.1.1, decide (p.2 < 2))

/-- A command passes its checks, waits for a verdict, or fails them; `late` says that its instruction has retired,
so that a refusal is an asynchronous trap. -/
def State.nmSubmit (s : State) (id : Nat) (late : Bool) : State :=
  match s.x.nms.find? id with
  | none => s
  | some c =>
    let ctx := ((s.x.teams.find? c.team).bind s.x.gridOf).elim 0 Grid.ctx
    let r := s.nmAddr c.core ctx c.vas
    match r.2 with
    | .fault va wr =>
      let q := r.1.fault ctx c.core (r.1.x.slotNo c.wave) va 6 wr
      q.1.modX fun x => { x with nms := x.nms.insert id { c with held := some q.2 } }
    | .status code cause =>
      r.1.modX fun x =>
        let x := if code = nsRefused then
            (if late then x.asyncTrap c.wave c.slot cause c.pc
             else x.takeTrap c.wave c.slot { cause := cause, len := 8, pc := c.pc })
          else x
        x.nmDone id c (nmStatus code false false 0)
    | .ok locs =>
      let t := r.1.x.take
      let c' : NmCmd := { c with
        held := none, nmu := (locs.head?).elim 0 nmuOf
        spans := (c.spans.zip locs).map fun p => (p.1.1, p.2.pa, 4 * p.2.key + p.2.home) }
      let x := { t.2 with nms := (t.2.nms.erase id).insert t.1 c' }
      let det := ((x.teams.find? c.team).bind x.gridOf).elim false Grid.determ
      { r.1 with x := if det then x else x.post 1 (.nmcmdSend c.core) }

/-! ### NMCMD and NMFENCE (R128, R291) -/

/-- Commands that a core holds (R136): those of a deterministic grid are sent at the commit only (R291, log entry 52, DEDUCED). -/
def Exec.nmLoad (x : Exec) (core : Nat) : Nat :=
  (x.nms.filter fun p => decide (p.2.core = core) && !((x.teams.find? p.2.team).bind x.gridOf).elim false Grid.determ).length

/-- What a fibre's command comes to at its first checks. -/
inductive NmForm where
  | trap (cause : Nat)
  | fail (code cause : Nat)
  | go (l : List Nat)
  deriving DecidableEq, Repr

/-- NMCMD (R135, R136, R291). -/
def execNmcmd (w : OwnI) (s : State) : Out := s.onMem fun s =>
  match s.x.issue? with
  | none => s
  | some i =>
    match i.served w.h with
    | [] => s.modX fun x => x.advance i 8
    | fs =>
      let k := w.s1.toNat
      let core := s.x.coreOf i.w
      let form (f : Nat) : NmForm :=
        if s.x.pastBudget i f (regsFrom k 8) then .trap cREGRNG
        else match s.x.words i f k 8 with
          | none => .trap cPOISON
          | some l => match s.x.nmCheck i.w l with
            | some c => .fail c.1 c.2
            | none => .go l
      let forms := fs.map fun f => (f, form f)
      let need := (forms.filter fun p => match p.2 with
        | .go _ => true
        | _ => false).length
      let q := s.x.nmQueue core
      if decide (256 < s.x.nmLoad core + need) || (!q.isEmpty && !decide (q.head? = some i.u)) then
        s.modX fun x =>
          (x.modCore core fun c => { c with nmq := if q.contains i.u then q else q ++ [i.u] }).hold i (.retry rvNm)
      else
        let t := s.x.take
        let op := t.1
        let s : State := { s with x := t.2 }
        let s := s.modX fun x =>
          let x := if q.contains i.u then x.modCore core fun c => { c with nmq := q.filter (fun v => !decide (v = i.u)) } else x
          let x := x.bindHandle i.u w.d.toNat op
          { x with nmg := x.nmg.insert op ⟨forms.length, []⟩ }
        let s := forms.foldl (fun s p =>
          match p.2 with
          | .trap c => s.modX fun x => (x.takeTrap i.u p.1 (i.trap c 8)).nmReport op p.1 0
          | .fail code cause => s.modX fun x =>
            let x := x.setStatusIf (decide (code = nsOob)) i.w.team stOOB
            let x := if code = nsRefused then x.takeTrap i.u p.1 (i.trap cause 8)
              else if code = nsOob ∧ bitOf w.m.toNat 15 = true then x.takeTrap i.u p.1 (i.trap cOOB 8) else x
            x.nmReport op p.1 (nmStatus code false false 0)
          | .go l =>
            let t := s.x.take
            let c : NmCmd :=
              { op := op, core := core, wave := i.u, slot := p.1, team := i.w.team, words := l
                spans := (s.x.nmSpans i.w l).map fun sp => (sp.va, 0, 0)
                nmu := 0, sent := false, held := none, older := i.w.log.length, pc := i.pc }
            let s : State := { s with x := { t.2 with nms := t.2.nms.insert t.1 c } }
            s.nmSubmit t.1 false) s
        s.modX fun x =>
          let x := if x.determ i.w then x.stage i.u { step := 3, kind := skNmcmd, pc := i.pc, args := [op] } else x
          (x.advance i 8).wakeNm core

/-- NMFENCE: the wave waits for its earlier commands, then acquires at the scope (R128). -/
def execNmfence (w : OwnI) (s : State) : Out := s.onMem fun s =>
  match s.x.issue? with
  | none => s
  | some i =>
    if s.x.nms.any fun p => decide (p.2.wave = i.u) then s.modX fun x => x.hold i (.retry rvNm)
    else
      let s := if 4 ≤ w.m.toNat / 256 % 8 then s.l1Clean (s.x.coreOf i.w) else s
      s.modX fun x => x.advance i 8

/-- Commands of an NMU's queue, in arrival order. -/
def Exec.nmuQueue (x : Exec) (nmu : Nat) : List (Nat × NmCmd) := x.nms.filter fun p => p.2.sent && decide (p.2.nmu = nmu)

/-- NMCMD_SEND: the first command of a core that may go is sent: its side-log entries are performed, its NMU has room,
and no earlier command of the core for the same NMU waits. It is a release at `.mod` of its wave's earlier accesses
(R128, R136). -/
def State.nmSend (s : State) (core : Nat) : State :=
  let mine := s.x.nms.filter fun p => decide (p.2.core = core) && !p.2.sent && p.2.held.isNone &&
    !(((s.x.teams.find? p.2.team).bind s.x.gridOf).elim false Grid.determ)
  let first := List.find? (fun (p : Nat × NmCmd) => decide (p.2.older = 0) &&
    decide ((s.x.nmuQueue p.2.nmu).length < 512) &&
    !(mine.any fun q => decide (q.1 < p.1 ∧ q.2.nmu = p.2.nmu))) mine
  match first with
  | none => s
  | some (id, c) =>
    let s := s.release core
    let t := s.x.take
    let x : Exec := { t.2 with nms := (t.2.nms.erase id).insert t.1 { c with sent := true } }
    let x := x.post 1 (.nmuCommand (c.nmu / 3) (c.nmu % 3))
    { s with x := if 1 < mine.length then x.post 1 (.nmcmdSend core) else x }

/-- NMCMD_SEND (R136). -/
def execNmcmdSend (core : Nat) (s : State) : Out := s.onMem fun s => s.nmSend core

/-! ### The update (R134, R137, R138) -/

/-- The new pair of one element (R134): words, OVF, NAN. -/
def nmElem (op : Nat) (p gf : Fmt) (h l g a f : Nat) : Nat × Nat × Bool × Bool :=
  let hv := value p h
  let lv := value p l
  let gv := value gf g
  let av := value fp32 a
  let fv := value fp32 f
  let x := xsum false [hv, lv]
  let r := if op = opAXPY then xsum false [x, av.mul gv]
    else if op = opSTEP then xsum false [x, (av.mul gv).negate, (fv.mul x).negate]
    else if op = opSCALE then av.mul x else gv
  let ins := if op = opAXPY then [hv, lv, av, gv] else if op = opSTEP then [hv, lv, av, gv, fv]
    else if op = opSCALE then [hv, lv, av] else [gv]
  if ins.any XR.isNan || r.isNan then (p.defaultNan, 0, false, true)
  else
    let h' := rne p r
    if h'.isInf then (encodeX p h', 0, ins.all XR.isFinite, false)
    else if r.isZero then (0, 0, false, false)
    else (encodeX p h', encodeX p (rne p (plusZero (r.sub false h'))), false, false)

/-- Where a span lies. -/
structure NmLoc where
  pa  : Nat
  sa  : Nat
  key : Nat
  deriving DecidableEq, Repr
def NmCmd.locs (c : NmCmd) : List NmLoc := c.spans.map fun p => ⟨p.2.1, storageAt (p.2.2 % 4) p.2.1, p.2.2 / 4⟩

/-- An element of a span. -/
def MemSys.nmRead (m : MemSys) (l : NmLoc) (w k : Nat) : Nat :=
  leNat ((List.range w).map fun b => m.byteAt l.key (l.sa + w * k + b))

/-- Progress of a command: the state, the flags, and the end it met, if any. -/
structure NmRun where
  s   : State
  ovf : Bool
  nan : Bool
  stop : Option (Nat × Nat)

/-- Sectors of elements a to b − 1 of a span, each with its physical address. -/
def NmLoc.sectors (l : NmLoc) (w a b : Nat) : List (Nat × Nat) :=
  (List.range ((l.sa + w * b - 1) / 32 + 1 - (l.sa + w * a) / 32)).map fun i =>
    ((l.sa + w * a) / 32 + i, (l.pa + w * a) / 32 * 32 + 32 * i)

/-- The sectors a group writes: the high and the low one. -/
def nmOuts (c : NmCmd) (w a b : Nat) : List (Nat × Nat) := (c.locs.take 2).flatMap fun l => l.sectors w a b

/-- A sector whose write proves uncorrectable is reported as one that a read finds so (R138, R405). -/
def State.detectWrite (s : State) (p : Nat × Nat) (ctx : Nat) : State :=
  (s.modM fun m => { m with uncw := setDel m.uncw p.1, unc := setAdd m.unc p.1 }).detect p.1 p.2 ctx

/-- One group of elements (R137, R138); an uncorrectable input sector is looked for before a poisoned one (log entry 79,
DESIGN CHOICE). -/
def nmGroup (c : NmCmd) (core ctx : Nat) (r : NmRun) (j : Nat) : NmRun :=
  match r.stop with
  | some _ => r
  | none =>
    let l := c.words
    let w := nmWidth (nmPf l)
    let gw := nmWidth (nmGf l)
    let per := 32 / w
    let a := per * j
    let b := min (per * (j + 1)) (nmN l)
    match c.locs with
    | hl :: ll :: rest =>
      let gl := rest.headD hl
      let whole := decide (b = a + per)
      let ins := (if nmOp l = opSET ∧ whole = true then [] else hl.sectors w a b ++ ll.sectors w a b) ++
        (if nmUsesG l then gl.sectors gw a b else [])
      let put (m : MemSys) (q : NmLoc) (vs : List Nat) (pois : Option Bool) : MemSys :=
        m.putSector q.key ((q.sa + w * a) / 32) (maskAt 0 (w * (b - a))) (placeAt 0 ((vs.map (leBytes w)).flatten)) pois
      match ins.find? fun s => r.s.mem.unc.contains s.1 with
      | some s => { r with s := r.s.detect s.1 s.2 ctx, stop := some (nsUncorr, a) }
      | none =>
        match ins.find? fun s => r.s.mem.pois.contains s.1 with
        | some s =>
          { r with s := r.s.modX (fun x => x.err { type := 3, die := s.1 / 2 ^ 33, unit := core, ctx := ctx, pa := s.2 })
                   stop := some (nsPoison, a) }
        | none =>
          let res := (List.range (b - a)).map fun k =>
            nmElem (nmOp l) (nmFmt (nmPf l)) (nmFmt (nmGf l)) (r.s.mem.nmRead hl w (a + k)) (r.s.mem.nmRead ll w (a + k))
              (if nmUsesG l then r.s.mem.nmRead gl gw (a + k) else 0) (nmA l) (nmF l)
          let write (s : State) (pois : Option Bool) : State :=
            s.modM fun m => put (put m hl (res.map (·.1)) pois) ll (res.map (·.2.1)) pois
          match (nmOuts c w a b).filter fun s => r.s.mem.uncw.contains s.1 with
          | [] =>
            { r with s := write r.s (if whole then some false else none)
                     ovf := r.ovf || res.any (·.2.2.1), nan := r.nan || res.any (·.2.2.2) }
          | bad =>
            { r with s := write (bad.foldl (fun s p => s.detectWrite p ctx) r.s) (some true), stop := some (nsUncorr, a) }
    | _ => r

/-- Squares of a command's spans, in increasing physical address; `true` marks the high and low ones (R137). -/
def NmCmd.squares (c : NmCmd) : List (Nat × Bool) :=
  let l := c.words
  let ws := [nmWidth (nmPf l), nmWidth (nmPf l), nmWidth (nmGf l)]
  let all := (c.locs.zip ws).zipIdx.flatMap fun p =>
    (dedup ((NmLoc.sectors p.1.1 p.1.2 0 (nmN l)).map fun k => (k.2 / 1024, k.1 / 32))).map fun q => (q, decide (p.2 < 2))
  let squares := sortBy (fun (a b : Nat × Nat) => decide (a.1 < b.1)) (dedup (all.map (·.1)))
  squares.map fun q => (q.2, all.any fun p => decide (p.1 = q) && p.2)

/-- Recall of a square (R137, step 1), with its entry in the hold table. -/
def State.nmRecall (s : State) (q : Nat × Bool) : State :=
  ((s.drainSq q.1).tidalHome q.1).modM fun m =>
    { (m.dropSharers q.1).modSq q.1 fun r => { r with dirty := 0, valid := if q.2 then 0 else r.valid, hold := true } with
      claims := m.claims ++ [⟨q.1, 1, true⟩] }

/-- Whether a command's recall can begin: no engine claims a square of it, and the hold tables have room (R125, R126). -/
def State.nmFree (s : State) (c : NmCmd) : Bool :=
  let sqs := c.squares.map (·.1)
  !(sqs.any fun q => s.mem.claims.any fun k => decide (k.sq = q)) && s.claimFits sqs

/-- Recall, update and release of a command (R137): its status word; the clean copies of the spans in the L1 of the
issuing core, and of the core the team is now on, go, so that the wave's later reads are ordered as R128 says. -/
def State.nmPerform (s : State) (id : Nat) (c : NmCmd) : State :=
  let ctx := ((s.x.teams.find? c.team).bind s.x.gridOf).elim 0 Grid.ctx
  let s := c.squares.foldl State.nmRecall s
  let per := 32 / nmWidth (nmPf c.words)
  let r := (List.range ((nmN c.words + per - 1) / per)).foldl (nmGroup c c.core ctx) ⟨s, false, false, none⟩
  let e := r.stop.getD (nsDone, nmN c.words)
  let sqs := c.squares.map (·.1)
  let now := (s.x.teams.find? c.team).elim c.core Team.core
  let s := (r.s.unclaim sqs).modM fun m =>
    m.l1CleanIf fun d => decide (d.core = c.core ∨ d.core = now) && sqs.contains (d.sec / 32)
  s.modX fun x => x.nmDone id c (nmStatus e.1 r.ovf r.nan e.2)

/-- Cores with a command that is not sent for lack of room at an NMU (R136). -/
def Exec.nmBlocked (x : Exec) (nmu : Nat) : List Nat :=
  dedup ((x.nms.filter fun p => !p.2.sent && p.2.held.isNone && decide (p.2.nmu = nmu)).map fun p => p.2.core)

/-- NMU_COMMAND: the oldest command of an NMU, once its recall can begin (R126, R137); the cores whose commands wait for
room then send (R136). -/
def State.nmuStep (s : State) (nmu : Nat) : State :=
  match s.x.nmuQueue nmu with
  | [] => s
  | (id, c) :: rest =>
    let ev : Ev := .nmuCommand (nmu / 3) (nmu % 3)
    if !s.nmFree c then s.modX fun x => x.post 1 ev
    else
      let s := s.nmPerform id c
      s.modX fun x =>
        (x.nmBlocked nmu).foldl (fun x k => x.post 1 (.nmcmdSend k)) (if rest.isEmpty then x else x.post 1 ev)

/-- NMU_COMMAND (R137). -/
def execNmuCommand (die stack : Nat) (s : State) : Out := s.onMem fun s => s.nmuStep (3 * die + stack)

/-- HCANCEL of an NMCMD: its commands whose recall has not begun end with CANCELLED (R138). -/
def Exec.nmCancel (x : Exec) (op : Nat) : Exec :=
  (x.nms.filter fun p => decide (p.2.op = op)).foldl (fun x p => x.nmDone p.1 p.2 (nmStatus nsCancelled false false 0)) x

end Sys2Proof.Machine
end

