-- ==== Sys2Proof/Machine/Collective.lean ====
section
/-! DEFINITION. Collectives: their descriptor, instances, contributions, reduction trees, results and retirement
(14 R292, 18 R355 to R361; log entry 19, DESIGN CHOICE). -/

namespace Sys2Proof.Machine

/-! ### The descriptor (R292) -/

def CollPart.oper (c : CollPart) : Nat := bitsOf (word c.desc 0) 0 4
def CollPart.red (c : CollPart) : Nat := bitsOf (word c.desc 0) 4 4
def CollPart.elt (c : CollPart) : Nat := bitsOf (word c.desc 0) 8 4
def CollPart.resid (c : CollPart) : Bool := bitOf (word c.desc 0) 12
def CollPart.count (c : CollPart) : Nat := word c.desc 1
def CollPart.root (c : CollPart) : Nat := word c.desc 4
def collSrcRec (l : List Nat) : Nat := bitsOf (word l 0) 16 4
def collDstRec (l : List Nat) : Nat := bitsOf (word l 0) 20 4

/-- Status codes. -/
def ccDone := 0
def ccBaddesc := 1
def ccOob := 2
def ccRefused := 3
def ccXlate := 4
def ccPoison := 5
def ccCancelled := 6
def collWord (code : Nat) : Word := BitVec.ofNat 32 (code * 2 ^ 28)

/-- Reserved fields and values of a descriptor, and the group's members. -/
def collBad (l : List Nat) (g : Option CollGroup) (rank : Nat) : Bool :=
  decide (word l 6 ≠ 0) || decide (word l 7 ≠ 0) || decide (word l 4 / 2 ^ 21 ≠ 0) || decide (word l 1 = 0) ||
  decide (2 ^ 31 ≤ word l 1) || decide (word l 0 / 2 ^ 24 ≠ 0) || decide (bitsOf (word l 0) 14 2 ≠ 0) ||
  decide (4 < bitsOf (word l 0) 8 4) || decide (2 < bitsOf (word l 0) 4 4) || decide (5 < bitsOf (word l 0) 0 4) ||
  (bitOf (word l 0) 12 && decide (bitsOf (word l 0) 8 4 = 2 ∨ bitsOf (word l 0) 8 4 = 3)) ||
  (match g with
   | none => true
   | some g => !g.members.contains rank || !g.members.contains (word l 4))

/-- Bytes of a stored element. -/
def eltBytes (elt : Nat) : Nat := if elt = 0 ∨ elt = 3 then 4 else if elt = 4 then 8 else 2
/-- The format of one word of an element. -/
def eltFmt (elt : Nat) : Fmt := if elt = 1 then bf16 else if elt = 2 then fp16 else fp32
/-- Words of an element as it travels, and bytes of each. -/
def CollPart.travel (c : CollPart) : Nat × Nat :=
  (if c.resid || decide (c.elt = 4) then 2 else 1, if c.elt = 1 ∨ c.elt = 2 then 2 else 4)

/-! ### Elements and nodes (R358, R359) -/

/-- The exact value of an element's words (R184): a zero has the sign of the first word. -/
def CollPart.val (c : CollPart) (w : List Nat) : XR := expValue false (w.map (value (eltFmt c.elt)))

/-- Node combination. -/
def CollPart.node (c : CollPart) (x y : List Nat) : List Nat :=
  let f := eltFmt c.elt
  if c.elt = 3 then
    let a := word x 0
    let b := word y 0
    [if c.red = 0 then (a + b) % 2 ^ 32
     else if decide (signed 32 a < signed 32 b) = decide (c.red = 1) then a else b]
  else if c.red ≠ 0 then
    match fminPick (decide (c.red = 2)) (c.val x) (c.val y) with
    | some true => x
    | some false => y
    | none => f.defaultNan :: List.replicate (x.length - 1) 0
  else if (c.travel).1 = 2 then (canon f 2 (xsum false [c.val x, c.val y])).1.map (encodeX f)
  else [encodeX f (rne f (xsum false [c.val x, c.val y]))]

/-- The padding of an absent position; `none` for an absent side of a minimum or maximum. -/
def CollPart.pad (c : CollPart) : Option (List Nat) :=
  if c.red ≠ 0 then none
  else if c.elt = 3 then some [0]
  else
    let z := encodeX (eltFmt c.elt) (.zero true)
    some (if (c.travel).1 = 2 then [z, 0] else [z])

/-- Node combination of whole streams, with an absent side. -/
def CollPart.nodes (c : CollPart) (xs : List (List Nat)) (ys : Option (List (List Nat))) : List (List Nat) :=
  match ys with
  | some ys => (xs.zip ys).map fun p => c.node p.1 p.2
  | none => match c.pad with
    | some z => xs.map fun x => c.node x z
    | none => xs

/-- Sums single values over some binary tree, chosen by a free function (R359). -/
def fastSum : Nat → Nat → List XR → XR
  | 0, _, l => l.headD (.zero true)
  | n + 1, seed, l =>
    match l with
    | [] => .zero true
    | [a] => a
    | a :: r =>
      let k := Config.fastOrder seed n % r.length
      let b := r.getD k (.zero true)
      fastSum n (seed + 1) ((r.eraseIdx k) ++ [rne fp32 (xsum false [a, b])])

/-- Whether fast mode applies (R359). -/
def CollPart.fast (c : CollPart) (det : Bool) : Bool :=
  bitOf (word c.desc 0) 13 && !det && decide (c.elt = 0) && !c.resid && decide (c.red = 0) &&
  decide (c.oper = 0 ∨ c.oper = 1 ∨ c.oper = 4)

/-- Levels of the tree at a position of n members: those whose node the position computes. -/
def treeLevels : Nat → Nat → Nat → Nat
  | 0, _, _ => 0
  | k + 1, q, n => if q % 2 = 0 ∧ 1 < n then 1 + treeLevels k (q / 2) ((n + 1) / 2) else 0
/-- The positions whose partials a position combines, level by level. -/
def treeKids (q n : Nat) : List Nat := (List.range (treeLevels 22 q n)).map fun l => q + 2 ^ l
/-- The position a partial goes to. -/
def treeParent (q : Nat) : Nat := q - 2 ^ ((findIdx (fun l => bitOf q l) (List.range 22) 0).getD 0)

/-! ### Streams (R353) -/

/-- The bytes of elements as they travel. -/
def CollPart.encode (c : CollPart) (l : List (List Nat)) : List Byte := ((l.map fun e => (e.map (leBytes (c.travel).2)).flatten)).flatten
/-- The elements of a stream. -/
def CollPart.decode (c : CollPart) (b : List Byte) : List (List Nat) :=
  let w := (c.travel).2
  let n := (c.travel).1
  (List.range (b.length / (n * w))).map fun i => (List.range n).map fun j => leNat ((b.drop ((i * n + j) * w)).take w)

/-- Marks of a control flit: its element offset is all ones, its first payload byte says what it is. -/
def collCtl : Nat := 2 ^ 64 - 1

/-- Sends a stream of elements to a rank (type 2 or 3). -/
def State.collSend (s : State) (c : CollPart) (dst type : Nat) (l : List (List Nat)) : State :=
  let per := 208 / ((c.travel).1 * (c.travel).2)
  (List.range ((l.length + per - 1) / per)).foldl (fun s k =>
    s.sendFlit 0 (s.x.flitTo dst type (c.group + 2 ^ 32 * c.inst + 2 ^ 64 * (per * k)) (c.encode ((l.drop (per * k)).take per)))) s
/-- Sends a control flit. -/
def State.collCtlSend (s : State) (c : CollPart) (dst type : Nat) (b : List Byte) : State :=
  s.sendFlit 0 (s.x.flitTo dst type (c.group + 2 ^ 32 * c.inst + 2 ^ 64 * collCtl) b)

/-- The bytes of a stream that have come, in the order of their elements. -/
def CollIn.bytes (c : CollIn) : List Byte := (c.parts.map (·.2)).flatten

def Exec.collInOf (x : Exec) (g i src : Nat) : CollIn :=
  (List.find? (fun (c : CollIn) => decide (c.group = g ∧ c.inst = i ∧ c.src = src)) x.collIn).getD { group := g, inst := i, src := src }
def Exec.setCollIn (x : Exec) (c : CollIn) : Exec :=
  { x with collIn := (x.collIn.filter fun d => !decide (d.group = c.group ∧ d.inst = c.inst ∧ d.src = c.src)) ++ [c] }

/-- The whole stream of k elements from a rank, if it is here, and its poisoned elements. -/
def Exec.collStream (x : Exec) (c : CollPart) (src k : Nat) : Option (List (List Nat) × List Nat) :=
  let r := x.collInOf c.group c.inst src
  if r.bytes.length < k * ((c.travel).1 * (c.travel).2) then none else some (c.decode r.bytes, r.bad)

/-! ### A member's part -/

def Exec.setColl (x : Exec) (c : CollPart) : Exec := { x with colls := x.colls.insert c.op c }

def Exec.collMembers (x : Exec) (c : CollPart) : List Nat := (x.groups.find? c.group).elim [] CollGroup.members
def Exec.collPos (x : Exec) (c : CollPart) : Nat := (findIdx (fun r => decide (r = x.rank)) (x.collMembers c) 0).getD 0
def Exec.collDet (x : Exec) (c : CollPart) : Bool := ((x.teams.find? c.team).bind x.gridOf).elim false Grid.determ
/-- Who a part acts for: the engine has the core of its issuing wave, which is where the team stands now (R114). -/
def Exec.collWho (x : Exec) (c : CollPart) : Who :=
  match x.teams.find? c.team with
  | none => ⟨c.core, 0, 0⟩
  | some m => ⟨m.core, (x.gridOf m).elim 0 Grid.ctx, m.grid⟩

/-- Elements a member reads and writes (R357): n members, at the root or not. -/
def collReads (oper count n : Nat) (root : Bool) : Nat :=
  if oper = 2 then (if root then count else 0) else if oper = 4 ∨ oper = 5 then n * count else count
def collWrites (oper count n : Nat) (root : Bool) : Nat :=
  if oper = 1 then (if root then count else 0) else if oper = 3 ∨ oper = 5 then n * count else count

/-- A part ends: its handle becomes ready, and its completion is known to position 0 (R360). -/
def State.collEnd (s : State) (c : CollPart) (code : Nat) : State :=
  let ms := s.x.collMembers c
  let s := s.modX fun x => (x.setColl { c with ended := true, done := true, code := code, held := none }).complete c.op (collWord code) []
  let s := if s.x.collPos c = 0 then
      s.modX fun x => x.setCollIn { x.collInOf c.group c.inst x.rank with fin := true }
    else s.collCtlSend c (ms.getD 0 0) ftRetire [0]
  let s := s.modX fun x => x.post 1 (.collInstanceRetire c.group c.inst)
  s.modX fun x => if x.teamOver c.team then (x.post 0 (.teamFree c.team)).post 0 (.gridCompletion ((x.teams.find? c.team).elim 0 Team.grid)) else x

/-- An instance ends at every member with a code, and nothing is written (R355, R356): here at once, or, in deterministic mode
before step 4 of a commit, when a wave awaits it (R351). -/
def State.collFail (s : State) (c : CollPart) (code : Nat) (now : Bool) : State :=
  let ms := (s.x.collMembers c).filter fun r => !decide (r = s.x.rank)
  let c' : CollPart := { c with ended := true, failed := true, code := code, held := none }
  let s := ms.foldl (fun s r => s.collCtlSend c r ftResult [BitVec.ofNat 8 code]) s
  if now then s.collEnd c' code else s.modX fun x => x.setColl c'

/-- A failing page check of a part's operand ends it with XLATE; where the page is a host page the fibre that issued the COLL
takes the trap as well (R13, log entry 73, DEDUCED). -/
def State.collTrap (s : State) (c : CollPart) (cause : Nat) : State :=
  if cause = cHOSTOP then s.modX fun x => x.asyncTrap c.wave c.slot cHOSTOP c.pc else s

/-- What reading or translating a span comes to. -/
inductive CollRes where
  | ok (s : State) (c : CollPart)
  | stop (s : State)

/-- Reads the contribution (R60, R356): a page fault makes the part wait, a failing check ends the instance. -/
def State.collRead (s : State) (c : CollPart) (now : Bool) : CollRes :=
  let o := s.x.collWho c
  let n := (s.x.collMembers c).length
  let k := collReads c.oper c.count n (decide (c.root = s.x.rank))
  let vas := spanSectors c.src (k * eltBytes c.elt)
  let r := s.xlSide o { host := false } vas
  match r.2 with
  | .fault va =>
    let q := r.1.fault o.ctx o.core (s.x.slotNo c.wave) va 5 false
    .stop (q.1.modX fun x => x.setColl { c with held := some q.2 })
  | .trap e => .stop ((r.1.collTrap c e).collFail c ccXlate now)
  | .ok locs =>
    let q := r.1.engineReads o locs
    let secs := (vas.zip locs).map fun p => (p.1, ((SMap.find? q.2 (p.2.pa / 32 * 32)).getD ([], false)))
    let byte (va : Nat) : Byte := ((SMap.find? secs (va / 32 * 32)).getD ([], false)).1.getD (va % 32) 0
    let bad (va : Nat) : Bool := ((SMap.find? secs (va / 32 * 32)).getD ([], false)).2
    let b := eltBytes c.elt
    let w := (c.travel).2
    let elems := (List.range k).map fun i =>
      let raw := (List.range (b / w)).map fun j => leNat ((List.range w).map fun t => byte (c.src + b * i + w * j + t))
      if c.resid && decide (c.elt ≠ 4) then raw ++ [0] else raw
    let c' : CollPart := { c with own := some elems, bad := (List.range k).filter (fun i => bad (c.src + b * i) || bad (c.src + b * i + b - 1)), held := none }
    .ok (q.1.modX fun x => x.setColl c') c'

/-- Sends a stream once to each of some ranks: first the numbers of its poisoned elements, then its elements. -/
def State.collOnce (s : State) (c : CollPart) (type : Nat) (l : List (Nat × List (List Nat) × List Nat)) : State × CollPart :=
  l.foldl (fun r p =>
    if r.2.sent.contains p.1 then r
    else
      let s := p.2.2.foldl (fun s i => s.collCtlSend r.2 p.1 type (BitVec.ofNat 8 ccPoison :: leBytes 8 i)) r.1
      let s := s.collSend r.2 p.1 type p.2.1
      let c' : CollPart := { r.2 with sent := r.2.sent ++ [p.1] }
      (s.modX fun x => x.setColl c', c')) (s, c)

/-- The reduction at this position, once every partial it combines is here: its value and its poisoned elements. -/
def Exec.collReduce (x : Exec) (c : CollPart) (own : List (List Nat)) : Option (List (List Nat) × List Nat) :=
  let ms := x.collMembers c
  let n := ms.length
  let q := x.collPos c
  let k := own.length
  let kids := (treeKids q n).map fun p => if p < n then some (x.collStream c (ms.getD p 0) k) else none
  if kids.any fun o => decide (o = some none) then none
  else
    let streams : List (Option (List (List Nat) × List Nat)) := kids.map fun o => o.bind id
    let bad := (List.range k).filter fun i => c.bad.contains i || streams.any fun o => o.elim false (·.2.contains i)
    let f := eltFmt c.elt
    if c.fast (x.collDet c) then
      let l := own :: streams.filterMap (·.map (·.1))
      some ((List.range k).map fun i =>
        [encodeX f (fastSum l.length (c.op + i) (l.map fun r => value f (word (r.getD i []) 0)))], bad)
    else some (streams.foldl (fun acc o => c.nodes acc (o.map (·.1))) own, bad)

/-- The written form of reduced elements (R358). -/
def CollPart.written (c : CollPart) (l : List (List Nat)) : List (List Nat) :=
  if c.resid && decide (c.elt ≠ 4 ∧ c.red = 0) then
    l.map fun e => [encodeX (eltFmt c.elt) (rne (eltFmt c.elt) (c.val e)), 0]
  else l

/-- The poisoned elements of a part's block p of Count elements, numbered within it. -/
def CollPart.badIn (c : CollPart) (p : Nat) : List Nat := (c.bad.filter fun i => decide (i / c.count = p)).map fun i => i % c.count

/-- Marks of control flits: a descriptor, and position 0's word that it has reduced every member's source. -/
def ctlDesc : Nat := 254
def ctlDone : Nat := 253

/-- In a reduce, position 0 tells the members that write nothing once every member's source has been read (R356, log entry 19,
DESIGN CHOICE). -/
def State.collTold (s : State) (c : CollPart) (l : List Nat) : State × CollPart :=
  l.foldl (fun r d =>
    if r.2.sent.contains d then r
    else
      let c' : CollPart := { r.2 with sent := r.2.sent ++ [d] }
      ((r.1.collCtlSend c d ftResult [BitVec.ofNat 8 ctlDone]).modX fun x => x.setColl c', c')) (s, c)

/-- The result of this member, as soon as it is known: sends what it has to send, and answers what it has to write with
its poisoned elements. -/
def State.collResult (s : State) (c : CollPart) (own : List (List Nat)) : State × CollPart × Option (List (List Nat) × List Nat) :=
  let ms := s.x.collMembers c
  let n := ms.length
  let q := s.x.collPos c
  let others := ms.filter fun r => !decide (r = s.x.rank)
  let at_ (p : Nat) : Nat := ms.getD p 0
  if c.oper = 2 then
    if c.root = s.x.rank then
      let r := s.collOnce c ftContribution (others.map fun d => (d, own, c.bad))
      (r.1, r.2, some (own, c.bad))
    else (s, c, s.x.collStream c c.root c.count)
  else if c.oper = 3 ∨ c.oper = 5 then
    let block (p : Nat) : List (List Nat) × List Nat :=
      if c.oper = 3 then (own, c.bad) else ((own.drop (p * c.count)).take c.count, c.badIn p)
    let r := s.collOnce c ftContribution (((List.range n).filter fun p => !decide (p = q)).map fun p => (at_ p, block p))
    let got := (List.range n).map fun p => if p = q then some (block q) else r.1.x.collStream r.2 (at_ p) c.count
    (r.1, r.2, if got.any Option.isNone then none
      else some ((got.map fun o => (o.getD ([], [])).1).flatten,
                 (got.zipIdx.map fun p => ((p.1.getD ([], [])).2).map (· + p.2 * c.count)).flatten))
  else
    match s.x.collReduce c own with
    | none => (s, c, none)
    | some (v, bad) =>
      let k := own.length
      let mine (l : List (List Nat)) (b : List Nat) : List (List Nat) × List Nat :=
        if c.oper = 4 then ((l.drop (q * c.count)).take c.count, { c with bad := b }.badIn q)
        else if c.oper = 1 ∧ c.root ≠ s.x.rank then ([], []) else (l, b)
      let kids := (treeKids q n).filter fun p => decide (p < n)
      if q = 0 then
        let v' := c.written v
        let target := if c.oper = 1 then (if c.root = s.x.rank then [] else [c.root]) else kids.map at_
        let r := s.collOnce c ftResult (target.map fun d => (d, v', bad))
        let r := if c.oper = 1 then r.1.collTold r.2 (others.filter fun d => !decide (d = c.root)) else r
        (r.1, r.2, some (mine v' bad))
      else
        let r := s.collOnce c (if kids.isEmpty then ftContribution else ftResult) [(at_ (treeParent q), v, bad)]
        if c.oper = 1 ∧ c.root ≠ s.x.rank then
          (r.1, r.2, if (r.1.x.collInOf c.group c.inst (at_ 0)).fin then some ([], []) else none)
        else
          let from_ := if c.oper = 1 then at_ 0 else at_ (treeParent q)
          match r.1.x.collStream r.2 from_ k with
          | none => (r.1, r.2, none)
          | some (res, b) =>
            let r := r.1.collOnce r.2 ftResult (if c.oper = 1 then [] else kids.map fun p => (at_ p, res, b))
            (r.1, r.2, some (mine res b))

/-- Writes a member's result (R356): every granule is translated first; a failing one leaves the destination
unwritten. -/
def State.collWrite (s : State) (c : CollPart) (l : List (List Nat)) (bad : List Nat) : State :=
  let o := s.x.collWho c
  let b := eltBytes c.elt
  let vas := spanSectors c.dst (l.length * b)
  let r := s.xlSide o { write := true, host := false } vas
  match r.2 with
  | .fault va =>
    let q := r.1.fault o.ctx o.core (s.x.slotNo c.wave) va 5 true
    q.1.modX fun x => x.setColl { c with res := some l, rbad := bad, held := some q.2 }
  | .trap e => (r.1.collTrap c e).collEnd c ccXlate
  | .ok locs =>
    let bytes := (l.map fun e => ((e.take (b / (c.travel).2)).map (leBytes (c.travel).2)).flatten).flatten
    let first := c.dst / 32 * 32
    let writes := (vas.zip locs).map fun p =>
      let lo := max p.1 c.dst
      let hi := min (p.1 + 32) (c.dst + bytes.length)
      let poison := bad.any fun i => decide (c.dst + b * i < p.1 + 32) && decide (p.1 < c.dst + b * i + b)
      ({ p.2 with pa := p.2.pa / 32 * 32 + (lo - p.1) }, (bytes.drop (lo - c.dst)).take (hi - lo), poison && decide (first ≤ p.1))
    (r.1.claimedWrites o writes).collEnd c (if bad.isEmpty then ccDone else ccPoison)

/-- A gang group's instances hold until the gang runs here (R333, R355). -/
def Exec.collGang (x : Exec) (c : CollPart) : Bool :=
  match x.groups.find? c.group with
  | some g => decide (g.gang = 0) || x.gangs.contains g.gang
  | none => false

/-- The end that some member has reported for an instance, or that a descriptor unlike position 0's gives. -/
def Exec.collEnding (x : Exec) (c : CollPart) : Option Nat :=
  let ins := x.collIn.filter fun d => decide (d.group = c.group ∧ d.inst = c.inst)
  match ins.find? fun d => decide (d.code ≠ 0) with
  | some d => some d.code
  | none => none
def Exec.collUnlike (x : Exec) (c : CollPart) : Bool :=
  decide (x.collPos c = 0) && x.collIn.any fun d => decide (d.group = c.group ∧ d.inst = c.inst) &&
    (match d.desc with
     | some l => !decide (l = c.desc)
     | none => false)

/-- The descriptor of a part goes to a rank. -/
def State.collDesc (s : State) (c : CollPart) (dst type : Nat) : State :=
  s.collCtlSend c dst type ([BitVec.ofNat 8 ctlDesc] ++ (c.desc.map (leBytes 4)).flatten)

/-- Position 0 sends its descriptor to the others once every member has sent the same one, so that nothing is written of an
instance whose descriptors differ, or before every member is present (R333, R355; log entry 19, DESIGN CHOICE). -/
def State.collAgree (s : State) (c : CollPart) : State × CollPart :=
  let ms := s.x.collMembers c
  let others := ms.filter fun r => !decide (r = s.x.rank)
  let known (r : Nat) : Bool := decide ((s.x.collInOf c.group c.inst r).desc = some c.desc)
  let c' : CollPart := { c with agreed := true }
  if c.agreed then (s, c)
  else if s.x.collPos c = 0 then
    if others.all known then ((others.foldl (fun s r => s.collDesc c r ftResult) s).modX fun x => x.setColl c', c') else (s, c)
  else if known (ms.getD 0 0) then (s.modX fun x => x.setColl c', c') else (s, c)

/-- Takes a part as far as it goes: its contribution is copied at once, whether or not a gang is here (R360); then sending,
combining and, once the members agree, writing. `finish` allows its end to be applied: in deterministic mode only at a commit
whose waves await it (R351). -/
def State.collStep (s : State) (op : Nat) (finish : Bool) : State :=
  match s.x.colls.find? op with
  | none => s
  | some c =>
    if c.done then s
    else if c.ended then (if finish then s.collEnd c c.code else s)
    else match (if s.x.collGang c then s.x.collEnding c else none) with
    | some code => if finish then s.collEnd c code else s
    | none =>
      if c.held.isSome then s
      else match (match c.own with
          | some _ => CollRes.ok s c
          | none => s.collRead c finish) with
      | .stop s => s
      | .ok s c =>
        if !s.x.collGang c then s
        else if s.x.collUnlike c then (if finish then s.collFail c ccBaddesc true else s)
        else
          let a := s.collAgree c
          match a.2.own with
          | none => a.1
          | some own =>
            let r := match a.2.res with
              | some l => (a.1, a.2, some (l, a.2.rbad))
              | none => a.1.collResult a.2 own
            match r.2.2 with
            | some (l, bad) => if finish && r.2.1.agreed then r.1.collWrite r.2.1 l bad else r.1
            | none => r.1

/-- A part starts (R356, R360): the next instance is its own; its descriptor goes to position 0. -/
def State.collStart (s : State) (c : CollPart) : State :=
  match s.x.groups.find? c.group with
  | none => s
  | some g =>
    let c' : CollPart := { c with inst := g.next }
    let s := s.modX fun x =>
      ({ x with groups := x.groups.insert c.group { g with next := g.next + 1 } }).setColl c'
    let s := if s.x.collPos c' = 0 then s
      else s.collDesc c' (g.members.getD 0 0) ftContribution
    if c'.ended then s.collFail c' c'.code (!s.x.collDet c') else s.collStep c.op (!s.x.collDet c')

/-- The handle of a COLL is bound to a new operation, which at once reports a code. -/
def Exec.collReport (x : Exec) (u k code : Nat) : Exec :=
  let t := x.take
  (t.2.bindHandle u k t.1).complete t.1 (collWord code) []

/-- A host page among the granules of a span (R13), as translations that need no verdict find it (log entry 73, DEDUCED), and the
granules whose probe was poisoned (R51). -/
def State.collHost (s : State) (o : Who) (bad : List Nat) (write : Bool) (va n : Nat) : State × Bool × List Nat :=
  (dedup ((spanSectors va n).map fun a => a / 65536 * 65536)).foldl (fun r a =>
    let t := r.1.translateIn r.2.2 o.core o.ctx (max a va) { write := write, host := false, wait := false }
    (t.1, r.2.1 || decide (t.2.1 = .trap cHOSTOP), t.2.2)) (s, false, bad)

/-- What a COLL's descriptor asks for: its part, the refusal of its records, and whether this module is a member. -/
structure CollAsk where
  part   : CollPart
  refuse : Option Nat
  member : Bool
  reads  : Nat
  writes : Nat

/-- The checks of a descriptor (R19, R292, R355). -/
def Exec.collAsk (x : Exec) (i : Iss) (f op core : Nat) (l : List Nat) : CollAsk :=
  let g := x.groups.find? (word l 5)
  let rs := x.bufRec i.w (collSrcRec l)
  let rd := x.bufRec i.w (collDstRec l)
  let n := (g.elim [] CollGroup.members).length
  let oper := bitsOf (word l 0) 0 4
  let b := eltBytes (bitsOf (word l 0) 8 4)
  let root := decide (word l 4 = x.rank)
  let reads := collReads oper (word l 1) n root * b
  let writes := collWrites oper (word l 1) n root * b
  let refuse := firstFail (rs.refusal false false .read) (rd.refusal false false .write)
  let out := decide (rs.extent < word l 2 * b + reads) || decide (rd.extent < word l 3 * b + writes)
  let code := if collBad l g x.rank then ccBaddesc else if refuse.isSome then ccRefused else if out then ccOob else 0
  { part :=
      { op := op, group := word l 5, inst := 0, wave := i.u, slot := f, pc := i.pc, core := core, team := i.w.team, desc := l
        src := rs.base + word l 2 * b, dst := rd.base + word l 3 * b, agreed := false, own := none, bad := [], held := none, sent := []
        res := none, rbad := [], ended := decide (code ≠ 0), done := false, code := code }
    refuse := refuse, reads := reads, writes := writes, member := g.elim false fun g => g.members.contains x.rank }

/-- COLL (R292, R355, R356): in deterministic mode it starts at step 3 of its commit. A descriptor outside the allocation
starts nothing and gives status OOB (R21, R24). The part reads and writes after every earlier store of the wave to the same
sectors: while one of them stands in its side log the COLL waits (R127, log entry 73, DEDUCED). A source granule whose probe
comes back poisoned ends the instance with XLATE and is not probed again (R25, R51). -/
def execColl (w : OwnI) (s : State) : Out := s.onMem fun s =>
  match s.x.issue? with
  | none => s
  | some i =>
    match i.served w.h, s.x.teamOf i.w with
    | f :: _, some tm =>
      let o := (s.x.readW i.u w.s1.toNat).toNat
      if s.x.localSize i.w.team < o + 32 then
        s.modX fun x => ((x.setStatus i.w.team stOOB).collReport i.u w.d.toNat ccOob).advance i 8
      else if o % 16 ≠ 0 then s.modX fun x => (x.trapAll i [f] cALIGN 8).advance i 8
      else if poisonHit tm.lpois o 32 then s.modX fun x => (x.trapAll i [f] cPOISON 8).advance i 8
      else
        let t := s.x.take
        let a := s.x.collAsk i f t.1 tm.core ((List.range 8).map fun k => leNat (tm.bytes (o + 4 * k) 4))
        if !a.member then s.modX fun x => (x.collReport i.u w.d.toNat ccBaddesc).advance i 8
        else if a.part.code = 0 ∧ (spanSectors a.part.src a.reads ++ spanSectors a.part.dst a.writes).any i.w.logHit then
          s.modX fun x => x.hold i (.retry rvLog)
        else
          let h : State × Bool × Bool :=
            if a.part.code ≠ 0 then (s, false, false)
            else
              let r := s.collHost (s.x.who i.w) [] false a.part.src a.reads
              let q := r.1.collHost (s.x.who i.w) r.2.2 true a.part.dst a.writes
              (q.1, r.2.1 || q.2.1, !r.2.2.isEmpty)
          let c : CollPart := if h.2.1 then { a.part with ended := true, code := ccRefused }
            else if h.2.2 then { a.part with ended := true, code := ccXlate } else a.part
          let s := h.1.modX fun x =>
            let x := (x.take.2.bindHandle i.u w.d.toNat t.1).setStatusIf (decide (c.code = ccOob)) i.w.team stOOB
            match (if h.2.1 then some cHOSTOP else if c.code = ccRefused then a.refuse else none) with
            | some cause => x.trapAll i [f] cause 8
            | none => x
          let s :=
            if s.x.determ i.w then
              s.modX fun x => (x.setColl c).stage i.u { step := 3, kind := skColl, pc := i.pc, args := [t.1] }
            else s.collStart c
          s.modX fun x => x.advance i 8
    | _, _ => s.modX fun x => x.advance i 8

/-! ### Flits and retirement (R353, R360) -/

/-- Every part of an instance goes on with what has arrived. -/
def State.collWake (s : State) (g inst : Nat) : State :=
  (s.x.colls.filter fun p => decide (p.2.group = g ∧ p.2.inst = inst)).foldl (fun s p =>
    if s.x.collDet p.2 then (s.collStep p.1 false).modX fun x => x.post 0 (.quantumCommit ((x.teams.find? p.2.team).elim 0 Team.grid))
    else s.collStep p.1 true) s

/-- A contribution, partial or result arrives: an element offset already received is not taken again (R361). -/
def State.collFlit (s : State) (f : Flit) : State :=
  let h := f.hdr.toNat
  let g := bitsOf h 0 32
  let inst := bitsOf h 32 32
  let off := bitsOf h 64 64
  let r := s.x.collInOf g inst f.src
  let b := f.payload.take f.len
  let r' : CollIn :=
    if off = collCtl then
      match b with
      | [] => r
      | k :: rest =>
        if k.toNat = ctlDesc then { r with desc := some ((List.range 8).map fun j => leNat ((rest.drop (4 * j)).take 4)) }
        else if k.toNat = ctlDone then { r with fin := true }
        else if k.toNat = ccPoison then { r with bad := setAdd r.bad (leNat rest) } else { r with code := k.toNat }
    else if r.parts.any fun p => decide (p.1 = off) then r else { r with parts := r.parts.insert off b }
  (s.modX fun x => x.setCollIn r').collWake g inst

/-- CONTRIBUTION_FLIT (R353, R358). -/
def execContributionFlit (f : Flit) (s : State) : Out := s.onMem fun s => s.flitIn f fun s => s.collFlit f
/-- PARTIAL_FLIT (R353, R358). -/
def execPartialFlit (f : Flit) (s : State) : Out := s.onMem fun s => s.flitIn f fun s => s.collFlit f

/-- Forgets an instance. -/
def Exec.collForget (x : Exec) (g inst : Nat) : Exec :=
  { x with
    colls := x.colls.filter fun p => !(decide (p.2.group = g ∧ p.2.inst = inst) && p.2.done)
    collIn := x.collIn.filter fun d => !decide (d.group = g ∧ d.inst = inst) }

/-- RETIRE_FLIT: at position 0 a member's completion, elsewhere the instance's retirement (R360). -/
def execRetireFlit (f : Flit) (s : State) : Out := s.onMem fun s =>
  s.flitIn f fun s => s.modX fun x =>
    let g := bitsOf f.hdr.toNat 0 32
    let inst := bitsOf f.hdr.toNat 32 32
    if ((x.groups.find? g).elim [] CollGroup.members).head? = some x.rank then
      (x.setCollIn { x.collInOf g inst f.src with fin := true }).post 1 (.collInstanceRetire g inst)
    else x.collForget g inst

/-- COLL_INSTANCE_RETIRE: position 0 has completion from every member (R360). -/
def State.collRetire (s : State) (g inst : Nat) : State :=
  let ms := (s.x.groups.find? g).elim [] CollGroup.members
  if ms.head? ≠ some s.x.rank ∨ ms.any (fun r => !(s.x.collInOf g inst r).fin) = true then s
  else
    let s := (ms.filter fun r => !decide (r = s.x.rank)).foldl (fun s r =>
      s.sendFlit 0 (s.x.flitTo r ftRetire (g + 2 ^ 32 * inst) [])) s
    s.modX fun x => x.collForget g inst

/-- COLL_INSTANCE_RETIRE (R360). -/
def execCollInstanceRetire (group inst : Nat) (s : State) : Out := s.onMem fun s => s.collRetire group inst

/-- Replays to a rank every flit of an open instance that was addressed to it (R361): descriptors, streams, the code of an
instance that this member has ended, and completions. -/
def State.collReplay (s : State) (rank : Nat) : State :=
  (s.x.colls.filter fun p => (s.x.collMembers p.2).contains rank && s.x.groups.any fun g => decide (g.1 = p.2.group ∧ p.2.inst < g.2.next)).foldl
    (fun s p =>
      let c : CollPart := { p.2 with sent := p.2.sent.filter fun r => !decide (r = rank) }
      let first := decide ((s.x.collMembers c).head? = some rank)
      let s := s.modX fun x => x.setColl c
      let s := if first then s.collDesc c rank ftContribution
        else if c.agreed && decide (s.x.collPos c = 0) then s.collDesc c rank ftResult else s
      let s := match c.own with
        | some own =>
          if p.2.sent.contains rank then
            let r := s.collResult c own
            r.1.modX fun x => x.setColl { r.2.1 with done := c.done, ended := c.ended, code := c.code }
          else s
        | none => s
      let s := if c.failed then s.collCtlSend c rank ftResult [BitVec.ofNat 8 c.code] else s
      if first && c.done then s.collCtlSend c rank ftRetire [0] else s) s

/-- HCANCEL of a COLL that has not begun: it takes no instance, and its handle reports CANCELLED (log entry 19, DESIGN CHOICE). -/
def Exec.collCancel (x : Exec) (op : Nat) : Exec :=
  let staged := x.waves.any fun p => p.2.staged.any fun e => decide (e.kind = skColl) && e.args.contains op
  match x.colls.find? op with
  | none => x
  | some _ =>
    if staged then
      let ws := x.waves.map fun (p : Nat × Wave) =>
        (p.1, { p.2 with staged := p.2.staged.filter fun e => !(decide (e.kind = skColl) && e.args.contains op) })
      ({ x with waves := ws, colls := x.colls.erase op }).complete op (collWord ccCancelled) []
    else x

end Sys2Proof.Machine
end

