-- ==== Sys2Proof/Machine/MatrixMath.lean ====
section
/-! DEFINITION. What the matrix engine computes: element values, scales and outliers, products and accumulation,
tile flags, and the steps of a scan (15 R297 to R308, R315 to R317). -/

namespace Sys2Proof.Machine

/-! ### Elements -/

/-- A byte source: the byte at an address and whether it is poisoned. -/
abbrev ByteSrc := Nat → Byte × Bool

/-- The bits of element idx of n storage bits from a base address (R174), and poison. -/
def elemAt (rd : ByteSrc) (base n idx : Nat) : Nat × Bool :=
  if n = 4 then
    let b := rd (base + idx / 2)
    (b.1.toNat / 16 ^ (idx % 2) % 16, b.2)
  else
    let l := (List.range (n / 8)).map fun i => rd (base + idx * (n / 8) + i)
    (leNat (l.map (·.1)), l.any (·.2))
/-- A 32-bit word of a byte source. -/
def wordAt (rd : ByteSrc) (a : Nat) : Nat × Bool := elemAt rd a 32 0

/-- An operand element: its exact value, its first two BF16 words where R305 splits it, and poison. -/
structure MxEl where
  v     : XR
  split : Option (XR × XR)
  bad   : Bool

/-- The split of an FP32-class element (R305). -/
def mxSplit (v : XR) : Option (XR × XR) :=
  if !v.isFinite then none
  else
    let r := xsplit bf16 3 v
    match r.1 with
    | a :: b :: _ => if a.isFinite then some (a, b) else none
    | _ => none

/-- An element of a format. -/
def mxEl (spec : Nat) (p : Nat × Bool) : MxEl :=
  let v := specValue spec p.1
  ⟨v, if specBits spec = 32 then mxSplit v else none, p.2⟩

/-- The exact terms of one product (R304, R305). -/
def mxTerms (a b : MxEl) : List XR :=
  match a.split, b.split with
  | some (a0, a1), some (b0, b1) => [a0.mul b0, a0.mul b1, a1.mul b0]
  | _, _ => [a.v.mul b.v]

/-! ### Accumulation (R304, R306) -/

/-- One tile element in work: main, residual, poison, and the flags INF and NAN it raised. -/
structure MxAcc where
  a    : XR
  r    : XR
  bad  : Bool
  inf_ : Bool
  nan_ : Bool

/-- Accumulate of R304. -/
def mxAccumulate (keepRes : Bool) (t : MxAcc) (s : XR) : MxAcc :=
  let g := rne accF s
  let x := xsum false [t.a, g]
  let a2 := rne accF x
  { t with
    a := a2
    r := if keepRes && a2.isFinite then rne fp32 (t.r.add false (x.sub false a2)) else t.r
    inf_ := t.inf_ || (a2.isInf && t.a.isFinite && g.isFinite)
    nan_ := t.nan_ || a2.isNan }

/-- Accumulates a row against a column, 16 terms a segment. -/
def mxDot (keepRes : Bool) : Nat → MxAcc → List MxEl → List MxEl → MxAcc
  | 0, t, _, _ => t
  | n + 1, t, a, b =>
    match a with
    | [] => t
    | _ =>
      let s := xsum false ((((a.take 16).zip (b.take 16)).map fun p => mxTerms p.1 p.2)).flatten
      mxDot keepRes n (mxAccumulate keepRes t s) (a.drop 16) (b.drop 16)

def Tile.elem (t : Tile) (i : Nat) : MxAcc :=
  ⟨value accF (t.main.get 0 i).toNat, value fp32 (t.res.get 0 i).toNat, t.pois.contains i, false, false⟩
def Tile.setElem (t : Tile) (i : Nat) (e : MxAcc) (keepRes : Bool) : Tile :=
  { t with main := t.main.put 0 i (BitVec.ofNat 36 (encodeX accF e.a))
           res := if keepRes then t.res.put 0 i (BitVec.ofNat 32 (encodeX fp32 e.r)) else t.res
           pois := if e.bad then setAdd t.pois i else t.pois }

/-- Bits of the status word (R311). -/
def tfINF := 2
def tfNAN := 3
def tfSCSAT := 4
def tfOUTOVF := 5
def tfLOWP := 6
def tfPOISON := 7
def Tile.raise (t : Tile) (bit : Nat) (b : Bool) : Tile := if b then { t with flags := bitSet t.flags bit true } else t
/-- The status word. -/
def Tile.word (t : Tile) : Nat :=
  if !t.bound then 0
  else t.done % 2 ^ 16 * 2 ^ 16 + t.flags % 2 ^ 7 / 4 * 4 + (if t.pois.isEmpty then 0 else 2 ^ tfPOISON) + 1

/-- Whether an element is below the LOWP threshold's precision (R306). -/
def mxLowp (t : Nat) (e : MxAcc) : Bool :=
  decide (t ≠ 0) && e.a.isFinite && !e.a.isZero && !(e.r.abs.lt (e.a.abs.scale (-(t : Int)))) && !e.r.isNan

/-- A product of rows and columns into a tile: element (m, n) takes row m against column n, then the extra sum of
MMLR. -/
def mxInto (keepRes : Bool) (lowp : Nat) (rows cols : List (List MxEl)) (extra : Nat → Nat → Option (XR × Bool)) (t : Tile) : Tile :=
  let infIn := (rows ++ cols).any fun l => l.any fun e => e.v.isInf
  let badRow := rows.map fun l => l.any (·.bad)
  let badCol := cols.map fun l => l.any (·.bad)
  let t := (rows.zip badRow).zipIdx.foldl (fun t r =>
    (cols.zip badCol).zipIdx.foldl (fun (t : Tile) c =>
      let i := 64 * r.2 + c.2
      let e := mxDot keepRes (r.1.1.length) (t.elem i) r.1.1 c.1.1
      let e := match extra r.2 c.2 with
        | some (s, bad) => let q := mxAccumulate keepRes e s; { q with bad := q.bad || bad }
        | none => e
      let e := { e with bad := e.bad || r.1.2 || c.1.2 }
      ((((t.setElem i e keepRes).raise tfINF e.inf_).raise tfNAN e.nan_).raise tfLOWP (keepRes && mxLowp lowp e))) t) t
  t.raise tfINF infIn

/-! ### Scales and outliers (R301, R302) -/

/-- A scaled element. -/
def MxEl.scaled (e : MxEl) (s : Nat × Bool) : MxEl := { e with v := e.v.mul (scaleValue s.1), split := none, bad := e.bad || s.2 }

/-- The outliers of one row of A: for each k, the value that replaces its element; whether a fifth bit was set; and the k whose
mask bit is poisoned. -/
def outliersOf (rd : ByteSrc) (base nb k kq : Nat) : List (Nat × XR × Bool) × Bool × List Nat :=
  (List.range nb).foldl (fun acc j =>
    let at_ := base + 16 * j
    let mask := wordAt rd at_
    let inK := (List.range 32).filter fun i => decide (kq ≤ 32 * j + i ∧ 32 * j + i - kq < k)
    let ks := (inK.filter fun i => bitOf mask.1 i).map fun i => 32 * j + i - kq
    let vals := (ks.take 4).zipIdx.map fun p =>
      let v := elemAt rd (at_ + 4) 16 p.2
      (p.1, value bf16 v.1, v.2 || mask.2)
    (acc.1 ++ vals, acc.2.1 || decide (4 < ks.length), acc.2.2 ++ (if mask.2 then inK.map fun i => 32 * j + i - kq else []))) ([], false, [])

/-- What the operands of a product are: rows of A, columns of B, and the flags SCSAT and OUTOVF. -/
structure MxOperands where
  rows : List (List MxEl)
  cols : List (List MxEl)
  scsat : Bool
  outovf : Bool

/-- Element (m, k) of an A image of 8 blocks with a row length (R298). -/
def aElem (a : List (List Byte)) (spec rowk m k : Nat) : MxEl :=
  let blk := a.getD (m / 8) []
  mxEl spec (elemAt (fun i => (blk.getD i 0, false)) 0 (specBits spec) (m % 8 * rowk + k))

/-- The operands of MMA, MMAR and MMLR (R298 to R302): `b` gives the bits of B's elements, `rd` local memory. -/
def mxOperands (o : MxOp) (rd : ByteSrc) (b : Nat → Nat → Nat × Bool) : MxOperands :=
  let l := o.words
  let bits := specBits o.specs.1
  let k := classK bits
  let sc := mxSc o.major o.m
  let ol := mxOl o.major o.m
  let qa := kqA l
  let qb := kqB l
  let nbA := scaleBlocks k qa
  let nbB := scaleBlocks k qb
  let sA (m i : Nat) : Nat × Bool := elemAt rd (word l 4) 8 (nbA * m + (i + qa) / 32)
  let sB (n i : Nat) : Nat × Bool := elemAt rd (word l 5) 8 (nbB * n + (i + qb) / 32)
  let sat (s : Nat × Bool) : Bool := decide (s.1 = 0 ∨ s.1 = 254)
  let outs := (List.range 64).map fun m => if ol then outliersOf rd (word l 6 + 16 * (nbA * m)) nbA k qa else ([], false, [])
  { rows := outs.zipIdx.map fun r => (List.range k).map fun i =>
      match (r.1.1.find? fun p => decide (p.1 = i)) with
      | some p => ⟨p.2.1, none, p.2.2⟩
      | none =>
        let e := aElem o.a o.specs.1 k r.2 i
        let e := if r.1.2.2.contains i then { e with bad := true } else e
        if sc then e.scaled (sA r.2 i) else e
    cols := (List.range 64).map fun n => (List.range k).map fun i =>
      let e := mxEl o.specs.2 (b i n)
      if sc then e.scaled (sB n i) else e
    scsat := sc && (outs.zipIdx.any (fun r => (List.range k).any fun i =>
        (r.1.1.all fun p => !decide (p.1 = i)) && sat (sA r.2 i)) ||
      (List.range 64).any fun n => (List.range k).any fun i => sat (sB n i))
    outovf := outs.any (·.2.1) }

/-! ### Products -/

/-- The extra sum of MMLR (R307). -/
def lowRank (l : List Nat) (rd : ByteSrc) (m n : Nat) : Option (XR × Bool) :=
  let ts := (List.range (word l 10)).map fun i =>
    let u := elemAt rd (word l 8) 16 (16 * m + i)
    let v := elemAt rd (word l 9) 16 (64 * i + n)
    ((value bf16 u.1).mul (value bf16 v.1), u.2 || v.2)
  some (xsum false (ts.map (·.1)), ts.any (·.2))
/-- Whether an input of the extra sum is infinite (R306). -/
def lowRankInf (l : List Nat) (rd : ByteSrc) : Bool :=
  (List.range 64).any fun m => (List.range (word l 10)).any fun i =>
    (value bf16 (elemAt rd (word l 8) 16 (16 * m + i)).1).isInf || (value bf16 (elemAt rd (word l 9) 16 (64 * i + m)).1).isInf

/-- Whether some operand is poisoned. -/
def mxBad (l : List (List MxEl)) : Bool := l.any fun r => r.any (·.bad)

/-- The tiles that a product writes (R304, R307, R308): pairs of a name and its new tile; the last says that poisoned
data was used. `tile` reads a name; `b` and `xs` give the bits of B and of X. -/
def mxProduct (o : MxOp) (tile : Nat → Tile) (rd : ByteSrc) (b xs : Nat → Nat → Nat × Bool) : List (Nat × Tile) × Bool :=
  if o.major = mjMMD then
    let g := (List.range 64).map fun m => (List.range 64).map fun n => aElem o.a o.specs.1 64 m n
    let w := (List.range 64).map fun k => (List.range 64).map fun n => mxEl o.specs.2 (b k n)
    let xm := (List.range 64).map fun k => (List.range 64).map fun m => mxEl o.specs.2 (xs m k)
    let gT := (List.range 64).map fun n => (List.range 64).map fun m => (((g.getD m [])).getD n ⟨.zero false, none, false⟩)
    let t := lowpT o.words
    ([(o.d, mxInto true t g w (fun _ _ => none) (tile o.d)),
      (o.d + 1, mxInto true t xm gT (fun _ _ => none) (tile (o.d + 1)))], mxBad w || mxBad xm)
  else
    let p := mxOperands o rd b
    let keep := !decide (o.major = mjMMA)
    let extra (m n : Nat) : Option (XR × Bool) := if o.major = mjMMLR then lowRank o.words rd m n else none
    let t := mxInto keep (lowpT o.words) p.rows p.cols extra (tile o.d)
    let t := ((t.raise tfSCSAT p.scsat).raise tfOUTOVF p.outovf).raise tfINF (decide (o.major = mjMMLR) && lowRankInf o.words rd)
    let bad2 := decide (o.major = mjMMLR) && (List.range 64).any fun m =>
      (extra m 0).elim false (·.2) || (extra 0 m).elim false (·.2)
    ([(o.d, t)], mxBad p.rows || mxBad p.cols || bad2)

/-! ### Tile images (R309) -/

/-- The offset and size of the main element i of an image, and of its residual. -/
def imgMain (form i : Nat) : Nat × Nat := if form % 2 = 0 then (4 * i, 4) else (8 * i, 8)
def imgRes (form i : Nat) : Nat := 4096 * (if form % 2 = 0 then 4 else 8) + 4 * i

/-- The tile that an image gives; `old` keeps its Completed count and place. -/
def tileOfImage (form : Nat) (rd : ByteSrc) (old : Tile) : Tile :=
  (List.range 4096).foldl (fun t i =>
    let p := imgMain form i
    let w0 := wordAt rd p.1
    let w1 : Nat × Bool := if p.2 = 8 then wordAt rd (p.1 + 4) else (0, false)
    let v := if p.2 = 8 then rne accF (xsum false [value fp32 w0.1, value fp32 w1.1]) else value fp32 w0.1
    let r : Nat × Bool := if 2 ≤ form then wordAt rd (imgRes form i) else (0, false)
    { t with main := t.main.put 0 i (BitVec.ofNat 36 (encodeX accF v)), res := t.res.put 0 i (BitVec.ofNat 32 r.1),
             pois := if w0.2 || w1.2 || r.2 then setAdd t.pois i else t.pois })
    { old with main := [], res := [], pois := [], flags := 0 }

/-- The words of a tile's main value in an image. -/
def imgWords (form : Nat) (a : XR) : List Nat :=
  if form % 2 = 0 then [encodeX fp32 (rne fp32 a)]
  else let p := acc2x a; [encodeX fp32 p.1, encodeX fp32 p.2]

/-- The bytes of a tile's image. -/
def imageOfTile (form : Nat) (t : Tile) : List Byte :=
  ((List.range 4096).map fun i => ((imgWords form (t.elem i).a).map (leBytes 4)).flatten).flatten ++
  (if 2 ≤ form then ((List.range 4096).map fun i => leBytes 4 (t.res.get 0 i).toNat).flatten else [])

/-- Offsets and sizes, in an image, of the parts of the poisoned elements. -/
def imagePoison (form : Nat) (t : Tile) : List (Nat × Nat) :=
  t.pois.map (imgMain form) ++ (if 2 ≤ form then t.pois.map fun i => (imgRes form i, 4) else [])
/-- Whether one of some spans meets the bytes from a to b. -/
def spansMeet (l : List (Nat × Nat)) (a b : Nat) : Bool := l.any fun p => decide (p.1 < b) && decide (a < p.1 + p.2)

/-! ### The state-space scan (R315 to R317) -/

/-- The fields of a control block. -/
structure ScanBlk where
  len   : Nat
  shape : Nat
  offs  : List Nat
  rsv   : Bool
  next  : Nat
  chunks : Nat
  last  : Nat
  check : Nat
  deriving DecidableEq, Repr

def ScanBlk.ofBytes (b : List Byte) : ScanBlk :=
  let w (i : Nat) : Nat := leNat ((b.drop (4 * i)).take 4)
  ⟨w 0, w 1, (List.range 6).map fun i => w (2 + i),
    ((List.range 16).any fun i => !decide (w (8 + i) = 0)) || (List.range 4).any fun i => !decide (w (28 + i) = 0), w 24, w 25, w 26, w 27⟩

def ScanBlk.z (k : ScanBlk) : Bool := bitOf k.shape 24
def ScanBlk.lc (k : ScanBlk) : Nat := bitsOf k.shape 16 7
def ScanBlk.ss (k : ScanBlk) : Nat := bitsOf k.shape 8 7
def ScanBlk.p (k : ScanBlk) : Nat := bitsOf k.shape 0 7
def ScanBlk.off (k : ScanBlk) (i : Nat) : Nat := k.offs.getD i 0

/-- Bytes of the arrays x, α, β, γ, y, h. -/
def ScanBlk.sizes (k : ScanBlk) : List Nat :=
  [4 * k.len * k.p, 4 * k.len * k.p, 4 * k.len * k.ss, 4 * k.len * k.ss, 4 * k.len * k.p, 4 * k.p * k.ss]

/-- The check of R316: 0 valid, or the code of the first failure. -/
def ScanBlk.code (k : ScanBlk) (size : Nat) : Nat :=
  let spans := k.offs.zip k.sizes
  let done_ (i j : Nat) : Bool :=
    match spans[i]?, spans[j]? with
    | some a, some b => decide (a.1 < b.1 + b.2) && decide (b.1 < a.1 + a.2)
    | _, _ => false
  if k.rsv || decide (2 ^ 21 ≤ k.len) || decide (bitsOf k.shape 25 7 ≠ 0) || bitOf k.shape 23 || bitOf k.shape 15 || bitOf k.shape 7 then 1
  else if decide (k.len = 0) || decide (2 ^ 20 < k.len) || decide (k.p = 0) || decide (64 < k.p) || decide (k.ss = 0) ||
      decide (64 < k.ss) || decide (k.lc = 0) || decide (64 < k.lc) then 2
  else if k.offs.any fun o => !decide (o % 16 = 0) then 3
  else if spans.any fun p => decide (size < p.1 + p.2) then 4
  else if (List.range 6).any fun j => (decide (j ≠ 4) && done_ 4 j) || (decide (j ≠ 5) && done_ 5 j) then 5 else 0

def ScanBlk.nchunks (k : ScanBlk) : Nat := (k.len + k.lc - 1) / k.lc
def ScanBlk.lastLen (k : ScanBlk) : Nat := k.len - k.lc * (k.nchunks - 1)
/-- Sum of words 0 to 7. -/
def ScanBlk.sum (k : ScanBlk) : Nat := (k.len + k.shape + k.offs.sum) % 2 ^ 32

/-- Whether SCAN takes the block (R317). -/
def ScanBlk.runs (k : ScanBlk) (size : Nat) : Bool :=
  decide (k.code size = 0) && decide (k.chunks = k.nchunks ∧ k.last = k.lastLen ∧ k.check = k.sum) &&
  decide (k.next % k.lc = 0 ∧ k.next ≤ k.len)

/-- One FP32 element of an array; poisoned words are NaN's bits as they stand. -/
def fpAt (rd : ByteSrc) (base i : Nat) : XR := value fp32 (wordAt rd (base + 4 * i)).1

/-- One step of every state element. -/
def ssStep (k : ScanBlk) (rd : ByteSrc) (round : Bool) (t : Nat) (h : List XR) : List XR :=
  h.zipIdx.map fun q =>
    let p := q.2 / k.ss
    let s := q.2 % k.ss
    let v := xsum false [(fpAt rd (k.off 1) (t * k.p + p)).mul q.1,
                         (fpAt rd (k.off 2) (t * k.ss + s)).mul (fpAt rd (k.off 0) (t * k.p + p))]
    if round then rne fp32 v else v
/-- The outputs of a step. -/
def ssOut (k : ScanBlk) (rd : ByteSrc) (t : Nat) (h : List XR) : List Nat :=
  (List.range k.p).map fun p =>
    encodeX fp32 (rne fp32 (xsum false ((List.range k.ss).map fun s =>
      (fpAt rd (k.off 3) (t * k.ss + s)).mul (h.getD (p * k.ss + s) (.zero false)))))

/-- A chunk from step t0 with c steps: outputs step by step, and the handed-on state. -/
def ssChunk (k : ScanBlk) (rd : ByteSrc) (t0 c : Nat) (h0 : List XR) : List (List Nat) × List Nat :=
  let r := (List.range c).foldl (fun (acc : List (List Nat) × List XR) i =>
    let h := ssStep k rd (decide (c = 1)) (t0 + i) acc.2
    (acc.1 ++ [ssOut k rd (t0 + i) h], h)) ([], h0)
  (r.1, r.2.map fun v => encodeX fp32 (rne fp32 v))

end Sys2Proof.Machine
end

