-- ==== Sys2Proof/Machine/Matrix.lean ====
section
/-! DEFINITION. The frieze operations, their performance by the matrix engine, tile reads, and the state-space scan
(15 R293 to R318, 26 R409). -/

namespace Sys2Proof.Machine

/-! ### Frieze operations (R293, R303) -/

/-- MMA (R304). -/
def execMma (w : OwnI) (s : State) : Out := s.onX fun x => x.frieze mjMMA w
/-- MMAR (R304). -/
def execMmar (w : OwnI) (s : State) : Out := s.onX fun x => x.frieze mjMMAR w
/-- MMD (R308). -/
def execMmd (w : OwnI) (s : State) : Out := s.onX fun x => x.frieze mjMMD w
/-- MMLR (R307). -/
def execMmlr (w : OwnI) (s : State) : Out := s.onX fun x => x.frieze mjMMLR w
/-- TZERO (R309). -/
def execTzero (w : OwnI) (s : State) : Out := s.onX fun x => x.frieze mjTZERO w
/-- TLOAD (R309). -/
def execTload (w : OwnI) (s : State) : Out := s.onX fun x => x.frieze mjTLOAD w
/-- TSTORE (R309). -/
def execTstore (w : OwnI) (s : State) : Out := s.onX fun x => x.frieze mjTSTORE w
/-- TNEW (R309). -/
def execTnew (w : OwnI) (s : State) : Out := s.onX fun x => x.frieze mjTNEW w
/-- TFREE (R309). -/
def execTfree (w : OwnI) (s : State) : Out := s.onX fun x => x.frieze mjTFREE w
/-- SCAN (R317). -/
def execScan (w : OwnI) (s : State) : Out := s.onX fun x => x.frieze mjSCAN w

/-! ### Names in use, binding and displacement (R296, R310) -/

/-- Whether an operation acts on a tile name. -/
def MxOp.uses (o : MxOp) (k : Nat) : Bool :=
  !decide (o.major = mjSCAN) && (decide (o.d = k) || (decide (o.major = mjMMD) && decide (o.d + 1 = k)))
/-- Some started operation on a name of a team has not been performed. -/
def Exec.tileBusy (x : Exec) (t k : Nat) : Bool := x.mxs.any fun o => decide (o.team = t) && o.uses k

def Team.tile (m : Team) (k : Nat) : Tile := m.tiles.get {} k
def Exec.modTile (x : Exec) (t k : Nat) (f : Tile → Tile) : Exec :=
  x.modTeam t fun m => { m with tiles := m.tiles.put {} k (f (m.tile k)) }

/-- Physical tiles in use on a core: team, name, tile. -/
def Exec.physTiles (x : Exec) (core : Nat) : List (Nat × Nat × Tile) :=
  x.teams.flatMap fun p => (p.2.tiles.filter fun q => q.2.phys && decide (q.2.at_ = core)).map fun q => (p.1, q.1, q.2)

/-- A tile as its image holds it: the main values in 8 bytes each, the residuals in 4, a poison bit each (log entry 48, DESIGN
CHOICE). -/
def Tile.image (t : Tile) : List Byte :=
  ((List.range 4096).flatMap fun e => leBytes 8 (t.main.get 0 e).toNat) ++
  ((List.range 4096).flatMap fun e => leBytes 4 (t.res.get 0 e).toNat) ++
  (List.range 512).map fun i => BitVec.ofNat 8 (((List.range 8).filter fun b => t.pois.contains (8 * i + b)).map (2 ^ ·)).sum
/-- Bytes of a tile's image. -/
def tileBytes : Nat := 49664
/-- The elements of which a sector of a tile's image holds a part. -/
def tileElems (j : Nat) : List Nat :=
  if j < 1024 then (List.range 4).map (4 * j + ·)
  else if j < 1536 then (List.range 8).map (8 * (j - 1024) + ·) else (List.range 256).map (256 * (j - 1536) + ·)

/-- The sectors of the image of a name of a team. -/
def State.tileAt (s : State) (m : Team) (k : Nat) : List Loc := s.imageAt (s.gridCtx m.grid) m.img (tileOff k) tileBytes

/-- A tile leaves the physical tile that holds it: it is written to its team's context image (R296, R344). -/
def State.saveTile (s : State) (t k : Nat) : State :=
  match s.x.teams.find? t with
  | none => s
  | some m =>
    let q := m.tile k
    let b := q.image
    (s.imageWrite q.at_ (s.gridCtx m.grid) ((s.tileAt m k).zipIdx.map fun (p : Loc × Nat) => (p.1, (b.drop (32 * p.2)).take 32, false))).modX
      fun x => x.modTile t k fun q => { q with phys := false, mark := none, imaged := true }

/-- A tile is filled back from the context image: the elements of a poisoned or uncorrectable sector are poisoned (R296). -/
def State.fillTile (s : State) (t core k : Nat) : State :=
  match s.x.teams.find? t with
  | none => s
  | some m =>
    let ctx := s.gridCtx m.grid
    ((s.tileAt m k).zipIdx.foldl (fun s p =>
      let r := s.fetch core ctx 2 p.1 false false
      if r.2.2 then
        (r.1.poisoned ⟨core, ctx, 0⟩ p.1).modX fun x => x.modTile t k fun q => { q with pois := (tileElems p.2).foldl setAdd q.pois }
      else r.1) s).modX fun x => x.modTile t k fun q => { q with imaged := false }

/-- The tile that gives way: of those marked evictable the one marked first, else the least recently used of a name with no queued
operation (R296, R344, R346). -/
def Exec.tileVictim (x : Exec) (core : Nat) : Option (Nat × Nat × Tile) :=
  let l := x.physTiles core
  (leastBy (fun (q : Nat × Nat × Tile) => q.2.2.mark.getD 0)
    (l.filter fun q => q.2.2.mark.isSome && !(x.mxOn core).any fun o => decide (o.team = q.1) && o.uses q.2.1)).orElse
  fun _ => leastBy (fun (q : Nat × Nat × Tile) => q.2.2.lru) (l.filter fun q => q.2.2.mark.isNone && !x.tileBusy q.1 q.2.1)

/-- Displaces a tile (R296). -/
def State.displace (s : State) (core : Nat) : State :=
  match s.x.tileVictim core with
  | some q => s.saveTile q.1 q.2.1
  | none => s

/-- TILE_DISPLACE (R296). -/
def execTileDisplace (core : Nat) (s : State) : Out := s.onMem fun s => s.displace core

/-- Binds a physical tile of a core to a name: one that another core holds is written back there first (R345), and one that stands
in the image is filled back (R296). Where every bound name has a queued operation R296 names no tile to displace: the name then has
a physical tile beyond the 48 (log entry 79, DESIGN CHOICE). -/
def State.bindTile (s : State) (t core k : Nat) : State :=
  let tile (s : State) : Tile := ((s.x.teams.find? t).map fun m => m.tile k).getD {}
  let s :=
    if (tile s).phys && decide ((tile s).at_ = core) then s
    else
      let s := if (tile s).phys then s.saveTile t k else s
      let s := if 48 ≤ (s.x.physTiles core).length then s.displace core else s
      if (tile s).imaged then s.fillTile t core k else s
  let live := (s.x.teams.find? t).any fun m => decide (m.st = .resident)
  s.modX fun x =>
    let n := x.fresh
    ({ x with fresh := n + 1 }).modTile t k fun q =>
      { q with bound := true, phys := true, at_ := core, lru := n, mark := if live then none else some n }

/-! ### Operand addresses (R300, R309, R313) -/

/-- Sectors, as offsets from a record's base, of a square source k deep: its rows, and the bytes of an element. -/
def squareSectors (r : BufRec) (l : List Nat) (i k : Nat) (col : Bool) : List Nat :=
  let w := r.elem
  let e := 32 / w
  let wsq := word l (i + 2) % 2 ^ 16
  let rows := if col then 64 else k
  let cols := if col then k else 64
  (List.range rows).flatMap fun a => (List.range ((cols + e - 1) / e)).map fun c =>
    squareOffset w wsq (word l i + a) (word l (i + 1) + e * c)

/-- The record of a started operation's team. -/
def Exec.mxRec (x : Exec) (o : MxOp) (n : Nat) : BufRec :=
  (((x.teams.find? o.team).bind x.gridOf).map fun g => g.record n).getD (BufRec.ofNat 0)

/-- A square source: first word, depth, orientation. -/
def MxOp.squares (o : MxOp) : List (Nat × Nat × Bool) :=
  let k := rowLen o.major (specBits o.specs.1)
  if isProduct o.major then
    (if mxSq o.m then [(0, k, mxCol o.m)] else []) ++ (if o.major = mjMMD ∧ mdQx o.m = true then [(8, 64, mdOx o.m)] else [])
  else []
def MxOp.imgForm (o : MxOp) : Nat := bitsOf (word o.words 0) 5 2
def MxOp.imgGlobal (o : MxOp) : Bool := decide (o.major = mjTLOAD ∨ o.major = mjTSTORE ∨ o.major = mjTNEW) && bitOf (word o.words 0) 4
def Exec.imgVa (x : Exec) (o : MxOp) : Nat := (x.mxRec o (word o.words 0 % 16)).base + word o.words 1

/-- Global sectors an operation reads or writes, by virtual address. -/
def Exec.mxSectors (x : Exec) (o : MxOp) : List Nat :=
  (o.squares.flatMap fun q =>
    let r := x.mxRec o (bitsOf (word o.words (q.1 + 2)) 16 4)
    (squareSectors r o.words q.1 q.2.1 q.2.2).map (r.base + ·)) ++
  (if o.imgGlobal then spanSectors (x.imgVa o) (imageSize o.imgForm) else [])

/-- What translating an operation's granules gives. -/
inductive MxXl where
  | ok (locs : List (Nat × Loc))
  | fault (vas : List Nat)
  | fail (va cause : Nat)
  deriving DecidableEq, Repr

/-- Translates every sector of an operation before anything changes (R313), a granule with a poisoned probe once (R25, R51): page
faults are waited for first, then the refused granule of lowest address decides (log entry 46, DEDUCED). -/
def State.mxTranslate (s : State) (o : MxOp) (who : Who) : State × MxXl :=
  let write := decide (o.major = mjTSTORE ∨ o.major = mjTNEW)
  let r := ((s.x.mxSectors o).foldl (fun (r : (State × List (Nat × Xl)) × List Nat) va =>
    let t := r.1.1.translateIn r.2 who.core who.ctx va { write := write, host := false }
    ((t.1, r.1.2 ++ [(va, t.2.1)]), t.2.2)) ((s, []), [])).1
  let faults := r.2.filterMap fun p => if p.2 = .fault then some p.1 else none
  let traps := r.2.filterMap fun p => match p.2 with
    | .trap c => some (p.1, c)
    | _ => none
  (r.1, match faults, leastBy (fun (p : Nat × Nat) => p.1) traps with
    | [], none => .ok (r.2.filterMap fun p => match p.2 with
        | .ok l => some (p.1, l)
        | _ => none)
    | [], some p => .fail p.1 p.2
    | vas, _ => .fault vas)

/-! ### Reading and writing (R60, R72, R75, R125) -/

/-- A map from sector addresses to bytes and a mask of those that are poisoned, as a byte source. -/
def srcOf (m : List (Nat × List Byte × Nat)) : ByteSrc := fun va =>
  let p := (SMap.find? m (va / 32 * 32)).getD ([], 0)
  (p.1.getD (va % 32) 0, bitOf p.2 (va % 32))

/-- Local memory as a byte source. -/
def Exec.localSrc (x : Exec) (t : Nat) : ByteSrc := fun a =>
  match x.teams.find? t with
  | none => (0, false)
  | some m => (m.mem.get 0 a, m.lpois.contains (a / 32))

/-- Reads row sectors through the engine. -/
def State.mxRows (s : State) (who : Who) (l : List (Nat × Loc)) : State × List (Nat × List Byte × Nat) :=
  let r := s.engineReads who (l.map (·.2))
  (r.1, l.map fun p =>
    let q := (SMap.find? r.2 (p.2.pa / 32 * 32)).getD ([], false)
    (p.1, q.1, if q.2 then fullMask else 0))

/-- Reads squares along the column axis: one request for each column sector, served at the home slice (R71, R75). An
operation uses every column sector of a square it reads (R300), and a poisoned one poisons its own bytes only (R73). -/
def State.mxCols (s : State) (who : Who) (w : Nat) (l : List (Nat × Loc)) : State × List (Nat × List Byte × Nat) :=
  (dedup (l.map fun p => p.2.pa / 1024)).foldl (fun r q =>
    match l.filter fun p => decide (p.2.pa / 1024 = q) with
    | [] => r
    | p :: rest =>
      let t := (List.range 32).foldl (fun (t : State × List Nat) k =>
        let u := (t.1.modX fun x => x.countReq who p.2).columnSector who p.2 w k
        (u.1, if u.2 then t.2 ++ [k] else t.2)) (r.1, [])
      (t.1, r.2 ++ (p :: rest).map fun m =>
        (m.1, t.1.mem.sector m.2.key m.2.sec,
          (((List.range 32).filter fun j => t.2.contains (colSector w (m.2.pa % 1024 + j))).map (2 ^ ·)).sum))) (s, [])

/-- The bits of element (k, n) of B, or (m, k) of X: from local memory or from squares. -/
def mxB (l : List Nat) (i k bits : Nat) (sq col : Bool) (r : BufRec) (loc glob : ByteSrc) (a n : Nat) : Nat × Bool :=
  if sq then
    let off := squareOffset r.elem (word l (i + 2) % 2 ^ 16) (word l i + (if col then n else a)) (word l (i + 1) + (if col then a else n))
    elemAt glob (r.base + off) bits 0
  else elemAt loc (word l i) bits (if col then k * n + a else 64 * a + n)

/-- Reads every square source of an operation. -/
def State.mxSquares (s : State) (o : MxOp) (who : Who) (locs : List (Nat × Loc)) : State × List (Nat × List Byte × Nat) :=
  o.squares.foldl (fun r q =>
    let rc := r.1.x.mxRec o (bitsOf (word o.words (q.1 + 2)) 16 4)
    let vas := (squareSectors rc o.words q.1 q.2.1 q.2.2).map (rc.base + ·)
    let l := vas.filterMap fun va => (SMap.find? locs va).map fun p => (va, p)
    let t := if q.2.2 then r.1.mxCols who rc.elem l else r.1.mxRows who l
    (t.1, r.2 ++ t.2)) (s, [])

/-- Writes an image to memory: to the team's allocation, or as engine writes that are performed at `.mod` before
completion. A sector that holds a part of a poisoned element is written poisoned (R309). -/
def State.mxStore (s : State) (o : MxOp) (who : Who) (locs : List (Nat × Loc)) (img : List Byte) (bad : List (Nat × Nat)) : State :=
  if o.imgGlobal then
    let base := s.x.imgVa o
    let spans := bad.map fun p => (base + p.1, p.2)
    s.claimedWrites who (locs.map fun p =>
      let lo := max p.1 base
      let hi := min (p.1 + 32) (base + img.length)
      ({ p.2 with pa := p.2.pa + (lo - p.1) }, (img.drop (lo - base)).take (hi - lo), spansMeet spans p.1 (p.1 + 32)))
  else
    s.modX fun x =>
      (x.modTeam o.team fun m =>
        let off := word o.words 1
        let m := m.store off img
        { m with lpois := (bad.flatMap fun p => spanSectors (off + p.1) p.2).foldl (fun l a => setAdd l (a / 32)) m.lpois }).wakeTeam o.team

/-- An image as bytes from its start. Its global sectors count as sector requests of the engine (R75; log entry 78, DEDUCED). -/
def State.mxImage (s : State) (o : MxOp) (who : Who) (locs : List (Nat × Loc)) : State × ByteSrc :=
  if o.imgGlobal then
    let r := s.mxRows who locs
    let base := s.x.imgVa o
    (r.1, fun i => srcOf r.2 (base + i))
  else
    let rd := s.x.localSrc o.team
    (s, fun i => rd (word o.words 1 + i))

/-! ### Performing (R304 to R313) -/

/-- The handle's status word (R313). -/
def mxWord (code cause prog : Nat) : Word := BitVec.ofNat 32 (code * 2 ^ 28 + cause * 2 ^ 20 + prog % 2 ^ 20)

/-- Ends the holds of waves that wait for started operations, once all of those are performed (R310). -/
def Exec.wakeTile (x : Exec) : Exec :=
  x.unholdWhere fun _ w => match w.hold with
    | some (.tile l) => l.all fun k => !x.mxs.any fun o => decide (o.id = k)
    | _ => false

/-- An operation leaves the queue with a status; the starts and the waves that wait for a place, and the waves that wait for
the operation, go on. -/
def Exec.mxDone (x : Exec) (o : MxOp) (v : Word) : Exec :=
  let x : Exec := { x with mxs := x.mxs.filter fun p => !decide (p.id = o.id) }
  let x := (((x.complete o.id v []).wakeTile).mxReadyAll o.core).wakeRetry rvMatrix
  if x.teamOver o.team then (x.post 0 (.teamFree o.team)).post 0 (.gridCompletion ((x.teams.find? o.team).elim 0 Team.grid)) else x

/-- Marks an operation performed on a name. -/
def Tile.counted (t : Tile) : Tile := { t with done := (t.done + 1) % 2 ^ 16 }

/-- Performs an operation whose granules are translated: the state, and whether poisoned data was used. -/
def State.mxApply (s : State) (o : MxOp) (who : Who) (locs : List (Nat × Loc)) : State × Bool :=
  let t := o.team
  let bind (s : State) (k : Nat) : State := s.bindTile t o.core k
  let old (s : State) : Tile := ((s.x.teams.find? t).map fun m => m.tile o.d).getD {}
  if isProduct o.major then
    let r := s.mxSquares o who locs
    let s := (if o.major = mjMMD then [o.d, o.d + 1] else [o.d]).foldl bind r.1
    match s.x.teams.find? t with
    | none => (s, false)
    | some m =>
      let loc := s.x.localSrc t
      let bits := specBits o.specs.1
      let k := rowLen o.major bits
      let src (i : Nat) (sq col : Bool) : Nat → Nat → Nat × Bool :=
        mxB o.words i k bits sq col (s.x.mxRec o (bitsOf (word o.words (i + 2)) 16 4)) loc (srcOf r.2)
      let p := mxProduct o m.tile loc (src 0 (mxSq o.m) (mxCol o.m)) (src 8 (mdQx o.m) (mdOx o.m))
      (s.modX fun x => p.1.foldl (fun x q => x.modTile t q.1 fun _ => q.2.counted) x, p.2)
  else if o.major = mjTZERO then
    ((bind s o.d).modX fun x => x.modTile t o.d fun q => { q.counted with main := [], res := [], pois := [], flags := 0 }, false)
  else if o.major = mjTFREE then (s.modX fun x => x.modTile t o.d fun _ => {}, false)
  else if o.major = mjTLOAD then
    let r := s.mxImage o who locs
    let s := bind r.1 o.d
    let q := tileOfImage o.imgForm r.2 (old s)
    (s.modX fun x => x.modTile t o.d fun _ => q.counted, !q.pois.isEmpty)
  else
    let q := old s
    let s := (bind s o.d).mxStore o who locs (imageOfTile o.imgForm q) (imagePoison o.imgForm q)
    (s.modX fun x => x.modTile t o.d fun q =>
      if o.major = mjTNEW then { q.counted with main := [], res := [], pois := [], flags := 0 } else q.counted, false)

/-- The bytes of a SCAN's control block. -/
def Exec.scanBytes (x : Exec) (t off : Nat) : List Byte := ((x.teams.find? t).map fun m => m.bytes off 128).getD []
/-- The control block of a SCAN. -/
def Exec.scanBlk (x : Exec) (t off : Nat) : ScanBlk := ScanBlk.ofBytes (x.scanBytes t off)

/-- One chunk of a SCAN that has begun, by the block it read then (R317). The last says that it is done. -/
def Exec.scanChunk (x : Exec) (o : MxOp) : Exec × MxOp × Bool :=
  let at_ := word o.words 0
  let k := ScanBlk.ofBytes o.blk
  if k.len ≤ o.sc then (x, o, true)
  else
    let rd := x.localSrc o.team
    let c := min k.lc (k.len - o.sc)
    let n := k.p * k.ss
    let zero := decide (o.sc = 0) && k.z
    let h0 := (List.range n).map fun i => if zero then .zero false else fpAt rd (k.off 5) i
    let r := ssChunk k rd o.sc c h0
    let poison (base a b : Nat) : Bool := ((x.teams.find? o.team).map fun m => poisonHit m.lpois (base + 4 * a) (4 * (b - a))).getD false
    let bad := o.bad || poison (k.off 0) (o.sc * k.p) ((o.sc + c) * k.p) || poison (k.off 1) (o.sc * k.p) ((o.sc + c) * k.p) ||
      poison (k.off 2) (o.sc * k.ss) ((o.sc + c) * k.ss) || poison (k.off 3) (o.sc * k.ss) ((o.sc + c) * k.ss) ||
      (!zero && poison (k.off 5) 0 n)
    let ys := (r.1.map fun l => (l.map (leBytes 4)).flatten).flatten
    let hs := (r.2.map (leBytes 4)).flatten
    let ya := k.off 4 + 4 * o.sc * k.p
    let mark (m : Team) (a b : Nat) : Team :=
      if bad then { m with lpois := (spanSectors a b).foldl (fun l s => setAdd l (s / 32)) m.lpois } else m
    let x := (x.modTeam o.team fun m =>
      let m := mark (m.store ya ys) ya ys.length
      let m := mark (m.store (k.off 5) hs) (k.off 5) hs.length
      m.store (at_ + 96) (leBytes 4 (o.sc + c))).wakeTeam o.team
    let o' : MxOp := { o with sc := o.sc + c, bad := bad }
    ({ x with mxs := x.mxs.map fun q => if q.id = o.id then o' else q }, o', decide (k.len ≤ o.sc + c))

/-- A SCAN goes one chunk on: its first reads and checks the block, whose poison is that of all it computes (R313, R317), its last
completes it (log entry 45, DEDUCED). BADCFG reports the block's Next (R313). -/
def Exec.scanGo (x : Exec) (o : MxOp) : Exec :=
  let o : MxOp := if o.begun then o
    else { o with blk := x.scanBytes o.team (word o.words 0)
                  bad := (x.teams.find? o.team).any fun m => poisonHit m.lpois (word o.words 0) 128 }
  let k := ScanBlk.ofBytes o.blk
  if !o.begun && !k.runs (x.localSize o.team) then x.mxDone o (mxWord 4 0 k.next)
  else
    let o : MxOp := if o.begun then o else { o with begun := true, sc := k.next }
    let r := x.scanChunk o
    if r.2.2 then r.1.mxDone r.2.1 (mxWord (if r.2.1.bad then 2 else 0) 0 k.len) else r.1

/-- Whether a SCAN is still in the queue. -/
def Exec.mxHas (x : Exec) (id : Nat) : Bool := x.mxs.any fun o => decide (o.id = id)

/-- Performs one operation, if its granules translate: page faults make it wait (R313). -/
def State.mxPerform (s : State) (o : MxOp) : State :=
  let g := (s.x.teams.find? o.team).elim 0 Team.grid
  let who : Who := ⟨o.core, s.gridCtx g, g⟩
  let r := s.mxTranslate o who
  let hold (s : State) (id : Nat) : State :=
    s.modX fun x => { x with mxs := x.mxs.map fun q => if q.id = o.id then { q with held := q.held ++ [id] } else q }
  match r.2 with
  | .fault vas =>
    vas.foldl (fun s va =>
      let q := s.fault who.ctx o.core (s.x.slotNo o.wave) va 5 (decide (o.major = mjTSTORE ∨ o.major = mjTNEW))
      hold q.1 q.2) r.1
  | .fail _ c => r.1.modX fun x => x.mxDone o (if c = cXLATE then mxWord 1 0 0 else mxWord 5 c 0)
  | .ok locs =>
    let q := r.1.mxApply o who locs
    q.1.modX fun x => x.mxDone o (mxWord (if q.2 then 2 else 0) 0 0)

/-- The head of a core's queue: an operation that has begun, else the first started operation of a team that is there (R312,
R314, log entry 62, DEDUCED). -/
def Exec.mxHead (x : Exec) (core : Nat) : Option MxOp := ((x.mxOn core).find? MxOp.begun).orElse fun _ => (x.mxOn core).head?

/-- What runs on a core's engine when a team stops there: its MMA, MMAR, MMD, MMLR, TZERO or TFREE at the head, unless the engine
still waits to start, has begun and completes (R314). -/
def Exec.mxRuns (x : Exec) (core t : Nat) : Exec :=
  match x.mxHead core with
  | none => x
  | some o =>
    if o.team = t ∧ (isProduct o.major = true ∨ o.major = mjTZERO ∨ o.major = mjTFREE) ∧ o.held = [] ∧ (x.cores.get {} core).waitS = none then
      { x with mxs := x.mxs.map fun q => if q.id = o.id then { q with begun := true } else q }
    else x

/-- The places of a core's queue have changed: the starts and the waves that wait for one go on, and the next operation is
performed (R312). -/
def Exec.mxMoved (x : Exec) (core : Nat) : Exec := ((x.mxReadyAll core).wakeRetry rvMatrix).post 1 (.matrixOpPerform core)

/-! ### Cores (R328, R403, R407) -/

/-- The physical core that carries a logical number of a die: the manifest's, or what a spare has put in its place. -/
def State.physCore (s : State) (die k : Nat) : Option Nat :=
  match s.trust.coreMap.find? (160 * die + k) with
  | some p => some p
  | none =>
    let m := (s.trust.manifest.cores.getD die 0).toNat
    (((List.range 168).filter (bitOf m))[k]?).map fun j => 168 * die + j

/-- The logical number of a physical core in its die (R328, R407). -/
def State.logCore (s : State) (core : Nat) : Nat :=
  match List.find? (fun (p : Nat × Nat) => decide (p.2 = core)) s.trust.coreMap with
  | some p => p.1 % 160
  | none => (findIdx (fun j => decide (168 * dieOf core + j = core))
      ((List.range 168).filter (bitOf (s.trust.manifest.cores.getD (dieOf core) 0).toNat)) 0).getD 160

/-! ### Leaving idle (R409) -/

/-- 2.5 µs, the spacing of start stages, in cycles of 1.4 GHz, which the model's clock counts (R3, log entry 2, DESIGN CHOICE). -/
def stageGap : Nat := 3500

/-- An engine that leaves idle joins the open stage of its die, opens the first, or waits for a later one. -/
def Exec.leaveIdle (x : Exec) (core : Nat) : Exec × Bool :=
  let die := dieOf core
  match x.stages.find? die with
  | none => ((({ x with stages := x.stages.insert die 1 }).modCore core fun c => { c with idle := false, waitS := none }).post
      stageGap (.engineStartStage die), true)
  | some n =>
    if n < 20 then (({ x with stages := x.stages.insert die (n + 1) }).modCore core fun c => { c with idle := false, waitS := none }, true)
    else (x.modCore core fun c => { c with waitS := some (c.waitS.getD x.tick) }, false)

/-- The engines of a die that wait for a start stage, in the order in which they left idle, those of one cycle by their logical
core numbers (R409). -/
def State.starters (s : State) (die : Nat) : List Nat :=
  (sortBy (fun (a b : Nat × Nat) => decide (a.1 < b.1))
    ((s.x.cores.filter fun p => decide (dieOf p.1 = die)).filterMap fun p => p.2.waitS.map fun t => (256 * t + s.logCore p.1, p.1))).map (·.2)

/-- ENGINE_START_STAGE: the next stage admits waiting engines in their order, or none is left and the stage closes (R409). -/
def execEngineStartStage (die : Nat) (s : State) : Out := s.onX fun x =>
  let wait := s.starters die
  if wait.isEmpty then { x with stages := x.stages.erase die }
  else
    let now := wait.take 20
    let x := now.foldl (fun x c => (x.modCore c fun k => { k with idle := false, waitS := none }).post 0 (.matrixOpPerform c)) x
    ({ x with stages := x.stages.insert die now.length }).post stageGap (.engineStartStage die)

/-- ENGINE_IDLE: an engine that has performed nothing for 4,096 cycles is idle (R409). -/
def execEngineIdle (core : Nat) (s : State) : Out := s.onX fun x =>
  if (x.mxHead core).isSome then x else x.modCore core fun c => { c with idle := true }

/-- What follows one performance: the next operation, or the idle clock. -/
def Exec.mxNext (x : Exec) (core : Nat) : Exec :=
  match x.mxHead core with
  | some o => if !o.held.isEmpty then x else x.post 1 (if o.major = mjSCAN then .scanChunk core else .matrixOpPerform core)
  | none =>
    let x : Exec := { x with agenda := x.agenda.filter fun p => !decide (p.2 = .engineIdle core) }
    x.post 4096 (.engineIdle core)

/-- Whether another engine of the die leaves idle in the same cycle and joins a stage first, by its logical core number (R409). -/
def State.startsAfter (s : State) (core : Nat) : Bool :=
  s.x.agenda.any fun p => decide (p.1 ≤ s.x.tick) && match p.2 with
    | .matrixOpPerform c => decide (dieOf c = dieOf core) && (s.x.cores.get {} c).idle && (s.x.mxHead c).isSome &&
        decide (s.logCore c < s.logCore core)
    | _ => false

/-- MATRIX_OP_PERFORM: the head of the engine's queue (R312, R313). -/
def State.mxStep (s : State) (core : Nat) : State :=
  match s.x.mxHead core with
  | none => s
  | some o =>
    let idle := (s.x.cores.get {} core).idle
    if idle && s.startsAfter core then s.modX fun x => x.post 0 (.matrixOpPerform core)
    else
    let r := if idle then s.x.leaveIdle core else (s.x, true)
    let s := s.modX fun _ => r.1
    if !r.2 || !o.held.isEmpty then s
    else if o.major = mjSCAN then s.modX fun x => x.post 0 (.scanChunk core)
    else (s.mxPerform o).modX fun x => x.mxNext core

/-- MATRIX_OP_PERFORM (R312). -/
def execMatrixOpPerform (core : Nat) (s : State) : Out := s.onMem fun s => s.mxStep core

/-- SCAN_CHUNK (R317). -/
def execScanChunk (core : Nat) (s : State) : Out := s.onX fun x =>
  match x.mxHead core with
  | none => x
  | some o => if o.major = mjSCAN then (x.scanGo o).mxNext core else x

/-- HCANCEL of a queued matrix operation that has not begun, one that waits on a page fault having begun (R314): where it was the
head, the next goes on. A SCAN reports its block's Next (R313). -/
def Exec.mxCancel (x : Exec) (id : Nat) : Exec :=
  match x.mxs.find? fun o => decide (o.id = id) with
  | none => x
  | some o =>
    if o.begun || !o.held.isEmpty then x
    else
      let prog := if o.major = mjSCAN then (x.scanBlk o.team (word o.words 0)).next else 0
      let head := decide (x.mxHead o.core = some o)
      let ws := x.waves.map fun (p : Nat × Wave) =>
        (p.1, { p.2 with staged := p.2.staged.filter fun e => !(decide (e.kind = skMatrix) && e.args.contains id) })
      let x := ({ x with waves := ws }).mxDone o (mxWord 3 0 prog)
      if head then x.mxNext o.core else x

/-! ### TREAD, TSTAT, SSCFG (R310, R311, R316) -/

/-- Whether an instruction on a tile name must wait, when it first issues, for operations that have started (R310). -/
def Exec.tileWaits (x : Exec) (i : Iss) (h : Hd) (k : Nat) : Bool :=
  !(i.served h).isEmpty && x.tileBusy i.w.team k && !i.w.resumed
/-- Waits for the operations that have started on a name (R310); in deterministic mode the wait closes the
quantum (R349). -/
def Exec.tileWait (x : Exec) (i : Iss) (k : Nat) : Exec :=
  (x.hold i (.tile ((x.mxs.filter fun o => decide (o.team = i.w.team) && o.uses k).map MxOp.id))).closeQuantum i.u

/-- TREAD (R310). -/
def execTread (w : OwnI) (s : State) : Out := s.onX fun x =>
  match x.issue? with
  | none => x
  | some i =>
    let k := w.s1.toNat
    let form := bitsOf w.m.toNat 4 2
    let j := w.m.toNat % 8
    let d := w.d.toNat
    if x.tileWaits i w.h k then x.tileWait i k
    else
      let t := ((x.teamOf i.w).map fun m => m.tile k).getD {}
      x.perFibre 8 w.h (regsFrom d (if form = 1 then 8 else 4)) fun _ f =>
        let es := (List.range 4).map fun c => 64 * (8 * j + f / 16) + 4 * (f % 16) + c
        let ws := es.flatMap fun e =>
          if t.pois.contains e then (if form = 1 then [0, 0] else [0])
          else if form = 0 then [encodeX fp32 (rne fp32 (t.elem e).a)]
          else if form = 1 then let p := acc2x (t.elem e).a; [encodeX fp32 p.1, encodeX fp32 p.2]
          else [(t.res.get 0 e).toNat]
        { v := ws.zipIdx.map fun p => (d + p.2, BitVec.ofNat 32 p.1),
          trap := if es.any t.pois.contains then some cPOISON else none }

/-- TSTAT (R311). -/
def execTstat (w : OwnI) (s : State) : Out := s.onX fun x =>
  match x.issue? with
  | none => x
  | some i =>
    let k := w.s1.toNat
    if x.tileWaits i w.h k then x.tileWait i k
    else
      x.uniform 8 w.h fun i _ x =>
        let t := ((x.teamOf i.w).map fun m => m.tile k).getD {}
        let x := x.writeW i.u w.d.toNat (BitVec.ofNat 32 t.word)
        if bitOf w.m.toNat 0 && !i.inHandler then x.modTile i.w.team k fun t => { t with flags := 0 } else x

/-- SSCFG (R316). -/
def execSscfg (w : OwnI) (s : State) : Out := s.onX fun x =>
  x.uniform 8 w.h fun i f x =>
    let off := (x.readW i.u w.s1.toNat).toNat
    let size := x.localSize i.w.team
    match localOffset size off 128 with
    | .oob => (x.setStatus i.w.team stOOB).trapAll i [f] cOOB 8
    | .refuse c => x.trapAll i [f] c 8
    | .ok o =>
      if ((x.teamOf i.w).map fun m => poisonHit m.lpois o 128).getD false then x.trapAll i [f] cPOISON 8
      else
        let k := x.scanBlk i.w.team o
        let c := k.code size
        let x := x.writeW i.u w.d.toNat (BitVec.ofNat 32 c)
        if c ≠ 0 then x
        else (x.modTeam i.w.team fun m =>
          m.store (o + 96) (leBytes 4 0 ++ leBytes 4 k.nchunks ++ leBytes 4 k.lastLen ++ leBytes 4 k.sum ++ List.replicate 16 0)).wakeTeam i.w.team

/-! ### HCANCEL (R226) -/

/-- HCANCEL: asks for the cancellation of the operation the handle is bound to: a near-memory command, a matrix
operation or a collective that has not begun (R138, R314, log entry 19, DESIGN CHOICE). -/
def execHcancel (w : OwnI) (s : State) : Out := s.onX fun x =>
  x.uniform 8 w.h fun i _ x =>
    let h := i.w.handle w.s1.toNat
    if h.ready then x else ((x.nmCancel h.op).mxCancel h.op).collCancel h.op

end Sys2Proof.Machine
end

