-- ==== Sys2Proof/Machine/Errors.lean ====
section
/-! DEFINITION. Error rings and the module error log, and the context-page registers that act on translation tables,
fault queues and error rings (02 R29, R36, R41, 26 R396, R406). -/

namespace Sys2Proof.Machine

/-! ### Fields of byte records -/

/-- A field of n bytes at an offset of a record (R4). -/
def fieldAt (b : List Byte) (i n : Nat) : Nat := leNat ((b.drop i).take n)
/-- Whether a number is a power of two between two bounds. -/
def powerIn (lo hi n : Nat) : Bool := decide (lo ≤ n ∧ n ≤ hi ∧ 2 ^ ilog2 n = n)

/-! ### Error entries (R406) -/

/-- The 64 bytes of an entry with its sequence number. -/
def ErrEnt.bytes (e : ErrEnt) (seq : Nat) : List Byte :=
  leBytes 1 e.type ++ leBytes 1 e.die ++ leBytes 2 e.unit ++ leBytes 2 e.ctx ++ leBytes 2 0 ++ leBytes 8 e.pa ++
  leBytes 16 e.detail ++ leBytes 4 e.count ++ leBytes 4 seq ++ List.replicate 24 0

/-- The status word of a context's error ring. -/
def Ctx.errWord (k : Ctx) : Nat := k.errIdx + 2 ^ 32 * k.errLost

/-- An entry goes to its context's ring, or is lost there when the ring is full; the status word follows. -/
def State.ringErr (s : State) (e : ErrEnt) : State :=
  match s.x.ctxs.find? e.ctx with
  | none => s
  | some k =>
    let full := decide ((k.errIdx + 2 ^ 32 - k.errCons) % 2 ^ 32 = k.errSize)
    let k' : Ctx := if full then { k with errLost := (k.errLost + 1) % 2 ^ 32 } else { k with errIdx := (k.errIdx + 1) % 2 ^ 32 }
    let s := if full then s else s.modM fun m => m.writePhys (k.errBase + 64 * (k.errIdx % k.errSize)) (e.bytes k.errIdx)
    (s.modX fun x => { x with ctxs := x.ctxs.insert e.ctx k' }).modM fun m => m.writePhys k.errStat (leBytes 8 k'.errWord)

/-- Every entry goes to the module error log, or is counted as lost (R398, R406). -/
def State.logErr (s : State) (e : ErrEnt) : State :=
  let t := s.trust
  if t.logSize = 0 ∨ (t.logIdx + 2 ^ 32 - t.logCons) % 2 ^ 32 = t.logSize then
    { s with trust := { t with logLost := (t.logLost + 1) % 2 ^ 32 } }
  else
    { s.modM (fun m => m.writePhys (t.logBase.toNat + 64 * (t.logIdx % t.logSize)) (e.bytes t.logIdx)) with
      trust := { t with logIdx := (t.logIdx + 1) % 2 ^ 32 } }

/-- Writes the entries that wait to be written (R405, R406). -/
def State.flushErrs (s : State) : State :=
  s.x.errq.foldl (fun s e => (s.ringErr e).logErr e) (s.modX fun x => { x with errq := [] })

/-- An access to a context page or a module register is dropped and counted: an entry of type 9 that names the offset
(R396, R398, log entry 20, DESIGN CHOICE). -/
def Exec.dropAccess (x : Exec) (ctx offset : Nat) : Exec :=
  x.err { type := 9, ctx := if (x.ctxs.find? ctx).isSome then ctx else 0, detail := offset }

/-! ### Consumer registers (R41, R396, R398) -/

/-- A context-page write whose upper half must be zero: `f` acts on the lower half. After it the device reads event words again
(R321). -/
def State.pageWrite (s : State) (ctx offset : Nat) (v : BitVec 64) (f : Ctx → Nat → State) : State :=
  match s.x.ctxs.find? ctx with
  | none => s.modX fun x => x.dropAccess ctx offset
  | some k => if v.toNat / 2 ^ 32 ≠ 0 then s.modX fun x => x.dropAccess ctx offset
    else (f k v.toNat).modX fun x => x.post 1 .launchDispatch

/-- ERROR_RING_CONSUMER (R396, R406). -/
def execErrorRingConsumer (ctx : Nat) (v : BitVec 64) (s : State) : Out := s.onMem fun s =>
  s.pageWrite ctx 0xa0 v fun _ n => s.modX fun x => x.modCtx ctx fun k => { k with errCons := n }

/-- FAULT_QUEUE_CONSUMER: a value that passes the producer index or moves backwards is ignored and recorded; the space
goes to held-back records (R41, R42, R396). -/
def execFaultQueueConsumer (ctx : Nat) (v : BitVec 64) (s : State) : Out := s.onMem fun s =>
  s.pageWrite ctx 0xa8 v fun k n =>
    if (k.fqSeq + 2 ^ 32 - k.fqCons) % 2 ^ 32 < (n + 2 ^ 32 - k.fqCons) % 2 ^ 32 then s.modX fun x => x.dropAccess ctx 0xa8
    else (s.modX fun x => x.modCtx ctx fun k => { k with fqCons := n }).postFaults ctx

/-- MIGRATION_DOORBELL: MigPtr alone changes, and only forwards within the table (R36). -/
def execMigrationDoorbell (ctx z : Nat) (v : BitVec 64) (s : State) : Out := s.onMem fun s =>
  s.pageWrite ctx (0x88 + 8 * z) v fun k n =>
    match k.tables.find? z with
    | none => s.modX fun x => x.dropAccess ctx (0x88 + 8 * z)
    | some d =>
      if !dResizing d || decide (n ≤ dMig d) || decide (2 ^ dLog d < n) then s.modX fun x => x.dropAccess ctx (0x88 + 8 * z)
      else s.modX fun x => x.modCtx ctx fun k => { k with tables := k.tables.insert z (d - dMig d * 2 ^ 128 + n * 2 ^ 128) }

end Sys2Proof.Machine
end

