-- ==== Sys2Proof/Machine/Launch.lean ====
section
/-! DEFINITION. Submission queues and their commands, launch records, dispatch and completion (06 R129, 16 R319 to
R326, 19 R367). -/

namespace Sys2Proof.Machine

/-! ### Submission queues (R319 to R321) -/

def Exec.queue? (x : Exec) (c q : Nat) : Option Queue := (x.ctxs.find? c).bind fun k => k.queues.find? q
def Exec.modQueue (x : Exec) (c q : Nat) (f : Queue → Queue) : Exec :=
  x.modCtx c fun k => { k with queues := k.queues.modify q f }

def opLAUNCH := 1
def opSETXT := 2
def opXINV := 3
def opPREEMPT := 4

/-- The O flag of an entry. -/
def cmdO (b : List Byte) : Bool := bitOf (fieldAt b 1 1) 0
/-- The sequence of an entry. -/
def cmdSeq (b : List Byte) : Nat := fieldAt b 4 4

/-- Whether an entry is performed: a listed opcode, zero reserved bytes, operands in range (R319, R320). -/
def cmdOk (b : List Byte) : Bool :=
  let op := fieldAt b 0 1
  decide (fieldAt b 1 1 < 2 ∧ fieldAt b 2 2 = 0) &&
  (if op = opLAUNCH then decide (fieldAt b 8 8 % 64 = 0 ∧ fieldAt b 8 8 < 2 ^ 48 ∧ fieldAt b 16 48 = 0)
   else if op = opSETXT then
     decide (fieldAt b 8 1 ≤ 3 ∧ fieldAt b 9 23 = 0) &&
     (!decide (fieldAt b 8 1 = 3) ||
       decide (fieldAt b 32 8 % 64 = 0 ∧ fieldAt b 44 4 = 0 ∧ fieldAt b 48 8 % 8 = 0 ∧ fieldAt b 56 8 = 0) &&
       powerIn 16 65536 (fieldAt b 40 4))
   else if op = opXINV then
     decide (fieldAt b 8 8 = 0 ∧ fieldAt b 16 8 % 65536 = 0 ∧ fieldAt b 24 8 ≠ 0 ∧ fieldAt b 24 8 % 65536 = 0 ∧
       fieldAt b 16 8 + fieldAt b 24 8 ≤ 2 ^ 48 ∧ fieldAt b 32 32 = 0)
   else decide (op = opPREEMPT ∧ fieldAt b 12 52 = 0))

/-- The step that takes an entry. -/
def cmdEv (c q : Nat) (b : List Byte) : Ev :=
  let op := fieldAt b 0 1
  if op = opLAUNCH then .launch c q
  else if op = opSETXT then (if fieldAt b 8 1 = 3 then .setxtFaultQueue c q else .setxtTable c q)
  else if op = opXINV then .xinv c q else .preempt c q

/-- The ring entry at an index (R319). -/
def State.entryAt (s : State) (k : Queue) (j : Nat) : List Byte := s.mem.readPhys (k.base + 64 * (j % k.size)) 64

/-- An entry has been read: the head word tells (R319). -/
def State.qTake (s : State) (c q : Nat) : State :=
  match s.x.queue? c q with
  | none => s
  | some k =>
    let h := k.hidx + 1
    (s.modX fun x => x.modQueue c q fun k => { k with hidx := h, bells := k.bells.filter fun b => decide (h < b.1) }).modM
      fun m => m.writePhys k.head (leBytes 8 (h % 2 ^ 32))

/-- The device goes on to the next entry of a queue: it passes over entries that are not performed, each with an error
record that names its sequence (R320, log entry 20, DESIGN CHOICE), and the next command's step is due. -/
def State.qKick : Nat → State → Nat → Nat → State
  | 0, s, _, _ => s
  | n + 1, s, c, q =>
    match s.x.queue? c q with
    | none => s
    | some k =>
      if k.tail ≤ k.hidx then s
      else
        let b := s.entryAt k k.hidx
        if cmdOk b then s.modX fun x => x.post 1 (cmdEv c q b)
        else State.qKick n ((s.modX fun x => x.err { type := 9, ctx := c, detail := cmdSeq b + 2 ^ 32 * q }).qTake c q) c q
def State.qNext (s : State) (c q : Nat) : State :=
  State.qKick ((s.x.queue? c q).elim 0 fun k => k.tail - k.hidx) s c q

/-- Whether every LAUNCH of a queue before an index has completed (R319, O). A grid of a deleted queue of the same number is
no LAUNCH of this one. -/
def Exec.earlierDone (x : Exec) (c q j : Nat) : Bool :=
  match x.queue? c q with
  | none => true
  | some k =>
    !(k.wait.any fun w => decide (w.op = opLAUNCH ∧ w.index < j)) &&
    !(x.grids.any fun g => decide (g.2.ctx = c ∧ g.2.queue = q ∧ g.2.qgen = k.gen ∧ g.2.index < j ∧ g.2.st ≠ .done))
/-- Whether a command waits for nothing of its queue: it has no O, or its condition is met (R319, R321). -/
def Exec.cmdFree (x : Exec) (c q : Nat) (w : Cmd) : Bool := !w.flagO || x.earlierDone c q w.index

/-- The next entry of a queue as a command, with the doorbell that covered it first. -/
def State.cmdAt (s : State) (k : Queue) : Cmd :=
  let b := s.entryAt k k.hidx
  { op := fieldAt b 0 1, bytes := b, index := k.hidx, order := (k.bells.head?).elim 0 (·.2), flagO := cmdO b }

/-- QUEUE_TAIL_DOORBELL (R319): a value that would pass a full ring or that moves backwards is ignored and recorded (log entry 59,
DEDUCED). -/
def execQueueTailDoorbell (ctx q : Nat) (v : BitVec 64) (s : State) : Out := s.onMem fun s =>
  s.pageWrite ctx (8 * q) v fun c n =>
    match c.queues.find? q with
    | none => s.modX fun x => x.dropAccess ctx (8 * q)
    | some k =>
      let d := (n + 2 ^ 32 - k.tail % 2 ^ 32) % 2 ^ 32
      if k.size < k.tail - k.hidx + d then s.modX fun x => x.dropAccess ctx (8 * q)
      else
        let t := s.x.take
        let busy := decide (k.hidx < k.tail)
        let s : State := { s with x := (t.2.modQueue ctx q fun k =>
          { k with tail := k.tail + d, bells := if d = 0 then k.bells else k.bells ++ [(k.tail + d, t.1)] }) }
        if busy then s else s.qNext ctx q

/-- Performs a waiting command that may be performed now; one that `ok` keeps back is tried again (R320, R321). -/
def State.performCmd (s : State) (c q : Nat) (f : List Byte → State → State) (ok : List Byte → State → Bool) (w : Cmd) : State :=
  if !s.x.cmdFree c q w then s
  else if ok w.bytes s then
    f w.bytes (s.modX fun x => x.modQueue c q fun k => { k with wait := k.wait.filter fun v => !decide (v.index = w.index) })
  else s.modX fun x => x.post 1 (cmdEv c q w.bytes)

/-- Takes the commands of a kind that is not LAUNCH: each waiting one whose wait is over, and the next entry of the ring,
which waits apart when it cannot be performed yet (R320, R321). -/
def State.command (s : State) (c q : Nat) (p : List Byte → Bool) (f : List Byte → State → State)
    (ok : List Byte → State → Bool := fun _ _ => true) : State :=
  match s.x.queue? c q with
  | none => s
  | some k =>
    let s := (k.wait.filter fun w => !decide (w.op = opLAUNCH) && p w.bytes).foldl (State.performCmd · c q f ok ·) s
    if k.tail ≤ k.hidx then s
    else
      let w := s.cmdAt k
      if !cmdOk w.bytes || !p w.bytes then s
      else
        let s := s.qTake c q
        let s := if s.x.cmdFree c q w && ok w.bytes s then f w.bytes s
          else (s.modX fun x => x.modQueue c q fun k => { k with wait := k.wait ++ [w] }).modX fun x =>
            if x.cmdFree c q w then x.post 1 (cmdEv c q w.bytes) else x
        s.qNext c q

/-- SETXT of a table: a refused descriptor leaves the previous one in force (R29, R36). -/
def execSetxtTable (ctx q : Nat) (s : State) : Out := s.onMem fun s =>
  s.command ctx q (fun b => decide (fieldAt b 0 1 = opSETXT ∧ fieldAt b 8 1 < 3)) fun b s =>
    let d := fieldAt b 32 32
    s.modX fun x =>
      if descriptorOk d then x.modCtx ctx fun k => { k with tables := k.tables.insert (fieldAt b 8 1) d }
      else x.err { type := 9, ctx := ctx, detail := cmdSeq b + 2 ^ 32 * q }

/-- SETXT of the fault queue (R41). -/
def execSetxtFaultQueue (ctx q : Nat) (s : State) : Out := s.onMem fun s =>
  s.command ctx q (fun b => decide (fieldAt b 0 1 = opSETXT ∧ fieldAt b 8 1 = 3)) fun b s =>
    let s := s.modX fun x => x.modCtx ctx fun k =>
      { k with fqBase := some (fieldAt b 32 8), fqSize := fieldAt b 40 4, fqStat := fieldAt b 48 8, fqSeq := 0, fqCons := 0,
               fqOver := false }
    (s.faultStatus ctx).postFaults ctx

/-- Whether a cached translation covers a byte of a range of a context. -/
def Tlb.meets (t : Tlb) (c va len : Nat) : Bool := decide (t.ctx = c ∧ t.vpn * pageBytes t.z < va + len ∧ va < (t.vpn + 1) * pageBytes t.z)

/-- XINV: translations of the context and range leave every translation cache, and their lines every instruction cache
and Pyratha translation (R39, R363). -/
def MemSys.xinv (m : MemSys) (c va len : Nat) : MemSys :=
  { m with
    tlbs := m.tlbs.filter fun t => !t.meets c va len
    icache := m.icache.filter fun l => !decide (l.ctx = c ∧ l.line * lineBytes < va + len ∧ va < (l.line + 1) * lineBytes)
    ptrans := m.ptrans.filter fun t => !t.meets c va len }

/-- Every queued write of a context is performed, with the acknowledgements (R39, R129). -/
def State.drainCtx (s : State) (ctx : Nat) : State :=
  ((dedup ((s.mem.reqs.filter fun r => decide (r.ctx = ctx)).map Req.sq)).foldl State.drainSq s).drainInvals fun _ => true

/-- Whether an access that has used a translation of a context's range has still to perform (R39): a host read on its way or
staged, or a near-memory command past its checks. -/
def State.xinvWaits (s : State) (c va len : Nat) : Bool :=
  let meets (a n : Nat) : Bool := decide (a < va + len ∧ va < a + n)
  (s.x.waves.any fun p => decide (s.x.ctxOf p.2 = c) &&
    ((p.2.pend ++ p.2.staged.flatMap Staged.accs).any fun a => a.host.isSome && meets a.va a.size)) ||
  s.x.nms.any fun p => decide (((s.x.teams.find? p.2.team).bind s.x.gridOf).elim 0 Grid.ctx = c) && p.2.held.isNone &&
    (p.2.vas.zip [nmWidth (nmPf p.2.words), nmWidth (nmPf p.2.words), nmWidth (nmGf p.2.words)]).any fun q =>
      meets q.1.1 (q.2 * nmN p.2.words)

/-- XINV (R39): it is complete once the context's writes on their way and every access that has used an old translation are
performed; migrated squares of the range, and of the pages that the translations it drops name, have then returned (R87). -/
def execXinv (ctx q : Nat) (s : State) : Out := s.onMem fun s =>
  s.command ctx q (fun b => decide (fieldAt b 0 1 = opXINV)) (ok := fun b s => !s.xinvWaits ctx (fieldAt b 16 8) (fieldAt b 24 8))
    fun b s =>
    let va := fieldAt b 16 8
    let len := fieldAt b 24 8
    let s := s.drainCtx ctx
    let pages := s.mem.tlbs.filter fun t => t.meets ctx va len
    let out := s.mem.sqs.filter fun p => decide (p.2.holder ≠ sliceOf p.1) &&
      (decide (p.2.ctx = ctx ∧ va ≤ p.2.va ∧ p.2.va < va + len) ||
       pages.any fun t => decide (ePa t.entry ≤ p.2.pa ∧ p.2.pa < ePa t.entry + pageBytes t.z))
    (out.foldl (fun s p => s.tidalHome p.1) s).modM fun m => m.xinv ctx va len

/-- LAUNCH: the device reads an entry that names a launch record; it then waits for the dispatcher (R321, R322). -/
def execLaunch (ctx q : Nat) (s : State) : Out := s.onMem fun s =>
  match s.x.queue? ctx q with
  | none => s
  | some k =>
    if k.tail ≤ k.hidx then s
    else
      let w := s.cmdAt k
      if !cmdOk w.bytes || !decide (w.op = opLAUNCH) then s
      else
        let s := s.qTake ctx q
        (s.modX fun x => (x.modQueue ctx q fun k => { k with wait := k.wait ++ [w] }).post 1 .launchDispatch).qNext ctx q

/-- A LAUNCH of a queue has completed or was refused: commands whose wait of O is over are due, and event words are
read again (R321). -/
def Exec.queueMoved (x : Exec) (c q : Nat) : Exec :=
  let l := ((x.queue? c q).elim [] Queue.wait).filter fun w => !decide (w.op = opLAUNCH) && x.cmdFree c q w
  (l.foldl (fun x w => x.post 1 (cmdEv c q w.bytes)) x).post 1 .launchDispatch

/-! ### Accesses of the dispatcher (R321, R322, R326)

Its translations go through the caches of physical core 0 of die 0 (log entry 21, DESIGN CHOICE). -/

/-- Reads n bytes at a virtual address of a context; nothing when the span leaves the address space, or a sector does not
translate, meets a check or is poisoned. These reads are no sector requests (R75). -/
def State.devRead (s : State) (c va n : Nat) : State × Option (List Byte) :=
  if 2 ^ 48 < va + n then (s, none)
  else
  let r := (spanSectors va n).foldl (fun (r : State × Option (List Byte)) sec =>
    match r.2 with
    | none => r
    | some l =>
      let t := r.1.translate 0 c sec { wait := false }
      match t.2 with
      | .ok p =>
        if p.host then (t.1, some (l ++ t.1.mem.hostBytes p.pa 32))
        else
          let q := (t.1.writeBackIf 0 fun d => decide (d.sec = p.sec)).fetch 0 c 0 p false
          (q.1, if q.2.2 then none else some (l ++ q.2.1))
      | _ => (t.1, none)) (s, some [])
  (r.1, r.2.map fun l => (l.drop (va % 32)).take n)

/-- Writes up to 32 bytes within one sector at a virtual address of a context; false when the write is skipped. It is no sector
request (R75). -/
def State.devWrite (s : State) (c va : Nat) (b : List Byte) : State × Bool :=
  if 2 ^ 48 ≤ va ∨ 32 < va % 32 + b.length then (s, false)
  else
    let t := s.translate 0 c va { write := true, wait := false }
    match t.2 with
    | .ok p =>
      if p.host then (t.1.modM fun m => m.putHost p.pa b, true)
      else if t.1.mem.unc.contains p.sec then (t.1.detect p.sec p.pa c, false)
      else
        let base : Loc := { p with pa := p.pa / 32 * 32 }
        ((t.1.engineWrite ⟨0, c, 0⟩ base (maskAt (p.pa % 32) b.length) (placeAt (p.pa % 32) b) false .back).drainSq (p.sec / 32), true)
    | _ => (t.1, false)

/-! ### The launch record (R322) -/

abbrev LRec := List Byte

def LRec.teams (l : LRec) : Nat := fieldAt l 16 4 * fieldAt l 20 4 * fieldAt l 24 4
def LRec.waves (l : LRec) : Nat := fieldAt l 28 1
def LRec.tags (l : LRec) : Nat := fieldAt l 34 1
/-- Bytes of the local share (R52, R322). -/
def LRec.share (l : LRec) : Nat := (128 + 32 * fieldAt l 35 1) * 1024
/-- Bytes of local memory a team takes: its allocation in whole KiB (R54). -/
def LRec.space (l : LRec) : Nat := (fieldAt l 36 4 + 1023) / 1024 * 1024
def LRec.prio (l : LRec) : Nat := fieldAt l 44 1
def LRec.cohort (l : LRec) : Bool := bitOf (fieldAt l 45 1) 0
def LRec.gang (l : LRec) : Bool := bitOf (fieldAt l 45 1) 2
def LRec.dies (l : LRec) : List Nat := (List.range 4).filter fun d => bitOf (fieldAt l 46 1) d
def LRec.stitch (l : LRec) : Nat × Nat := (fieldAt l 56 1, fieldAt l 57 1)
def LRec.frieze (l : LRec) (k : Nat) : Nat := fieldAt l (64 + 2 * k) 2
/-- Dependence n: address and target. -/
def LRec.dep (l : LRec) (n : Nat) : Nat × Nat := (fieldAt l (128 + 16 * n) 8, fieldAt l (136 + 16 * n) 8)

/-- Addresses of the record. -/
def LRec.addresses (l : LRec) : List Nat :=
  [fieldAt l 0 8, fieldAt l 80 8, fieldAt l 88 8, fieldAt l 104 8, fieldAt l 112 8, (l.dep 0).1, (l.dep 1).1, (l.dep 2).1,
   (l.dep 3).1, fieldAt l 192 8, fieldAt l 208 8]

/-- Reason 1: a reserved field is not zero, or a value is out of range (R322, R325). -/
def LRec.badValue (l : LRec) : Bool :=
  let budget (n : Nat) : Bool := decide (8 ≤ n ∧ n ≤ 128 ∧ n % 8 = 0)
  let q := fieldAt l 48 4
  let p := l.stitch
  !(decide (1 ≤ fieldAt l 16 4 ∧ 1 ≤ fieldAt l 20 4 ∧ 1 ≤ fieldAt l 24 4 ∧ l.teams ≤ 2 ^ 31) &&
    decide (1 ≤ l.waves ∧ l.waves ≤ 16) && decide (1 ≤ fieldAt l 29 1 ∧ fieldAt l 29 1 ≤ 128) &&
    decide (fieldAt l 30 1 ≤ l.waves ∧ fieldAt l 31 1 = 0) && budget (fieldAt l 32 1) && budget (fieldAt l 33 1) &&
    decide (l.tags ≤ 64 ∧ fieldAt l 35 1 ≤ 10 ∧ fieldAt l 36 4 ≤ l.share) && decide (l.prio ≤ 11) &&
    decide (fieldAt l 45 1 < 8 ∧ 1 ≤ fieldAt l 46 1 ∧ fieldAt l 46 1 < 16 ∧ fieldAt l 47 1 < 16) &&
    decide (q = 0 ∨ (64 ≤ q ∧ q ≤ 1048576)) &&
    (if p.1 = 0 then decide (p.2 = 0) else decide (p.1 ≤ 3 ∧ 1 ≤ p.2 ∧ p.2 ≤ 21)) && decide (fieldAt l 58 2 = 0) &&
    (decide (fieldAt l 60 4 ≠ 0) == l.gang) && decide (fieldAt l 96 4 ≤ 4096 ∧ fieldAt l 96 4 % 16 = 0) &&
    decide (fieldAt l 100 4 = 0 ∧ fieldAt l 120 8 = 0 ∧ fieldAt l 216 40 = 0) && l.addresses.all fun a => decide (a < 2 ^ 48))

/-- Reason 3: a frieze names 2 to 8 initial waves, and a wave belongs to one at most (R159). -/
def LRec.badFrieze (l : LRec) : Bool :=
  let ms := ((List.range 8).map l.frieze).filter fun m => decide (m ≠ 0)
  let size (m : Nat) : Nat := ((List.range 16).filter (bitOf m)).length
  ms.any (fun m => decide (size m < 2) || decide (8 < size m) || decide (2 ^ l.waves ≤ m)) ||
  (List.range 16).any fun w => decide (1 < (ms.filter fun m => bitOf m w).length)

/-- Reason 2: a misaligned address (R325, R367). -/
def LRec.misaligned (l : LRec) : Bool :=
  let pyr := decide (fieldAt l 8 8 = 0)
  !decide (fieldAt l 0 8 % 8 = 0 ∧ fieldAt l 104 8 % 8 = 0 ∧ fieldAt l 112 8 % 8 = 0 ∧ fieldAt l 192 8 % 8 = 0 ∧
    fieldAt l 208 8 % 32 = 0 ∧ fieldAt l 40 4 % (if pyr then 8 else 2) = 0) ||
  (List.range 4).any fun n => !decide ((l.dep n).1 % 8 = 0)

/-! ### Cores (R328, R403, R407) -/

/-- The core of a position of the placement sequence (R328). -/
def State.coreAt (s : State) (p : Nat) : Option Nat := s.physCore (p % 4) (p / 4)

/-- Whether a launch allows a core: its die, and its stitched region (R328, R329). -/
def LRec.allows (l : LRec) (core : Nat) : Bool :=
  l.dies.contains (dieOf core) && (decide (l.stitch.1 = 0) || decide (core % 168 / 8 < l.stitch.2))

/-- Cores that a launch allows, in placement order. -/
def State.coresFor (s : State) (l : LRec) : List Nat := ((List.range 640).filterMap s.coreAt).filter l.allows

/-- Teams that one empty core holds (R53, R54, R99, R328). -/
def LRec.perCore (l : LRec) : Nat :=
  min (min 16 (64 / l.waves)) (min (if l.tags = 0 then 16 else 64 / l.tags) (if l.space = 0 then 16 else l.share / l.space))

/-! ### Completion (R325, R326) -/

/-- Who a completion write is for. -/
structure Done where
  ctx    : Nat
  queue  : Nat
  seq    : Nat
  id     : Nat
  lrec   : LRec
  deriving DecidableEq, Repr

/-- An error entry of type 14: a launch address failed (R406). -/
def Done.failed (d : Done) (item va : Nat) : ErrEnt :=
  { type := 14, ctx := d.ctx, pa := va, detail := d.seq + 2 ^ 32 * d.queue + 2 ^ 40 * item + 2 ^ 64 * d.id }

/-- A completion write: address 0 skips it, and one that fails is skipped with an entry. -/
def State.doneWrite (s : State) (d : Done) (item va : Nat) (b : List Byte) : State :=
  if va = 0 then s
  else
    let r := if va % b.length = 0 then s.devWrite d.ctx va b else (s, false)
    if r.2 then r.1 else r.1.modX fun x => x.err (d.failed item va)

/-- The completion record, then the completion event, then the queue's O waits (R325, R326). -/
def State.signalDone (s : State) (d : Done) (status reason late inval code : Nat) : State :=
  let r := leBytes 1 status ++ leBytes 1 reason ++ leBytes 1 late ++ leBytes 1 0 ++ leBytes 2 inval ++ leBytes 2 code ++
    leBytes 4 d.id ++ List.replicate 20 0
  let s := s.doneWrite d 4 (fieldAt d.lrec 208 8) r
  let s := s.doneWrite d 5 (fieldAt d.lrec 192 8) (leBytes 8 (fieldAt d.lrec 200 8))
  s.modX fun x => x.queueMoved d.ctx d.queue

/-- Whether anything of a grid is still under way: side logs, copies, near-memory commands, collectives (R129), staged
operations while it runs (R130), and a run in progress (log entry 50, DEDUCED). -/
def Exec.gridBusy (x : Exec) (g : Nat) : Bool :=
  let own (t : Nat) : Bool := (x.teams.find? t).elim false fun m => decide (m.grid = g)
  let live := (x.grids.find? g).elim false fun r => decide (r.st = .running)
  (x.waves.any fun p => own p.2.team && (!p.2.log.isEmpty || (live && !p.2.staged.isEmpty))) || (x.copies.any fun p => own p.2.team) ||
  (x.nms.any fun p => own p.2.team) || (x.colls.any fun p => own p.2.team && !p.2.done) ||
  (x.cur.elim false fun c => (x.wave? c.wave).elim false fun w => own w.team)

/-- Every team of a grid has ended. -/
def Exec.teamsEnded (x : Exec) (g : Nat) : Bool := x.teams.all fun p => !decide (p.2.grid = g) || decide (p.2.st = .ended)

/-- A grid leaves the module: its teams and waves, their posted receives and queued matrix operations. What waited for a place of
their cores goes on (R96, R312). -/
def Exec.dropGrid (x : Exec) (g : Nat) : Exec :=
  let own (t : Nat) : Bool := (x.teams.find? t).elim false fun m => decide (m.grid = g)
  let ts := x.teams.filter fun p => decide (p.2.grid = g)
  let more : Exec := { x with
    waves := x.waves.filter fun p => !own p.2.team
    mxs := x.mxs.filter fun o => !own o.team
    teams := x.teams.filter fun p => !decide (p.2.grid = g)
    msgs := x.msgs.filter fun m => !decide (m.grid = g)
    grids := x.grids.erase g }
  (dedup (ts.map fun p => p.2.core)).foldl (fun x c => (x.mxMoved c).wakeCopy c) (if ts.isEmpty then more else more.post 0 .teamPlacement)

/-- Writes back every dirty L1 sector that a grid wrote, and waits for every write of its context that is on its way
(R129). -/
def State.gridClean (s : State) (g : Nat) : State :=
  let cores := dedup ((s.mem.l1.filter fun c => c.grids.contains g && decide (c.dirty ≠ 0)).map L1Sec.core)
  (cores.foldl (fun s core => s.writeBackIf core fun c => c.grids.contains g) s).drainCtx (s.gridCtx g)

/-- GRID_COMPLETION: when R129's conditions hold, the completion record and event are written; the grid leaves the module
behind them (R326, R390). A grid that HALT or a fatal context fault has ended does not wait for its waves (R235, R339). -/
def State.gridDone (s : State) (g : Nat) : State :=
  match s.x.grids.find? g with
  | none => s
  | some r =>
    if r.st = .done then s.modX fun x => x.dropGrid g
    else if s.x.gridBusy g || (decide (r.st = .running) && !s.x.teamsEnded g) then s
    else
      let s := s.gridClean g
      let d : Done := ⟨r.ctx, r.queue, r.seq, r.id, r.lrec⟩
      let p : Nat × Nat := match r.st with
        | .halted c => (1, c)
        | .faulted => (3, 0)
        | _ => (0, 0)
      ((s.modX fun x => x.modGrid g fun r => { r with st := .done }).signalDone d p.1 0 (if r.late then 1 else 0) r.inval p.2).modX
        fun x => x.post 1 (.gridCompletion g)

/-- GRID_COMPLETION (R326). -/
def execGridCompletion (grid : Nat) (s : State) : Out := s.onMem fun s => s.gridDone grid

/-! ### Dispatch (R321 to R324) -/

/-- What a queue offers: its context, number, command, priority and record. -/
structure Offer where
  ctx  : Nat
  q    : Nat
  cmd  : Cmd
  lrec : Option LRec
  deriving DecidableEq, Repr

/-- Whether a dependence is met; a read that fails finds it unmet, with an entry at its first failure. A malformed
address does not wait: its record is refused (log entry 21, DESIGN CHOICE). -/
def State.depMet (s : State) (c q : Nat) (w : Cmd) (l : LRec) (n : Nat) : State × Bool :=
  let d := l.dep n
  if d.1 = 0 ∨ d.1 % 8 ≠ 0 ∨ 2 ^ 48 ≤ d.1 then (s, true)
  else
    let r := s.devRead c d.1 8
    match r.2 with
    | some b => (r.1, decide (d.2 ≤ leNat b))
    | none =>
      if bitOf w.failed n then (r.1, false)
      else
        (r.1.modX fun x => (x.modQueue c q fun k =>
          { k with wait := k.wait.map fun v => if v.index = w.index then { v with failed := bitSet v.failed n true } else v }).err
          ((⟨c, q, cmdSeq w.bytes, 0, l⟩ : Done).failed n d.1), false)

/-- Where a snapshot can lie: the lowest 4 KiB of the lower half of the context-image area that no other grid's snapshot
takes; while there is none the launch waits (log entry 22, DESIGN CHOICE). -/
def Exec.snapPlace (x : Exec) (c : Nat) : Option Nat :=
  (x.ctxs.find? c).bind fun k =>
    let used := (x.grids.filter fun g => decide (g.2.ctx = c)).map fun g => g.2.argVa
    ((List.range (k.imgSize / 8192)).map fun i => snapBase + k.imgBase + 4096 * i).find? fun a => !used.contains a

/-- The launch record of a waiting LAUNCH, which is read once (R322). -/
def State.launchRec (s : State) (c q : Nat) (w : Cmd) : State × Option LRec :=
  match w.record with
  | some r => (s, r)
  | none =>
    let r := s.devRead c (fieldAt w.bytes 8 8) 256
    (r.1.modX fun x => x.modQueue c q fun k =>
      { k with wait := k.wait.map fun v => if v.index = w.index then { v with record := some r.2 } else v }, r.2)

/-- The checks of a readable record that need only its fields and the module, in R325's order: 1, 9, 3, 8, 2, 7, 4. -/
def State.refusal (s : State) (l : LRec) (ceil : Nat) : Nat :=
  if l.badValue then 1
  else if ceil < l.prio then 9
  else if l.badFrieze then 3
  else if l.stitch.1 ≠ 0 ∧ (s.coresFor l).isEmpty = true then 8
  else if l.misaligned then 2
  else if fieldAt l 8 8 ≠ 0 ∧ fieldAt l 8 8 ≠ deviceHash s.trust.manifest.disabled then 7
  else if l.cohort && decide ((s.coresFor l).length * l.perCore < l.teams) then 4
  else 0

/-- The offer of one queue: its oldest undispatched LAUNCH, once its dependences and its O are met and there is room for its
snapshot, which a record that R325 refuses does not need (R321, R324). -/
def State.offerOf (s : State) (c q : Nat) : State × Option Offer :=
  match s.x.queue? c q with
  | none => (s, none)
  | some k =>
    match k.wait.find? fun w => decide (w.op = opLAUNCH) with
    | none => (s, none)
    | some w =>
      if !s.x.cmdFree c q w then (s, none)
      else
        let r := s.launchRec c q w
        match r.2 with
        | none => (r.1, some ⟨c, q, w, none⟩)
        | some l =>
          let m := (List.range 4).foldl (fun (m : State × Bool) n =>
            let t := m.1.depMet c q w l n
            (t.1, m.2 && t.2)) (r.1, true)
          let room := decide (fieldAt l 96 4 = 0) || !decide (m.1.refusal l k.ceil = 0) || (m.1.x.snapPlace c).isSome
          (m.1, if m.2 && room then some ⟨c, q, w, some l⟩ else none)

/-- Ranking of offers: higher priority, then the earlier doorbell (R321). -/
def Offer.before (a b : Offer) : Bool :=
  let p (o : Offer) : Nat := o.lrec.elim 0 LRec.prio
  decide (p b < p a) || (decide (p a = p b) && decide (a.cmd.order < b.cmd.order))

/-- The next launch identifier of a context (R323). -/
def nextLaunch (n : Nat) : Nat := if n + 1 = 2 ^ 32 then 1 else n + 1

/-- The sixteen buffer records from the table's bytes, and the slots that fail R15; the argument slot is not taken from
the table when there are arguments (R16, R324). -/
def loadRecords (b : List Byte) (arg : Option Nat) : List (BitVec 128) × Nat :=
  (List.range 16).foldl (fun (r : List (BitVec 128) × Nat) n =>
    let v := fieldAt b (16 * n) 16
    if arg = some n then (r.1 ++ [0], r.2)
    else if (BufRec.ofNat v).valid then (r.1 ++ [BitVec.ofNat 128 v], r.2)
    else (r.1 ++ [0], bitSet r.2 n true)) ([], 0)

/-- The argument record: linear data, read right only, default scope `.mod`, width code 3 (R324); its Base stands for
the snapshot's. -/
def argRecord (size : Nat) : BitVec 128 :=
  BitVec.ofNat 128 (2 ^ 124 + 5 * 2 ^ 120 + 2 ^ 119 + 2 ^ 115 + 3 * 2 ^ 112 + size * 2 ^ 48)

/-- The teams of a grid as they enter the team queue (R159, R327). -/
def newTeams (g : Nat) (l : LRec) (first : Nat) : SMap Team :=
  (List.range l.teams).map fun i =>
    (first + i, { grid := g, idx := i, prio := l.prio
                  convs := ((List.range 8).filter fun k => decide (l.frieze k ≠ 0)).map fun k => (k, { members := l.frieze k }) })

/-- A launch whose record passes: the tables are read, the snapshot is taken, the teams enter the queue (R16, R322 to
R324). -/
def State.startGrid (s : State) (o : Offer) (l : LRec) (id : Nat) : State :=
  let d : Done := ⟨o.ctx, o.q, cmdSeq o.cmd.bytes, id, l⟩
  let size := fieldAt l 96 4
  let r := if fieldAt l 80 8 % 16 = 0 then s.devRead o.ctx (fieldAt l 80 8) 256 else (s, none)
  match r.2 with
  | none => r.1.signalDone d 2 5 0 0 0
  | some tab =>
    let a := if fieldAt l 88 8 % 16 ≠ 0 then (r.1, none)
      else if size = 0 then (r.1, some []) else r.1.devRead o.ctx (fieldAt l 88 8) size
    let recs := loadRecords tab (if size = 0 then none else some (fieldAt l 47 1))
    match a.2, a.1.x.queue? o.ctx o.q with
    | some args, some k =>
      let va := if size = 0 then 0 else (a.1.x.snapPlace o.ctx).getD 0
      let s := if size = 0 then a.1 else
        (spanSectors (va - snapBase) size).zipIdx.foldl (fun s p =>
          let b := (args.drop (32 * p.2)).take 32
          let at_ := s.imageLoc o.ctx p.1
          (s.engineWrite ⟨0, o.ctx, 0⟩ at_ (maskAt 0 b.length) (placeAt 0 b) false .back).drainSq (at_.sec / 32)) a.1
      let x := s.x
      let g := x.fresh
      let grid : Grid :=
        { ctx := o.ctx, queue := o.q, qgen := k.gen, seq := d.seq, id := id, lrec := l
          recs := if size = 0 then recs.1 else recs.1.set (fieldAt l 47 1) (argRecord size)
          args := args, argVa := va, inval := recs.2, pyr := decide (fieldAt l 8 8 = 0), order := g, index := o.cmd.index }
      let ts := newTeams g l (g + 1)
      { s with x := { x with grids := x.grids.insert g grid, teams := x.teams ++ ts, fresh := g + 1 + l.teams }.post 1 .teamPlacement }
    | _, _ => a.1.signalDone d 2 6 0 recs.2 0

/-- LAUNCH_DISPATCH: the best offer of the module's queues is dispatched or refused (R321, R323). -/
def State.dispatch (s : State) : State :=
  let all := s.x.ctxs.flatMap fun c => c.2.queues.map fun q => (c.1, q.1)
  let r := all.foldl (fun (r : State × Option Offer) p =>
    let t := r.1.offerOf p.1 p.2
    (t.1, match r.2, t.2 with
      | some a, some b => if b.before a then some b else some a
      | some a, none => some a
      | none, b => b)) (s, none)
  match r.2 with
  | none => r.1
  | some o =>
    match r.1.x.ctxs.find? o.ctx with
    | none => r.1
    | some k =>
      let id := nextLaunch k.launch
      let s := r.1.modX fun x =>
        ((x.modCtx o.ctx fun k => { k with launch := id }).modQueue o.ctx o.q fun k =>
          { k with wait := k.wait.filter fun v => !decide (v.index = o.cmd.index) }).post 1 .launchDispatch
      match o.lrec with
      | none => s.modX fun x => (x.err ((⟨o.ctx, o.q, cmdSeq o.cmd.bytes, id, []⟩ : Done).failed 6 (fieldAt o.cmd.bytes 8 8))).queueMoved o.ctx o.q
      | some l =>
        let why := s.refusal l ((k.queues.find? o.q).elim 0 Queue.ceil)
        if why ≠ 0 then s.signalDone ⟨o.ctx, o.q, cmdSeq o.cmd.bytes, id, l⟩ 2 why 0 0 0
        else s.startGrid o l id

/-- LAUNCH_DISPATCH (R321). -/
def execLaunchDispatch (s : State) : Out := s.onMem State.dispatch

end Sys2Proof.Machine
end

