-- ==== Sys2Proof/Machine/Place.lean ====
section
/-! DEFINITION. Placement of teams, stitched regions, pre-emption, swap-out, saving and the end of a team (03 R53, R54,
05 R99, R111 to R113, 08 R143 to R145, R163, R166, R167, 16 R327 to R333, 17 R343 to R347). -/

namespace Sys2Proof.Machine

/-! ### The team queue and what fits (R327, R328) -/

/-- The launch record of a team's grid. -/
def Exec.lrecOf (x : Exec) (m : Team) : LRec := (x.gridOf m).elim [] Grid.lrec

/-- Whether a team waits in the team queue; the teams of a gang launch enter it at its start token (R333, log entry
23, DESIGN CHOICE). -/
def Exec.inQueue (x : Exec) (m : Team) : Bool :=
  (match m.st with
    | .queued _ => true
    | _ => false) &&
  (x.gridOf m).elim false fun g => decide (g.st = .running) && (!LRec.gang g.lrec || x.gangs.contains (fieldAt g.lrec 60 4))

/-- The order of the team queue (R327). -/
def Exec.queueLess (x : Exec) (a b : Nat × Team) : Bool :=
  let key (p : Nat × Team) : List Nat :=
    [11 - (x.lrecOf p.2).prio, if p.2.st = .queued true then 0 else 1, (x.gridOf p.2).elim 0 Grid.order, p.2.idx]
  decide (key a < key b)

/-- The head of the team queue. -/
def Exec.queueHead (x : Exec) : Option (Nat × Team) :=
  (x.teams.filter fun p => x.inQueue p.2).foldl (fun (best : Option (Nat × Team)) p =>
    match best with
    | none => some p
    | some q => if x.queueLess p q then some p else some q) none

/-- Teams that are resident on a core. -/
def Exec.residents (x : Exec) (core : Nat) : List (Nat × Team) :=
  x.teams.filter fun p => decide (p.2.core = core ∧ p.2.st = .resident)

/-- Wave slots that a team needs (R328). -/
def Exec.slotsFor (x : Exec) (t : Nat) (m : Team) : Nat :=
  if m.st = .queued false then (x.lrecOf m).waves else x.waveCount t

/-- Handler slots of a core that hold a handler wave. -/
def Exec.handlersOn (x : Exec) (core : Nat) : List (Nat × Wave) :=
  x.waves.filter fun p => p.2.handler.isSome && !p.2.exited &&
    ((x.teamOf p.2).elim false fun m => decide (m.core = core ∧ m.st = .resident))

/-- A core whose logical number a spare in progress names takes no new team (R407). -/
def State.kept (s : State) (core : Nat) : Bool :=
  s.trust.spares.any fun p => decide (p.kind = 0) && decide (s.physCore p.die p.unit = some core)

/-- Handler waves of depth 1 among some waves. -/
def depthOnes (l : List (Nat × Wave)) : Nat := (l.filter fun p => decide (p.2.depth = 1)).length

/-- Whether a team fits a core (R53, R54, R99, R328, R337, R345). `soon` leaves out saves that are not yet complete. -/
def State.fits (s : State) (t : Nat) (m : Team) (core : Nat) (soon : Bool) : Bool :=
  let x := s.x
  let l := x.lrecOf m
  let rs := x.residents core
  let images := !soon && x.teams.any fun p => decide (p.2.core = core ∧ p.2.st ≠ .resident) && !p.2.saving.isEmpty
  !s.kept core &&
  (decide (s.mem.split.get 131072 core = l.share) || (rs.isEmpty && !images)) &&
  decide ((rs.map fun p => (x.lrecOf p.2).space).sum + l.space ≤ l.share) &&
  decide ((rs.map fun p => (x.lrecOf p.2).tags).sum + l.tags ≤ 64) && decide (rs.length < 16) &&
  decide (x.coreLoad core + x.slotsFor t m ≤ 64) &&
  decide ((x.handlersOn core).length + (x.handlerWaves t).length ≤ 4) &&
  decide (depthOnes (x.handlerWaves t) = 0 ∨ depthOnes (x.handlersOn core) + depthOnes (x.handlerWaves t) ≤ 3)

/-- Positions of the placement sequence in order from the pointer. -/
def Exec.positions (x : Exec) : List Nat := (List.range 640).map fun i => (x.ptr + i) % 640

/-- The pointer is 0 whenever no team is resident (R328). -/
def Exec.resetPtr (x : Exec) : Exec :=
  if x.teams.any fun p => decide (p.2.st = .resident) then x else { x with ptr := 0 }

/-- The first fitting core at or after the pointer, with its position (R328). -/
def State.findCore (s : State) (t : Nat) (m : Team) : Option (Nat × Nat) :=
  let l := s.x.lrecOf m
  (s.x.positions.map fun p => (p, s.coreAt p)).findSome? fun q => match q.2 with
    | some c => if l.allows c && s.fits t m c false then some (q.1, c) else none
    | none => none

/-! ### Placing a team (R53, R129, R143 to R145, R328, R345) -/

/-- A core takes a split: its L1 is written back and emptied when the split changes (R53). -/
def State.takeSplit (s : State) (core share : Nat) : State :=
  if s.mem.split.get 131072 core = share then s
  else (s.release core).modM fun m => { m with l1 := m.l1.filter (fun c => !decide (c.core = core)), split := m.split.put 131072 core share }

/-- The entry PC of a role (R322). -/
def LRec.entry (l : LRec) (role : Nat) : Nat :=
  if role = 0 then fieldAt l 0 8 else wrap 48 ((fieldAt l 0 8 : Int) + signed 32 (fieldAt l 40 4))

/-- The waves a team starts with (R143, R145). -/
def Exec.startWaves (x : Exec) (t : Nat) (l : LRec) : Exec :=
  (List.range l.waves).foldl (fun x i =>
    let role := if i < fieldAt l 30 1 then 0 else 1
    (x.startWave t i role (l.entry role) (if i + 1 = l.waves then fieldAt l 29 1 else 128)).2) x

/-- Marks the physical tiles of a team evictable (R343), or takes their marks away (R345). -/
def Exec.markTiles (x : Exec) (t : Nat) (out : Bool) : Exec :=
  let stamp := x.fresh
  { x.modTeam t (fun m => { m with tiles := m.tiles.map fun p =>
      (p.1, { p.2 with mark := if out && p.2.phys then some stamp else none }) }) with fresh := x.fresh + 1 }

/-- Marks the register lines of a team on a core (R166, R343), or takes their marks away (R345). An earlier mark stays. -/
def Exec.markLines (x : Exec) (core t : Nat) (out : Bool) : Exec :=
  let mine (r : RegLine) : Bool := (x.wave? r.wave).elim false fun w => decide (w.team = t)
  let stamp := x.fresh
  let set (r : RegLine) : RegLine := if mine r then { r with mark := if out then some (r.mark.getD stamp) else none } else r
  { x.modCore core (fun c => { c with regs := c.regs.map set }) with fresh := x.fresh + 1 }

/-- The waves of a returning team are placed afresh: quadrants and handler slots (R144, R345), and their time as eligible
waves (R330). Instructions that waited for something of the old core issue again. -/
def Exec.returnWaves (x : Exec) (t core : Nat) : Exec :=
  let hs := (x.handlerWaves t).map (·.1)
  let x := hs.foldl (fun x u =>
    let used := ((x.handlersOn core).filter fun p => !hs.contains p.1 || decide (p.1 < u)).map fun p => p.2.idx
    let h := ((List.range 4).find? fun h => !used.contains (16 + h)).getD 0
    (x.modWave u fun w => { w with idx := 16 + h, quad := h }).restamp u) x
  let mine := sortBy (fun (a b : Nat × Wave) => decide (a.2.idx < b.2.idx)) (x.teamWaves t)
  let x := mine.foldl (fun x p => x.modWave p.1 fun w => { w with quad := 4 }) x
  let x := mine.foldl (fun x p =>
    let q := x.pickQuad core
    (x.modWave p.1 fun w => { w with quad := q }).restamp p.1) x
  let x : Exec := { x with waves := x.waves.map fun p => (p.1, if p.2.team = t then { p.2 with lines := [] } else p.2) }
  (x.markLines core t false).unholdWhere fun _ w => decide (w.team = t) && (match w.hold with
    | some (.retry _) => true
    | _ => false)

/-- Arrivals that wait for a team to be placed (R288). -/
def Exec.postArrivals (x : Exec) (g idx : Nat) : Exec :=
  let staged := x.waves.flatMap fun p => (p.2.staged.filter fun e => decide (e.kind = skSend)).filterMap fun e => e.args.head?
  (x.msgs.filter fun m => decide (m.grid = g ∧ m.dteam = idx) && !staged.contains m.id).foldl (fun x m =>
    x.post 1 (.messageArrival m.id)) x

/-- A returning team's swapped-waiter flags are no more (R113). -/
def Team.unswap (m : Team) : Team :=
  m.flagged.foldl (fun m o => if (m.tb o).swapped then m.setTb o { m.tb o with swapped := false } else m) { m with flagged := [] }

/-- The place of a team in its context's image: the lowest that no other placed team of the context has (log entry 48, DESIGN
CHOICE). -/
def Exec.freeImg (x : Exec) (ctx : Nat) : Nat :=
  let used := (x.teams.filter fun p => (decide (p.2.st = .resident ∨ p.2.st = .swapped ∨ p.2.st = .queued true)) &&
    (x.gridOf p.2).elim false fun g => decide (g.ctx = ctx)).map fun p => p.2.img
  ((List.range (used.length + 1)).find? fun k => !used.contains k).getD used.length

/-- Places a team on the core of a position; a team placed first acquires at `.sys` (R129). One that returns on another core
takes its order with it: the old core's writes are performed and the new core's L1 keeps no clean byte (R118, R119). Its
matrix operations start again from translation, behind those of the new core; one that runs completes on the old (R314, R345). -/
def State.place (s : State) (t : Nat) (m : Team) (pos core : Nat) : State :=
  let l := s.x.lrecOf m
  let s := s.takeSplit core l.share
  let s := { s with x := { s.x with ptr := (pos + 1) % 640 } }
  if m.st = .queued false then
    (s.l1Clean core).modX fun x =>
      let k := x.freeImg ((x.gridOf m).elim 0 Grid.ctx)
      ((x.modTeam t fun m => { m with st := .resident, core := core, img := k }).startWaves t l).postArrivals m.grid m.idx
  else
    let moved := decide (m.core ≠ core)
    let s := if moved then (s.release m.core).l1Clean core else s
    s.modX fun x =>
      let x := (x.modTeam t fun m => { m.unswap with st := .resident, core := core }).markTiles t false
      let back (o : MxOp) : Bool := decide (o.team = t) && !(o.begun && !decide (o.major = mjSCAN))
      let x : Exec := { x with
        mxs := (x.mxs.filter fun o => !back o) ++ (x.mxs.filter back).map fun o => { o with core := core, held := [] } }
      (x.returnWaves t core).post 1 (.matrixOpPerform core)

/-! ### Stitched regions (R329) -/

/-- The atolls of a launch's region, 21 to a die. -/
def LRec.atolls (l : LRec) : List Nat := l.dies.flatMap fun d => (List.range l.stitch.2).map fun a => 21 * d + a

/-- Whether a launch's region is stitched in its pattern. -/
def Exec.stitched (x : Exec) (l : LRec) : Bool :=
  decide (l.stitch.1 = 0) || l.atolls.all fun a => decide (x.stitch.get (0, 0) a = l.stitch)

/-- RESTITCH: the region takes the launch's pattern once its atolls hold no team of a launch with another pattern
(R329). -/
def execRestitch (grid : Nat) (s : State) : Out := s.onX fun x =>
  match x.grids.find? grid with
  | none => x
  | some g =>
    let l : LRec := g.lrec
    let busy := x.teams.any fun p => decide (p.2.st = .resident) && l.allows p.2.core && !decide ((x.lrecOf p.2).stitch.1 = l.stitch.1)
    if busy || decide (l.stitch.1 = 0) then x
    else ({ x with stitch := l.atolls.foldl (fun (m : SMap (Nat × Nat)) a => m.put (0, 0) a l.stitch) x.stitch }).post 0 .teamPlacement

/-! ### TEAM_PLACEMENT (R163, R327, R328) -/

/-- The queued teams of a grid in increasing index. -/
def Exec.queuedOf (x : Exec) (g : Nat) : List (Nat × Team) :=
  x.teams.filter fun p => decide (p.2.grid = g) && x.inQueue p.2

/-- Places teams one after another; false when one of them fits nowhere. -/
def State.placeAll (s : State) (l : List (Nat × Team)) : State × Bool :=
  l.foldl (fun (r : State × Bool) p =>
    if !r.2 then r
    else match r.1.findCore p.1 p.2 with
      | some c => (r.1.place p.1 p.2 c.1 c.2, true)
      | none => (r.1, false)) (s, true)

/-- TEAM_PLACEMENT: the head of the team queue is placed, a cohort grid whole (R163, R327, R328). -/
def State.placement (s : State) : State :=
  let s := s.modX Exec.resetPtr
  match s.x.queueHead with
  | none => s
  | some (t, m) =>
    let l := s.x.lrecOf m
    if !s.x.stitched l then s.modX fun x => x.post 0 (.restitch m.grid)
    else
      let r := s.placeAll (if l.cohort then s.x.queuedOf m.grid else [(t, m)])
      if r.2 then r.1.modX fun x => x.post 0 .teamPlacement else s.modX fun x => x.post 0 .priorityPreemption

/-- TEAM_PLACEMENT (R328). -/
def execTeamPlacement (s : State) : Out := s.onMem State.placement

/-! ### Pre-emption (R331, R332, R343) -/

/-- A victim stops: it leaves the core's resident set and the core's waiting lists, its engine operations wait with it but for one
that runs (R314), its register lines and tiles are marked evictable, its local memory begins to be saved, and it returns to the
team queue (R343). What waited for a place that it held goes on (R96, R312). -/
def Exec.stopTeam (x : Exec) (t : Nat) : Exec :=
  match x.teams.find? t with
  | none => x
  | some m =>
    if m.st ≠ .resident then x
    else
      let blocks := List.range ((x.lrecOf m).space / 1024)
      let mine (u : Nat) : Bool := (x.wave? u).elim false fun w => decide (w.team = t)
      let x := (x.mxRuns m.core t).modTeam t fun m => { m with st := .queued true, saving := blocks }
      let x := x.modCore m.core fun c => { c with cpq := c.cpq.filter (fun u => !mine u), nmq := c.nmq.filter (fun u => !mine u) }
      let x := if blocks.isEmpty then x else x.post 1 (.localBlockSave t)
      ((((x.markLines m.core t true).markTiles t true).mxMoved m.core).wakeCopy m.core).post 0 .teamPlacement

/-- Stops every resident team of a grid. -/
def Exec.stopGridTeams (x : Exec) (g : Nat) : Exec :=
  (x.teams.filter fun p => decide (p.2.grid = g)).foldl (fun x p => x.stopTeam p.1) x

/-- Stops a list of victims; one of a cohort grid brings the whole grid (R163, R331). -/
def Exec.stopVictims (x : Exec) (l : List (Nat × Team)) : Exec :=
  l.foldl (fun x p => if (x.lrecOf p.2).cohort then x.stopGridTeams p.2.grid else x.stopTeam p.1) x

/-- The teams of a core that may be victims of a head of priority p, in the order in which they are taken (R331). -/
def Exec.victimsOn (x : Exec) (core p : Nat) : List (Nat × Team) :=
  let l := (x.residents core).filter fun q => decide ((x.lrecOf q.2).prio < p)
  let key (q : Nat × Team) : List Nat :=
    [(x.lrecOf q.2).prio, x.fresh - (x.gridOf q.2).elim 0 Grid.order, 2 ^ 32 - q.2.idx]
  sortBy (fun a b => decide (key a < key b)) l

/-- How many victims of a core make room for a team, if any number does. -/
def State.victimsNeeded (s : State) (t : Nat) (m : Team) (core : Nat) : Option (List (Nat × Team)) :=
  let vs := s.x.victimsOn core (s.x.lrecOf m).prio
  (List.range (vs.length + 1)).findSome? fun n =>
    if (s.modX fun x => x.stopVictims (vs.take n)).fits t m core true then some (vs.take n) else none

/-- The core with the fewest victims, the first in placement order from the pointer, and its victims (R331). -/
def State.chooseVictims (s : State) (t : Nat) (m : Team) : Option (Nat × Nat × List (Nat × Team)) :=
  let l := s.x.lrecOf m
  let all := s.x.positions.filterMap fun p => (s.coreAt p).bind fun c =>
    if l.allows c then (s.victimsNeeded t m c).map fun v => (p, c, v) else none
  leastBy (fun (q : Nat × Nat × List (Nat × Team)) => q.2.2.length) all

/-- The victims that make room for a list of teams, each on the module as the choices before it leave it (R331). -/
def State.victimsFor (s : State) (l : List (Nat × Team)) : Option (List (Nat × Team)) :=
  (l.foldl (fun (r : Option (State × List (Nat × Team))) p =>
    r.bind fun a => (a.1.chooseVictims p.1 p.2).map fun v =>
      ((a.1.modX fun x => x.stopVictims v.2.2).place p.1 p.2 v.1 v.2.1, a.2 ++ v.2.2))
    (some (s, []))).map (·.2)

/-- PRIORITY_PREEMPTION: victims of lower priority make room for a head that fits no core (R331). -/
def execPriorityPreemption (s : State) : Out := s.onX fun x =>
  match x.queueHead with
  | none => x
  | some (t, m) =>
    match s.victimsFor (if (x.lrecOf m).cohort then x.queuedOf m.grid else [(t, m)]) with
    | some vs => x.stopVictims vs
    | none => x

/-- PREEMPT: every resident team of the named grid of the context stops (R320, R331). -/
def execPreempt (ctx q : Nat) (s : State) : Out := s.onMem fun s =>
  s.command ctx q (fun b => decide (fieldAt b 0 1 = opPREEMPT)) fun b s => s.modX fun x =>
    (x.grids.filter fun g => decide (g.2.ctx = ctx ∧ g.2.id = fieldAt b 8 4)).foldl (fun x g => x.stopGridTeams g.1) x

/-! ### Gang tokens (R333): the identifier stands where a collective's group does (log entry 23, DESIGN CHOICE) -/

def gangOf (f : Flit) : Nat := bitsOf f.hdr.toNat 0 32

/-- Grids of a gang. -/
def Exec.gangGrids (x : Exec) (g : Nat) : List (Nat × Grid) := x.grids.filter fun p => LRec.gang p.2.lrec && decide (fieldAt p.2.lrec 60 4 = g)

/-- GANG_START_TOKEN: placement of the gang's launches starts; it is late when the room that a launch lacks is still being saved, on
a die that it allows (R333). Collectives that name the gang go on. -/
def execGangStartToken (f : Flit) (s : State) : Out := s.onMem fun s =>
  s.flitIn f fun s =>
    let g := gangOf f
    let saving (l : LRec) : Bool := s.x.teams.any fun p => decide (p.2.st ≠ .resident) && !p.2.saving.isEmpty && l.dies.contains (dieOf p.2.core)
    let s := s.modX fun x => { x with gangs := if x.gangs.contains g then x.gangs else x.gangs ++ [g] }
    let late := (s.x.gangGrids g).filter fun p => saving p.2.lrec && !(s.placeAll (s.x.queuedOf p.1)).2
    let s := s.modX fun x =>
      let x := late.foldl (fun x p => (x.modGrid p.1 fun r => { r with late := true }).err { type := 8, ctx := p.2.ctx, detail := g }) x
      x.post 0 .teamPlacement
    (s.x.colls.filter fun p => !p.2.done && !s.x.collDet p.2).foldl (fun s p => s.collStep p.1 true) s

/-- GANG_STOP_TOKEN: every resident team of the gang's launches is pre-empted (R331, R333). -/
def execGangStopToken (f : Flit) (s : State) : Out := s.onMem fun s =>
  s.flitIn f fun s => s.modX fun x =>
    let g := gangOf f
    (x.gangGrids g).foldl (fun x p => x.stopGridTeams p.1) { x with gangs := x.gangs.filter fun k => !decide (k = g) }

/-! ### Saving (R112, R343) -/

/-- LOCAL_BLOCK_SAVE: one 1 KiB block of a stopped team's allocation is written to its context image, in increasing offset
(R112, R343). -/
def execLocalBlockSave (team : Nat) (s : State) : Out := s.onMem fun s =>
  match s.x.teams.find? team with
  | none => s
  | some m =>
    let s := match m.saving with
      | [] => s
      | b :: _ => s.saveLocal team (1024 * b) 1024
    s.modX fun x =>
      let x := x.modTeam team fun m => { m with saving := m.saving.drop 1 }
      if m.saving.length ≤ 1 then x.post 0 .teamPlacement else x.post 1 (.localBlockSave team)

/-! ### Swap-out (R111 to R113) -/

/-- Whether a wave is parked: held on an object, on tags or on a load whose page has faulted (R111); a load that waits for the host
or for a walker is not. -/
def Exec.parked (x : Exec) (w : Wave) : Bool := match w.hold with
  | some (.tags _ _) => true
  | some (.phase _ _ _) => true
  | some (.fault l) => (x.ctxs.find? (x.ctxOf w)).any fun c => c.faults.any fun r => l.contains r.id && !r.walk
  | _ => false

/-- Whether a team's park clock runs: every unfinished wave is parked, no handler wave runs, the launch swaps (R111). -/
def Exec.parkClock (x : Exec) (t : Nat) (m : Team) : Bool :=
  let l := x.lrecOf m
  decide (m.st = .resident) && !l.cohort && decide (fieldAt l 52 4 ≠ 0) && !(x.teamWaves t).isEmpty &&
  (x.teamWaves t).all (fun p => x.parked p.2) && (x.handlerWaves t).isEmpty

/-- SWAP_OUT: the objects that are waited on are flagged, and the team leaves its core (R112). -/
def execSwapOut (team : Nat) (s : State) : Out := s.onX fun x =>
  match x.teams.find? team with
  | none => x
  | some m =>
    if !x.parkClock team m then x
    else
      let objs := (x.teamWaves team).filterMap fun p => match p.2.hold with
        | some (.phase o _ _) => some o
        | _ => none
      let x := objs.foldl (fun x o => x.modTeam team fun m => m.setTb o { m.tb o with swapped := true }) x
      let x := x.stopTeam team
      x.modTeam team fun m => { m with st := .swapped, flagged := objs }

/-- SWAP_REQUEUE (R113). -/
def execSwapRequeue (team : Nat) (s : State) : Out := s.onX fun x =>
  match x.teams.find? team with
  | none => x
  | some m => if m.st = .swapped then (x.modTeam team fun m => { m with st := .queued true }).post 0 .teamPlacement else x

/-! ### The end of a team (R347) -/

/-- Whether a team's slot may be freed: no live wave, no handler wave, no line operation with a side in its local memory, no matrix
operation still to perform, nothing staged (R130, R347, log entry 24, DEDUCED). -/
def Exec.teamFreeable (x : Exec) (t : Nat) (m : Team) : Bool :=
  (decide (m.st = .resident) || decide (m.st = .queued true) || decide (m.st = .swapped)) && x.teamOver t &&
  !(x.copies.any fun p => decide (p.2.team = t ∧ p.2.kind ≠ 2)) && !(x.mxs.any fun o => decide (o.team = t)) &&
  !(x.waves.any fun p => decide (p.2.team = t) && !p.2.staged.isEmpty && (x.gridOf m).elim false fun g => decide (g.st = .running))

/-- TEAM_FREE (R347): the team's slot, space, tags and tiles are free, and what stands in its registers and its memory is no
more changed (R390). A spare that waits for the core may go on (R407). -/
def execTeamFree (team : Nat) (s : State) : Out := s.onX fun x =>
  match x.teams.find? team with
  | none => x
  | some m =>
    if !x.teamFreeable team m then x
    else
      let x := x.modTeam team fun m =>
        { m with st := .ended, tiles := [], arms := [], posts := [], unmat := [], saving := [], flagged := [] }
      let x := s.trust.spares.foldl (fun x p => x.post 0 (.spareSwap p.die p.kind p.unit)) x
      (x.post 0 .teamPlacement).post 0 (.gridCompletion m.grid)

end Sys2Proof.Machine
end

