-- ==== Sys2Proof/Machine/Lines.lean ====
section
/-! DEFINITION. The register cache: the registers an instruction names, the lines of a run, their eviction and their fill
(08 R145, R165 to R167, 17 R343 to R346). A window's values stand in its wave whether or not a line of them is present;
presence decides when a run issues, and what passes through the context image (log entry 48, DESIGN CHOICE). -/

namespace Sys2Proof.Machine

/-! ### The registers that an instruction names -/

/-- The A registers of a matrix product that its wave supplies (R298). -/
def Exec.aRegs (x : Exec) (i : Iss) (mj : Nat) (w : OwnI) : List Nat :=
  match x.teams.find? i.w.team, x.elemSpec? (bitOf w.m.toNat 10) (w.m.toNat / 16 % 16) with
  | some m, some a =>
    let k := m.friezeOf i.w.idx
    let c := (k.map m.conv).getD {}
    let ranks := (c.sig.map Sig.ranks).getD (if k.isSome then (List.range 16).filter (bitOf c.members ·) else [i.w.idx])
    let mine := rankBlocks ((findIdx (fun j => decide (j = i.w.idx)) ranks 0).getD 0) (max ranks.length 1)
    if (m.arms.find? (armKey k i.u)).isSome then [] else regsFrom w.s1.toNat (regsPer mj (specBits a) * mine.length)
  | _, _ => []

/-- Index and data registers of a load or store that converts (R274, R275). -/
def Exec.memRegs (x : Exec) (w : MemI) : List Nat := w.s1.toNat :: regsFrom w.d.toNat ((x.memDesc w).elim 0 (dataCount · (memSize w)))

/-- The V registers an instruction names, for the class of each row: those a register budget is checked against (R145). -/
def instrRegs (x : Exec) (i : Iss) : Instr → List Nat
  | .iadd w | .isub w | .imul w | .imulh w | .imulhu w | .idiv w | .idivu w | .irem w | .iremu w | .imin w | .imax w
  | .iminu w | .imaxu w | .iadds w | .iand w | .ior w | .ixor w | .iandn w | .shl w | .shr w | .sar w | .rol w | .ror w
  | .bfe w | .iaddc w | .isubb w | .isel w | .shfl w | .shflup w | .shfldn w | .shflx w | .pack w | .fadd w | .fsub w
  | .fmul w | .fdiv w | .fmin w | .fmax w | .fsel w | .fscale w | .hadd2 w | .hmul2 w => (opndsOf w).named
  | .iabs w | .ineg w | .inot w | .popc w | .clz w | .ctz w | .brev w | .mov w | .cvtf w | .cvtfi w | .cvtif w | .unpack w
  | .fclass w | .frint w | .frcp w | .frsq w | .fsqrt w | .fexp2 w | .flog2 w | .fsinr w | .fcosr w | .ftanh w
  | .wredi w | .wredf w | .wscan w => w.d.toNat :: (opndsOf w).s1.regs
  | .imad w | .bfi w | .perm w | .ffma w | .hfma2 w => (opndsOf w).named ++ [w.s3.toNat]
  | .iadd64 w => pairRegs w.d.toNat ++ pairRegs w.s1.toNat ++ pairRegs w.s2.toNat
  | .imad64 w => pairRegs w.d.toNat ++ (opndsOf w).named ++ pairRegs w.s3.toNat
  | .shl64 w | .shr64 w | .lea w => pairRegs w.d.toNat ++ pairRegs w.s1.toNat ++ (opndsOf w).s2.regs
  | .icmp w | .fcmp w => (opndsOf w).s1.regs ++ (opndsOf w).s2.regs
  | .wargx w | .addx w | .subx w | .mulx w | .fastx w => (w.d.toNat + 1) :: (opndsOf w).named
  | .fmae w => [w.d.toNat + 1, w.d.toNat + 2, w.s3.toNat] ++ (opndsOf w).named
  | .xadd w | .xsub w | .xmul w | .xfma w =>
    expRegs w.d.toNat (xWords (w.s3.toNat % 4)) ++ (opndsOf w).s1.expRegs (xWords (w.s3.toNat / 4 % 4)) ++
      (opndsOf w).s2.expRegs (xWords (w.s3.toNat / 16 % 4))
  | .xren w | .xcpr w => expRegs w.d.toNat (xWords (w.s3.toNat % 4)) ++ (opndsOf w).s1.expRegs (xWords (w.s3.toNat / 4 % 4))
  | .xcmp w => (opndsOf w).s1.expRegs (xWords (w.s3.toNat / 4 % 4)) ++ (opndsOf w).s2.expRegs (xWords (w.s3.toNat % 4))
  | .xsplit w => expRegs w.d.toNat (xWords (w.s3.toNat % 4)) ++ (opndsOf w).s1.regs
  | .xtof w => w.d.toNat :: (opndsOf w).s1.expRegs (xWords (w.s3.toNat / 4 % 4))
  | .xacc w => expRegs w.d.toNat (xWords (w.s3.toNat % 4)) ++ (opndsOf w).s1.regs ++ (opndsOf w).s2.regs
  | .wmov w | .srdraw w => [w.d.toNat]
  | .pmov w => if w.s3 = 0 then [w.d.toNat] else [w.s1.toNat]
  | .movi w => [w.d.toNat]
  | .brx w | .ret w => pairRegs w.s1.toNat
  | .call w => pairRegs w.d.toNat
  | .callx w => pairRegs w.d.toNat ++ pairRegs w.s1.toNat
  | .fspawn w => [0, w.d.toNat]
  | .rejoin w => regsFrom w.s1.toNat 4
  | .hwait w => if w.m = 1 then [w.d.toNat] else []
  | .srr w => pairRegs w.d.toNat
  | .eret w => if w.m = 3 then pairRegs w.s1.toNat else []
  | .emopr w => w.d.toNat :: (if w.m.toNat % 256 ∈ [0x10, 0x11] then [w.s1.toNat] else [])
  | .emopw w => w.s2.toNat :: (if w.m.toNat % 256 = 0x12 then [] else [w.s1.toNat])
  | .ldb w | .stb w | .ldl w | .stl w => x.memRegs w
  | .atb w | .atbf w | .atbc w | .atl w | .ldsq w => w.s1.toNat :: regsFrom w.d.toNat ((memSize w + 3) / 4)
  | .casb w | .casl w => w.s1.toNat :: regsFrom w.d.toNat (2 * (memSize w / 4))
  | .pref w | .cwb w | .cinv w => [w.s1.toNat]
  | .cpa w | .cps w | .cpl w => [w.d.toNat, w.s1.toNat]
  | .nmcmd w => regsFrom w.s1.toNat 8
  | .mma w => x.aRegs i mjMMA w
  | .mmar w => x.aRegs i mjMMAR w
  | .mmd w => x.aRegs i mjMMD w
  | .mmlr w => x.aRegs i mjMMLR w
  | .tread w => regsFrom w.d.toNat (if bitsOf w.m.toNat 4 2 = 1 then 8 else 4)
  | .mov16 w => [w.d.toNat, w.s.toNat]
  | .movi16 w => [w.d.toNat]
  | .iadd16 w | .isub16 w | .imul16 w | .iand16 w | .ior16 w | .ixor16 w | .shl16 w | .shr16 w | .sar16 w | .imin16 w
  | .imax16 w | .fadd16 w | .fsub16 w | .fmul16 w | .fmax16 w => (opndsOf16 w id).named
  | .iaddC w | .isubC w | .imulC w | .iandC w | .iorC w | .ixorC w | .shlC w | .shrC w | .sarC w | .iminC w | .imaxC w
  | .faddC w | .fsubC w | .fmulC w | .fminC w | .fmaxC w | .ffmaC w | .hadd2C w | .hmul2C w | .hfma2C w | .shflC w
  | .shflxC w => (opndsOfA w 0 0).named
  | .addxC w | .mulxC w => (w.vd.toNat + 1) :: (opndsOfA w 0 0).named
  | .movC w => [w.vd.toNat, w.va.toNat]
  | .wmovC w => [w.vd.toNat]
  | .iaddCi w | .shlCi w | .shrCi w | .sarCi w | .iandCi w => (opndsOfI w).named
  | .moviC w => [w.vd.toNat]
  | .ldlC w | .stlC w => x.memRegs (compMem w)
  | _ => []

/-- `instrRegs` of the instruction a code stands for. -/
def codeRegs (x : Exec) (i : Iss) : Code → List Nat
  | .early q => instrRegs x i q
  | .ldlC w | .stlC w => x.memRegs (compMem w)
  | .wmovC w => [w.vd.toNat]
  | .iaddCw _ | .isubCw _ | .imulCw _ | .iandCw _ | .iorCw _ | .shlCw _ | .shrCw _ => []

/-! ### The lines of a run (R166, R196) -/

/-- The registers that the instructions of a run name, instruction by instruction, as far as its code is present: at most n,
up to a static run end (R196, R197). Fibres that an encoding which does not execute leaves unmasked go on in the run. -/
def State.runRegs : Nat → State → Iss → Nat → List (List Nat)
  | 0, _, _, _ => []
  | n + 1, s, i, pc =>
    let pyr := ((s.x.teamOf i.w).bind s.x.gridOf).elim false Grid.pyr
    match (s.fetchAt i.u (s.x.coreOf i.w) i.w.quad (s.x.ctxOf i.w) pc).2 with
    | .missing _ => []
    | .bytes l _ =>
      let len := if pyr then 8 else lenOf (leVal (l.take 2))
      let regs := if pyr && decide (leVal (l.take 8) % 4 ≠ 3) then []
        else match decodeCode s.trust.manifest.disabled l with
          | .instr c _ => codeRegs s.x i c
          | _ => []
      regs :: (if rawStaticEnd len (leVal (l.take len)) then [] else State.runRegs n s i ((pc + len) % 2 ^ 48))

/-- The waves whose windows the fibres of a wave use: its own, or its origins' (R165). -/
def Exec.windowsOf (x : Exec) (u : Nat) (w : Wave) : List Nat :=
  if w.handler.isNone then [u] else dedup ((w.fibs.filter fun p => p.2.unfinished).map fun p => (x.window u p.1).1)

/-- The lines (wave, register) that registers of a wave's fibres are, those past the budget left out (R145, R165). -/
def Exec.linesOf (x : Exec) (u : Nat) (w : Wave) (regs : List Nat) : List (Nat × Nat) :=
  let below (v : Nat) : Nat := ((x.wave? v).bind fun q => (x.teamOf q).bind x.gridOf).elim 128 fun g =>
    if ((x.wave? v).elim 0 Wave.role) = 0 then g.byte 32 else g.byte 33
  (x.windowsOf u w).flatMap fun v => ((dedup regs).filter fun k => decide (k < below v)).map fun k => (v, k)

/-! ### Eviction and fill (R166, R167, R345) -/

def Exec.regLines (x : Exec) (core : Nat) : List RegLine := (x.cores.get {} core).regs
/-- Whether a core holds a line. -/
def Exec.hasLine (x : Exec) (core : Nat) (l : Nat × Nat) : Bool := (x.regLines core).any fun r => decide (r.wave = l.1 ∧ r.reg = l.2)
/-- Register k of a window as a line holds it: its words and its poisoned slots. -/
def Wave.line (w : Wave) (k : Nat) : List (Nat × Word) × List Nat :=
  (w.v.filter fun p => decide (p.1 / 128 = k), w.vpois.filter fun f => decide (f / 128 = k))

/-- The sectors of the image that register k of a wave's window has (R165). -/
def State.lineAt (s : State) (w : Wave) (k : Nat) : List Loc :=
  s.imageAt (s.x.ctxOf w) ((s.x.teamOf w).elim 0 Team.img) (windowOff w.idx k) 512

/-- A line leaves a core; unless its wave has exited, one that is not as the image has it, which holds zeros until it is first
written, is written there, a sector with a poisoned slot poisoned (R167, log entry 75, DEDUCED). -/
def State.evictLine (s : State) (core : Nat) (r : RegLine) : State :=
  let s' := match s.x.wave? r.wave with
    | none => s
    | some w =>
      if w.exited || decide (w.line r.reg = (w.imaged.find? r.reg).getD ([], [])) then s
      else
        (s.imageWrite core (s.x.ctxOf w) ((s.lineAt w r.reg).zipIdx.map fun (p : Loc × Nat) =>
          let slots := (List.range 8).map (8 * p.2 + ·)
          (p.1, slots.flatMap fun f => leBytes 4 (w.reg f r.reg).toNat, slots.any fun f => w.vpois.contains (128 * r.reg + f)))).modX
            fun x => x.modWave r.wave fun w => { w with imaged := w.imaged.insert r.reg (w.line r.reg) }
  s'.modX fun x => x.modCore core fun c => { c with regs := c.regs.filter fun q => !decide (q.wave = r.wave ∧ q.reg = r.reg) }

/-- The line that gives way: of those marked evictable the one marked first, else one of a window whose wave has exited, else
the least recently used; `keep` names lines that stay (R166, R344, R346). -/
def Exec.lineVictim (x : Exec) (core : Nat) (keep : List (Nat × Nat)) : Option RegLine :=
  let l := (x.regLines core).filter fun r => !keep.contains (r.wave, r.reg)
  let gone := l.filter fun r => (x.wave? r.wave).elim true Wave.exited
  ((leastBy (fun (r : RegLine) => r.mark.getD 0) (l.filter fun r => r.mark.isSome)).orElse fun _ =>
    leastBy RegLine.lru gone).orElse fun _ => leastBy RegLine.lru l

/-- A line comes to a core as the register stands; of 2,048 lines one gives way (R166). -/
def State.putLine (s : State) (core : Nat) (keep : List (Nat × Nat)) (l : Nat × Nat) : State :=
  let s := if (s.x.regLines core).length < 2048 then s
    else (s.x.lineVictim core keep).elim s (s.evictLine core)
  s.modX fun x => { x.modCore core (fun c => { c with regs := c.regs ++ [⟨l.1, l.2, x.fresh, none⟩] }) with fresh := x.fresh + 1 }

/-- The cores, other than one, that hold a line. -/
def Exec.lineElsewhere (x : Exec) (core : Nat) (l : Nat × Nat) : List (Nat × RegLine) :=
  (x.cores.filter fun c => !decide (c.1 = core)).flatMap fun c =>
    (c.2.regs.filter fun r => decide (r.wave = l.1 ∧ r.reg = l.2)).map fun r => (c.1, r)

/-- A line that needs no read: its image does not hold it and no other core has it; it is created as zero (R167). -/
def Exec.lineFresh (x : Exec) (core : Nat) (l : Nat × Nat) : Bool :=
  !((x.wave? l.1).elim false fun w => (w.imaged.find? l.2).isSome) && (x.lineElsewhere core l).isEmpty

/-- The sixteen sectors of a line's place in the image are read through their home slices; the eight slots of a poisoned or
uncorrectable one are poisoned (R167). -/
def State.readRegLine (s : State) (core : Nat) (l : Nat × Nat) : State :=
  let ctx := (s.x.wave? l.1).elim 0 s.x.ctxOf
  ((s.x.wave? l.1).elim [] fun w => s.lineAt w l.2).zipIdx.foldl (fun s p =>
    let r := s.fetch core ctx 2 p.1 false false
    if r.2.2 then
      (r.1.poisoned ⟨core, ctx, 0⟩ p.1).modX fun x => x.modWave l.1 fun w =>
        { w with vpois := ((List.range 8).map fun f => 128 * l.2 + 8 * p.2 + f).foldl setAdd w.vpois }
    else r.1) s

/-- A missing line is filled: another core that holds it writes it back first (R345), then it is read from the image, if the
image has it (R167). -/
def State.lineFill (s : State) (core : Nat) (l : Nat × Nat) : State :=
  let s := (s.x.lineElsewhere core l).foldl (fun s p => s.evictLine p.1 p.2) s
  let s := if (s.x.wave? l.1).elim false fun w => (w.imaged.find? l.2).isSome then s.readRegLine core l else s
  (s.putLine core [] l).modX fun x =>
    let waits := x.waves.filter fun p => p.2.lines.contains l
    waits.foldl (fun x p =>
      let rest := p.2.lines.filter fun q => !decide (q = l)
      let x := x.modWave p.1 fun w => { w with lines := rest }
      if rest.isEmpty then x.restamp p.1 else x) x

/-- REGISTER_LINE_FILL: a missing register line that a wave's run waits for is there (R167). -/
def execRegisterLineFill (core w k : Nat) (s : State) : Out := s.onMem fun s =>
  if s.x.waves.any fun p => decide (s.x.coreOf p.2 = core) && p.2.lines.contains (w, k) then s.lineFill core (w, k) else s

end Sys2Proof.Machine
end

