-- ==== Sys2Proof/Machine/Traps.lean ====
section
/-! DEFINITION. Asynchronous traps, ripe waves and handler waves, run arbitration and hangs (08 R147, R148, R156, R165,
16 R330, 17 R336 to R339, R410). -/

namespace Sys2Proof.Machine

/-! ### ASYNC_TRAP (R410) -/

/-- The fibres of a wave that an asynchronous trap can mask now: Ready, with one waiting, in a wave that is not held.
An instruction whose hold has just ended is finished first (log entry 34, DEDUCED). -/
def Wave.asyncNow (w : Wave) : List (Nat × Trap) :=
  if w.exited || w.hold.isSome || w.resumed then []
  else w.fibs.filterMap fun p => if p.2.isReady then (p.2.async.head?).map fun t => (p.1, t) else none

/-- Masks a Ready fibre with its first waiting trap, at the PC of its next instruction. -/
def Exec.takeAsync (x : Exec) (u f : Nat) (t : Trap) : Exec :=
  let pc := (x.fib u f).pc
  (x.modFib u f fun b => { b with async := b.async.drop 1 }).takeTrap u f { t with pc := pc }

/-- ASYNC_TRAP: every trap that waits for a fibre which may issue is taken (R410). -/
def execAsyncTrap (s : State) : Out := s.onX fun x =>
  x.waves.foldl (fun x p => p.2.asyncNow.foldl (fun x q => x.takeAsync p.1 q.1 q.2) x) x

/-! ### Ripe waves (R336) -/

/-- Masked fibres of a wave that no handler wave serves, with their records. -/
def Wave.unserved (w : Wave) : List (Nat × Trap) :=
  w.fibs.filterMap fun p => if p.2.st = .masked then p.2.trap.bind (fun t => if t.served then none else some (p.1, t)) else none

/-- The oldest unserved record of a wave. -/
def Wave.oldest (w : Wave) : Option (Nat × Trap) := leastBy (fun (p : Nat × Trap) => p.2.age) w.unserved

/-- Whether a wave issues nothing: it has no Ready fibre, is held as R149 lists, by missing register lines too but not by a plain miss
of an instruction cache, or has closed its quantum (R336, R348, log entry 47, DEDUCED). -/
def Wave.stuck (w : Wave) : Bool :=
  (w.hold.isSome && !decide (w.hold = some (.retry rvFetch))) || !w.lines.isEmpty || w.closed || !(w.fibs.any fun p => p.2.isReady)

/-- Whether a wave is ripe (R336). -/
def Wave.isRipe (w : Wave) : Bool :=
  !w.exited && match w.oldest with
    | some (_, t) => w.stuck || decide (t.runs + 64 ≤ w.runs)
    | none => false

/-- Whether a masked fibre's record will be served: its handler entry is set and its depth allows one (R339). -/
def Exec.servable (x : Exec) (w : Wave) (t : Trap) : Bool :=
  decide (w.depth < 2) && ((x.teamOf w).bind x.gridOf).elim false fun g => decide (g.handlerEntry t.cause ≠ 0)

/-- The records of a wave that wait for a handler (R337, R339). -/
def Exec.awaiting (x : Exec) (w : Wave) : List (Nat × Trap) := w.unserved.filter fun t => x.servable w t.2

/-- Handler slots of a core that are free. -/
def Exec.freeHandler (x : Exec) (core : Nat) : Option Nat :=
  let used := (x.handlersOn core).map fun p => p.2.idx
  (List.range 4).find? fun h => !used.contains (16 + h)

/-- WAVE_RIPENS: the dispatcher acts for a ripe wave when a slot is free (R336, R337). -/
def execWaveRipens (w : Nat) (s : State) : Out := s.onX fun x =>
  match x.wave? w with
  | none => x
  | some v =>
    match x.freeHandler (x.coreOf v) with
    | some h => if v.isRipe then x.post 0 (.handlerDispatch (x.coreOf v) h) else x
    | none => x

/-! ### HANDLER_DISPATCH (R337, R338) -/

/-- Ripe waves of the running grids' teams on a core with a record that a handler serves. At most three handler waves of depth 1 stand on it, so past that
only handler waves are gathered from. A wave whose side log holds a store is not gathered from yet: the masking of its
fibres is a release of their earlier accesses (R335; log entry 70, DEDUCED). -/
def Exec.ripeOn (x : Exec) (core : Nat) : List (Nat × Wave) :=
  let ones := ((x.handlersOn core).filter fun p => decide (p.2.depth = 1)).length
  x.waves.filter fun p => p.2.isRipe && !(x.awaiting p.2).isEmpty && p.2.log.isEmpty && (decide (ones < 3) || p.2.handler.isSome) &&
    (x.teamOf p.2).elim false fun m =>
      decide (m.core = core ∧ m.st = .resident) && (x.gridOf m).elim false fun g => decide (g.st = .running)

/-- The served fibres of one handler wave: those of the team, depth and kind of the oldest record, in increasing origin
wave index and slot; of one origin wave in deterministic mode (R337). -/
def Exec.gather (x : Exec) (core : Nat) : Option (Nat × Nat × Bool × List (Nat × Nat)) :=
  let ripe := x.ripeOn core
  let oldest (w : Wave) : Option (Nat × Trap) := leastBy (fun (p : Nat × Trap) => p.2.age) (x.awaiting w)
  let first := leastBy (fun (p : Nat × Wave) => (oldest p.2).elim 0 fun t => t.2.age) ripe
  first.bind fun p => (oldest p.2).map fun o =>
    let emu := causeEmu o.2.cause
    let depth := p.2.depth
    let mine (q : Nat × Wave) : List (Nat × Nat) :=
      ((x.awaiting q.2).filter fun t => decide (causeEmu t.2.cause = emu)).map fun t => (q.1, t.1)
    let team := sortBy (fun (a b : Nat × Wave) => decide (a.2.idx < b.2.idx))
      (ripe.filter fun q => decide (q.2.team = p.2.team ∧ q.2.depth = depth) && !(mine q).isEmpty)
    let from_ := if x.determ p.2 then team.take 1 else team
    (p.2.team, depth, emu, (from_.flatMap mine).take 128)

/-- Forms a handler wave in a slot (R338). -/
def Exec.startHandler (x : Exec) (core slot t depth : Nat) (emu : Bool) (l : List (Nat × Nat)) : Exec :=
  match x.teams.find? t with
  | none => x
  | some m =>
    let g := x.gridOf m
    let entry := g.elim 0 fun g => if emu then g.word 112 8 else g.word 104 8
    let orgs := dedup (l.map (·.1))
    let role := ((l.head?).bind fun p => x.wave? p.1).elim 0 Wave.role
    let w : Wave :=
      { team := t, idx := 16 + slot, role := role, quad := slot, stamp := x.fresh, starved := List.range l.length
        fibs := l.zipIdx.map fun p => (p.2, { st := .ready, pc := entry, org := some p.1 })
        w := ((SMap.put 0 [] 0 (BitVec.ofNat 32 l.length)).put 0 1 (BitVec.ofNat 32 orgs.length))
        handler := some ⟨depth + 1, emu, orgs⟩ }
    let x := l.foldl (fun x p => x.modFib p.1 p.2 fun b => { b with trap := b.trap.map fun t => { t with served := true } }) x
    let x : Exec := { x with waves := x.waves.insert x.fresh w, fresh := x.fresh + 1 }
    match x.freeHandler core with
    | some h => if (x.ripeOn core).isEmpty then x else x.post 0 (.handlerDispatch core h)
    | none => x

/-- HANDLER_DISPATCH (R337). -/
def execHandlerDispatch (core slot : Nat) (s : State) : Out := s.onX fun x =>
  if 3 < slot || (x.handlersOn core).any fun p => decide (p.2.idx = 16 + slot) then x
  else match x.gather core with
    | some (t, depth, emu, l) => x.startHandler core slot t depth emu l
    | none => x

/-! ### RUN_ARBITRATION (R148, R330) -/

/-- Whether a wave competes for its quadrant's slot: a Ready fibre, no hold, its quantum open, its register lines
present, its team on the core, its grid running (R148, R166, R235, R330). -/
def Exec.eligible (x : Exec) (w : Wave) : Bool :=
  !w.exited && w.hold.isNone && !w.closed && w.lines.isEmpty && (w.fibs.any fun p => p.2.isReady) &&
  (x.teamOf w).elim false fun m => decide (m.st = .resident) && (x.gridOf m).elim false fun g => decide (g.st = .running)

/-- The quadrant of the module, over all cores, that a wave issues on. -/
def Exec.quadOf (x : Exec) (w : Wave) : Nat := 4 * x.coreOf w + w.quad

/-- The wave that wins a quadrant's slot: the highest `%prio`, then the longest eligible (R330). -/
def Exec.winner (x : Exec) (quad : Nat) : Option (Nat × Wave) :=
  let l := x.waves.filter fun p => x.eligible p.2 && decide (x.quadOf p.2 = quad)
  leastBy (fun (p : Nat × Wave) => (11 - (x.teamOf p.2).elim 0 Team.prio) * 2 ^ 64 + p.2.stamp) l

/-- The PC a wave issues from: that of an instruction that issues again, else its lowest group's (R148). -/
def Wave.nextPc (w : Wave) : Nat :=
  let pcs := (w.fibs.filter fun p => p.2.isReady).map fun p => p.2.pc
  let low := (leastBy id pcs).getD 0
  if w.resumed && pcs.contains w.holdPc then w.holdPc else low

/-- A run of a wave begins, or its missing lines are asked for (R148, R166, R167). An instruction whose hold has ended is
finished by itself, with the descriptors of the run in which it issued (R171); a run of more than 512 lines goes one instruction at a time. -/
def State.beginRun (s : State) (core quad u : Nat) (w : Wave) : State :=
  let c : Cur :=
    { wave := u, pc := w.nextPc, count := 0, len := 0, raw := 0
      fmts := (if w.resumed then w.hfmts else none).getD ((s.x.teamOf w).elim [] Team.fmts)
      limit := if w.resumed then 1 else 24, again := w.resumed }
  let trial : State := s.modX fun x => { x with cur := some c }
  let regs := trial.runRegs c.limit ⟨u, w, c.pc, w.groupAt c.pc⟩ c.pc
  let all := s.x.linesOf u w regs.flatten
  let c := if all.length ≤ 512 then c else { c with limit := 1 }
  let ls := if all.length ≤ 512 then all else s.x.linesOf u w (regs.headD [])
  let absent := ls.filter fun l => !s.x.hasLine core l
  let asked := absent.filter fun l => !s.x.lineFresh core l
  if asked.isEmpty then
    (absent.foldl (fun s l => s.putLine core ls l) s).modX fun x =>
      let use (r : RegLine) : RegLine := if ls.contains (r.wave, r.reg) then { r with lru := x.fresh } else r
      { x.modCore core (fun k => { k with regs := k.regs.map use }) with
        cur := some c, rr := 4 * core + quad + 1, fresh := x.fresh + 1 }
  else s.modX fun x =>
    asked.foldl (fun x l => x.post 1 (.registerLineFill core l.1 l.2)) (x.modWave u fun w => { w with lines := asked })

/-- RUN_ARBITRATION: the quadrant's winner begins a run of its lowest-PC group (R148, R330). Runs are issued one after
another; each is whole (log entry 25, DESIGN CHOICE). -/
def execRunArbitration (core quad : Nat) (s : State) : Out := s.onMem fun s =>
  if s.x.cur.isSome then s
  else match s.x.winner (4 * core + quad) with
    | none => s
    | some (u, w) => s.beginRun core quad u w

/-- The quadrant that arbitrates next: the first at or after the last one's successor that has an eligible wave. -/
def Exec.nextQuad (x : Exec) : Option Nat :=
  let qs := (x.waves.filter fun p => x.eligible p.2).map fun p => x.quadOf p.2
  (leastBy id (qs.filter fun q => decide (x.rr ≤ q))).orElse fun _ => leastBy id qs

/-! ### HANG_DETECT (R156) -/

/-- Runs that R156 allows before it reports. -/
def hangLimit : Nat := 1048576

/-- A run of a wave has been issued. It counts while some Ready fibre has not issued since the count last started; the count
starts again when every fibre that was Ready at its start has issued (R156). A handler may be due for it (R336). -/
def Exec.runIssued (x : Exec) (u : Nat) : Exec :=
  match x.wave? u with
  | none => x
  | some w =>
    let ready := (w.fibs.filter fun p => p.2.isReady).map (·.1)
    let left := w.starved.filter fun f => (w.fib f).unfinished
    let again := left.isEmpty
    let hang := if again then 0 else if ready.any fun f => !w.since.contains f then w.hang + 1 else w.hang
    let x := x.modWave u fun w =>
      { w with runs := w.runs + 1, hang := hang, starved := if again then ready else left, since := if again then [] else w.since }
    let x := if hangLimit ≤ hang then x.post 0 (.hangDetect u) else x
    if w.unserved.isEmpty then x else x.post 0 (.waveRipens u)

/-- HANG_DETECT: HANG is set, and an entry names the team, the wave, the lowest issuing PC and, in the address field,
the lowest starved PC (R156, log entry 20, DESIGN CHOICE). -/
def execHangDetect (w : Nat) (s : State) : Out := s.onX fun x =>
  match x.wave? w with
  | none => x
  | some v =>
    if v.hang < hangLimit then x
    else
      let low (l : List (Nat × Fib)) : Nat := (leastBy id (l.map fun p => p.2.pc)).getD 0
      let ready := v.fibs.filter fun p => p.2.isReady
      let starved := low (ready.filter fun p => !v.since.contains p.1)
      let issuing := low (ready.filter fun p => v.since.contains p.1)
      let x := x.err
        { type := 5, die := dieOf (x.coreOf v), unit := x.coreOf v, ctx := x.ctxOf v, pa := starved
          detail := originTag 0 0 ((x.teamOf v).elim 0 Team.idx) v.tagIdx 0 issuing }
      (x.setStatus v.team stHANG).modWave w fun v => { v with hang := 0, starved := ready.map (·.1), since := [] }

end Sys2Proof.Machine
end

