-- ==== Sys2Proof/Machine/Faults.lean ====
section
/-! DEFINITION. Verdicts on fault records, and the walkers that translate again (02 R36, R42, R43, R46, R50, R51, 05 R98,
07 R135, 15 R313, 18 R356). -/

namespace Sys2Proof.Machine

/-- A pending record of a context by its sequence number. When a new fault queue has started the numbers again, records
posted before it stay pending under their numbers, and a response names the last posted of a number (log entry 77, DESIGN
CHOICE). -/
def Exec.recordOf (x : Exec) (c seq : Nat) : Option FaultRec :=
  (x.ctxs.find? c).bind fun k => (k.faults.reverse).find? fun r => r.posted && decide (r.seq = seq)

/-- A record is resolved: it is pending no more. -/
def Exec.dropRecord (x : Exec) (c id : Nat) : Exec :=
  x.modCtx c fun k => { k with faults := k.faults.filter fun r => !decide (r.id = id) }

/-- Deterministic grids of a context, whose commits may wait for a verdict (R49). -/
def Exec.commitsOf (x : Exec) (c : Nat) : Exec :=
  (x.grids.filter fun g => decide (g.2.ctx = c) && g.2.determ).foldl (fun x g => x.post 0 (.quantumCommit g.1)) x

/-- A team that is swapped out for a record that is resolved is re-queued (R113). -/
def Exec.wakeSwapped (x : Exec) (u : Nat) : Exec :=
  let t := (x.wave? u).elim 0 Wave.team
  if (x.teams.find? t).elim false (fun m => decide (m.st = .swapped)) then x.post 0 (.swapRequeue t) else x

/-! ### Retry (R42) -/

/-- The waiting accesses of one wave on a record translate again. -/
def State.retryPend (s : State) (id u : Nat) : State :=
  match s.x.wave? u with
  | none => s
  | some w =>
    let mine := w.pend.filter fun a => decide (a.frec = id)
    if mine.isEmpty then s
    else
      let s := s.modX fun x => (x.modWave u fun w => { w with pend := w.pend.filter fun a => !decide (a.frec = id) }).wakeSwapped u
      let rh := mine.filter fun a => decide (a.kind = akRhnew)
      let s := rh.foldl (fun s a => s.rhnew u a) s
      let s := s.tryAccs u (mine.filter fun a => !decide (a.kind = akRhnew) && !decide (a.kind = akFetch))
      s.modX fun x => x.holdPend u w.holdPc

/-- What waits on a record goes on: accesses, side-log entries, staged entries, line operations, near-memory commands,
collectives, matrix operations. -/
def State.resumeRecord (s : State) (c id : Nat) : State :=
  let s := s.modX fun x => x.dropRecord c id
  let s := (s.x.waves.map (·.1)).foldl (fun s u => s.retryPend id u) s
  let s := s.modX fun x =>
    let free (e : LogEnt) : LogEnt := if e.held = some id then { e with held := none } else e
    let freeAcc (a : PendAcc) : PendAcc := if a.frec = id then { a with frec := 0 } else a
    let logs := (x.waves.filter fun p => p.2.log.any fun e => decide (e.held = some id)).map (·.1)
    let x : Exec := { x with waves := x.waves.map fun (p : Nat × Wave) =>
      (p.1, { p.2 with log := p.2.log.map free, staged := p.2.staged.map fun e => { e with ents := e.ents.map free, accs := e.accs.map freeAcc } }) }
    let x := logs.foldl (fun x u => x.post 1 (.sideLogReplay u)) x
    let ops := (x.copies.filter fun p => decide (p.2.held = some id)).map (·.1)
    let x : Exec := { x with copies := x.copies.map fun (p : Nat × LineOp) =>
      (p.1, if p.2.held = some id then { p.2 with held := none } else p.2) }
    let x := ops.foldl (fun x o => x.post 1 (.lineOperationPerform o)) x
    let mx := x.mxs.filter fun o => o.held.contains id
    let x : Exec := { x with mxs := x.mxs.map fun o => { o with held := o.held.filter fun k => !decide (k = id) } }
    mx.foldl (fun x o => if o.det then x else x.post 1 (.matrixOpPerform o.core)) x
  let s := ((s.x.nms.filter fun p => decide (p.2.held = some id)).map (·.1)).foldl (fun s k => s.nmSubmit k true) s
  let s := (s.x.colls.filter fun p => decide (p.2.held = some id)).foldl (fun s p =>
    let c' : CollPart := { p.2 with held := none }
    (s.modX fun x => x.setColl c').collStep p.1 (!s.x.collDet p.2)) s
  s.modX fun x => x.commitsOf c

/-! ### Fail (R42) -/

/-- The waiting accesses of one wave on a record are refused (R42, R335). -/
def Exec.failPend (x : Exec) (id u : Nat) : Exec :=
  match x.wave? u with
  | none => x
  | some w =>
    let mine := w.pend.filter fun a => decide (a.frec = id)
    if mine.isEmpty then x
    else
      let x := (x.modWave u fun w => { w with pend := w.pend.filter fun a => !decide (a.frec = id) }).wakeSwapped u
      let x := mine.foldl (fun x a =>
        if a.kind = akRhnew ∨ a.kind = akFetch then x.takeTrap u a.slot { cause := cXLATE, len := a.len, raw := a.raw, pc := a.pc }
        else x.applyAcc u a (a.refused cXLATE)) x
      x.holdPend u w.holdPc

/-- The side-log entries of one wave on a record are discarded (R42). -/
def State.failLog (s : State) (id u : Nat) : State :=
  match s.x.wave? u with
  | none => s
  | some w =>
    let gone := w.log.zipIdx.filter fun p => decide (p.1.held = some id)
    let s := s.modX fun x => x.modWave u fun w => { w with log := w.log.filter fun e => !decide (e.held = some id) }
    gone.reverse.foldl (fun s p => s.logMoved u p.2) (gone.foldl (fun s p => s.discardEnt u p.1 cXLATE) s)

/-- The staged entries and accesses of one wave on a record are discarded or refused (R42, R49). -/
def State.failStaged (s : State) (id u : Nat) : State :=
  match s.x.wave? u with
  | none => s
  | some w =>
    let ents := w.staged.flatMap fun g => (g.ents.filter fun e => decide (e.held = some id)).map fun e => (g.owner.getD u, e)
    let accs := (w.staged.flatMap Staged.accs).filter fun a => decide (a.frec = id)
    let s := s.modX fun x => x.modWave u fun w => { w with staged := w.staged.map fun e =>
      { e with ents := e.ents.filter (fun e => !decide (e.held = some id)), accs := e.accs.filter (fun a => !decide (a.frec = id)) } }
    let s := ents.foldl (fun s p => s.discardEnt p.1 p.2 cXLATE) s
    s.modX fun x => accs.foldl (fun x a => x.applyAcc u a (a.refused cXLATE)) x

/-- What waits on a record fails with XLATE (R42, R98, R135, R313, R356). -/
def State.failRecord (s : State) (c id : Nat) : State :=
  let s := s.modX fun x => x.dropRecord c id
  let s := (s.x.waves.map (·.1)).foldl (fun s u => ((s.modX fun x => x.failPend id u).failLog id u).failStaged id u) s
  let s := (s.x.copies.filter fun p => decide (p.2.held = some id)).foldl (fun s p => s.dropLine p.1 p.2 cXLATE) s
  let s := s.modX fun x => (x.nms.filter fun p => decide (p.2.held = some id)).foldl (fun x p =>
    (x.asyncTrap p.2.wave p.2.slot cXLATE p.2.pc).nmDone p.1 p.2 (nmStatus nsXlate false false 0)) x
  let s := (s.x.colls.filter fun p => decide (p.2.held = some id)).foldl (fun s p =>
    if p.2.res.isSome then s.collEnd p.2 ccXlate else s.collFail p.2 ccXlate (!s.x.collDet p.2)) s
  s.modX fun x =>
    ((x.mxs.filter fun o => o.held.contains id).foldl (fun x o =>
      let x := x.mxDone o (mxWord 1 0 0)
      if o.det then x else x.mxNext o.core) x).commitsOf c

/-- FAULT_FAIL: a response that names no pending record is ignored and counted (R42). A record answered with retry is pending
until its walker returns, so that a second verdict still names it (log entry 77, DESIGN CHOICE). The device reads event words again
(R321). -/
def execFaultFail (ctx : Nat) (seq : BitVec 32) (s : State) : Out := s.onMem fun s =>
  match s.x.recordOf ctx seq.toNat with
  | none => s.modX fun x => x.dropAccess ctx 0x80
  | some r => (s.failRecord ctx r.id).modX fun x => x.post 1 .launchDispatch

/-! ### Walkers (R36, R50, R51) -/

/-- FAULT_RETRY: the accesses of the record translate again (R42). -/
def execFaultRetry (ctx : Nat) (seq : BitVec 32) (s : State) : Out := s.onMem fun s =>
  match s.x.recordOf ctx seq.toNat with
  | none => s.modX fun x => x.dropAccess ctx 0x80
  | some r => (s.walk ctx r).modX fun x => x.post 1 .launchDispatch

/-- A record whose access faults again becomes a new record with a new sequence number (R42). -/
def State.repost (s : State) (c id : Nat) : State :=
  (s.modX fun x => x.modCtx c fun k =>
    { k with faults := (k.faults.filter fun r => !decide (r.id = id)) ++
        (k.faults.filter fun r => decide (r.id = id)).map fun r => { r with posted := false, walk := false } }).postFaults c

/-- TRANSLATION_PROBE_RETURN: the probes of a walker return (R36, R51): a match lets the accesses go on, a poisoned probe
fails them, and no match is a fault again unless a descriptor has changed since the sample. -/
def State.walkDone (s : State) (i : Nat) : State :=
  match s.mem.walks.find? fun w => decide (w.id = i) with
  | none => s
  | some w =>
    if !s.mem.granted w then s.modX fun x => x.post 1 (.translationProbeReturn i)
    else
      let now := (s.x.ctxs.find? w.ctx).elim [] Ctx.tables
      let done := s.modM fun m => { m with walks := m.walks.filter fun v => !decide (v.id = i) }
      match s.probe w.ctx (65536 * w.granule) w.descs with
      | .hit _ _ _ => w.recs.foldl (fun s r => s.resumeRecord w.ctx r) done
      | .bad slot =>
        w.recs.foldl (fun s r => s.failRecord w.ctx r)
          (done.badProbe w.core w.ctx slot)
      | .absent =>
        if now ≠ w.descs then
          (s.modM fun m => { m with walks := m.walks.map fun v => if v.id = i then { v with descs := now } else v }).modX fun x =>
            x.post 1 (.translationProbeReturn i)
        else w.recs.foldl (fun s r => s.repost w.ctx r) done

/-- TRANSLATION_PROBE_RETURN (R36). -/
def execTranslationProbeReturn (i : Nat) (s : State) : Out := s.onMem fun s => s.walkDone i

end Sys2Proof.Machine
end

