-- ==== Sys2Proof/Machine/Commit.lean ====
section
/-! DEFINITION. Quanta and commits of a deterministic grid (02 R49, 06 R130, 17 R342, 18 R348 to R351). -/

namespace Sys2Proof.Machine

/-- The quantum length of a grid (R322). -/
def Grid.quantum (g : Grid) : Nat := if g.word 48 4 = 0 then 4096 else g.word 48 4

/-- QUANTUM_CLOSE: the wave's count has reached the quantum length (R348). -/
def execQuantumClose (w : Nat) (s : State) : Out := s.onX fun x =>
  match x.wave? w with
  | none => x
  | some v =>
    let n := ((x.teamOf v).bind x.gridOf).elim 0 Grid.quantum
    if n ≤ v.qcount then x.closeQuantum w else x

/-! ### When a round may commit (R342, R348) -/

/-- Ordinary waves of a grid, those that have exited included, in the order of a commit: team index, then wave index
(R350). -/
def Exec.commitWaves (x : Exec) (g : Nat) : List (Nat × Wave) :=
  let key (p : Nat × Wave) : Nat := (x.teamOf p.2).elim 0 Team.idx * 16 + p.2.idx
  sortBy (fun (a b : Nat × Wave) => decide (key a < key b))
    (x.waves.filter fun p => p.2.handler.isNone && (x.teamOf p.2).elim false fun m => decide (m.grid = g))

/-- Whether the quantum of a wave is closed, or empty: its team is swapped out, or nothing of it can issue in a grid
that has stopped (R348). -/
def Exec.quantumOver (x : Exec) (stopped : Bool) (w : Wave) : Bool :=
  w.closed || ((x.teamOf w).elim false fun m => decide (m.st = .swapped)) ||
  (stopped && w.hold.isNone && !(w.fibs.any fun p => p.2.isReady))

/-- Whether handlers still serve a team's fibres, or will (R342). -/
def Exec.handlersOpen (x : Exec) (g : Nat) (stopped : Bool) : Bool :=
  x.waves.any fun p =>
    ((x.teamOf p.2).elim false fun m => decide (m.grid = g)) && !p.2.exited &&
    ((p.2.handler.isSome && (!stopped || p.2.hold.isSome || p.2.fibs.any fun q => q.2.isReady)) ||
     p.2.unserved.any fun t => x.servable p.2 t.2)

/-- Whether every wave of a grid has closed its quantum and every handler has returned. -/
def Exec.roundOver (x : Exec) (g : Nat) (r : Grid) : Bool :=
  let stopped := r.haltAt.isSome
  let run := x.cur.elim false fun c => (x.wave? c.wave).elim false fun w => (x.teamOf w).elim false fun m => decide (m.grid = g)
  !run && !x.handlersOpen g stopped && (x.gridWaves g).all (fun p => x.quantumOver stopped p.2) &&
  (x.gridWaves g).all fun p => p.2.pend.isEmpty || ((x.teamOf p.2).elim false fun m => decide (m.st = .swapped))

/-! ### Performing staged operations (R350) -/

/-- What performing one staged operation leaves: the state, and whether it waits for a verdict (R49). -/
abbrev Did := State × Bool

/-- The wave whose quantum a wave's staged operations join: an origin wave, for a handler wave (R342). -/
def Exec.quantumOf (x : Exec) (u : Nat) : Nat :=
  let up (v : Nat) : Nat := ((x.wave? v).bind Wave.handler).elim v fun h => h.orgs.headD v
  up (up u)
/-- Keeps the rest of a wave's first staged operation for when the commit goes on. -/
def Exec.keepStaged (x : Exec) (u : Nat) (e : Staged) : Exec :=
  x.modWave (x.quantumOf u) fun w => { w with staged := e :: w.staged }

/-- The entries of a staged store, reduction, CWB or CINV, each translated again and performed at the home (R46, R49,
R130), a CWB or CINV at its own scope; one that waits for its verdict keeps the commit waiting (R42, R46). -/
def State.commitEnts : List LogEnt → State → Nat → Staged → Did
  | [], s, _, _ => (s, false)
  | e :: rest, s, u, st =>
    match s.x.wave? u with
    | none => (s, false)
    | some w =>
      if e.held.isSome then (s.modX fun x => x.keepStaged u { st with ents := e :: rest, accs := [] }, true)
      else
      let o := s.x.who w
      let t := s.translate o.core o.ctx e.va e.need
      match t.2 with
      | .fault =>
        let q := t.1.fault o.ctx o.core (s.x.slotOf u w) e.va e.faultKind true
        (q.1.modX fun x => x.keepStaged u { st with ents := { e with held := some q.2 } :: rest, accs := [] }, true)
      | .trap c => State.commitEnts rest (t.1.discardEnt u e c) u st
      | .ok l =>
        let e' : LogEnt := if e.kind = ekCwb ∨ e.kind = ekCinv then e else { e with scope := max 5 e.scope }
        let q := (t.1.countEnt o e l).performEnt o e' 0 l
        let s := q.1.latePoison u o e l q.2
        State.commitEnts rest (if l.host then s else (s.drainSq (l.sec / 32)).drainInvals fun i => decide (i.sec = l.sec)) u st

/-- The accesses of a staged atomic, CASB or host load: each is performed at the home and its value delivered (R350); one that
waits for its verdict keeps the commit waiting (R42). -/
def State.commitAccs : List PendAcc → State → Nat → Staged → Did
  | [], s, _, _ => (s, false)
  | a :: rest, s, u, st =>
    match s.x.wave? u with
    | none => (s, false)
    | some w =>
      let o := s.x.who w
      let a' : PendAcc := { a with scope := max 5 a.scope }
      match a.host with
      | some pa => State.commitAccs rest (s.performAccs u o [(a', hostLoc pa)]) u st
      | none =>
        if a.frec ≠ 0 then (s.modX fun x => x.keepStaged u { st with ents := [], accs := a :: rest }, true)
        else
        let t := s.translate o.core o.ctx a.va a.need
        match t.2 with
        | .fault =>
          let q := t.1.fault o.ctx o.core (s.x.slotOf u w) a.va a.faultKind a.need.write
          (q.1.modX fun x => x.keepStaged u { st with ents := [], accs := { a with frec := q.2 } :: rest }, true)
        | .trap c => State.commitAccs rest (t.1.modX fun x => x.applyAcc u a (a.refused c)) u st
        | .ok l =>
          let s := t.1.performAccs u o [(a', l)]
          State.commitAccs rest (s.drainInvals fun i => decide (i.sec = l.sec)) u st

/-- The n-th argument of a staged operation. -/
def Staged.arg (e : Staged) (n : Nat) : Nat := e.args.getD n 0

/-- A barrier arrival of a commit (R220, R350): a waiting form is then held on the generation it must see end. -/
def Exec.commitBar (x : Exec) (u : Nat) (e : Staged) : Exec :=
  let b := e.arg 0
  let x := if e.arg 2 = 2 then x else x.barArrive u b (e.arg 1)
  if e.arg 2 = 0 then x
  else match x.barWaits u b with
    | some g => x.modWave u fun w => { w with hold := some (.barrier b g) }
    | none => x

/-- A TBARV of a commit (R106, R350); one that fails traps those of its fibres that have not ended, with the PC and the bits of the
TBARV (R202, log entry 16, DEDUCED). -/
def Exec.commitTb (x : Exec) (u : Nat) (e : Staged) : Exec :=
  match x.tbArrive ((x.wave? u).elim 0 Wave.team) u (e.arg 0) (e.arg 1) (e.arg 2) (e.arg 3) with
  | .ok x => x
  | .error c =>
    let fs := (e.args.drop 4).filter fun f => (x.fib u f).unfinished
    (if c = cTBOVER then fs else fs.take 1).foldl (fun x f => x.takeTrap u f { cause := c, len := e.len, raw := e.raw, pc := e.pc }) x

/-- Line operations of a copy instruction, each performed and retired (R97, R100). -/
def State.commitLines : List Nat → State → Did
  | [], s => (s, false)
  | op :: rest, s =>
    let s := (s.performLine op).retireLine op
    if (s.x.copies.find? op).isSome then (s, true) else State.commitLines rest s

/-- A matrix operation: it is performed alone, a SCAN to its end (R312, R317). -/
def State.commitMatrix (s : State) (id : Nat) : Did :=
  match s.x.mxs.find? fun o => decide (o.id = id) with
  | none => (s, false)
  | some o =>
    if !o.held.isEmpty then (s, true)
    else if o.major = mjSCAN then
      let n := (s.x.scanBlk o.team (word o.words 0)).nchunks + 2
      (s.modX fun x => iter (fun (x : Exec) => match x.mxs.find? fun q => decide (q.id = id) with
        | some q => x.scanGo q
        | none => x) n x, false)
    else
      let s := s.mxPerform o
      (s, s.x.mxHas id)

/-- The commands of an NMCMD, in fibre order: each is checked again and performed (R135, R350). -/
def State.commitNm (s : State) (op : Nat) : Did :=
  let ids := (sortBy (fun (a b : Nat × NmCmd) => decide (a.2.slot < b.2.slot)) (s.x.nms.filter fun p => decide (p.2.op = op))).map
    fun p => (p.1, p.2.slot)
  ids.foldl (fun (r : Did) k =>
    if r.2 then r
    else
      let held := (r.1.x.nms.find? k.1).elim false fun c => c.held.isSome
      if held then (r.1, true)
      else
        let s := r.1.nmSubmit k.1 true
        match List.find? (fun (p : Nat × NmCmd) => decide (p.2.op = op ∧ p.2.slot = k.2)) s.x.nms with
        | none => (s, false)
        | some p =>
          if p.2.held.isSome then (s, true)
          else if s.nmFree p.2 then (s.nmPerform p.1 p.2, false)
          else (s.modX fun x => x.post 1 (.quantumCommit ((x.teams.find? p.2.team).elim 0 Team.grid)), true)) (s, false)

/-- A residency operation: RHNEW, or one whose four table copies are updated at once (R91, R350). -/
def State.commitRes (s : State) (u : Nat) (e : Staged) : Did :=
  match e.accs with
  | a :: _ =>
    let s := s.rhnew u a
    (s, (s.x.wave? u).elim false fun w => w.pend.any fun p => decide (p.kind = akRhnew))
  | [] =>
    let op := e.arg 3
    let s := s.rhStart (e.arg 0) (e.arg 1) (e.arg 2) op
    ((s.mem.resupd.filter fun r => decide (r.op = op)).foldl (fun s r =>
      if r.kind = ruSweep then s.rhSweep r.die r.h else s.rhUpdate r.id) s, false)

/-- Performs one staged operation of a wave, which has been taken from its list; one that must wait is kept or kept in
part. -/
def State.commitOne (s : State) (u : Nat) (e : Staged) : Did :=
  let again (r : Did) : Did := (if r.2 then r.1.modX fun x => x.keepStaged u e else r.1, r.2)
  if e.kind = skStore ∨ e.kind = skTouch then State.commitEnts e.ents s u e
  else if e.kind = skAtomic ∨ e.kind = skHostLoad then State.commitAccs e.accs s u e
  else if e.kind = skSend then (s.sendStaged (e.arg 0) (e.arg 1), false)
  else if e.kind = skArrive then (s.modX fun x => x.commitBar u e, false)
  else if e.kind = skTbarv then (s.modX fun x => x.commitTb u e, false)
  else if e.kind = skAttach then (s.modX fun x => x.attach u (e.arg 0) (e.arg 1) (e.arg 2), false)
  else if e.kind = skDetach then (s.modX fun x => x.detach u, false)
  else if e.kind = skCopy then again (State.commitLines (e.args.filter fun k => (s.x.copies.find? k).isSome) s)
  else if e.kind = skMatrix then again (s.commitMatrix (e.arg 0))
  else if e.kind = skNmcmd then again (s.commitNm (e.arg 0))
  else if e.kind = skResid then s.commitRes u e
  else match s.x.colls.find? (e.arg 0) with
    | some c => (s.collStart c, false)
    | none => (s, false)

/-- Performs the staged operations of one step of a wave in program order, until one must wait. -/
def State.commitWave : Nat → State → Nat → Nat → Did
  | 0, s, _, _ => (s, false)
  | n + 1, s, u, step =>
    match s.x.wave? u with
    | none => (s, false)
    | some w =>
      match w.staged.find? fun e => decide (e.step = step) with
      | none => (s, false)
      | some e =>
        let i := (findIdx (fun (e : Staged) => decide (e.step = step)) w.staged 0).getD 0
        let s := s.modX fun x => x.modWave u fun w => { w with staged := w.staged.eraseIdx i }
        let r := s.commitOne (e.owner.getD u) e
        if r.2 then r else State.commitWave n r.1 u step

/-- One step of the commit over the waves of a grid in order (R350). -/
def State.commitStep (s : State) (g step : Nat) : Did :=
  (s.x.commitWaves g).foldl (fun (r : Did) p =>
    if r.2 then r else State.commitWave ((r.1.x.wave? p.1).elim 0 fun w => w.staged.length) r.1 p.1 step) (s, false)

/-! ### Step 4: external events and waiting waves (R350, R351) -/

/-- The operations that waves of a grid await by a handle; when it has no wave left, the collectives that its completion waits for
(R129). -/
def Exec.awaited (x : Exec) (g : Nat) : List (Nat × Nat) :=
  ((x.gridWaves g).filterMap fun p => match p.2.hold with
    | some (.handle k) => if (p.2.handle k).ready then none else some (p.2.team, (p.2.handle k).op)
    | _ => none) ++
  if (x.gridWaves g).isEmpty then
    (x.colls.filter fun p => !p.2.done && (x.teams.find? p.2.team).elim false fun m => decide (m.grid = g)).map fun p => (p.2.team, p.1)
  else []

/-- Applies an awaited external event, a message from another rank, what became of one sent to another rank, or a collective's
completion; true when it has not yet come in (R351, R352). -/
def State.external (s : State) (t op : Nat) : Did :=
  match s.x.colls.find? op with
  | some c =>
    if c.done then (s, false)
    else
      let s := s.collStep op true
      (s, (s.x.colls.find? op).elim false fun c => !c.done)
  | none =>
    match s.x.outs.find? op with
    | some v => if s.x.flitsOf op then (s, true) else (s.modX fun x => { x with outs := x.outs.erase op }.complete op v [], false)
    | none =>
    match (s.x.teams.find? t).bind fun m => (List.find? (fun (p : Post) => decide (p.op = op)) m.posts).map fun p => (m, p) with
    | none => (s, false)
    | some (m, p) =>
      if p.rank = s.x.rank then (s, false)
      else match List.find? (fun (q : Msg) => !q.local_ && decide (q.grid = m.grid ∧ q.dteam = m.idx ∧ q.data.length = q.total) && p.takes q) s.x.msgs with
        | some q => (s.arrive q.id, false)
        | none => (s, true)

/-- Every awaited external event of a grid; true when one has not come in. -/
def State.externals (s : State) (g : Nat) : Did :=
  (s.x.awaited g).foldl (fun (r : Did) p =>
    let q := r.1.external p.1 p.2
    (q.1, r.2 || q.2)) (s, false)

/-- The next round opens: waves whose wait is over go on; the quanta of the others, which are held or have no Ready fibre, are
empty, and so was that of a wave whose team was swapped out (R348, R350). -/
def Exec.openRound (x : Exec) (g : Nat) : Exec :=
  let ts := (x.teams.filter fun p => decide (p.2.grid = g)).map (·.1)
  let x := ts.foldl (fun x t => x.wakeTeam t) x
  let ws := (x.gridWaves g).map (·.1)
  let x := x.unholdWhere fun u w => ws.contains u && (match w.hold with
    | some .commit => true
    | some (.retry _) => true
    | _ => false)
  let x := ws.foldl (fun x u => x.modWave u fun w =>
    let waits := w.hold.isSome || !(w.fibs.any fun p => p.2.isReady)
    { w with closed := waits, qcount := 0, quanta := w.quanta + (if w.closed then 0 else 1) + if waits then 1 else 0 }) x
  x.modGrid g fun r => { r with round := r.round + 1 }

/-- Cores that hold teams of a grid. -/
def Exec.gridCores (x : Exec) (g : Nat) : List Nat := dedup ((x.teams.filter fun p => decide (p.2.grid = g)).map fun p => p.2.core)

/-- A HALT or a fatal context fault that the round holds takes effect, or the next round opens: every write and
invalidation of the context has arrived, loads then see the committed state, and a grid barrier at which every wave has arrived lets
them go on in that round (R130, R164, R235, R350). -/
def State.endRound (s : State) (g : Nat) (r : Grid) : State :=
  match r.haltAt with
  | some p => s.modX fun x => (x.endGrid g (if p.2.2.2 < 2 ^ 16 then .halted p.2.2.2 else .faulted)).post 0 (.gridCompletion g)
  | none =>
    let e := s.externals g
    if e.2 then e.1
    else
      let s := (e.1.x.gridCores g).foldl State.l1Clean (e.1.drainCtx r.ctx)
      (s.gridSettle (some g)).modX fun x => x.openRound g

/-- QUANTUM_COMMIT: once every wave of a grid has closed its quantum, its staged operations are performed step by step
(R350); a page fault makes the commit wait (R49), and an awaited external event that has not come in the next round
(R351). -/
def State.commit (s : State) (g : Nat) : State :=
  match s.x.grids.find? g with
  | none => s
  | some r =>
    if !r.determ || !decide (r.st = .running) || !s.x.roundOver g r then s
    else
      let a := s.commitStep g 1
      if a.2 then a.1
      else
        let b := a.1.commitStep g 2
        if b.2 then b.1
        else
          let c := b.1.commitStep g 3
          if c.2 then c.1 else c.1.endRound g ((c.1.x.grids.find? g).getD r)

/-- QUANTUM_COMMIT (R350). -/
def execQuantumCommit (grid : Nat) (s : State) : Out := s.onMem fun s => s.commit grid

end Sys2Proof.Machine
end

