-- ==== Sys2Proof/Machine/Admin.lean ====
section
/-! DEFINITION. The module registers of BAR0, the admin ring and its commands, routing and spares (26 R395 to R399,
R403, R405 to R408, 18 R354, R355, R361). -/

namespace Sys2Proof.Machine

/-! ### Module registers (R398) -/

/-- The module status register. -/
def Trust.statusWord (t : Trust) : Nat :=
  t.status + 2 ^ 3 * t.failStep + 2 ^ 8 * t.failDie + 2 ^ 16 * t.failUnit +
  2 ^ 32 * (if t.failStep = 1 then 0 else t.manifest.version.toNat)

/-- The device hash register: 0 until step 6 has completed (R367, R398). -/
def Trust.hashWord (t : Trust) : Nat := if t.failStep = 0 then deviceHash t.manifest.disabled else 0

/-- What a read of BAR0 gives: the register, or zero where it may not be read (R398). -/
def Trust.regRead (t : Trust) (offset : Nat) : Nat :=
  if offset = 0x00 then t.statusWord
  else if offset = 0x08 then t.hashWord
  else if offset = 0x10 then t.ring.toNat
  else if offset = 0x18 then t.ringSize
  else if offset = 0x28 then t.ringHead % 2 ^ 32
  else if offset = 0x30 then t.logBase.toNat
  else if offset = 0x38 then t.logSize
  else if offset = 0x40 then t.logIdx + 2 ^ 32 * t.logLost
  else 0

/-- Changes the trust state. -/
def State.modT (s : State) (f : Trust → Trust) : State := { s with trust := f s.trust }
/-- An access of BAR0 is dropped and counted (R398). -/
def State.barDrop (s : State) (offset : Nat) : State := s.modX fun x => x.dropAccess 0 offset

/-- A ring base: bits [62:56] and [5:0] are zero (R398). -/
def ringBaseOk (v : BitVec 64) : Bool := decide (bitsOf v.toNat 56 7 = 0 ∧ v.toNat % 64 = 0)

/-- A failed bring-up is written to the module error log once that has a base and a size (R404). -/
def State.postFailure (s : State) : State :=
  let t := s.trust
  if t.status = 3 ∧ t.logBase ≠ 0 ∧ t.logSize ≠ 0 ∧ t.failPosted = false then
    (s.modT fun t => { t with failPosted := true }).modX fun x => x.err { type := 2, die := t.failDie, unit := t.failUnit, detail := t.failStep }
  else s

/-- The base or size of the admin ring, which it takes only while it is empty. -/
def State.ringWrite (s : State) (offset : Nat) (ok : Bool) (f : Trust → Trust) : State :=
  if ok && decide (s.trust.ringHead = s.trust.ringTail) then
    s.modT fun t => { f t with ringHead := 0, ringTail := 0 }
  else s.barDrop offset

/-- The base or size of the module error log, which it takes only while it is empty. -/
def State.logWrite (s : State) (offset : Nat) (ok : Bool) (f : Trust → Trust) : State :=
  if ok && decide (s.trust.logIdx = s.trust.logCons) then
    (s.modT fun t => { f t with logIdx := 0, logCons := 0 }).postFailure
  else s.barDrop offset

/-- ADMIN_RING_BASE_WRITE (R398). -/
def execAdminRingBaseWrite (v : BitVec 64) (s : State) : Out :=
  .next (s.ringWrite 0x10 (ringBaseOk v) fun t => { t with ring := v })
/-- ADMIN_RING_SIZE_WRITE (R398). -/
def execAdminRingSizeWrite (v : BitVec 64) (s : State) : Out :=
  .next (s.ringWrite 0x18 (powerIn 16 4096 v.toNat) fun t => { t with ringSize := v.toNat })
/-- ERROR_LOG_BASE_WRITE (R398). -/
def execErrorLogBaseWrite (v : BitVec 64) (s : State) : Out :=
  .next (s.logWrite 0x30 (ringBaseOk v) fun t => { t with logBase := v })
/-- ERROR_LOG_SIZE_WRITE (R398). -/
def execErrorLogSizeWrite (v : BitVec 64) (s : State) : Out :=
  .next (s.logWrite 0x38 (powerIn 64 65536 v.toNat) fun t => { t with logSize := v.toNat })
/-- ERROR_LOG_CONSUMER (R398). -/
def execErrorLogConsumer (v : BitVec 64) (s : State) : Out :=
  .next (if v.toNat / 2 ^ 32 ≠ 0 then s.barDrop 0x48 else s.modT fun t => { t with logCons := v.toNat })

/-- Registers that a write of the host reaches through a row of its own (R396, R398). -/
def writable (bar0 : Bool) (offset : Nat) : Bool :=
  if bar0 then [0x10, 0x18, 0x20, 0x30, 0x38, 0x48].contains offset else decide (offset % 8 = 0 ∧ offset ≤ 0xa8)

/-- REGISTER_WRITE_OTHER: a read, a write of a register that takes none, or a malformed access (R395, R396, R398); a write of the
fault-response doorbell with a reserved bit set is one. A function reaches no page of a context it has not created. -/
def execRegisterWriteOther (r : RegAccess) (s : State) : Out :=
  .next (
    let whole := decide (r.size = 8 ∧ r.offset % 8 = 0)
    if r.bar0 then
      if decide (r.fn = 0) && whole && !r.write then s.modT fun t => { t with hostRead := leBytes 8 (t.regRead r.offset) }
      else if decide (r.fn = 0) && whole && writable true r.offset then s
      else s.barDrop r.offset
    else
      match s.x.ctxs.find? r.ctx with
      | none => s
      | some k =>
        if k.owner ≠ r.fn then s
        else if whole && r.write && writable false r.offset && !(decide (r.offset = 0x80) && decide (2 ^ 33 ≤ r.value.toNat)) then s
        else s.modX fun x => x.dropAccess r.ctx r.offset)

/-! ### The admin ring (R397 to R399) -/

/-- The entry at an index of the admin ring (R319, R397). -/
def State.adminAt (s : State) (j : Nat) : List Byte := s.mem.readPhys (s.trust.ring.toNat + 64 * (j % s.trust.ringSize)) 64

/-- An address operand: 64-bit, host memory with bit 63 set, else within the storage of one window (R62, R399, log entry 55, DEDUCED). -/
def areaOk (a n : Nat) : Bool :=
  if bitOf a 63 then decide (a % 2 ^ 63 + n ≤ 2 ^ 56) else decide (a < 2 ^ 40 ∧ a % 2 ^ 38 + n ≤ dieBytes)

/-- Whether the fields of an entry that the tables of R399 give are in range, and all others zero. -/
def adminOk (b : List Byte) : Bool :=
  let op := fieldAt b 0 1
  let z (i n : Nat) : Bool := decide (fieldAt b i n = 0)
  let ctx := decide (1 ≤ fieldAt b 8 2)
  decide (fieldAt b 1 1 < 2) && z 2 2 &&
  (if op = 16 then
     ctx && decide (fieldAt b 10 1 ≤ 63) && z 11 1 && powerIn 16 65536 (fieldAt b 12 4) && decide (fieldAt b 16 8 % 64 = 0) &&
     decide (fieldAt b 24 8 % 8 = 0) && decide (fieldAt b 32 8 % 65536 = 0 ∧ fieldAt b 40 8 % 65536 = 0 ∧ fieldAt b 40 8 ≠ 0) &&
     !bitOf (fieldAt b 32 8) 63 && areaOk (fieldAt b 16 8) (64 * fieldAt b 12 4) && areaOk (fieldAt b 24 8) 8 &&
     areaOk (fieldAt b 32 8) (fieldAt b 40 8) && z 48 16
   else if op = 17 then ctx && z 10 54
   else if op = 18 then
     ctx && decide (fieldAt b 10 1 ≤ 15 ∧ fieldAt b 11 1 ≤ 11) && powerIn 16 65536 (fieldAt b 12 4) &&
     decide (fieldAt b 16 8 % 64 = 0 ∧ fieldAt b 24 8 % 8 = 0) && areaOk (fieldAt b 16 8) (64 * fieldAt b 12 4) &&
     areaOk (fieldAt b 24 8) 8 && z 32 32
   else if op = 19 then ctx && decide (fieldAt b 10 1 ≤ 15) && z 11 53
   else if op = 20 then
     decide (1 ≤ fieldAt b 12 4 ∧ fieldAt b 8 4 + fieldAt b 12 4 ≤ 2097152) && areaOk (fieldAt b 16 8) (fieldAt b 12 4) &&
     decide (fieldAt b 24 4 < 2097152 ∨ fieldAt b 24 4 = 0xffffffff) && decide (fieldAt b 28 1 < 2) && z 29 35
   else if op = 21 then
     decide (fieldAt b 12 1 < 2) && z 13 3 && z 32 32 &&
     (if fieldAt b 12 1 = 1 then z 16 4 && z 24 8
      else decide (1 ≤ fieldAt b 16 4 ∧ fieldAt b 16 4 ≤ 2097152) && areaOk (fieldAt b 24 8) (4 * fieldAt b 16 4))
   else decide (op = 22 ∧ fieldAt b 8 1 ≤ 3 ∧ fieldAt b 9 1 ≤ 1 ∧ fieldAt b 10 2 < (if fieldAt b 9 1 = 0 then 160 else 48)) && z 12 52)

/-- The step that takes an admin entry. -/
def adminEv (b : List Byte) : Ev :=
  let op := fieldAt b 0 1
  if op = 16 then .ctxnew else if op = 17 then .ctxdel else if op = 18 then .qnew else if op = 19 then .qdel
  else if op = 20 then .route else if op = 21 then (if fieldAt b 12 1 = 0 then .groupInstall else .groupRemove) else .spare

/-- The error record of an entry that is not performed (R320, R397). -/
def State.adminRefuse (s : State) (b : List Byte) : State := s.modX fun x => x.err { type := 9, detail := cmdSeq b }

/-- The head advances past an entry. -/
def State.adminTake (s : State) : State := s.modT fun t => { t with ringHead := t.ringHead + 1 }

/-- Goes on to the next entry, passing over those that are not performed. -/
def State.adminKick : Nat → State → State
  | 0, s => s
  | n + 1, s =>
    if s.trust.ringTail ≤ s.trust.ringHead then s
    else
      let b := s.adminAt s.trust.ringHead
      if adminOk b then s.modX fun x => x.post 1 (adminEv b) else State.adminKick n (s.adminRefuse b).adminTake
def State.adminNext (s : State) : State := s.adminKick (s.trust.ringTail - s.trust.ringHead)

/-- ADMIN_TAIL_DOORBELL: entries written before the ring has a base and a size, or while the module is not ready, are
not read; otherwise as for a submission queue (R319, R321, R398). -/
def execAdminTailDoorbell (v : BitVec 64) (s : State) : Out :=
  .next (
    let t := s.trust
    let d := (v.toNat + 2 ^ 32 - t.ringTail % 2 ^ 32) % 2 ^ 32
    if v.toNat / 2 ^ 32 ≠ 0 then s.barDrop 0x20
    else if t.ring = 0 ∨ t.ringSize = 0 ∨ t.status ≠ 1 then s
    else if t.ringSize < t.ringTail - t.ringHead + d then s.barDrop 0x20
    else
      let busy := decide (t.ringHead < t.ringTail)
      let s := (s.modT fun t => { t with ringTail := t.ringTail + d }).modX fun x => x.post 1 .launchDispatch
      if busy then s else s.adminNext)

/-- Takes the entry at the head when it is of the step's kind: `f` gives the state it leaves, or nothing when a check
of R399 fails. -/
def State.admin (s : State) (e : Ev) (f : List Byte → State → Option State) : State :=
  if s.trust.status ≠ 1 ∨ s.trust.ringTail ≤ s.trust.ringHead then s
  else
    let b := s.adminAt s.trust.ringHead
    if !adminOk b || !decide (adminEv b = e) then s
    else (((f b s).getD (s.adminRefuse b)).adminTake).adminNext

/-! ### Contexts and queues -/

/-- Areas that a context's rings and image take. -/
def Ctx.areas (k : Ctx) : List (Nat × Nat) :=
  (k.errBase, 64 * k.errSize) :: (k.imgBase, k.imgSize) :: k.queues.map fun q => (q.2.base, 64 * q.2.size)

/-- Whether an area meets one of another context (R399). -/
def Exec.overlaps (x : Exec) (c a n : Nat) : Bool :=
  x.ctxs.any fun p => !decide (p.1 = c) && p.2.areas.any fun r => decide (r.1 < a + n ∧ a < r.1 + r.2)

/-- CTXNEW (R397, R399): the context takes a fresh image key (R401). -/
def execCtxnew (s : State) : Out := .next (s.admin .ctxnew fun b s =>
  let c := fieldAt b 8 2
  if (s.x.ctxs.find? c).isSome || s.x.overlaps c (fieldAt b 16 8) (64 * fieldAt b 12 4) ||
      s.x.overlaps c (fieldAt b 32 8) (fieldAt b 40 8) then none
  else
    let t := s.x.take
    let k : Ctx :=
      { owner := fieldAt b 10 1, errSize := fieldAt b 12 4, errBase := fieldAt b 16 8, errStat := fieldAt b 24 8,
        imgBase := fieldAt b 32 8, imgSize := fieldAt b 40 8 }
    some { s with x := { t.2 with ctxs := t.2.ctxs.insert c k }
                  trust := { s.trust with imgKeys := s.trust.imgKeys.insert c (2 ^ 513 + t.1) } })

/-- A context's grids end, its queues are read no more and its handles are freed (R91, R397). -/
def State.ctxEnd (s : State) (c : Nat) : State :=
  let gs := (s.x.grids.filter fun g => decide (g.2.ctx = c)).map (·.1)
  let s := s.modX fun x =>
    gs.foldl (fun x g => (x.endGrid g (.halted 0)).post 0 (.gridCompletion g))
      (x.modCtx c fun k => { k with deleting := true, queues := [] })
  (dedup ((s.mem.resh.filter fun h => decide (h.2.ctx = c)).map fun h => h.1 % 4096)).foldl (fun s h => s.rhStart ruFree h 0 0) s

/-- A context whose grids are gone leaves the module: its keys are erased and its identifier is free (R397, R401). -/
def State.ctxErase (s : State) (c : Nat) : State :=
  { s with x := { s.x with ctxs := s.x.ctxs.erase c }
           trust := { s.trust with
             keys := s.trust.keys.filter (fun k => !decide (k.1 / 4 = c)), imgKeys := s.trust.imgKeys.erase c } }

/-- CTXDEL: the head advances once every team of the context is gone (R347, R397, R398, log entry 51, DESIGN CHOICE). -/
def execCtxdel (s : State) : Out := .next (
  let b := s.adminAt s.trust.ringHead
  let c := fieldAt b 8 2
  match s.x.ctxs.find? c with
  | none => s.admin .ctxdel fun _ _ => none
  | some k =>
    if s.trust.status ≠ 1 ∨ s.trust.ringTail ≤ s.trust.ringHead ∨ adminOk b = false ∨ adminEv b ≠ .ctxdel then s
    else
      let s := if k.deleting then s else s.ctxEnd c
      if s.x.grids.any fun g => decide (g.2.ctx = c) then s.modX fun x => x.post 64 .ctxdel
      else s.admin .ctxdel fun _ s => some (s.ctxErase c))

/-- QNEW (R319, R399). -/
def execQnew (s : State) : Out := .next (s.admin .qnew fun b s =>
  let c := fieldAt b 8 2
  let q := fieldAt b 10 1
  match s.x.ctxs.find? c with
  | none => none
  | some k =>
    if (k.queues.find? q).isSome || s.x.overlaps c (fieldAt b 16 8) (64 * fieldAt b 12 4) then none
    else
      let t := s.x.take
      let r : Queue :=
        { ceil := fieldAt b 11 1, size := fieldAt b 12 4, base := fieldAt b 16 8, head := fieldAt b 24 8, gen := t.1 }
      some { s with x := t.2.modCtx c fun k => { k with queues := k.queues.insert q r } })

/-- QDEL: the device stops reading the queue (R399). -/
def execQdel (s : State) : Out := .next (s.admin .qdel fun b s =>
  let c := fieldAt b 8 2
  let q := fieldAt b 10 1
  if (s.x.queue? c q).isNone then none
  else some (s.modX fun x => x.modCtx c fun k => { k with queues := k.queues.erase q }))

/-! ### Routes and groups (R354, R355, R361) -/

/-- A spare-refused entry (R407). -/
def State.spareRefused (s : State) (die unit : Nat) : State := s.modX fun x => x.err { type := 12, die := die, unit := unit }

/-- ROUTE: entries of the routing table, the module's own rank, and the replay to a spare that takes a rank over
(R354, R361, R399). -/
def execRoute (s : State) : Out := .next (s.admin .route fun b s =>
  let first := fieldAt b 8 4
  let n := fieldAt b 12 4
  let takeover := bitOf (fieldAt b 28 1) 0
  let l := (s.mem.readPhys (fieldAt b 16 8) n).map BitVec.toNat
  if takeover && !bitOf s.trust.manifest.policy.toNat 2 then some ((s.spareRefused 255 65535).adminRefuse b)
  else if !(l.all fun p => decide (p < 32 ∨ p = 255)) then none
  else
    let s := s.modX fun x =>
      { x with routes := l.zipIdx.foldl (fun (m : SMap Nat) p => m.put 255 (first + p.2) p.1) x.routes
               rank := if fieldAt b 24 4 = 0xffffffff then x.rank else fieldAt b 24 4 }
    let ranks := dedup (s.x.colls.flatMap fun p => s.x.collMembers p.2)
    let s := if takeover then
        (ranks.filter fun r => decide (first ≤ r ∧ r < first + n)).foldl State.collReplay s
      else s
    some s.reroute)

/-- Whether numbers rise strictly. -/
def rising : List Nat → Bool
  | a :: b :: r => decide (a < b) && rising (b :: r)
  | _ => true

/-- GROUP_INSTALL (R355, R399). -/
def execGroupInstall (s : State) : Out := .next (s.admin .groupInstall fun b s =>
  let raw := s.mem.readPhys (fieldAt b 24 8) (4 * fieldAt b 16 4)
  let l := (List.range (fieldAt b 16 4)).map fun i => fieldAt raw (4 * i) 4
  if (s.x.groups.find? (fieldAt b 8 4)).isSome || !rising l || l.any (fun r => decide (2097152 ≤ r)) then none
  else some (s.modX fun x => { x with groups := x.groups.insert (fieldAt b 8 4) ⟨l, fieldAt b 20 4, 0⟩ }))

/-- GROUP_REMOVE (R399). -/
def execGroupRemove (s : State) : Out := .next (s.admin .groupRemove fun b s =>
  some (s.modX fun x => { x with groups := x.groups.erase (fieldAt b 8 4) }))

/-! ### Spares (R403, R405, R407, R408) -/

/-- The physical slice that carries a logical number of a die: the manifest's, or a spare's. -/
def Trust.physSlice (t : Trust) (die k : Nat) : Nat :=
  match t.sliceMap.find? (48 * die + k) with
  | some p => p
  | none => (findIdx (fun n => decide (n = k)) (t.manifest.slices.getD die []) 0).getD 0

/-- The unit number that entries give a named core or slice. -/
def State.unitOf (s : State) (die kind k : Nat) : Nat :=
  if kind = 0 then (s.physCore die k).getD 65535 else s.trust.physSlice die k

/-- Physical units of a die and kind that carry no logical number. -/
def State.spareUnits (s : State) (die kind : Nat) : List Nat :=
  if kind = 0 then
    let used := (List.range 160).filterMap fun k => s.physCore die k
    ((List.range 168).map (168 * die + ·)).filter fun u => !used.contains u
  else
    let used := (List.range 48).map (s.trust.physSlice die)
    (List.range 52).filter fun u => !used.contains u

/-- SPARE: refused by the policy, by its maximum, or while the same unit is being spared; otherwise a spare-begin entry
is written and the unit drains (R407, R408). -/
def execSpare (s : State) : Out := .next (s.admin .spare fun b s =>
  let p : SpareOp := ⟨fieldAt b 8 1, fieldAt b 9 1, fieldAt b 10 2⟩
  let u := s.unitOf p.die p.kind p.unit
  let policy := s.trust.manifest.policy.toNat
  if !bitOf policy p.kind || decide (bitsOf policy 8 4 ≤ s.trust.spareCount) || s.trust.spares.contains p then
    some (s.spareRefused p.die u)
  else
    some ((s.modT fun t => { t with spares := t.spares ++ [p], spareCount := t.spareCount + 1 }).modX fun x =>
      (x.err { type := 10, die := p.die, unit := u }).post 1 (.spareSwap p.die p.kind p.unit)))

/-- Whether a core still holds a team or an image, or a team of a cohort grid that goes on (R407, R408). -/
def Exec.coreHeld (x : Exec) (core : Nat) : Bool :=
  x.teams.any fun p => decide (p.2.core = core) &&
    (decide (p.2.st = .resident) || !p.2.saving.isEmpty || (decide (p.2.st = .ended) && (x.lrecOf p.2).cohort))

/-- A slice's dirty sectors are written back and its squares evicted, but for those a near-memory unit holds (R81,
R126) (log entry 61, DESIGN CHOICE). -/
def State.emptySlice (s : State) (slice : Nat) : State :=
  let here := (s.mem.sqs.map (·.2)).filter fun q => decide (q.holder = slice) && !q.hold
  here.foldl (fun s q => (s.drainSq q.id).evictSq q) s

/-- SPARE_SWAP: once the unit is empty, its logical number goes to a free physical unit, which one is open, and a
spare-end entry is written (R407, log entry 49, DESIGN CHOICE). -/
def execSpareSwap (die kind unit : Nat) (s : State) : Out := .next (
  let p : SpareOp := ⟨die, kind, unit⟩
  if !s.trust.spares.contains p then s
  else
    let u := s.unitOf die kind unit
    let s := if kind = 0 then s else s.emptySlice (48 * die + unit)
    let waits := if kind = 0 then s.x.coreHeld u
      else s.mem.sqs.any fun q => decide (q.2.holder = 48 * die + unit)
    if waits then s.modX fun x => x.post 64 (.spareSwap die kind unit)
    else
      let l := s.spareUnits die kind
      let v := l.getD ((Config.freeWord s.x.free).toNat % l.length) u
      let s := if kind = 0 then (s.release u).modM fun m => { m with l1 := m.l1.filter fun c => !decide (c.core = u) } else s
      let s := s.modT fun t =>
        { t with spares := t.spares.filter (fun q => !decide (q = p))
                 coreMap := if kind = 0 then t.coreMap.insert (160 * die + unit) v else t.coreMap
                 sliceMap := if kind = 0 then t.sliceMap else t.sliceMap.insert (48 * die + unit) v }
      s.modX fun x => (({ x with free := x.free + 1 } : Exec).err { type := 11, die := die, unit := v }).post 0 .teamPlacement)

/-- The number that a unit's corrected errors are counted under: its kind, die and number (R405, R406). -/
def corrKey (e : CorrErr) : Nat :=
  2 ^ 32 * (match e.kind with | .stack => 0 | .slice => 1 | .core => 2 | .port => 3) + 65536 * e.die + e.unit

/-- CORRECTED_ERROR_REPORT: a unit's count is written at most once in 2^20 cycles (R405). -/
def execCorrectedErrorReport (e : CorrErr) (s : State) : Out := .next (
  let key := corrKey e
  let c := s.trust.corr.get (0, 0) key
  if c.1 ≤ s.x.tick then
    (s.modT fun t => { t with corr := t.corr.insert key (s.x.tick + 2 ^ 20, 0) }).modX fun x =>
      x.err { type := 1, die := e.die, unit := e.unit, ctx := e.ctx, count := (c.2 + e.count) % 2 ^ 32 }
  else s.modT fun t => { t with corr := t.corr.insert key (c.1, c.2 + e.count) })

end Sys2Proof.Machine
end

