-- ==== Sys2Proof/Machine/Trust.lean ====
section
/-! DEFINITION. The root of trust: SPDM, SETKEY, TDISP, reset, and host accesses to device memory (26 R395, R400 to
R404). The codes of SPDM messages and the order of a session's messages are those of the SPDM family (log entry 26, PRESUMED). -/

namespace Sys2Proof.Machine

/-! ### SPDM (R400, R404) -/

/-- The session of a function. -/
def Trust.session (t : Trust) (fn : Nat) : Spdm := t.spdm.get {} fn
/-- A response to a function. -/
def Trust.answer (t : Trust) (fn : Nat) (b : List Byte) : Trust := { t with resp := t.resp ++ [(fn, b)] }
/-- A response message: version 1.3, its code, two parameters. -/
def spdmMsg (code p1 p2 : Nat) : List Byte := [0x13, BitVec.ofNat 8 code, BitVec.ofNat 8 p1, BitVec.ofNat 8 p2]
/-- The error responses UnexpectedRequest and InvalidRequest. -/
def spdmUnexpected : List Byte := spdmMsg 0x7f 4 0
def spdmInvalid : List Byte := spdmMsg 0x7f 1 0

/-- Whether the root of trust answers a request: in BOOTFAIL only three, in BRINGUPFAIL all but three (R404). -/
def Trust.answers (t : Trust) (code : Nat) : Bool :=
  if t.status = 2 then [0x84, 0xe1, 0xe0].contains code
  else if t.status = 3 then !([0xe4, 0xe5, 0xe9].contains code)
  else true

/-- One request: `ok` says when the session is ready for it; `f` gives the new session. -/
def Trust.spdmStep (t : Trust) (r : SpdmReq) (code : Nat) (ok : Spdm → Bool) (f : Spdm → Spdm) (body : List Byte) : Trust :=
  if !t.answers code then t
  else
    let d := t.session r.fn
    if ok d then ({ t with spdm := t.spdm.put {} r.fn (f d) } : Trust).answer r.fn body else t.answer r.fn spdmUnexpected

/-- A meaning that acts on the trust state only. -/
def State.onT (f : Trust → Trust) (s : State) : Out := .next { s with trust := f s.trust }

/-- A request whose response has no content but what the session keeps. -/
def State.spdm (s : State) (r : SpdmReq) (code : Nat) (ok : Spdm → Bool) (f : Spdm → Spdm) : Out :=
  s.onT fun t => t.spdmStep r code ok f (spdmMsg (code - 0x80) 0 0)

/-- GET_VERSION (R400): the responder knows SPDM 1.3; a negotiation begins anew. -/
def execGetVersion (r : SpdmReq) (s : State) : Out := s.onT fun t =>
  t.spdmStep r 0x84 (fun _ => true) (fun _ => { version := true }) ([0x10, 0x04, 0, 0, 0, 1] ++ [0x00, 0x13])
/-- GET_CAPABILITIES (R400). -/
def execGetCapabilities (r : SpdmReq) (s : State) : Out := s.spdm r 0xe1 Spdm.version fun d => { d with caps := true }
/-- NEGOTIATE_ALGORITHMS (R400). -/
def execNegotiateAlgorithms (r : SpdmReq) (s : State) : Out := s.spdm r 0xe3 Spdm.caps fun d => { d with algs := true }
/-- GET_DIGESTS (R400). -/
def execGetDigests (r : SpdmReq) (s : State) : Out := s.spdm r 0x81 Spdm.algs id
/-- GET_CERTIFICATE (R400). -/
def execGetCertificate (r : SpdmReq) (s : State) : Out := s.spdm r 0x82 Spdm.algs id
/-- CHALLENGE (R400). -/
def execChallenge (r : SpdmReq) (s : State) : Out := s.spdm r 0x83 Spdm.algs id

/-- Measurement i in bytes, if it is reported (R400, R404): none past a failed step. -/
def Trust.measurement (t : Trust) (i : Nat) : Option (List Byte) :=
  if 1 ≤ i ∧ i ≤ 5 then (t.digests[i - 1]?).map fun d => leBytes 32 d.toNat
  else if i = 6 then (if t.status = 2 then none else some (leBytes 4 t.manifest.version.toNat))
  else if i = 7 then (if t.failStep = 0 then some (leBytes 8 t.hashWord) else none)
  else none
/-- A measurement block: index, size, value. -/
def measurementBlock (i : Nat) (b : List Byte) : List Byte := [BitVec.ofNat 8 i] ++ leBytes 2 b.length ++ b

/-- GET_MEASUREMENTS (R400): the number of blocks, all of them, or one. -/
def execGetMeasurements (r : SpdmReq) (s : State) : Out := s.onT fun t =>
  let all := (List.range 8).filterMap fun i => (t.measurement i).map fun b => (i, b)
  let op := (r.payload.getD 1 0).toNat
  let body := if op = 0 then spdmMsg 0x60 all.length 0
    else if op = 255 then spdmMsg 0x60 0 0 ++ (all.map fun p => measurementBlock p.1 p.2).flatten
    else match t.measurement op with
      | some b => spdmMsg 0x60 0 0 ++ measurementBlock op b
      | none => spdmInvalid
  t.spdmStep r 0xe0 Spdm.caps id body

/-- KEY_EXCHANGE (R400). -/
def execKeyExchange (r : SpdmReq) (s : State) : Out :=
  s.spdm r 0xe4 (fun d => d.algs && !d.session) fun d => { d with pending := true }
/-- FINISH (R400): the secure session is established. -/
def execFinish (r : SpdmReq) (s : State) : Out :=
  s.spdm r 0xe5 Spdm.pending fun d => { d with pending := false, session := true, keys := 0 }
/-- KEY_UPDATE (R400). -/
def execKeyUpdate (r : SpdmReq) (s : State) : Out :=
  s.spdm r 0xe9 (fun d => d.session && r.secure) fun d => { d with keys := d.keys + 1 }
/-- HEARTBEAT (R400). -/
def execHeartbeat (r : SpdmReq) (s : State) : Out := s.spdm r 0xe8 (fun d => d.session && r.secure) id
/-- END_SESSION (R400). -/
def execEndSession (r : SpdmReq) (s : State) : Out :=
  s.spdm r 0xec (fun d => d.session && r.secure) fun d => { d with session := false, keys := 0 }

/-! ### SETKEY (R401, R402) -/

/-- The status of a SETKEY: malformed first, then the VF, the context, and the slot (log entry 27, DEDUCED). -/
def State.setkeyStatus (s : State) (fn : Nat) (b : List Byte) : Nat :=
  let c := fieldAt b 2 2
  if b.length ≠ 72 ∨ fieldAt b 0 1 ≠ 1 ∨ fieldAt b 4 4 ≠ 0 ∨ 3 < fieldAt b 1 1 ∨ fieldAt b 8 32 = fieldAt b 40 32 then 4
  else if fn = 0 ∨ s.trust.tdisp.find? fn ≠ some .run then 2
  else match s.x.ctxs.find? c with
    | none => 3
    | some k =>
      if k.owner ≠ fn ∨ k.deleting = true then 3
      else if (s.trust.keys.find? (4 * c + fieldAt b 1 1)).isSome then 1 else 0

/-- SETKEY (R401, R402): outside a secure session it is answered UnexpectedRequest and installs nothing; a vendor-defined request
with other vendor fields is no SETKEY and is answered InvalidRequest (log entry 27, DESIGN CHOICE). A root of trust in
BOOTFAIL answers no such request (R404). -/
def execSetkey (r : SpdmReq) (s : State) : Out :=
  let t := s.trust
  if t.status ≠ 1 ∧ t.status ≠ 3 then .next s
  else if !r.secure || !(t.session r.fn).session then s.onT fun t => t.answer r.fn spdmUnexpected
  else if !r.vendor then s.onT fun t => t.answer r.fn spdmInvalid
  else
    let b := r.payload
    let st := s.setkeyStatus r.fn b
    let slot := fieldAt b 1 1
    let reply : List Byte := [0x81, BitVec.ofNat 8 slot, BitVec.ofNat 8 st, 0, 0, 0, 0, 0]
    s.onT fun t => (if st = 0 then
      ({ t with keys := t.keys.insert (4 * fieldAt b 2 2 + slot) (BitVec.ofNat 512 (fieldAt b 8 64)) } : Trust) else t).answer r.fn
        (spdmMsg 0x7e 0 0 ++ reply)

/-! ### TDISP (R395) -/

/-- Whether an interface state follows another: locked, started, stopped, or failed (log entry 26, PRESUMED). -/
def tdispMay (a b : TdispState) : Bool :=
  match a, b with
  | .configUnlocked, .configLocked => true
  | .configLocked, .run => true
  | _, .configUnlocked => true
  | .configLocked, .error => true
  | .run, .error => true
  | _, _ => false

/-- TDISP_INTERFACE_REQUEST (R395): the PF has no device interface, and in BOOTFAIL nothing answers (R404). -/
def execTdispInterfaceRequest (fn : Nat) (target : TdispState) (s : State) : Out := s.onT fun t =>
  if t.status ≠ 2 ∧ 1 ≤ fn ∧ fn ≤ 63 ∧ tdispMay (t.tdisp.get .configUnlocked fn) target = true then
    { t with tdisp := t.tdisp.put .configUnlocked fn target } else t

/-- VF_REQUEST_DROPPED (R395): a request to a VF in RUN outside its selective IDE stream is dropped and counted. -/
def execVfRequestDropped (fn : Nat) (s : State) : Out := s.onX fun x =>
  if s.trust.tdisp.find? fn = some .run then x.err { type := 9, detail := fn } else x

/-! ### Reset (R403, R404) -/

/-- Whether a manifest passes the checks of step 2 (R403). -/
def manifestValid (m : Manifest) : Bool :=
  m.keyMatches && m.signed && m.reservedZero && decide (m.magic = 0x5a584d46 ∧ m.part = 0x5a580004) &&
  decide (m.cores.length = 4) &&
  m.cores.all (fun c => decide (c.toNat < 2 ^ 168) && decide (((List.range 168).filter (bitOf c.toNat)).length = 160)) &&
  decide (m.slices.length = 4) &&
  m.slices.all (fun l => decide (l.length = 52) && l.all (fun n => decide (n < 48 ∨ n = 255)) &&
    (List.range 48).all fun k => decide ((l.filter fun n => decide (n = k)).length = 1)) &&
  decide (bitsOf m.policy.toNat 12 20 = 0 ∧ bitsOf m.policy.toNat 3 5 = 0)

/-- The step that fails, with its unit: a manifest that fails its checks fails step 2 (R404). -/
def bootFailure (b : BootInput) : Option (Nat × Nat × Nat) :=
  match b.fail with
  | some (1, d, u) => some (1, d, u)
  | f => if manifestValid b.manifest then f else some (2, 255, 65535)

/-- The trust state that a reset leaves. -/
def bootTrust (b : BootInput) : Trust :=
  match bootFailure b with
  | none => { status := 1, manifest := b.manifest, digests := b.digests.take 5 }
  | some (n, d, u) =>
    if n ≤ 3 then { status := 2, failStep := n, failDie := d, failUnit := u, manifest := b.manifest }
    else { status := 3, failStep := n, failDie := d, failUnit := u, manifest := b.manifest, digests := b.digests.take 5 }

/-- Device memory after a reset: zero once step 4 has completed, untouched before it; when step 4 fails, each sector is
zero or not, which is open (R404, log entry 53, DEDUCED). -/
def MemSys.boot (m : MemSys) (failStep free : Nat) : MemSys :=
  if failStep = 0 ∨ 4 < failStep then { host := m.host }
  else
    let kept (sec : Nat) : Bool := decide (failStep < 4) || bitOf (Config.freeByte (2 ^ 40 * (free + 1) + sec)).toNat 0
    { host := m.host, dev := m.dev.filter (fun p => kept (p.1 / 32)), sealed := m.sealed.filter (fun p => kept p.1)
      pois := m.pois.filter kept, unc := m.unc.filter kept, uncw := m.uncw.filter kept }

/-- RESET (R404): every other state is as after power-on; a failed bring-up is logged when the log has a base (R404). -/
def execReset (b : BootInput) (s : State) : Out :=
  let t := bootTrust b
  .next { trust := t, mem := s.mem.boot t.failStep s.x.free, x := { free := s.x.free + 1 } }

/-! ### Host accesses (R62, R68, R401) -/

/-- Whether R62 gives every byte of a span storage. -/
def stored (pa n : Nat) : Bool := decide (pa + n ≤ 2 ^ 40) && decide (pa % 2 ^ 38 + n ≤ dieBytes)

/-- A host write of one sector: it is stored as written, and the whole sector then stands as the host sees it. -/
def MemSys.hostSector (m : MemSys) (sec off : Nat) (b : List Byte) : MemSys :=
  let old := (List.range 32).map fun i => m.hostView (32 * sec + i)
  let mask := maskAt off b.length
  let m := m.putDev (32 * sec) (mergeBytes mask old (placeAt off b))
  let m := { m with
    sealed := m.sealed.put 0 sec 1
    rdc := m.rdc.filter fun c => !decide (c.sec = sec) }
  if mask = fullMask then { m with pois := setDel m.pois sec, unc := setDel m.unc sec } else m

/-- A host write of bytes at a storage address. -/
def MemSys.hostWrite (m : MemSys) (sa : Nat) (b : List Byte) : MemSys :=
  ((List.range ((sa + b.length + 31) / 32 - sa / 32)).map (sa / 32 + ·)).foldl (fun m sec =>
    let lo := max sa (32 * sec)
    let hi := min (sa + b.length) (32 * sec + 32)
    m.hostSector sec (lo - 32 * sec) ((b.drop (lo - sa)).take (hi - lo))) m

/-- Whether a span meets the context-image area of a context (R11). -/
def Exec.inImage (x : Exec) (pa n : Nat) : Bool := x.ctxs.any fun c => decide (c.2.imgBase < pa + n ∧ pa < c.2.imgBase + c.2.imgSize)

/-- HOST_ACCESS_TO_DEVICE_MEMORY (R401): what a sealed sector holds is read as ciphertext (log entry 56, DEDUCED). No access
reaches a context image (R11): a write there is dropped, and a read returns free bytes (log entry 76, DESIGN CHOICE). -/
def execHostAccessToDeviceMemory (a : HostAccess) (s : State) : Out :=
  let n := if a.write then a.bytes.length else a.count
  let sa := storageAt (a.pa / 2 ^ 38 % 4) a.pa
  if !stored a.pa n then .fault (.noStorage a.pa)
  else if s.x.inImage a.pa n then
    .next (if a.write then s else
      (s.modT fun t => { t with hostRead := (List.range n).map fun i => Config.freeByte (2 ^ 40 * (s.x.free + 1) + i) }).modX
        fun x => { x with free := x.free + 1 })
  else if a.write then .next (s.modM fun m => m.hostWrite sa a.bytes)
  else .next (s.modT fun t => { t with hostRead := (List.range n).map fun i => s.mem.hostView (sa + i) })

end Sys2Proof.Machine
end

