-- ==== Sys2Proof/Machine/Dispatch.lean ====
section
/-! DEFINITION. One arm for each constructor of `Instr`: a direct call of its meaning. -/

namespace Sys2Proof.Machine

def exec (i : Instr) (s : State) : Host.Outcome State Fault Refusal :=
  match i with
  | .nop w => Sys2Proof.Machine.execNop w s
  | .bra w => Sys2Proof.Machine.execBra w s
  | .brp w => Sys2Proof.Machine.execBrp w s
  | .brx w => Sys2Proof.Machine.execBrx w s
  | .call w => Sys2Proof.Machine.execCall w s
  | .callx w => Sys2Proof.Machine.execCallx w s
  | .ret w => Sys2Proof.Machine.execRet w s
  | .loopw w => Sys2Proof.Machine.execLoopw w s
  | .fspawn w => Sys2Proof.Machine.execFspawn w s
  | .fquit w => Sys2Proof.Machine.execFquit w s
  | .rejoin w => Sys2Proof.Machine.execRejoin w s
  | .yield w => Sys2Proof.Machine.execYield w s
  | .attach w => Sys2Proof.Machine.execAttach w s
  | .detach w => Sys2Proof.Machine.execDetach w s
  | .bararv w => Sys2Proof.Machine.execBararv w s
  | .barwt w => Sys2Proof.Machine.execBarwt w s
  | .barsyn w => Sys2Proof.Machine.execBarsyn w s
  | .gridbar w => Sys2Proof.Machine.execGridbar w s
  | .cvset w => Sys2Proof.Machine.execCvset w s
  | .hwait w => Sys2Proof.Machine.execHwait w s
  | .htest w => Sys2Proof.Machine.execHtest w s
  | .hcancel w => Sys2Proof.Machine.execHcancel w s
  | .hmov w => Sys2Proof.Machine.execHmov w s
  | .fence w => Sys2Proof.Machine.execFence w s
  | .qsync w => Sys2Proof.Machine.execQsync w s
  | .sleepw w => Sys2Proof.Machine.execSleepw w s
  | .iadd w => Sys2Proof.Machine.execIadd w s
  | .isub w => Sys2Proof.Machine.execIsub w s
  | .iaddc w => Sys2Proof.Machine.execIaddc w s
  | .isubb w => Sys2Proof.Machine.execIsubb w s
  | .imul w => Sys2Proof.Machine.execImul w s
  | .imulh w => Sys2Proof.Machine.execImulh w s
  | .imulhu w => Sys2Proof.Machine.execImulhu w s
  | .imad w => Sys2Proof.Machine.execImad w s
  | .iadd64 w => Sys2Proof.Machine.execIadd64 w s
  | .imad64 w => Sys2Proof.Machine.execImad64 w s
  | .idiv w => Sys2Proof.Machine.execIdiv w s
  | .idivu w => Sys2Proof.Machine.execIdivu w s
  | .irem w => Sys2Proof.Machine.execIrem w s
  | .iremu w => Sys2Proof.Machine.execIremu w s
  | .imin w => Sys2Proof.Machine.execImin w s
  | .imax w => Sys2Proof.Machine.execImax w s
  | .iminu w => Sys2Proof.Machine.execIminu w s
  | .imaxu w => Sys2Proof.Machine.execImaxu w s
  | .iabs w => Sys2Proof.Machine.execIabs w s
  | .ineg w => Sys2Proof.Machine.execIneg w s
  | .iand w => Sys2Proof.Machine.execIand w s
  | .ior w => Sys2Proof.Machine.execIor w s
  | .ixor w => Sys2Proof.Machine.execIxor w s
  | .inot w => Sys2Proof.Machine.execInot w s
  | .iandn w => Sys2Proof.Machine.execIandn w s
  | .shl w => Sys2Proof.Machine.execShl w s
  | .shr w => Sys2Proof.Machine.execShr w s
  | .sar w => Sys2Proof.Machine.execSar w s
  | .rol w => Sys2Proof.Machine.execRol w s
  | .ror w => Sys2Proof.Machine.execRor w s
  | .shl64 w => Sys2Proof.Machine.execShl64 w s
  | .shr64 w => Sys2Proof.Machine.execShr64 w s
  | .popc w => Sys2Proof.Machine.execPopc w s
  | .clz w => Sys2Proof.Machine.execClz w s
  | .ctz w => Sys2Proof.Machine.execCtz w s
  | .brev w => Sys2Proof.Machine.execBrev w s
  | .bfe w => Sys2Proof.Machine.execBfe w s
  | .bfi w => Sys2Proof.Machine.execBfi w s
  | .perm w => Sys2Proof.Machine.execPerm w s
  | .isel w => Sys2Proof.Machine.execIsel w s
  | .icmp w => Sys2Proof.Machine.execIcmp w s
  | .mov w => Sys2Proof.Machine.execMov w s
  | .movi w => Sys2Proof.Machine.execMovi w s
  | .wmov w => Sys2Proof.Machine.execWmov w s
  | .lea w => Sys2Proof.Machine.execLea w s
  | .iadds w => Sys2Proof.Machine.execIadds w s
  | .shfl w => Sys2Proof.Machine.execShfl w s
  | .shflup w => Sys2Proof.Machine.execShflup w s
  | .shfldn w => Sys2Proof.Machine.execShfldn w s
  | .shflx w => Sys2Proof.Machine.execShflx w s
  | .vote w => Sys2Proof.Machine.execVote w s
  | .wredi w => Sys2Proof.Machine.execWredi w s
  | .wredf w => Sys2Proof.Machine.execWredf w s
  | .wscan w => Sys2Proof.Machine.execWscan w s
  | .wargx w => Sys2Proof.Machine.execWargx w s
  | .plop w => Sys2Proof.Machine.execPlop w s
  | .pmov w => Sys2Proof.Machine.execPmov w s
  | .cvtf w => Sys2Proof.Machine.execCvtf w s
  | .cvtfi w => Sys2Proof.Machine.execCvtfi w s
  | .cvtif w => Sys2Proof.Machine.execCvtif w s
  | .pack w => Sys2Proof.Machine.execPack w s
  | .unpack w => Sys2Proof.Machine.execUnpack w s
  | .srseed w => Sys2Proof.Machine.execSrseed w s
  | .srdraw w => Sys2Proof.Machine.execSrdraw w s
  | .fadd w => Sys2Proof.Machine.execFadd w s
  | .fsub w => Sys2Proof.Machine.execFsub w s
  | .fmul w => Sys2Proof.Machine.execFmul w s
  | .ffma w => Sys2Proof.Machine.execFfma w s
  | .fmin w => Sys2Proof.Machine.execFmin w s
  | .fmax w => Sys2Proof.Machine.execFmax w s
  | .fcmp w => Sys2Proof.Machine.execFcmp w s
  | .fsel w => Sys2Proof.Machine.execFsel w s
  | .frcp w => Sys2Proof.Machine.execFrcp w s
  | .frsq w => Sys2Proof.Machine.execFrsq w s
  | .fsqrt w => Sys2Proof.Machine.execFsqrt w s
  | .fdiv w => Sys2Proof.Machine.execFdiv w s
  | .fexp2 w => Sys2Proof.Machine.execFexp2 w s
  | .flog2 w => Sys2Proof.Machine.execFlog2 w s
  | .fsinr w => Sys2Proof.Machine.execFsinr w s
  | .fcosr w => Sys2Proof.Machine.execFcosr w s
  | .ftanh w => Sys2Proof.Machine.execFtanh w s
  | .fclass w => Sys2Proof.Machine.execFclass w s
  | .fscale w => Sys2Proof.Machine.execFscale w s
  | .frint w => Sys2Proof.Machine.execFrint w s
  | .hadd2 w => Sys2Proof.Machine.execHadd2 w s
  | .hmul2 w => Sys2Proof.Machine.execHmul2 w s
  | .hfma2 w => Sys2Proof.Machine.execHfma2 w s
  | .addx w => Sys2Proof.Machine.execAddx w s
  | .subx w => Sys2Proof.Machine.execSubx w s
  | .mulx w => Sys2Proof.Machine.execMulx w s
  | .fmae w => Sys2Proof.Machine.execFmae w s
  | .fastx w => Sys2Proof.Machine.execFastx w s
  | .xadd w => Sys2Proof.Machine.execXadd w s
  | .xsub w => Sys2Proof.Machine.execXsub w s
  | .xmul w => Sys2Proof.Machine.execXmul w s
  | .xfma w => Sys2Proof.Machine.execXfma w s
  | .xren w => Sys2Proof.Machine.execXren w s
  | .xcpr w => Sys2Proof.Machine.execXcpr w s
  | .xcmp w => Sys2Proof.Machine.execXcmp w s
  | .xsplit w => Sys2Proof.Machine.execXsplit w s
  | .xtof w => Sys2Proof.Machine.execXtof w s
  | .xacc w => Sys2Proof.Machine.execXacc w s
  | .ldb w => Sys2Proof.Machine.execLdb w s
  | .stb w => Sys2Proof.Machine.execStb w s
  | .ldl w => Sys2Proof.Machine.execLdl w s
  | .stl w => Sys2Proof.Machine.execStl w s
  | .ldw w => Sys2Proof.Machine.execLdw w s
  | .atb w => Sys2Proof.Machine.execAtb w s
  | .atbf w => Sys2Proof.Machine.execAtbf w s
  | .atbc w => Sys2Proof.Machine.execAtbc w s
  | .casb w => Sys2Proof.Machine.execCasb w s
  | .atl w => Sys2Proof.Machine.execAtl w s
  | .casl w => Sys2Proof.Machine.execCasl w s
  | .ldsq w => Sys2Proof.Machine.execLdsq w s
  | .pref w => Sys2Proof.Machine.execPref w s
  | .cwb w => Sys2Proof.Machine.execCwb w s
  | .cinv w => Sys2Proof.Machine.execCinv w s
  | .rhnew w => Sys2Proof.Machine.execRhnew w s
  | .rhset w => Sys2Proof.Machine.execRhset w s
  | .rhdemote w => Sys2Proof.Machine.execRhdemote w s
  | .rhevict w => Sys2Proof.Machine.execRhevict w s
  | .rhfree w => Sys2Proof.Machine.execRhfree w s
  | .cpa w => Sys2Proof.Machine.execCpa w s
  | .cps w => Sys2Proof.Machine.execCps w s
  | .cpl w => Sys2Proof.Machine.execCpl w s
  | .tagwall w => Sys2Proof.Machine.execTagwall w s
  | .tagwany w => Sys2Proof.Machine.execTagwany w s
  | .tagffr w => Sys2Proof.Machine.execTagffr w s
  | .tagclr w => Sys2Proof.Machine.execTagclr w s
  | .tbinit w => Sys2Proof.Machine.execTbinit w s
  | .tbexp w => Sys2Proof.Machine.execTbexp w s
  | .tbarv w => Sys2Proof.Machine.execTbarv w s
  | .tbwait w => Sys2Proof.Machine.execTbwait w s
  | .msend w => Sys2Proof.Machine.execMsend w s
  | .mpost w => Sys2Proof.Machine.execMpost w s
  | .mprobe w => Sys2Proof.Machine.execMprobe w s
  | .mcancel w => Sys2Proof.Machine.execMcancel w s
  | .nmcmd w => Sys2Proof.Machine.execNmcmd w s
  | .nmfence w => Sys2Proof.Machine.execNmfence w s
  | .coll w => Sys2Proof.Machine.execColl w s
  | .mma w => Sys2Proof.Machine.execMma w s
  | .mmar w => Sys2Proof.Machine.execMmar w s
  | .mmd w => Sys2Proof.Machine.execMmd w s
  | .mmlr w => Sys2Proof.Machine.execMmlr w s
  | .tzero w => Sys2Proof.Machine.execTzero w s
  | .tload w => Sys2Proof.Machine.execTload w s
  | .tstore w => Sys2Proof.Machine.execTstore w s
  | .tread w => Sys2Proof.Machine.execTread w s
  | .tnew w => Sys2Proof.Machine.execTnew w s
  | .tfree w => Sys2Proof.Machine.execTfree w s
  | .tstat w => Sys2Proof.Machine.execTstat w s
  | .sscfg w => Sys2Proof.Machine.execSscfg w s
  | .scan w => Sys2Proof.Machine.execScan w s
  | .srr w => Sys2Proof.Machine.execSrr w s
  | .srw w => Sys2Proof.Machine.execSrw w s
  | .trap w => Sys2Proof.Machine.execTrap w s
  | .eret w => Sys2Proof.Machine.execEret w s
  | .emopr w => Sys2Proof.Machine.execEmopr w s
  | .emopw w => Sys2Proof.Machine.execEmopw w s
  | .emret w => Sys2Proof.Machine.execEmret w s
  | .icinv w => Sys2Proof.Machine.execIcinv w s
  | .fetchb w => Sys2Proof.Machine.execFetchb w s
  | .fmtw w => Sys2Proof.Machine.execFmtw w s
  | .fmtr w => Sys2Proof.Machine.execFmtr w s
  | .setprio w => Sys2Proof.Machine.execSetprio w s
  | .brk w => Sys2Proof.Machine.execBrk w s
  | .halt w => Sys2Proof.Machine.execHalt w s
  | .mov16 w => Sys2Proof.Machine.execMov16 w s
  | .movi16 w => Sys2Proof.Machine.execMovi16 w s
  | .iadd16 w => Sys2Proof.Machine.execIadd16 w s
  | .isub16 w => Sys2Proof.Machine.execIsub16 w s
  | .imul16 w => Sys2Proof.Machine.execImul16 w s
  | .iand16 w => Sys2Proof.Machine.execIand16 w s
  | .ior16 w => Sys2Proof.Machine.execIor16 w s
  | .ixor16 w => Sys2Proof.Machine.execIxor16 w s
  | .shl16 w => Sys2Proof.Machine.execShl16 w s
  | .shr16 w => Sys2Proof.Machine.execShr16 w s
  | .sar16 w => Sys2Proof.Machine.execSar16 w s
  | .imin16 w => Sys2Proof.Machine.execImin16 w s
  | .imax16 w => Sys2Proof.Machine.execImax16 w s
  | .fadd16 w => Sys2Proof.Machine.execFadd16 w s
  | .fsub16 w => Sys2Proof.Machine.execFsub16 w s
  | .fmul16 w => Sys2Proof.Machine.execFmul16 w s
  | .fmax16 w => Sys2Proof.Machine.execFmax16 w s
  | .nopC w => Sys2Proof.Machine.execNopC w s
  | .braC w => Sys2Proof.Machine.execBraC w s
  | .brpC w => Sys2Proof.Machine.execBrpC w s
  | .movC w => Sys2Proof.Machine.execMovC w s
  | .iaddC w => Sys2Proof.Machine.execIaddC w s
  | .isubC w => Sys2Proof.Machine.execIsubC w s
  | .imulC w => Sys2Proof.Machine.execImulC w s
  | .iandC w => Sys2Proof.Machine.execIandC w s
  | .iorC w => Sys2Proof.Machine.execIorC w s
  | .ixorC w => Sys2Proof.Machine.execIxorC w s
  | .shlC w => Sys2Proof.Machine.execShlC w s
  | .shrC w => Sys2Proof.Machine.execShrC w s
  | .sarC w => Sys2Proof.Machine.execSarC w s
  | .iminC w => Sys2Proof.Machine.execIminC w s
  | .imaxC w => Sys2Proof.Machine.execImaxC w s
  | .iaddCi w => Sys2Proof.Machine.execIaddCi w s
  | .shlCi w => Sys2Proof.Machine.execShlCi w s
  | .shrCi w => Sys2Proof.Machine.execShrCi w s
  | .sarCi w => Sys2Proof.Machine.execSarCi w s
  | .iandCi w => Sys2Proof.Machine.execIandCi w s
  | .moviC w => Sys2Proof.Machine.execMoviC w s
  | .faddC w => Sys2Proof.Machine.execFaddC w s
  | .fsubC w => Sys2Proof.Machine.execFsubC w s
  | .fmulC w => Sys2Proof.Machine.execFmulC w s
  | .fminC w => Sys2Proof.Machine.execFminC w s
  | .fmaxC w => Sys2Proof.Machine.execFmaxC w s
  | .ffmaC w => Sys2Proof.Machine.execFfmaC w s
  | .addxC w => Sys2Proof.Machine.execAddxC w s
  | .mulxC w => Sys2Proof.Machine.execMulxC w s
  | .hadd2C w => Sys2Proof.Machine.execHadd2C w s
  | .hmul2C w => Sys2Proof.Machine.execHmul2C w s
  | .hfma2C w => Sys2Proof.Machine.execHfma2C w s
  | .shflC w => Sys2Proof.Machine.execShflC w s
  | .shflxC w => Sys2Proof.Machine.execShflxC w s
  | .ldlC w => Sys2Proof.Machine.execLdlC w s
  | .stlC w => Sys2Proof.Machine.execStlC w s
  | .wmovC w => Sys2Proof.Machine.execWmovC w s
  | .iaddCw w => Sys2Proof.Machine.execIaddCw w s
  | .isubCw w => Sys2Proof.Machine.execIsubCw w s
  | .imulCw w => Sys2Proof.Machine.execImulCw w s
  | .iandCw w => Sys2Proof.Machine.execIandCw w s
  | .iorCw w => Sys2Proof.Machine.execIorCw w s
  | .shlCw w => Sys2Proof.Machine.execShlCw w s
  | .shrCw w => Sys2Proof.Machine.execShrCw w s
  | .sleepwExpiry w => Sys2Proof.Machine.execSleepwExpiry w s
  | .residencySweep die h => Sys2Proof.Machine.execResidencySweep die h s
  | .undefinedOpcode u => Sys2Proof.Machine.execUndefinedOpcode u s
  | .asyncTrap => Sys2Proof.Machine.execAsyncTrap s
  | .waveRipens w => Sys2Proof.Machine.execWaveRipens w s
  | .handlerDispatch core slot => Sys2Proof.Machine.execHandlerDispatch core slot s
  | .runArbitration core quad => Sys2Proof.Machine.execRunArbitration core quad s
  | .hangDetect w => Sys2Proof.Machine.execHangDetect w s
  | .registerLineFill core w k => Sys2Proof.Machine.execRegisterLineFill core w k s
  | .fetchFill core ctx line => Sys2Proof.Machine.execFetchFill core ctx line s
  | .translationProbeReturn n => Sys2Proof.Machine.execTranslationProbeReturn n s
  | .sideLogReplay w => Sys2Proof.Machine.execSideLogReplay w s
  | .l1WritebackTimeout core sector => Sys2Proof.Machine.execL1WritebackTimeout core sector s
  | .homeSliceRequest square => Sys2Proof.Machine.execHomeSliceRequest square s
  | .squareTurn square => Sys2Proof.Machine.execSquareTurn square s
  | .rdcFillArrival die sector => Sys2Proof.Machine.execRdcFillArrival die sector s
  | .rdcInvalidation die sector => Sys2Proof.Machine.execRdcInvalidation die sector s
  | .invalidationAck die sector => Sys2Proof.Machine.execInvalidationAck die sector s
  | .tidalMigration square => Sys2Proof.Machine.execTidalMigration square s
  | .tidalReturn square => Sys2Proof.Machine.execTidalReturn square s
  | .lineOperationPerform op => Sys2Proof.Machine.execLineOperationPerform op s
  | .lineOperationRetire op => Sys2Proof.Machine.execLineOperationRetire op s
  | .swapOut team => Sys2Proof.Machine.execSwapOut team s
  | .swapRequeue team => Sys2Proof.Machine.execSwapRequeue team s
  | .matrixOpPerform core => Sys2Proof.Machine.execMatrixOpPerform core s
  | .scanChunk core => Sys2Proof.Machine.execScanChunk core s
  | .tileDisplace core => Sys2Proof.Machine.execTileDisplace core s
  | .engineIdle core => Sys2Proof.Machine.execEngineIdle core s
  | .engineStartStage die => Sys2Proof.Machine.execEngineStartStage die s
  | .nmcmdSend core => Sys2Proof.Machine.execNmcmdSend core s
  | .nmuCommand die stack => Sys2Proof.Machine.execNmuCommand die stack s
  | .messageArrival n => Sys2Proof.Machine.execMessageArrival n s
  | .quantumClose w => Sys2Proof.Machine.execQuantumClose w s
  | .quantumCommit grid => Sys2Proof.Machine.execQuantumCommit grid s
  | .collInstanceRetire group inst => Sys2Proof.Machine.execCollInstanceRetire group inst s
  | .messageFlit f => Sys2Proof.Machine.execMessageFlit f s
  | .contributionFlit f => Sys2Proof.Machine.execContributionFlit f s
  | .partialFlit f => Sys2Proof.Machine.execPartialFlit f s
  | .retireFlit f => Sys2Proof.Machine.execRetireFlit f s
  | .gangStartToken f => Sys2Proof.Machine.execGangStartToken f s
  | .gangStopToken f => Sys2Proof.Machine.execGangStopToken f s
  | .linkControlFlit f => Sys2Proof.Machine.execLinkControlFlit f s
  | .queueTailDoorbell ctx q v => Sys2Proof.Machine.execQueueTailDoorbell ctx q v s
  | .launch ctx q => Sys2Proof.Machine.execLaunch ctx q s
  | .launchDispatch => Sys2Proof.Machine.execLaunchDispatch s
  | .setxtTable ctx q => Sys2Proof.Machine.execSetxtTable ctx q s
  | .setxtFaultQueue ctx q => Sys2Proof.Machine.execSetxtFaultQueue ctx q s
  | .xinv ctx q => Sys2Proof.Machine.execXinv ctx q s
  | .preempt ctx q => Sys2Proof.Machine.execPreempt ctx q s
  | .priorityPreemption => Sys2Proof.Machine.execPriorityPreemption s
  | .localBlockSave team => Sys2Proof.Machine.execLocalBlockSave team s
  | .teamPlacement => Sys2Proof.Machine.execTeamPlacement s
  | .restitch grid => Sys2Proof.Machine.execRestitch grid s
  | .teamFree team => Sys2Proof.Machine.execTeamFree team s
  | .gridCompletion grid => Sys2Proof.Machine.execGridCompletion grid s
  | .faultRetry ctx seq => Sys2Proof.Machine.execFaultRetry ctx seq s
  | .faultFail ctx seq => Sys2Proof.Machine.execFaultFail ctx seq s
  | .migrationDoorbell ctx z v => Sys2Proof.Machine.execMigrationDoorbell ctx z v s
  | .faultQueueConsumer ctx v => Sys2Proof.Machine.execFaultQueueConsumer ctx v s
  | .errorRingConsumer ctx v => Sys2Proof.Machine.execErrorRingConsumer ctx v s
  | .adminRingBaseWrite v => Sys2Proof.Machine.execAdminRingBaseWrite v s
  | .adminRingSizeWrite v => Sys2Proof.Machine.execAdminRingSizeWrite v s
  | .adminTailDoorbell v => Sys2Proof.Machine.execAdminTailDoorbell v s
  | .errorLogBaseWrite v => Sys2Proof.Machine.execErrorLogBaseWrite v s
  | .errorLogSizeWrite v => Sys2Proof.Machine.execErrorLogSizeWrite v s
  | .errorLogConsumer v => Sys2Proof.Machine.execErrorLogConsumer v s
  | .registerWriteOther r => Sys2Proof.Machine.execRegisterWriteOther r s
  | .ctxnew => Sys2Proof.Machine.execCtxnew s
  | .ctxdel => Sys2Proof.Machine.execCtxdel s
  | .qnew => Sys2Proof.Machine.execQnew s
  | .qdel => Sys2Proof.Machine.execQdel s
  | .route => Sys2Proof.Machine.execRoute s
  | .groupInstall => Sys2Proof.Machine.execGroupInstall s
  | .groupRemove => Sys2Proof.Machine.execGroupRemove s
  | .spare => Sys2Proof.Machine.execSpare s
  | .spareSwap die kind unit => Sys2Proof.Machine.execSpareSwap die kind unit s
  | .getVersion r => Sys2Proof.Machine.execGetVersion r s
  | .getCapabilities r => Sys2Proof.Machine.execGetCapabilities r s
  | .negotiateAlgorithms r => Sys2Proof.Machine.execNegotiateAlgorithms r s
  | .getDigests r => Sys2Proof.Machine.execGetDigests r s
  | .getCertificate r => Sys2Proof.Machine.execGetCertificate r s
  | .challenge r => Sys2Proof.Machine.execChallenge r s
  | .getMeasurements r => Sys2Proof.Machine.execGetMeasurements r s
  | .keyExchange r => Sys2Proof.Machine.execKeyExchange r s
  | .finish r => Sys2Proof.Machine.execFinish r s
  | .keyUpdate r => Sys2Proof.Machine.execKeyUpdate r s
  | .heartbeat r => Sys2Proof.Machine.execHeartbeat r s
  | .endSession r => Sys2Proof.Machine.execEndSession r s
  | .setkey r => Sys2Proof.Machine.execSetkey r s
  | .vfRequestDropped fn => Sys2Proof.Machine.execVfRequestDropped fn s
  | .reset b => Sys2Proof.Machine.execReset b s
  | .correctedErrorReport e => Sys2Proof.Machine.execCorrectedErrorReport e s
  | .tdispInterfaceRequest fn target => Sys2Proof.Machine.execTdispInterfaceRequest fn target s
  | .hostAccessToDeviceMemory a => Sys2Proof.Machine.execHostAccessToDeviceMemory a s
  | .pcieReadCompletion n => Sys2Proof.Machine.execPcieReadCompletion n s
  | .handleTableCopyUpdate n => Sys2Proof.Machine.execHandleTableCopyUpdate n s
  | .pyrathaRunTranslation die ctx pc => Sys2Proof.Machine.execPyrathaRunTranslation die ctx pc s
  | .idleFlit f => Sys2Proof.Machine.execIdleFlit f s
  | .discardedFlitType f => Sys2Proof.Machine.execDiscardedFlitType f s

end Sys2Proof.Machine
end

