-- ==== Sys2Proof/Machine/Eval.lean ====
section
/-! DEFINITION. Instructions as the step runs them: the row of the opcode table that a scheduled device or host step is,
the decoded instruction that a run issues, and the same in the form that Lean's compiler can build, each shown equal to
the first. -/

namespace Sys2Proof.Machine

/-- The row of the opcode table that a scheduled step is (log entry 30, DESIGN CHOICE). -/
noncomputable def Ev.toInstr (e : Ev) : Instr :=
  match e with
  | .sleepwExpiry w => .sleepwExpiry w
  | .residencySweep die h => .residencySweep die h
  | .asyncTrap => .asyncTrap
  | .waveRipens w => .waveRipens w
  | .handlerDispatch core slot => .handlerDispatch core slot
  | .runArbitration core quad => .runArbitration core quad
  | .hangDetect w => .hangDetect w
  | .registerLineFill core w k => .registerLineFill core w k
  | .fetchFill core ctx line => .fetchFill core ctx line
  | .translationProbeReturn i => .translationProbeReturn i
  | .sideLogReplay w => .sideLogReplay w
  | .l1WritebackTimeout core sector => .l1WritebackTimeout core sector
  | .homeSliceRequest square => .homeSliceRequest square
  | .squareTurn square => .squareTurn square
  | .rdcFillArrival die sector => .rdcFillArrival die sector
  | .rdcInvalidation die sector => .rdcInvalidation die sector
  | .invalidationAck die sector => .invalidationAck die sector
  | .tidalMigration square => .tidalMigration square
  | .tidalReturn square => .tidalReturn square
  | .lineOperationPerform op => .lineOperationPerform op
  | .lineOperationRetire op => .lineOperationRetire op
  | .swapOut team => .swapOut team
  | .swapRequeue team => .swapRequeue team
  | .matrixOpPerform core => .matrixOpPerform core
  | .scanChunk core => .scanChunk core
  | .tileDisplace core => .tileDisplace core
  | .engineIdle core => .engineIdle core
  | .engineStartStage die => .engineStartStage die
  | .nmcmdSend core => .nmcmdSend core
  | .nmuCommand die stack => .nmuCommand die stack
  | .messageArrival i => .messageArrival i
  | .quantumClose w => .quantumClose w
  | .quantumCommit grid => .quantumCommit grid
  | .collInstanceRetire group inst => .collInstanceRetire group inst
  | .messageFlit f => .messageFlit f
  | .contributionFlit f => .contributionFlit f
  | .partialFlit f => .partialFlit f
  | .retireFlit f => .retireFlit f
  | .gangStartToken f => .gangStartToken f
  | .gangStopToken f => .gangStopToken f
  | .linkControlFlit f => .linkControlFlit f
  | .queueTailDoorbell ctx q v => .queueTailDoorbell ctx q v
  | .launch ctx q => .launch ctx q
  | .launchDispatch => .launchDispatch
  | .setxtTable ctx q => .setxtTable ctx q
  | .setxtFaultQueue ctx q => .setxtFaultQueue ctx q
  | .xinv ctx q => .xinv ctx q
  | .preempt ctx q => .preempt ctx q
  | .priorityPreemption => .priorityPreemption
  | .localBlockSave team => .localBlockSave team
  | .teamPlacement => .teamPlacement
  | .restitch grid => .restitch grid
  | .teamFree team => .teamFree team
  | .gridCompletion grid => .gridCompletion grid
  | .faultRetry ctx seq => .faultRetry ctx seq
  | .faultFail ctx seq => .faultFail ctx seq
  | .migrationDoorbell ctx z v => .migrationDoorbell ctx z v
  | .faultQueueConsumer ctx v => .faultQueueConsumer ctx v
  | .errorRingConsumer ctx v => .errorRingConsumer ctx v
  | .adminRingBaseWrite v => .adminRingBaseWrite v
  | .adminRingSizeWrite v => .adminRingSizeWrite v
  | .adminTailDoorbell v => .adminTailDoorbell v
  | .errorLogBaseWrite v => .errorLogBaseWrite v
  | .errorLogSizeWrite v => .errorLogSizeWrite v
  | .errorLogConsumer v => .errorLogConsumer v
  | .registerWriteOther r => .registerWriteOther r
  | .ctxnew => .ctxnew
  | .ctxdel => .ctxdel
  | .qnew => .qnew
  | .qdel => .qdel
  | .route => .route
  | .groupInstall => .groupInstall
  | .groupRemove => .groupRemove
  | .spare => .spare
  | .spareSwap die kind unit => .spareSwap die kind unit
  | .getVersion r => .getVersion r
  | .getCapabilities r => .getCapabilities r
  | .negotiateAlgorithms r => .negotiateAlgorithms r
  | .getDigests r => .getDigests r
  | .getCertificate r => .getCertificate r
  | .challenge r => .challenge r
  | .getMeasurements r => .getMeasurements r
  | .keyExchange r => .keyExchange r
  | .finish r => .finish r
  | .keyUpdate r => .keyUpdate r
  | .heartbeat r => .heartbeat r
  | .endSession r => .endSession r
  | .setkey r => .setkey r
  | .vfRequestDropped fn => .vfRequestDropped fn
  | .reset b => .reset b
  | .correctedErrorReport e => .correctedErrorReport e
  | .tdispInterfaceRequest fn target => .tdispInterfaceRequest fn target
  | .hostAccessToDeviceMemory a => .hostAccessToDeviceMemory a
  | .pcieReadCompletion i => .pcieReadCompletion i
  | .handleTableCopyUpdate i => .handleTableCopyUpdate i
  | .pyrathaRunTranslation die ctx pc => .pyrathaRunTranslation die ctx pc
  | .idleFlit f => .idleFlit f
  | .discardedFlitType f => .discardedFlitType f
  | .undefinedOpcode u => .undefinedOpcode u

/-- Runs a scheduled step, for evaluation. -/
def Ev.run (e : Ev) (s : State) : Out :=
  match e with
  | .sleepwExpiry w => execSleepwExpiry w s
  | .residencySweep die h => execResidencySweep die h s
  | .asyncTrap => execAsyncTrap s
  | .waveRipens w => execWaveRipens w s
  | .handlerDispatch core slot => execHandlerDispatch core slot s
  | .runArbitration core quad => execRunArbitration core quad s
  | .hangDetect w => execHangDetect w s
  | .registerLineFill core w k => execRegisterLineFill core w k s
  | .fetchFill core ctx line => execFetchFill core ctx line s
  | .translationProbeReturn i => execTranslationProbeReturn i s
  | .sideLogReplay w => execSideLogReplay w s
  | .l1WritebackTimeout core sector => execL1WritebackTimeout core sector s
  | .homeSliceRequest square => execHomeSliceRequest square s
  | .squareTurn square => execSquareTurn square s
  | .rdcFillArrival die sector => execRdcFillArrival die sector s
  | .rdcInvalidation die sector => execRdcInvalidation die sector s
  | .invalidationAck die sector => execInvalidationAck die sector s
  | .tidalMigration square => execTidalMigration square s
  | .tidalReturn square => execTidalReturn square s
  | .lineOperationPerform op => execLineOperationPerform op s
  | .lineOperationRetire op => execLineOperationRetire op s
  | .swapOut team => execSwapOut team s
  | .swapRequeue team => execSwapRequeue team s
  | .matrixOpPerform core => execMatrixOpPerform core s
  | .scanChunk core => execScanChunk core s
  | .tileDisplace core => execTileDisplace core s
  | .engineIdle core => execEngineIdle core s
  | .engineStartStage die => execEngineStartStage die s
  | .nmcmdSend core => execNmcmdSend core s
  | .nmuCommand die stack => execNmuCommand die stack s
  | .messageArrival i => execMessageArrival i s
  | .quantumClose w => execQuantumClose w s
  | .quantumCommit grid => execQuantumCommit grid s
  | .collInstanceRetire group inst => execCollInstanceRetire group inst s
  | .messageFlit f => execMessageFlit f s
  | .contributionFlit f => execContributionFlit f s
  | .partialFlit f => execPartialFlit f s
  | .retireFlit f => execRetireFlit f s
  | .gangStartToken f => execGangStartToken f s
  | .gangStopToken f => execGangStopToken f s
  | .linkControlFlit f => execLinkControlFlit f s
  | .queueTailDoorbell ctx q v => execQueueTailDoorbell ctx q v s
  | .launch ctx q => execLaunch ctx q s
  | .launchDispatch => execLaunchDispatch s
  | .setxtTable ctx q => execSetxtTable ctx q s
  | .setxtFaultQueue ctx q => execSetxtFaultQueue ctx q s
  | .xinv ctx q => execXinv ctx q s
  | .preempt ctx q => execPreempt ctx q s
  | .priorityPreemption => execPriorityPreemption s
  | .localBlockSave team => execLocalBlockSave team s
  | .teamPlacement => execTeamPlacement s
  | .restitch grid => execRestitch grid s
  | .teamFree team => execTeamFree team s
  | .gridCompletion grid => execGridCompletion grid s
  | .faultRetry ctx seq => execFaultRetry ctx seq s
  | .faultFail ctx seq => execFaultFail ctx seq s
  | .migrationDoorbell ctx z v => execMigrationDoorbell ctx z v s
  | .faultQueueConsumer ctx v => execFaultQueueConsumer ctx v s
  | .errorRingConsumer ctx v => execErrorRingConsumer ctx v s
  | .adminRingBaseWrite v => execAdminRingBaseWrite v s
  | .adminRingSizeWrite v => execAdminRingSizeWrite v s
  | .adminTailDoorbell v => execAdminTailDoorbell v s
  | .errorLogBaseWrite v => execErrorLogBaseWrite v s
  | .errorLogSizeWrite v => execErrorLogSizeWrite v s
  | .errorLogConsumer v => execErrorLogConsumer v s
  | .registerWriteOther r => execRegisterWriteOther r s
  | .ctxnew => execCtxnew s
  | .ctxdel => execCtxdel s
  | .qnew => execQnew s
  | .qdel => execQdel s
  | .route => execRoute s
  | .groupInstall => execGroupInstall s
  | .groupRemove => execGroupRemove s
  | .spare => execSpare s
  | .spareSwap die kind unit => execSpareSwap die kind unit s
  | .getVersion r => execGetVersion r s
  | .getCapabilities r => execGetCapabilities r s
  | .negotiateAlgorithms r => execNegotiateAlgorithms r s
  | .getDigests r => execGetDigests r s
  | .getCertificate r => execGetCertificate r s
  | .challenge r => execChallenge r s
  | .getMeasurements r => execGetMeasurements r s
  | .keyExchange r => execKeyExchange r s
  | .finish r => execFinish r s
  | .keyUpdate r => execKeyUpdate r s
  | .heartbeat r => execHeartbeat r s
  | .endSession r => execEndSession r s
  | .setkey r => execSetkey r s
  | .vfRequestDropped fn => execVfRequestDropped fn s
  | .reset b => execReset b s
  | .correctedErrorReport e => execCorrectedErrorReport e s
  | .tdispInterfaceRequest fn target => execTdispInterfaceRequest fn target s
  | .hostAccessToDeviceMemory a => execHostAccessToDeviceMemory a s
  | .pcieReadCompletion i => execPcieReadCompletion i s
  | .handleTableCopyUpdate i => execHandleTableCopyUpdate i s
  | .pyrathaRunTranslation die ctx pc => execPyrathaRunTranslation die ctx pc s
  | .idleFlit f => execIdleFlit f s
  | .discardedFlitType f => execDiscardedFlitType f s
  | .undefinedOpcode u => execUndefinedOpcode u s

theorem Ev.exec_toInstr (e : Ev) (s : State) : exec e.toInstr s = e.run s := by
  cases e <;> rfl

/-! ### Issuing decoded bytes -/

/-- Performs the instruction at the head of code bytes, or sends its fibres to the emulation handler (R200). In Pyratha
mode a word whose low bits are not 11 has the fate RSVFIELD (R368). -/
noncomputable def runBytes (disabled : BitVec 512) (pyr : Bool) (l : List Byte) (s : State) : Out :=
  if pyr && decide (leVal (l.take 8) % 4 ≠ 3) then
    exec (.undefinedOpcode ⟨.rsvfield, 8, BitVec.ofNat 64 (leVal (l.take 8)), pyr⟩) s
  else match decode disabled l with
    | .instr i _ => exec i s
    | .emulate f len raw => exec (.undefinedOpcode ⟨f, len, BitVec.ofNat 64 raw, pyr⟩) s
    | .short => .next s

/-- Performs an instruction as the compiled machine carries it. -/
def Code.run (c : Code) (s : State) : Out :=
  match c with
  | .early i => exec i s
  | .ldlC w => execLdlC w s
  | .stlC w => execStlC w s
  | .wmovC w => execWmovC w s
  | .iaddCw w => execIaddCw w s
  | .isubCw w => execIsubCw w s
  | .imulCw w => execImulCw w s
  | .iandCw w => execIandCw w s
  | .iorCw w => execIorCw w s
  | .shlCw w => execShlCw w s
  | .shrCw w => execShrCw w s

/-- `runBytes`, for evaluation. -/
def runBytesImpl (disabled : BitVec 512) (pyr : Bool) (l : List Byte) (s : State) : Out :=
  if pyr && decide (leVal (l.take 8) % 4 ≠ 3) then
    execUndefinedOpcode ⟨.rsvfield, 8, BitVec.ofNat 64 (leVal (l.take 8)), pyr⟩ s
  else match decodeCode disabled l with
    | .instr c _ => Code.run c s
    | .emulate f len raw => execUndefinedOpcode ⟨f, len, BitVec.ofNat 64 raw, pyr⟩ s
    | .short => .next s

theorem exec_toInstr (c : Code) (s : State) : exec c.toInstr s = Code.run c s := by
  cases c <;> rfl

theorem of32_eq_code (x : Nat) : of32 x = (code32 x).map Code.toInstr := by
  have h : x / 8 % 64 < 64 := Nat.mod_lt _ (by decide)
  unfold of32 code32
  generalize x / 8 % 64 = m at h ⊢
  iterate 64
    rcases Nat.lt_succ_iff_lt_or_eq.mp h with h | h
    rotate_left
    · subst h; rfl
  exact absurd h (Nat.not_lt_zero _)

theorem wellFormed_toInstr (c : Code) : c.toInstr.wellFormed = c.wellFormed := by
  cases c <;> rfl

theorem major_toInstr (c : Code) : c.toInstr.major = c.major := by
  cases c <;> rfl

/-- The two decoders agree. -/
theorem decode_eq_code (d : BitVec 512) (l : List Byte) : decode d l = (decodeCode d l).toDecoded := by
  unfold decode decodeCode
  split
  · rfl
  · simp only
    split
    · rfl
    · generalize leVal (l.take (lenOf (leVal (l.take 2)))) = x
      generalize lenOf (leVal (l.take 2)) = n
      have h : ofRaw n x =
          (if n = 2 then (of16 x).map Code.early else if n = 4 then code32 x else (of64 x).map Code.early).map Code.toInstr := by
        unfold ofRaw
        split
        · cases of16 x <;> rfl
        · split
          · exact of32_eq_code x
          · cases of64 x <;> rfl
      rw [h]
      generalize (if n = 2 then (of16 x).map Code.early else if n = 4 then code32 x else (of64 x).map Code.early) = o
      cases o with
      | none => rfl
      | some c =>
        simp only [Option.map_some, fateOf, major_toInstr, wellFormed_toInstr]
        split
        · rfl
        · split <;> rfl

@[csimp] theorem runBytes_eq : @runBytes = @runBytesImpl := by
  funext d p l s
  unfold runBytes runBytesImpl
  rw [decode_eq_code]
  cases decodeCode d l <;> simp [DecodedCode.toDecoded, exec_toInstr] <;> rfl

/-- Runs a scheduled step. -/
noncomputable def runEv (e : Ev) (s : State) : Out := exec e.toInstr s

@[csimp] theorem runEv_eq : @runEv = @Ev.run := by
  funext e s
  exact Ev.exec_toInstr e s

end Sys2Proof.Machine
end

