-- ==== Sys2Proof/Machine/Issue.lean ====
section
/-! DEFINITION. The issue of one instruction of a run, the end of a run, and what follows every step of the machine (08
R147, R148, 10 R186, R196 to R198, 16 R330, 17 R335, 18 R348, R349, 19 R362 to R369). -/

namespace Sys2Proof.Machine

/-! ### Lookahead windows (R198) -/

/-- The windows that stand open over an instruction: for each fibre of its group, their numbers. -/
def Wave.windows (w : Wave) (grp : List Nat) : List (Nat × List Nat) :=
  (grp.map fun f => (f, (w.fib f).wins.map LookWin.id)).filter fun p => !p.2.isEmpty

/-! ### The end of a run (R148, R171, R330, R362) -/

/-- A run ends: its format writes take effect, the wave is the youngest of its priority, and lines that were delivered to
it but not installed are gone. The finish of an instruction that was held belongs to the run in which it issued (R149). -/
def State.endRun (s : State) (c : Cur) : State :=
  let s := s.modM fun m => { m with icache := m.icache.filter fun l => !decide (l.level = 3 ∧ l.unit = c.wave) }
  s.modX fun x =>
    let x := ({ x with cur := none } : Exec).fmtCommit c.wave
    if c.again then x
    else
      let x := x.modWave c.wave fun w => { w with stamp := x.fresh }
      let x : Exec := { x with fresh := x.fresh + 1 }
      if c.count = 0 then x else x.runIssued c.wave

/-! ### Quanta (R348, R349) -/

/-- The Blocking class of R196. -/
def blockingMajor (m : Nat) : Bool :=
  decide (m ∈ [0x00a, 0x00b, 0x00f, 0x010, 0x011, 0x013, 0x017, 0x018, 0x019, 0x183, 0x184, 0x18a, 0x190])

/-- Whether a hold can end only at a commit (R349). -/
def Hold.closes : Hold → Bool
  | .retry n => decide (n = rvMatrix)
  | .handle _ => true
  | .barrier _ _ => true
  | .gridbar _ => true
  | .commit => true
  | .tags _ _ => true
  | .phase _ _ _ => true
  | .tile _ => true
  | _ => false

/-- Closes the quantum of a wave whose instruction asks for it; one whose count is full closes as a step of its own (log entry 52, DEDUCED). -/
def Exec.quantumAfter (x : Exec) (u : Nat) (blocking : Bool) : Exec :=
  match x.wave? u with
  | none => x
  | some w =>
    if !x.determ w || w.handler.isSome || w.closed then x
    else if blocking || (w.hold.elim false Hold.closes) then x.closeQuantum u
    else if ((x.teamOf w).bind x.gridOf).elim false fun g => decide (g.quantum ≤ w.qcount) then x.post 0 (.quantumClose u)
    else x

/-! ### One instruction -/

/-- What an instruction is issued as: its run, its wave and group before it, its length and bits, and whether it
executes (R200). -/
structure Issued where
  cur  : Cur
  wave : Wave
  grp  : List Nat
  len  : Nat
  raw  : Nat
  runs : Bool
  deriving DecidableEq, Repr

/-- What follows an instruction: windows, counts, REJOIN releases and exits, the quantum, and the end of the run (R153,
R156, R196 to R198, R348). -/
def State.issued (s : State) (i : Issued) : State :=
  let u := i.cur.wave
  let c : Cur := { i.cur with count := i.cur.count + 1 }
  match s.x.wave? u with
  | none => s.endRun c
  | some w =>
    let held := w.resumed && !decide (w.stamp = i.wave.stamp)
    let again := held || w.hold.elim false Hold.reissues
    let stop := rawStaticEnd i.len i.raw
    let first := !i.wave.resumed
    let wins := i.wave.windows i.grp
    let x := if again then s.x
      else if w.hold.elim false Hold.late then s.x.modWave u fun w => { w with passing := some (stop, wins) }
      else s.x.passWindows u stop wins
    let x := x.modWave u fun w =>
      { w with
        starved := w.starved.filter fun f => !i.grp.contains f
        since := i.grp.foldl setAdd w.since
        resumed := held
        hfmts := if again then some c.fmts else none
        retired := if first then w.retired + 1 else w.retired
        qcount := if first && w.handler.isNone then w.qcount + 1 else w.qcount }
    let x := x.settleWave u
    let x := x.quantumAfter u (first && i.runs && (rawMajor i.len i.raw).elim false blockingMajor)
    let pc := (c.pc + i.len) % 2 ^ 48
    let done_ := match x.wave? u with
      | none => true
      | some w =>
        stop || decide (c.limit ≤ c.count) || w.hold.isSome || held || w.closed || w.exited ||
        (x.determ w && w.handler.isNone && ((x.teamOf w).bind x.gridOf).elim false fun g => decide (g.quantum ≤ w.qcount)) ||
        i.grp.any (fun f => match (w.fib f).st with
          | .waiting _ => true
          | _ => false) || !(i.grp.any fun f => (w.fib f).isReady && decide ((w.fib f).pc = pc))
    let s : State := { s with x := x }
    if done_ then s.endRun c else s.modX fun x => { x with cur := some { c with pc := pc } }

/-- Every fibre of a group takes a trap before its instruction issues, and the run ends (R186, R335, R364). -/
def State.noIssue (s : State) (c : Cur) (grp : List Nat) (cause len : Nat) : State :=
  (s.modX fun x => (grp.foldl (fun x f => x.takeTrap c.wave f { cause := cause, len := len, pc := c.pc }) x).settleWave c.wave).endRun { c with count := c.count + 1 }

/-- Issues the instruction at a run's PC: its bytes are fetched (R186, R362, R364), decoded and performed. -/
def State.issue (s : State) (c : Cur) : Out :=
  match s.x.wave? c.wave with
  | none => .next (s.endRun c)
  | some w =>
    let grp := w.groupAt c.pc
    let core := s.x.coreOf w
    let ctx := s.x.ctxOf w
    let pyr := ((s.x.teamOf w).bind s.x.gridOf).elim false Grid.pyr
    if grp.isEmpty then .next (s.endRun c)
    else if c.pc % 2 ≠ 0 ∨ (pyr = true ∧ c.pc % 8 ≠ 0) then .next (s.noIssue c grp cPCALIGN 0)
    else
      let r := s.fetchAt c.wave core w.quad ctx c.pc
      match r.2 with
      | .missing ls => .next ((r.1.modX fun x => x.fetchMiss c.wave c.pc core ctx ls).endRun c)
      | .bytes l bad =>
        let len := if pyr then 8 else lenOf (leVal (l.take 2))
        let raw := leVal (l.take len)
        let s := r.1.modX fun x => { x with cur := some { c with len := len, raw := raw } }
        if len ≠ 2 ∧ c.pc % 4 ≠ 0 then .next (s.noIssue c grp cPCALIGN 0)
        else if (bad.take len).any id then .next (s.noIssue c grp cPOISON len)
        else
          let disabled := s.trust.manifest.disabled
          let runs := (!pyr || decide (raw % 4 = 3)) && match decodeCode disabled l with
            | .instr _ _ => true
            | _ => false
          let s := if pyr && decide (c.count = 0) then
              if s.mem.ptransHas (dieOf core) ctx c.pc then s.ptransUse (dieOf core) ctx c.pc
              else s.modX fun x => x.post 4096 (.pyrathaRunTranslation (dieOf core) ctx (BitVec.ofNat 48 c.pc))
            else s
          match runBytes disabled pyr l s with
          | .next t => .next (t.issued ⟨c, w, grp, len, raw, runs⟩)
          | .fault f => .fault f
          | .refused f => .refused f

/-! ### What follows every step -/

/-- Whether a handler wave can be formed for a wave now (R336, R337). -/
def Exec.canRipen (x : Exec) (p : Nat × Wave) : Bool :=
  p.2.isRipe && (x.freeHandler (x.coreOf p.2)).isSome && (x.ripeOn (x.coreOf p.2)).any fun q => decide (q.1 = p.1)

/-- Steps that have come due by the state of waves, teams and grids: ripe waves (R336), swap-outs (R111), frees (R347),
completions (R129, R235, R339). -/
def Exec.duties (x : Exec) : Exec :=
  let x := x.waves.foldl (fun x p => if x.canRipen p then x.post 0 (.waveRipens p.1) else x) x
  let x := x.teams.foldl (fun x p =>
    let x := if x.parkClock p.1 p.2 then x.post (fieldAt (x.lrecOf p.2) 52 4) (.swapOut p.1) else x
    if x.teamFreeable p.1 p.2 then x.post 0 (.teamFree p.1) else x) x
  x.grids.foldl (fun x g =>
    if !x.gridBusy g.1 && (!decide (g.2.st = .running) || x.teamsEnded g.1) then x.post 0 (.gridCompletion g.1) else x) x

/-- What follows every step: grid barriers (R164), error entries (R406), steps that have come due. -/
def State.settle (s : State) : State := (s.gridSettle none).flushErrs.modX Exec.duties

/-- The answer of a step, with what follows it. -/
def settleOut : Out → Out
  | .next s => .next s.settle
  | .fault f => .fault f
  | .refused f => .refused f

/-- Takes the first scheduled step from the agenda. -/
def State.takeAgenda (s : State) : State := s.modX fun x => { x with agenda := x.agenda.drop 1 }

/-- The scheduled step that is due: the first one, when its time has come. -/
def Exec.due (x : Exec) : Option Ev :=
  match x.agenda with
  | (t, e) :: _ => if t ≤ x.tick then some e else none
  | [] => none

/-- The step after the clock has counted (log entry 25, DESIGN CHOICE): asynchronous traps that can be taken; the run in progress;
scheduled steps that are due; the next quadrant with an eligible wave; else the clock goes to the next scheduled step. -/
def State.go (s : State) : Out :=
  match s.x.cur with
  | some c =>
    if (s.x.wave? c.wave).elim false fun w => !w.asyncNow.isEmpty then runEv .asyncTrap s else s.issue c
  | none =>
    if s.x.waves.any fun p => !p.2.asyncNow.isEmpty then runEv .asyncTrap s
    else match s.x.due with
      | some e => runEv e s.takeAgenda
      | none =>
        match s.x.nextQuad with
        | some q => runEv (.runArbitration (q / 4) (q % 4)) s
        | none =>
          match s.x.agenda with
          | (t, e) :: _ => runEv e (s.takeAgenda.modX fun x => { x with tick := t })
          | [] => .next s

end Sys2Proof.Machine
end

