-- ==== Sys2Proof/Machine/Step.lean ====
section
/-! DEFINITION. One step of the machine, and how the host places an instruction where the step fetches. -/

namespace Sys2Proof.Machine

/-- One step: the clock counts, the machine goes on, and what follows is settled. -/
def step (s : State) : Host.Outcome State Fault Refusal :=
  settleOut (s.modX fun x => { x with tick := x.tick + 1 }).go

/-! ### Placing an instruction (log entry 1, DESIGN CHOICE) -/

/-- The launch record of the placed program: one team of one wave of one fibre, budgets of 128, 64 tags, 128 KiB of local
memory, handlers that are not the program, die 0. -/
def placedRec : List Byte :=
  leBytes 8 0 ++ leBytes 8 1 ++ leBytes 4 1 ++ leBytes 4 1 ++ leBytes 4 1 ++ [1, 1, 1, 0, 128, 128, 64, 0] ++
  leBytes 4 131072 ++ leBytes 4 0 ++ [11, 0, 1, 0] ++ List.replicate 56 0 ++ leBytes 8 0x10000 ++ leBytes 8 0x10000 ++
  List.replicate 136 0

/-- The context that the placed program runs in, if no other has its number. -/
def placedCtx : Ctx :=
  { owner := 0, errSize := 16, errBase := 2 ^ 63, errStat := 2 ^ 63 + 1024, imgBase := 0, imgSize := 65536 }

/-- A line of code that begins with an instruction. -/
def placedLine (level unit nbits w : Nat) : ILine :=
  ⟨level, unit, 1, 0, leList 8 (w % 2 ^ nbits) ++ List.replicate 120 0, 0, 0⟩

/-- The state with an instruction where `step` fetches next: a grid of one fibre on core 0, in its run at PC 0, whose code
line the instruction caches hold. It stands for the launch that loads a program (log entry 1, DESIGN CHOICE). -/
def State.withFetchWord (s : State) (nbits w : Nat) : State :=
  let n := s.x.fresh
  let grid : Grid :=
    { ctx := 1, queue := 0, seq := 0, id := 1, lrec := placedRec, recs := List.replicate 16 0, order := n }
  let wave : Wave := { team := n + 1, idx := 0, role := 0, quad := 0, fibs := [(0, { st := .ready, pc := 0 })], stamp := n }
  { s with
    mem := { s.mem with
      icache := [placedLine 0 0 nbits w, placedLine 1 0 nbits w, placedLine 2 0 nbits w] ++ s.mem.icache }
    x := { s.x with
      ctxs := if (s.x.ctxs.find? 1).isSome then s.x.ctxs else s.x.ctxs.insert 1 placedCtx
      grids := s.x.grids.insert n grid
      teams := s.x.teams.insert (n + 1) { grid := n, idx := 0, st := .resident, core := 0, prio := 11 }
      waves := s.x.waves.insert (n + 2) wave
      cur := some { wave := n + 2, pc := 0, count := 0, fmts := [], len := 0, raw := 0 }
      fresh := n + 3 } }

end Sys2Proof.Machine
end

