-- ==== Sys2Proof/Safety.lean ====
section
/-! DEFINITION. What claims say of a run: well-formed memory, and what an instruction leaves behind it in registers,
fibres, status bits and everything else. -/

namespace Sys2Proof.Machine

/-- The canonical form of a byte map: addresses strictly rising, no byte listed that an unlisted address reads as. -/
abbrev Memory.wf (m : SMap Byte) : Bool := SMap.wf 0 m

/-- Device and host memory are in canonical form. -/
def MemSys.wf (m : MemSys) : Bool := Memory.wf m.dev && Memory.wf m.host

/-! ### What an instruction leaves -/

/-- Register k of slot a of a wave, as the state holds it. -/
def Exec.slotReg (x : Exec) (u a k : Nat) : Word := (x.wave? u).elim 0 fun w => w.reg a k

/-- Whether it is poisoned. -/
def Exec.slotPois (x : Exec) (u a k : Nat) : Bool := (x.wave? u).elim false fun w => w.vpois.contains (128 * k + a)

/-- A wave without its registers, poison marks and fibres. -/
def Wave.bare (w : Wave) : Wave := { w with v := [], vpois := [], fibs := [] }

/-- The register windows of a group's fibres exist and are distinct: two fibres never share registers (R165, R337). -/
structure Windows (x : Exec) (i : Iss) : Prop where
  apart : ∀ f ∈ i.grp, ∀ g ∈ i.grp, x.window i.u f = x.window i.u g → f = g
  held  : ∀ f ∈ i.grp, (x.wave? (x.window i.u f).1).isSome = true
  slot  : ∀ f ∈ i.grp, (x.window i.u f).2 < 128

/-- The fibre of a list whose register window a wave's slot is. -/
def Exec.ownerOf (x : Exec) (i : Iss) (l : List Nat) (u a : Nat) : Option Nat :=
  l.find? fun f => decide (x.window i.u f = (u, a))

/-- A register after its owner's writes, in their order. -/
def regAfter (old : Word) (k : Nat) (l : List (Nat × Word)) : Word :=
  l.foldl (fun v p => if p.1 = k then p.2 else v) old

/-- The `%tstatus` bits that a fibre's result raises. -/
def Res.raised (r : Res) : Word :=
  (if r.oob then 1 else 0) ||| (if r.ovf then BitVec.ofNat 32 (2 ^ stOVF) else 0) |||
  (if r.nan then BitVec.ofNat 32 (2 ^ stNAN) else 0)

/-- A fibre after a per-fibre instruction: a fibre of the group is past it, with its predicates written and, under a
lookahead count, its register writes kept in a window; draws count in the fibre whose window it is. -/
def fibAfter (x : Exec) (i : Iss) (len : Nat) (h : Hd) (r : Nat → Res) (u f : Nat) : Fib :=
  let b := x.fib u f
  let mine := decide (u = i.u) && (i.served h).contains f
  { b with
    pc := if u = i.u ∧ f ∈ i.grp then (i.pc + len) % 2 ^ 48 else b.pc
    preds := if mine then ((r f).p.foldl (fun b p => b.setPred p.1 p.2) b).preds else b.preds
    wins := if mine ∧ h.la ≠ 0 then b.wins ++ [⟨x.fresh + (i.served h).idxOf f, h.la.toNat, (r f).v, []⟩] else b.wins
    draws := (x.ownerOf i (i.served h) u f).elim b.draws fun g =>
      if (r g).draws = 0 then b.draws else (b.draws + (r g).draws) % 2 ^ 32 }

/-- What a per-fibre instruction leaves when no fibre of its group traps: each served fibre f has the writes `(r f)`,
its status bits are raised, the group stands past the instruction, and nothing else is changed. -/
structure Ran (s t : State) (i : Iss) (len : Nat) (h : Hd) (r : Nat → Res) : Prop where
  mem   : t.mem = s.mem
  trust : t.trust = s.trust
  rest  : { t.x with waves := s.x.waves, fresh := s.x.fresh, teams := s.x.teams } = s.x
  fresh : t.x.fresh = s.x.fresh + (if h.la = 0 then 0 else (i.served h).length)
  teams : ∀ k, t.x.teams.find? k = (s.x.teams.find? k).map fun m =>
            if k = i.w.team then { m with status := (i.served h).foldl (fun b f => b ||| (r f).raised) m.status } else m
  waves : ∀ u, (t.x.wave? u).map Wave.bare = (s.x.wave? u).map Wave.bare
  regs  : ∀ u a k, a < 128 → t.x.slotReg u a k = (s.x.ownerOf i (i.served h) u a).elim (s.x.slotReg u a k)
            fun f => if h.la = 0 then regAfter (s.x.slotReg u a k) k (r f).v else s.x.slotReg u a k
  pois  : ∀ u a k, a < 128 → t.x.slotPois u a k = (s.x.ownerOf i (i.served h) u a).elim (s.x.slotPois u a k)
            fun f => s.x.slotPois u a k && !(decide (h.la = 0) && (r f).v.any fun p => decide (p.1 = k))
  fibs  : ∀ u f, t.x.fib u f = fibAfter s.x i len h r u f

end Sys2Proof.Machine
end

