-- ==== Sys2Proof/Certificates/Slice0/Obligations.lean ====
section
/-! DEFINITION. The statements for the provers. Each says what the machine does, by a rule or a section of spec/, for
every state and operands that meet its hypotheses. -/

namespace Sys2Proof.Claim

open Sys2Proof.Machine

/-! ### What statements about one instruction share -/

/-- The issuing wave's group, with register windows that exist and are distinct. -/
structure Issues (s : State) (i : Iss) : Prop where
  run  : s.x.issue? = some i
  wins : Windows s.x i

/-- The named registers lie within every served fibre's budget (R145). -/
abbrev InBudget (s : State) (i : Iss) (h : Hd) (named : List Nat) : Prop :=
  ∀ f ∈ i.served h, s.x.pastBudget i f named = false

/-- a is the first source of every served fibre, after the cross-lane modifier, and it is not poisoned. -/
abbrev Source (s : State) (i : Iss) (o : Opnds) (a : Nat → Word) : Prop :=
  ∀ f ∈ i.served o.h, s.x.operandXl i f o.m o.s1 = some (a f).toNat

/-- a and b are the first two sources of every served fibre, and they are not poisoned. -/
abbrev Sources (s : State) (i : Iss) (o : Opnds) (a b : Nat → Word) : Prop :=
  ∀ f ∈ i.served o.h, s.x.ab i f o = some ((a f).toNat, (b f).toNat)

/-- c is V[k] of every served fibre, and it is not poisoned. -/
abbrev Register (s : State) (i : Iss) (h : Hd) (k : Nat) (c : Nat → Word) : Prop :=
  ∀ f ∈ i.served h, s.x.ownRead i f k = some (c f)

/-- The pair V[k] and V[k + 1] of every served fibre is p, low word first, and it is not poisoned. -/
abbrev Pair (s : State) (i : Iss) (h : Hd) (k : Nat) (p : Nat → BitVec 64) : Prop :=
  ∀ f ∈ i.served h, s.x.pair i f k = some (p f).toNat

/-- `exec` answers the state in which a per-fibre instruction has run, with the result `r f` in each served fibre f. -/
def RunsAs (s : State) (n : Instr) (i : Iss) (len : Nat) (h : Hd) (r : Nat → Res) : Prop :=
  ∃ t, Machine.exec n s = .next t ∧ Ran s t i len h r

/-- One word written to V[d]. -/
def one (d : Nat) (v : Word) : Res := { v := [(d, v)] }
/-- A pair written to V[d] and V[d + 1], low word first. -/
def two (d : Nat) (v : BitVec 64) : Res := { v := [(d, v.setWidth 32), (d + 1, (v >>> 32).setWidth 32)] }
/-- A predicate written. -/
def flag (d : Nat) (b : Bool) : Res := { p := [(d, b)] }
/-- A rounded pattern written to V[d], with the conditions it raises and the draws it takes. -/
def pattern (d : Nat) (p : Pat) (draws : Nat) : Res :=
  { v := [(d, BitVec.ofNat 32 p.bits)], ovf := p.ovf, nan := p.nan, draws := draws }

/-! ### Integer formulas, from the tables of R240 to R242 -/

/-- Quotients and remainders of R241. -/
def divs (a b : Word) : Word := if b = 0 then BitVec.allOnes 32 else BitVec.ofInt 32 (a.toInt.tdiv b.toInt)
def divu (a b : Word) : Word := if b = 0 then BitVec.allOnes 32 else BitVec.ofNat 32 (a.toNat / b.toNat)
def rems (a b : Word) : Word := if b = 0 then a else BitVec.ofInt 32 (a.toInt - b.toInt * a.toInt.tdiv b.toInt)
def remu (a b : Word) : Word := if b = 0 then a else BitVec.ofNat 32 (a.toNat % b.toNat)
/-- The mask of BFI: w ones from bit p. -/
def bfiMask (c : Word) : Word :=
  BitVec.ofNat 32 ((2 ^ min (c.toNat / 256 % 256) 32 - 1) * 2 ^ (c.toNat % 256))
/-- Byte i of PERM's result. -/
def permuteByte (a b c : Word) (i : Nat) : Nat :=
  let n := c.toNat / 16 ^ i % 16
  let x := (a.toNat + 2 ^ 32 * b.toNat) / 256 ^ (n % 8) % 256
  if n < 8 then x else if 128 ≤ x then 255 else 0
/-- The ICMP conditions by code. -/
def condition (code : Nat) (a b : Word) : Bool :=
  [a == b, a != b, a.slt b, a.sle b, b.slt a, b.sle a, a.ult b, a.ule b, b.ult a, b.ule a].getD code (b.ule a)

end Sys2Proof.Claim

open Sys2Proof Sys2Proof.Machine Sys2Proof.Claim

/-! ## Integer instructions -/

/-- R240: the two-source integer instructions of 64 bits, each result a function of the two sources. No status bit is
set and nothing traps. -/
def Obligations.IntegerTwoSources : Prop :=
  ∀ (s : State) (i : Iss) (w : AluI) (a b : Nat → Word), Issues s i → InBudget s i w.h (opndsOf w).named →
    Sources s i (opndsOf w) a b →
    ∀ p ∈ ([(.iadd w, fun a b => a + b), (.isub w, fun a b => a - b), (.imul w, fun a b => a * b),
        (.imulh w, fun a b => BitVec.ofInt 32 (a.toInt * b.toInt / 2 ^ 32)),
        (.imulhu w, fun a b => BitVec.ofNat 32 (a.toNat * b.toNat / 2 ^ 32)),
        (.imin w, fun a b => if a.sle b then a else b), (.imax w, fun a b => if a.sle b then b else a),
        (.iminu w, fun a b => if a.ule b then a else b), (.imaxu w, fun a b => if a.ule b then b else a),
        (.iadds w, fun a b => BitVec.ofInt 32 (min (max (a.toInt + b.toInt) (-2 ^ 31)) (2 ^ 31 - 1))),
        (.iand w, fun a b => a &&& b), (.ior w, fun a b => a ||| b), (.ixor w, fun a b => a ^^^ b),
        (.iandn w, fun a b => a &&& ~~~b), (.shl w, fun a b => a <<< b.toNat), (.shr w, fun a b => a >>> b.toNat),
        (.sar w, fun a b => a.sshiftRight (min b.toNat 31)), (.rol w, fun a b => a.rotateLeft b.toNat),
        (.ror w, fun a b => a.rotateRight b.toNat),
        (.bfe w, fun a b => BitVec.ofNat 32 (a.toNat / 2 ^ (b.toNat % 256) % 2 ^ min (b.toNat / 256 % 256) 32))] :
        List (Instr × (Word → Word → Word))),
      RunsAs s p.1 i 8 w.h fun f => one w.d.toNat (p.2 (a f) (b f))

/-- R241: division truncates toward zero, a remainder takes the sign of the dividend, and no case traps or sets status. -/
def Obligations.IntegerDivision : Prop :=
  ∀ (s : State) (i : Iss) (w : AluI) (a b : Nat → Word), Issues s i → InBudget s i w.h (opndsOf w).named →
    Sources s i (opndsOf w) a b →
    RunsAs s (.idiv w) i 8 w.h (fun f => one w.d.toNat (divs (a f) (b f))) ∧
    RunsAs s (.irem w) i 8 w.h (fun f => one w.d.toNat (rems (a f) (b f))) ∧
    RunsAs s (.idivu w) i 8 w.h (fun f => one w.d.toNat (divu (a f) (b f))) ∧
    RunsAs s (.iremu w) i 8 w.h (fun f => one w.d.toNat (remu (a f) (b f)))

/-- R240: the one-source integer instructions of 64 bits, and the moves of an immediate and of a W register. -/
def Obligations.IntegerOneSource : Prop :=
  (∀ (s : State) (i : Iss) (w : AluI) (a : Nat → Word), Issues s i →
    InBudget s i w.h [w.d.toNat, w.s1.toNat] → Source s i (opndsOf w) a →
    ∀ p ∈ ([(.iabs w, fun a => BitVec.ofNat 32 a.toInt.natAbs), (.ineg w, fun a => -a), (.inot w, fun a => ~~~a),
        (.popc w, fun a => BitVec.ofNat 32 ((List.range 32).countP a.getLsbD)),
        (.clz w, fun a => BitVec.ofNat 32 (((List.range 32).find? a.getMsbD).getD 32)),
        (.ctz w, fun a => BitVec.ofNat 32 (((List.range 32).find? a.getLsbD).getD 32)),
        (.brev w, fun a => a.reverse), (.mov w, fun a => a)] : List (Instr × (Word → Word))),
      RunsAs s p.1 i 8 w.h fun f => one w.d.toNat (p.2 (a f))) ∧
  (∀ (s : State) (i : Iss) (w : LongI), Issues s i → InBudget s i w.h [w.d.toNat] →
    RunsAs s (.movi w) i 8 w.h fun _ => one w.d.toNat w.imm) ∧
  ∀ (s : State) (i : Iss) (w : AluI), Issues s i → InBudget s i w.h [w.d.toNat] →
    RunsAs s (.wmov w) i 8 w.h fun _ => one w.d.toNat (s.x.readW i.u w.s1.toNat)

/-- R240: integer instructions with a third source, with a carry or select predicate, and on pairs. -/
def Obligations.IntegerWide : Prop :=
  ∀ (s : State) (i : Iss) (w : AluI), Issues s i →
    let o := opndsOf w
    let d := w.d.toNat
    let carry (f : Nat) : Nat := ((i.w.fib f).pred w.s3.toNat).toNat
    (∀ a b c, InBudget s i w.h (o.named ++ [w.s3.toNat]) → Sources s i o a b → Register s i w.h w.s3.toNat c →
      RunsAs s (.imad w) i 8 w.h (fun f => one d (a f * b f + c f)) ∧
      RunsAs s (.bfi w) i 8 w.h (fun f => one d
        ((a f &&& ~~~ bfiMask (c f)) ||| (b f <<< ((c f).toNat % 256) &&& bfiMask (c f)))) ∧
      RunsAs s (.perm w) i 8 w.h (fun f => one d (BitVec.ofNat 32
        ((List.range 4).map fun n => permuteByte (a f) (b f) (c f) n * 256 ^ n).sum))) ∧
    (∀ a b, InBudget s i w.h o.named → Sources s i o a b →
      RunsAs s (.iaddc w) i 8 w.h (fun f => { v := [(d, a f + b f + BitVec.ofNat 32 (carry f))]
                                              p := [(w.s3.toNat, decide (2 ^ 32 ≤ (a f).toNat + (b f).toNat + carry f))] }) ∧
      RunsAs s (.isubb w) i 8 w.h (fun f => { v := [(d, a f - b f - BitVec.ofNat 32 (carry f))]
                                              p := [(w.s3.toNat, decide ((a f).toNat < (b f).toNat + carry f))] }) ∧
      RunsAs s (.isel w) i 8 w.h (fun f => one d (if (i.w.fib f).pred w.s3.toNat then a f else b f))) ∧
    (∀ p q, InBudget s i w.h (pairRegs d ++ pairRegs w.s1.toNat ++ pairRegs w.s2.toNat) →
      Pair s i w.h w.s1.toNat p → Pair s i w.h w.s2.toNat q →
      RunsAs s (.iadd64 w) i 8 w.h (fun f => two d (p f + q f))) ∧
    (∀ a b r, InBudget s i w.h (pairRegs d ++ o.s1.regs ++ o.s2.regs ++ pairRegs w.s3.toNat) → Sources s i o a b →
      Pair s i w.h w.s3.toNat r →
      RunsAs s (.imad64 w) i 8 w.h (fun f => two d ((a f).setWidth 64 * (b f).setWidth 64 + r f))) ∧
    (∀ (p : Nat → BitVec 64) (b : Nat → Word), InBudget s i w.h (pairRegs d ++ pairRegs w.s1.toNat ++ o.s2.regs) → Pair s i w.h w.s1.toNat p →
      (∀ f ∈ i.served w.h, s.x.operand i f o.s2 = some (b f).toNat) →
      RunsAs s (.shl64 w) i 8 w.h (fun f => two d (p f <<< (b f).toNat)) ∧
      RunsAs s (.shr64 w) i 8 w.h (fun f => two d (p f >>> (b f).toNat)) ∧
      RunsAs s (.lea w) i 8 w.h (fun f => two d (p f + (b f).setWidth 64 <<< w.s3.toNat)))

/-- R242: ICMP writes P[D] with the condition of its code. -/
def Obligations.IntegerCompare : Prop :=
  ∀ (s : State) (i : Iss) (w : AluI) (a b : Nat → Word), Issues s i →
    InBudget s i w.h ((opndsOf w).s1.regs ++ (opndsOf w).s2.regs) → Sources s i (opndsOf w) a b → w.s3.toNat ≤ 9 →
    RunsAs s (.icmp w) i 8 w.h fun f => flag w.d.toNat (condition w.s3.toNat (a f) (b f))

/-- R187, R189: the 16-bit and compact integer instructions do what the operation they name does, at their own length:
D = S1 = Vd and S2 a register or the zero-extended imm5 in the 16-bit forms, imm9 sign-extended in the compact I forms. -/
def Sys2Proof.Claim.ShortIntegerForms : Prop :=
  (∀ (s : State) (i : Iss) (w : Op16) (a b : Nat → Word), Issues s i → InBudget s i hd0 (opndsOf16 w id).named →
    Sources s i (opndsOf16 w id) a b →
    ∀ p ∈ ([(.iadd16 w, fun a b => a + b), (.isub16 w, fun a b => a - b), (.imul16 w, fun a b => a * b),
        (.iand16 w, fun a b => a &&& b), (.ior16 w, fun a b => a ||| b), (.ixor16 w, fun a b => a ^^^ b),
        (.shl16 w, fun a b => a <<< b.toNat), (.shr16 w, fun a b => a >>> b.toNat),
        (.sar16 w, fun a b => a.sshiftRight (min b.toNat 31)), (.imin16 w, fun a b => if a.sle b then a else b),
        (.imax16 w, fun a b => if a.sle b then b else a)] : List (Instr × (Word → Word → Word))),
      RunsAs s p.1 i 2 hd0 fun f => one w.d.toNat (p.2 (a f) (b f))) ∧
  (∀ (s : State) (i : Iss) (w : CompA) (a b : Nat → Word), Issues s i → InBudget s i hd0 (opndsOfA w 0 0).named →
    Sources s i (opndsOfA w 0 0) a b →
    ∀ p ∈ ([(.iaddC w, fun a b => a + b), (.isubC w, fun a b => a - b), (.imulC w, fun a b => a * b),
        (.iandC w, fun a b => a &&& b), (.iorC w, fun a b => a ||| b), (.ixorC w, fun a b => a ^^^ b),
        (.shlC w, fun a b => a <<< b.toNat), (.shrC w, fun a b => a >>> b.toNat),
        (.sarC w, fun a b => a.sshiftRight (min b.toNat 31)), (.iminC w, fun a b => if a.sle b then a else b),
        (.imaxC w, fun a b => if a.sle b then b else a)] : List (Instr × (Word → Word → Word))),
      RunsAs s p.1 i 4 hd0 fun f => one w.vd.toNat (p.2 (a f) (b f))) ∧
  (∀ (s : State) (i : Iss) (w : CompI) (a : Nat → Word), Issues s i → InBudget s i hd0 [w.vd.toNat, w.va.toNat] →
    Register s i hd0 w.va.toNat a →
    ∀ p ∈ ([(.iaddCi w, fun a b => a + b), (.shlCi w, fun a b => a <<< b.toNat), (.shrCi w, fun a b => a >>> b.toNat),
        (.sarCi w, fun a b => a.sshiftRight (min b.toNat 31)), (.iandCi w, fun a b => a &&& b)] : List (Instr × (Word → Word → Word))),
      RunsAs s p.1 i 4 hd0 fun f => one w.vd.toNat (p.2 (a f) (w.imm.signExtend 32)))

/-- R187, R189: the 16-bit and compact moves, of a register, of an immediate and of a W register. -/
def Sys2Proof.Claim.ShortMoves : Prop :=
  ∀ (s : State) (i : Iss), Issues s i →
    (∀ (w : Mov16) (a : Nat → Word), InBudget s i hd0 [w.d.toNat, w.s.toNat] → Register s i hd0 w.s.toNat a →
      RunsAs s (.mov16 w) i 2 hd0 fun f => one w.d.toNat (a f)) ∧
    (∀ w : Mov16, InBudget s i hd0 [w.d.toNat] → RunsAs s (.movi16 w) i 2 hd0 fun _ => one w.d.toNat (w.s.setWidth 32)) ∧
    (∀ (w : CompA) (a : Nat → Word), InBudget s i hd0 [w.vd.toNat, w.va.toNat] → Register s i hd0 w.va.toNat a →
      RunsAs s (.movC w) i 4 hd0 fun f => one w.vd.toNat (a f)) ∧
    (∀ w : CompI, InBudget s i hd0 [w.vd.toNat] →
      RunsAs s (.moviC w) i 4 hd0 fun _ => one w.vd.toNat (w.imm.signExtend 32)) ∧
    ∀ w : CompA, InBudget s i hd0 [w.vd.toNat] →
      RunsAs s (.wmovC w) i 4 hd0 fun _ => one w.vd.toNat (s.x.readW i.u w.va.toNat)

/-- R189, R237: a compact W form computes once, on W registers, and the group moves on. -/
def Sys2Proof.Claim.CompactWave : Prop :=
  ∀ (s : State) (i : Iss) (w : CompW), s.x.issue? = some i → i.grp ≠ [] →
    ∀ p ∈ ([(.iaddCw w, fun a b => a + b), (.isubCw w, fun a b => a - b), (.imulCw w, fun a b => a * b),
        (.iandCw w, fun a b => a &&& b), (.iorCw w, fun a b => a ||| b), (.shlCw w, fun a b => a <<< b.toNat),
        (.shrCw w, fun a b => a >>> b.toNat)] : List (Instr × (Word → Word → Word))),
      Machine.exec p.1 s = .next { s with x := (s.x.writeW i.u w.wd.toNat
        (p.2 (s.x.readW i.u w.wa.toNat) (s.x.readW i.u w.wb.toNat))).advance i 4 }

/-- `ShortIntegerForms` And: `ShortMoves` And: `CompactWave`. -/
def Obligations.ShortInteger : Prop := ShortIntegerForms ∧ ShortMoves ∧ CompactWave

/-! ## Cross-lane instructions, predicates and conversions -/

/-- R243, R189: a shuffle writes V[D] with register S1 of the slot that its code names from the fibre's own slot and the
second source: `.SHFL` b mod 128, SHFLX f xor (b mod 128), SHFLUP f − b when that is a slot, SHFLDN f + b when that is a
slot, else f. -/
def Sys2Proof.Claim.Shuffles : Prop :=
  ∀ (s : State) (i : Iss) (b v : Nat → Word), Issues s i →
    (∀ w : AluI, InBudget s i w.h (opndsOf w).named →
      (∀ f ∈ i.served w.h, s.x.operand i f (opndsOf w).s2 = some (b f).toNat) →
      ∀ p ∈ ([(.shfl w, fun _ b => b % 128), (.shflx w, fun f b => f ^^^ (b % 128)),
          (.shflup w, fun f b => if b ≤ f then f - b else f), (.shfldn w, fun f b => if f + b ≤ 127 then f + b else f)] :
          List (Instr × (Nat → Nat → Nat))),
        (∀ f ∈ i.served w.h, s.x.crossRead i (p.2 f (b f).toNat) w.s1.toNat = some (v f)) →
        RunsAs s p.1 i 8 w.h fun f => one w.d.toNat (v f)) ∧
    ∀ w : CompA, InBudget s i hd0 (opndsOfA w 0 0).named → Register s i hd0 w.vb.toNat b →
      ∀ p ∈ ([(.shflC w, fun _ b => b % 128), (.shflxC w, fun f b => f ^^^ (b % 128))] : List (Instr × (Nat → Nat → Nat))),
        (∀ f ∈ i.served hd0, s.x.crossRead i (p.2 f (b f).toNat) w.va.toNat = some (v f)) →
        RunsAs s p.1 i 4 hd0 fun f => one w.vd.toNat (v f)

/-- R244: VOTE `.all` and `.any` write P[D] from P[S1] of the served fibres; `.ballot` writes the 128-bit mask of the
served fibres whose P[S1] is true into four W registers, lowest slots first. -/
def Sys2Proof.Claim.Votes : Prop :=
  ∀ (s : State) (i : Iss) (w : AluI), Issues s i →
    (w.s3 = 0 → RunsAs s (.vote w) i 8 w.h fun _ =>
      flag w.d.toNat ((i.served w.h).all fun f => (i.w.fib f).pred w.s1.toNat)) ∧
    (w.s3 = 1 → RunsAs s (.vote w) i 8 w.h fun _ =>
      flag w.d.toNat ((i.served w.h).any fun f => (i.w.fib f).pred w.s1.toNat)) ∧
    (w.s3 = 2 → i.served w.h ≠ [] →
      let m := ((i.served w.h).filter fun f => (i.w.fib f).pred w.s1.toNat).foldl (fun n f => n + 2 ^ f) 0
      Machine.exec (.vote w) s = .next { s with x :=
        ((((s.x.writeW i.u w.d.toNat (BitVec.ofNat 32 m)).writeW i.u (w.d.toNat + 1) (BitVec.ofNat 32 (m / 2 ^ 32))).writeW
          i.u (w.d.toNat + 2) (BitVec.ofNat 32 (m / 2 ^ 64))).writeW i.u (w.d.toNat + 3)
          (BitVec.ofNat 32 (m / 2 ^ 96))).advance i 8 })

/-- `Shuffles` And: `Votes`. -/
def Obligations.CrossLane : Prop := Shuffles ∧ Votes

/-- The integer operations of WREDI and WSCAN by code, with their identities (R245). -/
def Sys2Proof.Claim.waveOp (c : Nat) : (Word → Word → Word) × Word :=
  ([(fun a b => a + b, 0), (fun a b => if a.sle b then a else b, 0x7fffffff), (fun a b => if a.sle b then b else a, 0x80000000),
    (fun a b => if a.ule b then a else b, 0xffffffff), (fun a b => if a.ule b then b else a, 0),
    (fun a b => a &&& b, 0xffffffff), (fun a b => a ||| b, 0)] : List ((Word → Word → Word) × Word)).getD c
    (fun a b => a ^^^ b, 0)

/-- R245 to R247: WREDI and WREDF give every served fibre the combination of the served fibres' S1; WSCAN gives each the
combination of the slots up to its own, or below it when S3 bit 4 is set; WARGX gives the value and index of the best
candidate. -/
def Sys2Proof.Claim.WaveReductions : Prop :=
  ∀ (s : State) (i : Iss) (w : AluI) (a : Nat → Word), Issues s i → InBudget s i w.h [w.d.toNat, w.s1.toNat] →
    Register s i w.h w.s1.toNat a →
    (w.s3.toNat < 8 → RunsAs s (.wredi w) i 8 w.h fun _ => one w.d.toNat
      ((i.served w.h).foldl (fun v f => (waveOp w.s3.toNat).1 v (a f)) (waveOp w.s3.toNat).2)) ∧
    (w.s3.toNat % 16 < 8 → RunsAs s (.wscan w) i 8 w.h fun j => one w.d.toNat
      (((i.served w.h).filter fun f => if 16 ≤ w.s3.toNat then decide (f < j) else decide (f ≤ j)).foldl
        (fun v f => (waveOp (w.s3.toNat % 16)).1 v (a f)) (waveOp (w.s3.toNat % 16)).2)) ∧
    (8 ≤ w.s3.toNat % 16 →
      let l := floatScan (Rm.ofCode w.m.rnd.toNat) (slotValues fp32 ((i.served w.h).map fun f => (f, (a f).toNat)))
      RunsAs s (.wscan w) i 8 w.h fun j =>
        { v := [(w.d.toNat, BitVec.ofNat 32 (encodeX fp32 (if 16 ≤ w.s3.toNat ∧ j = 0 then .zero true
            else ((l.map Rd.v).getD (if 16 ≤ w.s3.toNat then j - 1 else j) (.zero true)))))]
          ovf := l.any Rd.ovf, nan := l.any Rd.nan }) ∧
    (let f := fixedFmt w.m.fmt.toNat
     let l := (i.served w.h).map fun j => (j, (a j).toNat % 2 ^ f.width)
     (w.s3 = 0 → RunsAs s (.wredf w) i 8 w.h fun _ =>
        let r := treeSum f (Rm.ofCode w.m.rnd.toNat) 7 (slotValues f l)
        { v := [(w.d.toNat, BitVec.ofNat 32 (encodeX f r.v))], ovf := r.ovf, nan := r.nan }) ∧
     (w.s3 ≠ 0 → RunsAs s (.wredf w) i 8 w.h fun _ => one w.d.toNat (BitVec.ofNat 32
        ((minTree (decide (w.s3 = 2)) f 7 ((List.range 128).map (slotVal l))).getD 0))))

/-- R247: WARGX gives every served fibre the pair (a, b) of one served fibre: that of the first candidate, in slot order,
that no later one beats by value, then tie hash, then b, then slot. -/
def Sys2Proof.Claim.WaveArgReduction : Prop :=
  ∀ (s : State) (i : Iss) (w : AluI) (a b : Nat → Word) (f0 : Nat) (l : List Nat), Issues s i →
    InBudget s i w.h (pairRegs w.d.toNat ++ (opndsOf w).s1.regs ++ (opndsOf w).s2.regs) → Sources s i (opndsOf w) a b →
    i.served w.h = f0 :: l →
    let hash (f : Nat) : Nat := philoxWord (philox ((s.x.drawId i.u f).1 % 2 ^ 32) ((s.x.drawId i.u f).1 / 2 ^ 32)
      (b f).toNat 0 0 1) 0
    let cand (f : Nat) : Cand := ⟨f, (a f).toNat, (b f).toNat, hash f⟩
    let best := l.foldl (fun p f => if (cand f).beats w.s3.toNat p then cand f else p) (cand f0)
    RunsAs s (.wargx w) i 8 w.h fun _ => two w.d.toNat (BitVec.ofNat 64 (best.a + 2 ^ 32 * best.b))

/-- `WaveReductions` And: `WaveArgReduction`. -/
def Obligations.WaveReduce : Prop := WaveReductions ∧ WaveArgReduction

/-- R248: PLOP writes P[D] with bit 2·P[S1] + P[S2] of the table S3; PMOV reads the predicates as a word with bit 7 set, and
sets P0 to P6 from the low bits of V[S1]. -/
def Sys2Proof.Claim.PredicateMoves : Prop :=
  ∀ (s : State) (i : Iss) (w : AluI), Issues s i →
    (RunsAs s (.plop w) i 8 w.h fun f => flag w.d.toNat
      (w.s3.getLsbD (2 * ((i.w.fib f).pred w.s1.toNat).toNat + ((i.w.fib f).pred w.s2.toNat).toNat))) ∧
    (w.s3 = 0 → InBudget s i w.h [w.d.toNat] →
      RunsAs s (.pmov w) i 8 w.h fun f => one w.d.toNat (128 + (i.w.fib f).preds.setWidth 32)) ∧
    ∀ a, w.s3 ≠ 0 → InBudget s i w.h [w.s1.toNat] → Register s i w.h w.s1.toNat a →
      RunsAs s (.pmov w) i 8 w.h fun f => { p := (List.range 7).map fun k => (k, (a f).getLsbD k) }

/-- The draws an instruction takes for n rounded elements under the stochastic bit (R181). -/
def Sys2Proof.Claim.draws (m : AluM) (n : Nat) : Nat := if m.sr then n else 0

/-- R250 to R252: CVTF rounds the value of S1 in its source format to the destination format; CVTFI rounds it to an integer
type or a scale; CVTIF rounds an integer or a scale to a float format. Formats are the entries in force for the run. -/
def Sys2Proof.Claim.Conversions : Prop :=
  ∀ (s : State) (i : Iss) (w : AluI) (a : Nat → Word) (g : Fmt), Issues s i →
    InBudget s i w.h [w.d.toNat, w.s1.toNat] → Source s i (opndsOf w) a → s.x.fmt? w.m.fmt.toNat = some g →
    (∀ src, s.x.fmt? w.s3.toNat = some src → RunsAs s (.cvtf w) i 8 w.h fun f =>
      pattern w.d.toNat (roundBits g (s.x.mode w.m i.u f 0) w.m.sat (value src (a f).toNat)) (draws w.m 1)) ∧
    (RunsAs s (.cvtfi w) i 8 w.h fun f =>
      let r := if w.s3.toNat = 4 then cvtToScale (value g (a f).toNat)
        else cvtToInt w.s3.toNat (s.x.mode w.m i.u f 0) (value g (a f).toNat)
      { v := [(w.d.toNat, BitVec.ofNat 32 r.1)], ovf := r.2.1, nan := r.2.2, draws := draws w.m 1 }) ∧
    RunsAs s (.cvtif w) i 8 w.h fun f =>
      pattern w.d.toNat (roundBits g (s.x.mode w.m i.u f 0) w.m.sat (intValue w.s3.toNat (a f).toNat)) (draws w.m 1)

/-- R253: PACK writes S1 with its selected field replaced by S2's low bits, or by S2 rounded to a format of that width;
UNPACK reads the field, sign-extended where the selector says so, or as a value of a format. -/
def Sys2Proof.Claim.PackUnpack : Prop :=
  ∀ (s : State) (i : Iss) (w : AluI), Issues s i →
    let k := 4 * 2 ^ (w.s3.toNat % 4)
    let p := w.s3.toNat / 4 % 16 * k
    let put (a v : Nat) : Nat := Nat.lor (vAndn a ((2 ^ k - 1) * 2 ^ p)) (v % 2 ^ k * 2 ^ p)
    let fld (a : Word) : Nat := a.toNat / 2 ^ p % 2 ^ k
    (∀ a b, InBudget s i w.h (opndsOf w).named → Sources s i (opndsOf w) a b →
      (w.m.fmt = 0 → RunsAs s (.pack w) i 8 w.h fun f => one w.d.toNat (BitVec.ofNat 32 (put (a f).toNat (b f).toNat))) ∧
      ∀ g, w.m.fmt ≠ 0 → s.x.fmt? w.m.fmt.toNat = some g → g.storage = k → RunsAs s (.pack w) i 8 w.h fun f =>
        let r := roundBits g (s.x.mode w.m i.u f 0) w.m.sat (value fp32 (b f).toNat)
        pattern w.d.toNat { r with bits := put (a f).toNat r.bits } (draws w.m 1)) ∧
    ∀ a, InBudget s i w.h [w.d.toNat, w.s1.toNat] → Source s i (opndsOf w) a →
      (w.m.fmt = 0 → RunsAs s (.unpack w) i 8 w.h fun f => one w.d.toNat
        (if 64 ≤ w.s3.toNat then BitVec.ofInt 32 (signed k (fld (a f))) else BitVec.ofNat 32 (fld (a f)))) ∧
      ∀ g, w.m.fmt ≠ 0 → s.x.fmt? w.m.fmt.toNat = some g → g.storage = k → RunsAs s (.unpack w) i 8 w.h fun f =>
        pattern w.d.toNat (roundBits fp32 (Rm.ofCode w.m.rnd.toNat) false (value g (fld (a f)))) 0

/-- `Conversions` And: `PackUnpack`. -/
def Obligations.FormatMoves : Prop := Conversions ∧ PackUnpack

/-- R254: SRSEED gives the wave a key and sets every slot's draw count to 0; SRDRAW writes V[D] with the fibre's next draw
and counts it. -/
def Sys2Proof.Claim.StochasticState : Prop :=
  (∀ (s : State) (i : Iss) (w : AluI), s.x.issue? = some i → i.served w.h ≠ [] → i.inHandler = false →
    Machine.exec (.srseed w) s = .next { s with x := (s.x.modWave i.u fun v =>
      { v with key := s.x.readW2 i.u w.s1.toNat, fibs := v.fibs.map fun p => (p.1, { p.2 with draws := 0 }) }).advance i 8 }) ∧
  ∀ (s : State) (i : Iss) (w : AluI), Issues s i → InBudget s i w.h [w.d.toNat] →
    RunsAs s (.srdraw w) i 8 w.h fun f => { v := [(w.d.toNat, BitVec.ofNat 32 (s.x.draw i.u f 0))], draws := 1 }

/-- `PredicateMoves` And: `StochasticState`. -/
def Obligations.PredicatesAndDraws : Prop := PredicateMoves ∧ StochasticState

/-! ## Floating point -/

/-- R258: FADD, FSUB, FMUL and FFMA round the exact result once, in the instruction's format and mode; FSCALE multiplies by a
power of two and FRINT rounds to an integer, a zero keeping its sign. -/
def Obligations.FloatArithmetic : Prop :=
  ∀ (s : State) (i : Iss) (w : AluI) (a b : Nat → Word), Issues s i →
    let o := opndsOf w
    let g := wordFmt w.m
    let m (f : Nat) : Rm := s.x.mode w.m i.u f 0
    let val (v : Word) : XR := value g v.toNat
    let out (f : Nat) (v : XR) : Res := pattern w.d.toNat (roundBits g (m f) w.m.sat v) (draws w.m 1)
    (InBudget s i w.h o.named → Sources s i o a b →
      RunsAs s (.fadd w) i 8 w.h (fun f => out f ((val (a f)).add (m f).down (val (b f)))) ∧
      RunsAs s (.fsub w) i 8 w.h (fun f => out f ((val (a f)).sub (m f).down (val (b f)))) ∧
      RunsAs s (.fmul w) i 8 w.h (fun f => out f ((val (a f)).mul (val (b f)))) ∧
      RunsAs s (.fscale w) i 8 w.h (fun f => out f ((val (a f)).scale (b f).toInt))) ∧
    (∀ c, InBudget s i w.h (o.named ++ [w.s3.toNat]) → Sources s i o a b → Register s i w.h w.s3.toNat c →
      RunsAs s (.ffma w) i 8 w.h (fun f => out f (xsum (m f).down [(val (a f)).mul (val (b f)), val (c f)]))) ∧
    (InBudget s i w.h [w.d.toNat, w.s1.toNat] → Source s i o a →
      RunsAs s (.frint w) i 8 w.h (fun f => out f (roundIntX (m f) (val (a f)))))

/-- R258, R262: the correctly rounded functions and FDIV: each result is the exact value of the function, rounded once in the
instruction's format and mode. How an exact value is found is the model's choice (log entry 9): it is enclosed by rationals
until they round alike, and where they never do it is the free `Config.functionValue`. -/
def Obligations.FloatFunctions : Prop :=
  ∀ (s : State) (i : Iss) (w : AluI) (a : Nat → Word), Issues s i →
    let g := wordFmt w.m
    (InBudget s i w.h [w.d.toNat, w.s1.toNat] → Source s i (opndsOf w) a →
      ∀ p ∈ ([(.frcp w, 1, exRcp), (.frsq w, 2, exRsqrt), (.fsqrt w, 3, exSqrt), (.fexp2 w, 4, exExp2), (.flog2 w, 5, exLog2),
          (.fsinr w, 6, exSinr), (.fcosr w, 7, exCosr), (.ftanh w, 8, exTanh)] : List (Instr × Nat × (XR → Ex))),
        RunsAs s p.1 i 8 w.h fun f =>
          pattern w.d.toNat (patEx g (s.x.mode w.m i.u f 0) w.m.sat (p.2.1, (a f).toNat) (p.2.2 (value g (a f).toNat)))
            (draws w.m 1)) ∧
    ∀ b, InBudget s i w.h (opndsOf w).named → Sources s i (opndsOf w) a b →
      RunsAs s (.fdiv w) i 8 w.h fun f =>
        pattern w.d.toNat (patEx g (s.x.mode w.m i.u f 0) w.m.sat (0, 0) (exDiv (value g (a f).toNat) (value g (b f).toNat)))
          (draws w.m 1)

/-- R259 to R261: FMIN and FMAX give one operand bit for bit, a number beating a NaN and −0 standing below +0; FCMP writes
P[D] with its condition; FSEL selects by P[S3]; FCLASS writes the one-hot class. -/
def Obligations.FloatSelections : Prop :=
  ∀ (s : State) (i : Iss) (w : AluI) (a b : Nat → Word), Issues s i →
    let o := opndsOf w
    let g := wordFmt w.m
    (InBudget s i w.h o.named → Sources s i o a b →
      RunsAs s (.fmin w) i 8 w.h (fun f => one w.d.toNat
        (BitVec.ofNat 32 (fminBits false g ((a f).toNat % 2 ^ g.width) ((b f).toNat % 2 ^ g.width)))) ∧
      RunsAs s (.fmax w) i 8 w.h (fun f => one w.d.toNat
        (BitVec.ofNat 32 (fminBits true g ((a f).toNat % 2 ^ g.width) ((b f).toNat % 2 ^ g.width)))) ∧
      RunsAs s (.fsel w) i 8 w.h (fun f => one w.d.toNat (if (i.w.fib f).pred w.s3.toNat then a f else b f))) ∧
    (InBudget s i w.h (o.s1.regs ++ o.s2.regs) → Sources s i o a b →
      RunsAs s (.fcmp w) i 8 w.h (fun f => flag w.d.toNat (fcond w.s3.toNat (value g (a f).toNat) (value g (b f).toNat)))) ∧
    (InBudget s i w.h [w.d.toNat, w.s1.toNat] → Source s i o a →
      RunsAs s (.fclass w) i 8 w.h (fun f => one w.d.toNat (BitVec.ofNat 32 (2 ^ fclassOf g (a f).toNat))))

/-- R263: packed instructions work on the two halves of a word, each rounded once, and under the stochastic bit element 0
draws first. -/
def Sys2Proof.Claim.PackedHalves : Prop :=
  ∀ (s : State) (i : Iss) (o : Opnds) (a b : Nat → Word), Issues s i → InBudget s i o.h o.named → Sources s i o a b →
    let g := wordFmt o.m
    let h (v : Word) (e : Nat) : XR := value g (v.toNat / 2 ^ (16 * e) % 2 ^ 16)
    let out (f : Nat) (v : Rm → Nat → XR) : Res :=
      let p (e : Nat) : Pat := roundBits g (s.x.mode o.m i.u f e) o.m.sat (v (s.x.mode o.m i.u f e) e)
      { v := [(o.d, BitVec.ofNat 32 ((p 0).bits + 2 ^ 16 * (p 1).bits))], ovf := (p 0).ovf || (p 1).ovf
        nan := (p 0).nan || (p 1).nan, draws := draws o.m 2 }
    let add (f : Nat) : Res := out f fun m e => (h (a f) e).add m.down (h (b f) e)
    let mul (f : Nat) : Res := out f fun _ e => (h (a f) e).mul (h (b f) e)
    let fma (c : Nat → Word) (f : Nat) : Res := out f fun m e => xsum m.down [(h (a f) e).mul (h (b f) e), h (c f) e]
    (∀ w, o = opndsOf w → RunsAs s (.hadd2 w) i 8 o.h add ∧ RunsAs s (.hmul2 w) i 8 o.h mul ∧
      ∀ c, InBudget s i o.h [w.s3.toNat] → Register s i o.h w.s3.toNat c → RunsAs s (.hfma2 w) i 8 o.h (fma c)) ∧
    ∀ w, o = opndsOfA w w.fn2 2 → RunsAs s (.hadd2C w) i 4 o.h add ∧ RunsAs s (.hmul2C w) i 4 o.h mul ∧
      ∀ c, Register s i o.h w.vd.toNat c → RunsAs s (.hfma2C w) i 4 o.h (fma c)

/-- R187, R189: the 16-bit and compact float instructions do what the operation they name does in FP32, the 16-bit ones
rounding to nearest even with imm5 as an exact value, the compact ones in the mode of their fn2 field. -/
def Sys2Proof.Claim.ShortFloatForms : Prop :=
  ∀ (s : State) (i : Iss) (a b : Nat → Word), Issues s i →
    let val (v : Word) : XR := value fp32 v.toNat
    let out (d : Nat) (m : Rm) (v : XR) : Res := pattern d (roundBits fp32 m false v) 0
    let pick (big : Bool) (f : Nat) : Word := BitVec.ofNat 32 (fminBits big fp32 (a f).toNat (b f).toNat)
    (∀ w : Op16, InBudget s i hd0 (opndsOf16 w immFp32).named → Sources s i (opndsOf16 w immFp32) a b →
      RunsAs s (.fadd16 w) i 2 hd0 (fun f => out w.d.toNat .rne ((val (a f)).add false (val (b f)))) ∧
      RunsAs s (.fsub16 w) i 2 hd0 (fun f => out w.d.toNat .rne ((val (a f)).sub false (val (b f)))) ∧
      RunsAs s (.fmul16 w) i 2 hd0 (fun f => out w.d.toNat .rne ((val (a f)).mul (val (b f)))) ∧
      RunsAs s (.fmax16 w) i 2 hd0 (fun f => one w.d.toNat (pick true f))) ∧
    ∀ w : CompA, InBudget s i hd0 (opndsOfA w w.fn2 0).named → Sources s i (opndsOfA w w.fn2 0) a b →
      let m := Rm.ofCode w.fn2.toNat
      RunsAs s (.faddC w) i 4 hd0 (fun f => out w.vd.toNat m ((val (a f)).add m.down (val (b f)))) ∧
      RunsAs s (.fsubC w) i 4 hd0 (fun f => out w.vd.toNat m ((val (a f)).sub m.down (val (b f)))) ∧
      RunsAs s (.fmulC w) i 4 hd0 (fun f => out w.vd.toNat m ((val (a f)).mul (val (b f)))) ∧
      RunsAs s (.fminC w) i 4 hd0 (fun f => one w.vd.toNat (pick false f)) ∧
      RunsAs s (.fmaxC w) i 4 hd0 (fun f => one w.vd.toNat (pick true f)) ∧
      ∀ c, Register s i hd0 w.vd.toNat c →
        RunsAs s (.ffmaC w) i 4 hd0 (fun f => out w.vd.toNat m (xsum m.down [(val (a f)).mul (val (b f)), val (c f)]))

/-- `PackedHalves` And: `ShortFloatForms`. -/
def Obligations.FloatShort : Prop := PackedHalves ∧ ShortFloatForms

/-- The rounded result of an error-free transform of a value, and its error (R264): zero when the result is not finite or
overflowed. -/
def Sys2Proof.Claim.withError (g : Fmt) (m : Rm) (sat : Bool) (v : XR) : Rd × XR :=
  let r := roundTo g m sat v
  (r, if r.v.isFinite && !r.ovf then plusZero (rne g (xsum false [v, r.v.negate])) else .zero false)

/-- Words of a format written from V[d] on, with the conditions of the first. -/
def Sys2Proof.Claim.wordsOut (d : Nat) (g : Fmt) (r : Rd) (l : List XR) (n : Nat) : Res :=
  { v := (r.v :: l).zipIdx.map fun p => (d + p.2, BitVec.ofNat 32 (encodeX g p.1)), ovf := r.ovf, nan := r.nan, draws := n }

/-- R264 to R266: ADDX, SUBX and MULX write the rounded result and its error; FMAE writes the rounded a·b + c and two error
words; FASTX writes a sum and the error of the fast two-sum. -/
def Obligations.ErrorFreeTransforms : Prop :=
  (∀ (s : State) (i : Iss) (o : Opnds) (a b : Nat → Word), Issues s i → InBudget s i o.h ((o.d + 1) :: o.named) →
    Sources s i o a b →
    let g := wordFmt o.m
    let m (f : Nat) : Rm := s.x.mode o.m i.u f 0
    let val (v : Word) : XR := value g v.toNat
    let out (f : Nat) (v : XR) : Res :=
      let r := withError g (m f) o.m.sat v
      wordsOut o.d g r.1 [r.2] (draws o.m 1)
    let add (f : Nat) : Res := out f ((val (a f)).add (m f).down (val (b f)))
    let mul (f : Nat) : Res := out f ((val (a f)).mul (val (b f)))
    (∀ w, o = opndsOf w → RunsAs s (.addx w) i 8 o.h add ∧ RunsAs s (.mulx w) i 8 o.h mul ∧
      RunsAs s (.subx w) i 8 o.h (fun f => out f ((val (a f)).sub (m f).down (val (b f)))) ∧
      RunsAs s (.fastx w) i 8 o.h (fun f =>
        let r := roundTo g (m f) o.m.sat ((val (a f)).add (m f).down (val (b f)))
        let z := roundTo g .rne false (r.v.sub false (val (a f)))
        let e := roundTo g .rne false ((val (b f)).sub false z.v)
        wordsOut o.d g ⟨r.v, r.ovf || z.ovf || e.ovf, r.nan || z.nan || e.nan⟩
          [if r.v.isFinite && !(r.ovf || z.ovf || e.ovf) then plusZero e.v else .zero false] (draws o.m 1))) ∧
    ∀ w, o = opndsOfA w w.fn2 0 → RunsAs s (.addxC w) i 4 o.h add ∧ RunsAs s (.mulxC w) i 4 o.h mul) ∧
  ∀ (s : State) (i : Iss) (w : AluI) (a b c : Nat → Word), Issues s i →
    InBudget s i w.h ([w.d.toNat + 1, w.d.toNat + 2, w.s3.toNat] ++ (opndsOf w).named) → Sources s i (opndsOf w) a b →
    Register s i w.h w.s3.toNat c →
    let g := wordFmt w.m
    RunsAs s (.fmae w) i 8 w.h fun f =>
      let m := s.x.mode w.m i.u f 0
      let v := xsum m.down [(value g (a f).toNat).mul (value g (b f).toNat), value g (c f).toNat]
      let r := roundTo g m w.m.sat v
      let e1 := rne g (xsum false [v, r.v.negate])
      let e2 := rne g (xsum false [v, r.v.negate, e1.negate])
      wordsOut w.d.toNat g r (if r.v.isFinite && !r.ovf then [plusZero e1, plusZero e2] else [.zero false, .zero false])
        (draws w.m 1)

/-- The words of an expansion result from V[d] on, with its conditions. -/
def Sys2Proof.Claim.expansion (d : Nat) (g : Fmt) (r : List XR × Bool × Bool) : Res :=
  { v := r.1.zipIdx.map fun p => (d + p.2, BitVec.ofNat 32 (encodeX g p.1)), ovf := r.2.1, nan := r.2.2 }

/-- R268: expansion arithmetic writes the canonical form, of nd words, of the exact result of its operands' values. -/
def Sys2Proof.Claim.ExpansionArithmetic : Prop :=
  ∀ (s : State) (i : Iss) (w : AluI) (a b c : Nat → XR), Issues s i →
    let o := opndsOf w
    let g := wordFmt w.m
    let d := w.d.toNat
    let nd := xWords (w.s3.toNat % 4)
    let na := xWords (w.s3.toNat / 4 % 4)
    let nb := xWords (w.s3.toNat / 16 % 4)
    let src (fm : Fmt) (p : Operand) (n : Nat) (v : Nat → XR) : Prop := ∀ f ∈ i.served w.h, s.x.expOperand i f fm p n = some (v f)
    (InBudget s i w.h (expRegs d nd ++ o.s1.expRegs na ++ o.s2.expRegs nb) → src g o.s1 na a → src g o.s2 nb b →
      RunsAs s (.xadd w) i 8 w.h (fun f => expansion d g (canon g nd ((a f).add false (b f)))) ∧
      RunsAs s (.xsub w) i 8 w.h (fun f => expansion d g (canon g nd ((a f).sub false (b f)))) ∧
      RunsAs s (.xmul w) i 8 w.h (fun f => expansion d g (canon g nd ((a f).mul (b f)))) ∧
      (src g (.v d) nd c →
        RunsAs s (.xfma w) i 8 w.h (fun f => expansion d g (canon g nd (xsum false [(a f).mul (b f), c f]))))) ∧
    (InBudget s i w.h (expRegs d nd ++ o.s1.expRegs na) →
      (src g o.s1 na a → RunsAs s (.xren w) i 8 w.h (fun f => expansion d g (canon g nd (a f)))) ∧
      (src (fixedFmt (w.s3.toNat / 16 % 4)) o.s1 na a → RunsAs s (.xcpr w) i 8 w.h (fun f => expansion d g (canon g nd (a f))))) ∧
    ∀ p q, InBudget s i w.h (expRegs d nd ++ o.s1.regs ++ o.s2.regs) → Sources s i o p q → src g (.v d) nd c →
      RunsAs s (.xacc w) i 8 w.h (fun f => expansion d g
        (canon g nd (xsum false [c f, (value g (p f).toNat).mul (value g (q f).toNat)])))

/-- R269 to R271: XSPLIT writes one word as an expansion of another format, XCMP compares expansions exactly, and XTOF rounds
an expansion once to a format. -/
def Sys2Proof.Claim.ExpansionConversions : Prop :=
  ∀ (s : State) (i : Iss) (w : AluI) (a b : Nat → XR), Issues s i →
    let o := opndsOf w
    let g := wordFmt w.m
    let d := w.d.toNat
    let n0 := xWords (w.s3.toNat % 4)
    let na := xWords (w.s3.toNat / 4 % 4)
    let src (fm : Fmt) (p : Operand) (n : Nat) (v : Nat → XR) : Prop := ∀ f ∈ i.served w.h, s.x.expOperand i f fm p n = some (v f)
    (∀ p : Nat → Word, InBudget s i w.h (expRegs d n0 ++ o.s1.regs) →
      (∀ f ∈ i.served w.h, s.x.operand i f o.s1 = some (p f).toNat) →
      RunsAs s (.xsplit w) i 8 w.h fun f => expansion d g (xsplit g n0 (value (fixedFmt (w.s3.toNat / 16 % 4)) (p f).toNat))) ∧
    (InBudget s i w.h (o.s1.expRegs na ++ o.s2.expRegs n0) → src g o.s1 na a → src g o.s2 n0 b →
      RunsAs s (.xcmp w) i 8 w.h fun f => flag d (fcond (w.s3.toNat / 16) (a f) (b f))) ∧
    ∀ t, InBudget s i w.h (d :: o.s1.expRegs na) →
      (∀ f ∈ i.served w.h, s.x.expOperand i f (fixedFmt (w.s3.toNat / 16 % 4)) o.s1 na (s.x.mode w.m i.u f 0).down = some (a f)) →
      s.x.fmt? w.m.fmt.toNat = some t →
      RunsAs s (.xtof w) i 8 w.h fun f => pattern d (roundBits t (s.x.mode w.m i.u f 0) w.m.sat (a f)) (draws w.m 1)

/-- `ExpansionArithmetic` And: `ExpansionConversions`. -/
def Obligations.Expansions : Prop := ExpansionArithmetic ∧ ExpansionConversions

/-! ## Control flow, fibres and membership -/

/-- The waves of y are those of x with the Ready fibres of the group at new PCs. -/
structure Sys2Proof.Claim.Moved (x y : Exec) (i : Iss) (pc : Nat → Nat) : Prop where
  wave : ∀ u, (y.wave? u).map Wave.bare = (x.wave? u).map Wave.bare
  regs : ∀ u a k, y.slotReg u a k = x.slotReg u a k
  pois : ∀ u a k, y.slotPois u a k = x.slotPois u a k
  fibs : ∀ u f, y.fib u f = if u = i.u ∧ f ∈ i.grp ∧ (x.fib u f).st = .ready ∧ (x.fib u f).pc = i.pc
    then { x.fib u f with pc := pc f } else x.fib u f

/-- y is x with the Ready fibres of the group at new PCs, and nothing else changed. -/
structure Sys2Proof.Claim.Past (x y : Exec) (i : Iss) (pc : Nat → Nat) : Prop extends Moved x y i pc where
  rest : { y with waves := x.waves } = x

/-- `exec` answers a state that differs from s in what executes alone, which is y with the group at new PCs. -/
def Sys2Proof.Claim.MakesTo (s : State) (n : Instr) (i : Iss) (y : Exec) (pc : Nat → Nat) : Prop :=
  ∃ t, Machine.exec n s = .next t ∧ t.trust = s.trust ∧ t.mem = s.mem ∧ Past y t.x i pc

/-- The same with the whole group past the instruction. -/
def Sys2Proof.Claim.Makes (s : State) (n : Instr) (i : Iss) (y : Exec) (len : Nat) : Prop :=
  MakesTo s n i y fun _ => (i.pc + len) % 2 ^ 48

/-- The issuing group of a uniform instruction holds a fibre whose guard is true (R146); f is the lowest. -/
structure Sys2Proof.Claim.Uniform (s : State) (i : Iss) (h : Hd) (f : Nat) : Prop where
  run : s.x.issue? = some i
  low : (i.served h).head? = some f

/-- A branch: served fibres write what `r` says and go to `target`, the others go on; nothing else changes. -/
structure Sys2Proof.Claim.Went (s t : State) (i : Iss) (len : Nat) (h : Hd) (r : Nat → Res) (target : Nat → Nat) : Prop where
  mem   : t.mem = s.mem
  trust : t.trust = s.trust
  rest  : { t.x with waves := s.x.waves } = s.x
  waves : ∀ u, (t.x.wave? u).map Wave.bare = (s.x.wave? u).map Wave.bare
  regs  : ∀ u a k, a < 128 → t.x.slotReg u a k = (s.x.ownerOf i (i.served h) u a).elim (s.x.slotReg u a k)
            fun f => regAfter (s.x.slotReg u a k) k (r f).v
  pois  : ∀ u a k, a < 128 → t.x.slotPois u a k = (s.x.ownerOf i (i.served h) u a).elim (s.x.slotPois u a k)
            fun f => s.x.slotPois u a k && !((r f).v.any fun p => decide (p.1 = k))
  fibs  : ∀ u f, t.x.fib u f = { s.x.fib u f with pc :=
            if u = i.u ∧ f ∈ i.grp then (if f ∈ i.served h then target f else (i.pc + len) % 2 ^ 48) else (s.x.fib u f).pc }
def Sys2Proof.Claim.Goes (s : State) (n : Instr) (i : Iss) (len : Nat) (h : Hd) (r : Nat → Res) (target : Nat → Nat) : Prop :=
  ∃ t, Machine.exec n s = .next t ∧ Went s t i len h r target

/-- fs, the fibres of i's group that trap, are masked with a record of a cause at the instruction, the others of the group
go on; no memory and no register changes (R335). -/
structure Sys2Proof.Claim.Trapped (s t : State) (i : Iss) (fs : List Nat) (cause opnd len : Nat) : Prop where
  mem   : t.mem = s.mem
  trust : t.trust = s.trust
  waves : ∀ u, (t.x.wave? u).map Wave.bare = (s.x.wave? u).map Wave.bare
  regs  : ∀ u a k, t.x.slotReg u a k = s.x.slotReg u a k
  pois  : ∀ u a k, t.x.slotPois u a k = s.x.slotPois u a k
  trap  : ∀ f ∈ fs, ∃ r, (t.x.fib i.u f).trap = some r ∧ r.cause = cause ∧ r.opnd = opnd ∧ r.len = len ∧ r.pc = i.pc ∧
            r.served = false ∧ t.x.fib i.u f = { s.x.fib i.u f with st := .masked, trap := some r }
  fibs  : ∀ u f, u ≠ i.u ∨ f ∉ fs → t.x.fib u f =
            { s.x.fib u f with pc := if u = i.u ∧ f ∈ i.grp then (i.pc + len) % 2 ^ 48 else (s.x.fib u f).pc }

/-- A PC at a signed halfword offset. -/
def Sys2Proof.Claim.relative (pc : Nat) (off : Int) : Nat := (BitVec.ofInt 48 ((pc : Int) + 2 * off)).toNat

/-- R215, R227, R189: a guard-true fibre of a branch goes to PC + 2·offset or to the low 48 bits of its register pair, a
guard-false one to the next instruction; calls write the return address to their pair. NOP changes nothing but the PC. -/
def Sys2Proof.Claim.Branches : Prop :=
  ∀ (s : State) (i : Iss), Issues s i →
    (∀ w : LongI,
      Goes s (.bra w) i 8 w.h (fun _ => {}) (fun _ => relative i.pc w.imm.toInt) ∧
      Goes s (.brp w) i 8 w.h (fun _ => {}) (fun _ => relative i.pc w.imm.toInt) ∧
      (InBudget s i w.h (pairRegs w.d.toNat) → Goes s (.call w) i 8 w.h
        (fun _ => two w.d.toNat (BitVec.ofNat 64 (i.pc + 8))) (fun _ => relative i.pc w.imm.toInt))) ∧
    (∀ w : CompJ,
      Goes s (.braC w) i 4 ⟨w.neg, w.pg, 0, w.b⟩ (fun _ => {}) (fun _ => relative i.pc w.off.toInt) ∧
      Goes s (.brpC w) i 4 ⟨w.neg, w.pg, 0, w.b⟩ (fun _ => {}) (fun _ => relative i.pc w.off.toInt)) ∧
    (∀ (w : OwnI) (p : Nat → BitVec 64), InBudget s i w.h (pairRegs w.s1.toNat) → Pair s i w.h w.s1.toNat p →
      Goes s (.brx w) i 8 w.h (fun _ => {}) (fun f => (p f).toNat % 2 ^ 48) ∧
      Goes s (.ret w) i 8 w.h (fun _ => {}) (fun f => (p f).toNat % 2 ^ 48) ∧
      (InBudget s i w.h (pairRegs w.d.toNat) → Goes s (.callx w) i 8 w.h
        (fun _ => two w.d.toNat (BitVec.ofNat 64 (i.pc + 8))) (fun f => (p f).toNat % 2 ^ 48))) ∧
    (∀ w : OwnI, RunsAs s (.nop w) i 8 w.h fun _ => {}) ∧
    ∀ w : CompN, RunsAs s (.nopC w) i 4 hd0 fun _ => {}

/-- R216: LOOPW counts W[D] down once and sends the whole group back by its offset unless the counter became 0. -/
def Sys2Proof.Claim.LoopCounter : Prop :=
  ∀ (s : State) (i : Iss) (w : OwnI), s.x.issue? = some i →
    let v := s.x.readW i.u w.d.toNat - 1
    MakesTo s (.loopw w) i (s.x.writeW i.u w.d.toNat v) fun _ =>
      if v = 0 then (i.pc + 8) % 2 ^ 48 else relative i.pc w.m.toInt

/-- `Branches` And: `LoopCounter`. -/
def Obligations.BranchesAndLoops : Prop := Branches ∧ LoopCounter

/-- R151: FSPAWN starts a Free slot for each served fibre, lowest first, at PC + 2·M with V0 = the fibre's slot, and gives
the fibre the slot's number, or all ones when no slot is left. That the slot keeps its predicates is the model's reading (log
entry 32). -/
def Sys2Proof.Claim.FibreSpawn : Prop :=
  ∀ (s : State) (i : Iss) (w : OwnI), Issues s i → i.inHandler = false → (∀ f, (i.w.fib f).org = none) →
    InBudget s i w.h [w.d.toNat] →
    let free := (List.range 128).filter fun f => decide ((i.w.fib f).st = .free)
    ∃ t, Machine.exec (.fspawn w) s = .next t ∧ t.trust = s.trust ∧ t.mem = s.mem ∧
      { t.x with waves := s.x.waves } = s.x ∧
      (∀ u, (t.x.wave? u).map Wave.bare = (s.x.wave? u).map Wave.bare) ∧
      (∀ j f : Nat, (i.served w.h)[j]? = some f → match free[j]? with
        | some k => t.x.slotReg i.u k 0 = BitVec.ofNat 32 f ∧ t.x.slotReg i.u f w.d.toNat = BitVec.ofNat 32 k ∧
            t.x.fib i.u k = { s.x.fib i.u k with st := .ready, pc := relative i.pc w.m.toInt, draws := 0, trap := none
                                                 async := [], wins := [] }
        | none => t.x.slotReg i.u f w.d.toNat = 0xffffffff) ∧
      (∀ u a k, a < 128 → u ≠ i.u ∨ ¬ (a ∈ i.served w.h ∧ k = w.d.toNat ∨ a ∈ free.take (i.served w.h).length ∧ k = 0) →
        t.x.slotReg u a k = s.x.slotReg u a k) ∧
      ∀ u f, u ≠ i.u ∨ f ∉ free.take (i.served w.h).length → t.x.fib u f =
        { s.x.fib u f with pc := if u = i.u ∧ f ∈ i.grp then (i.pc + 8) % 2 ^ 48 else (s.x.fib u f).pc }

/-- R152: served fibres of an FQUIT become Free, the others go on; a wave none of whose fibres is left exits. -/
def Sys2Proof.Claim.FibreQuit : Prop :=
  ∀ (s : State) (i : Iss) (w : OwnI), s.x.issue? = some i → i.inHandler = false → (∀ f, (i.w.fib f).wins = []) →
    (∀ p ∈ i.w.fibs, p.2.rejoin? = none) →
    ∃ t, Machine.exec (.fquit w) s = .next t ∧ t.trust = s.trust ∧ t.mem = s.mem ∧
      (∀ u a k, t.x.slotReg u a k = s.x.slotReg u a k) ∧
      (∀ f, t.x.fib i.u f = if f ∈ i.served w.h then { s.x.fib i.u f with st := .free }
        else { s.x.fib i.u f with pc := if f ∈ i.grp then (i.pc + 8) % 2 ^ 48 else (s.x.fib i.u f).pc }) ∧
      (∀ v, t.x.wave? i.u = some v → v.exited = true ∨ ∃ p ∈ v.fibs, p.2.st ≠ .free) ∧
      ((∃ p ∈ i.w.fibs, p.1 ∉ i.served w.h ∧ p.2.st ≠ .free) → { t.x with waves := s.x.waves } = s.x ∧
        ∀ u, (t.x.wave? u).map Wave.bare = (s.x.wave? u).map Wave.bare)

/-- R153: a fibre that executes REJOIN waits until every fibre of its mask is Free or waits in the same REJOIN: the whole
group goes on when that is so at once, and stands waiting when a Ready fibre is named by every mask. -/
def Sys2Proof.Claim.FibreRejoin : Prop :=
  ∀ (s : State) (i : Iss) (w : OwnI) (m : Nat → Nat), s.x.issue? = some i →
    let k := w.s1.toNat
    InBudget s i w.h [k, k + 1, k + 2, k + 3] →
    (∀ f ∈ i.served w.h, ∃ a b c d : Word, s.x.ownRead i f k = some a ∧ s.x.ownRead i f (k + 1) = some b ∧
      s.x.ownRead i f (k + 2) = some c ∧ s.x.ownRead i f (k + 3) = some d ∧
      m f = a.toNat + 2 ^ 32 * b.toNat + 2 ^ 64 * c.toNat + 2 ^ 96 * d.toNat) →
    (∀ p ∈ i.w.fibs, p.2.rejoin? = none) → (∀ f, (i.w.fib f).async = []) → i.served w.h ≠ [] →
    ((∀ f ∈ i.served w.h, ∀ j < 128, bitOf (m f) j = true → j ∈ i.served w.h ∨ (i.w.fib j).st = .free) →
      ∃ t, Machine.exec (.rejoin w) s = .next t ∧ t.trust = s.trust ∧ t.mem = s.mem ∧ { t.x with waves := s.x.waves } = s.x ∧
        (∀ u, (t.x.wave? u).map Wave.bare = (s.x.wave? u).map Wave.bare) ∧
        ∀ u f, t.x.fib u f = { s.x.fib u f with
          pc := if u = i.u ∧ f ∈ i.grp then (i.pc + 8) % 2 ^ 48 else (s.x.fib u f).pc
          trap := if u = i.u ∧ f ∈ i.served w.h then none else (s.x.fib u f).trap }) ∧
    ∀ j < 128, j ∉ i.served w.h → (i.w.fib j).st = .ready → (∀ f ∈ i.served w.h, bitOf (m f) j = true) →
      ∃ t, Machine.exec (.rejoin w) s = .next t ∧ t.trust = s.trust ∧ t.mem = s.mem ∧
        ∀ f ∈ i.served w.h, (t.x.fib i.u f).st = .waiting (.rejoin (m f) (s.x.cur.elim 0 Cur.raw)) ∧ (t.x.fib i.u f).pc = i.pc

/-- `FibreSpawn` And: `FibreQuit` And: `FibreRejoin`. -/
def Obligations.FibreLives : Prop := FibreSpawn ∧ FibreQuit ∧ FibreRejoin

/-- R227, R234, R171, R233, R212, R214: the uniform and unguarded instructions that change one register of the wave, team or
context: YIELD makes the wave the youngest; SETPRIO takes the smaller of M and the launch priority; FMTW queues a valid
descriptor for the end of the run and traps FMTBAD for another or a fixed entry, FMTR reads one; SRW clears `%tstatus` bits or
sets a sector counter, and no other number is its encoding; HMOV copies a handle. -/
def Sys2Proof.Claim.UniformRegisters : Prop :=
  (∀ (s : State) (i : Iss) (w : OwnI), s.x.issue? = some i →
    Makes s (.yield w) i { s.x.modWave i.u (fun v =>
      { v with stamp := s.x.fresh, hold := if s.x.determ i.w then some .commit else v.hold }) with fresh := s.x.fresh + 1 } 8) ∧
  ∀ (s : State) (i : Iss) (w : OwnI) (f : Nat), Uniform s i w.h f →
    let v := s.x.readW i.u w.s1.toNat
    (∀ m g, s.x.teamOf i.w = some m → s.x.gridOf m = some g →
      Makes s (.setprio w) i (s.x.modTeam i.w.team fun m => { m with prio := min w.m.toNat (g.byte 44) }) 8) ∧
    (8 ≤ w.m.toNat → v = 0 ∨ descOk v.toNat = true →
      Makes s (.fmtw w) i (s.x.modTeam i.w.team fun m => { m with fmtw := m.fmtw ++ [(i.u, w.m.toNat, v.toNat)] }) 8) ∧
    (w.m.toNat < 8 ∨ v ≠ 0 ∧ descOk v.toNat = false → (i.w.fib f).wins = [] →
      ∃ t, Machine.exec (.fmtw w) s = .next t ∧ Trapped s t i [f] 0x0d 0 8) ∧
    Makes s (.fmtr w) i (s.x.writeW i.u w.d.toNat (BitVec.ofNat 32
      (if w.m.toNat < 8 then fixedDesc.getD w.m.toNat 0 else SMap.get (s.x.cur.elim [] Cur.fmts) 0 w.m.toNat))) 8 ∧
    (w.m = 0x0b → Makes s (.srw w) i (s.x.modTeam i.w.team fun m => { m with status := m.status &&& ~~~ (v &&& 0x3f) }) 8) ∧
    (0x40 ≤ w.m.toNat → Makes s (.srw w) i (s.x.modCtx (s.x.ctxOf i.w) fun c =>
      { c with ctrs := c.ctrs.put 0 (w.m.toNat - 0x40) (BitVec.ofNat 64 (v.toNat + 2 ^ 32 * (s.x.readW i.u (w.s1.toNat + 1)).toNat)) }) 8) ∧
    Makes s (.hmov w) i (s.x.modWave i.u fun v =>
      { v with handles := v.handles.put {} w.d.toNat (v.handles.get {} w.s1.toNat) }) 8

/-- R211, R214: SRR reads the low or the high 64 bits of a special register into a pair; a read of `%cycle` also takes
eight free values, one for each slice of 16 slots (log entry 2). -/
def Sys2Proof.Claim.SpecialReads : Prop :=
  ∀ (s : State) (i : Iss) (w : OwnI), Issues s i → InBudget s i w.h (pairRegs w.d.toNat) →
    let n := w.m.toNat % 256
    ∃ t, Machine.exec (.srr w) s = .next (if n = 9 then { t with x := { t.x with free := s.x.free + 8 } } else t) ∧
      Ran s t i 8 w.h fun f =>
        let v := s.x.special i.u f n
        two w.d.toNat (BitVec.ofNat 64 (if w.m.getLsbD 8 then v / 2 ^ 64 else v))

/-- R211, R213, R214: what SRR and SRW name. The special registers by number, as a fibre reads them: its slot within its slice
and its wave, the wave's index, the team's, the launch identifier, the rank, the die and the core, the quanta closed, the cycle,
the done bits, `%tstatus`, the origin, the depth, the priority, C0 to C7 and the context's sector counters. The cycle is the
count of retired instructions in deterministic mode, else a free value for each slice (log entry 2, the model's choice);
that the origin mask takes in the served fibres of one origin wave is the model's reading (log entry 63). -/
def Sys2Proof.Claim.SpecialValues : Prop :=
  (∀ w : OwnI, let n := w.m.toNat % 256
    (0x17 < n ∧ n < 0x40 ∨ 0x5f < n → (Instr.srr w).wellFormed = false) ∧
    (w.m ≠ 0x0b → (w.m.toNat < 0x40 ∨ 0x5f < w.m.toNat) → (Instr.srw w).wellFormed = false)) ∧
  ∀ (s : State) (i : Iss) (w : OwnI) (m : Team) (g : Grid) (c : Ctx), Issues s i → InBudget s i w.h (pairRegs w.d.toNat) →
    s.x.teamOf i.w = some m → s.x.gridOf m = some g → s.x.ctxs.find? g.ctx = some c →
    let n := w.m.toNat % 256
    let reads (v : Nat → Nat) : Prop := ∃ t, Machine.exec (.srr w) s = .next (if n = 9 then { t with x := { t.x with free := s.x.free + 8 } } else t) ∧
      Ran s t i 8 w.h fun f => two w.d.toNat (BitVec.ofNat 64 (if w.m.getLsbD 8 then v f / 2 ^ 64 else v f))
    (∀ p ∈ ([(0x00, fun f => f % 16), (0x01, fun f => f), (0x02, fun _ => i.w.idx), (0x03, fun _ => m.idx),
        (0x04, fun _ => g.id % 2 ^ 32), (0x05, fun _ => s.x.rank % 2 ^ 21), (0x06, fun _ => m.core / 168), (0x07, fun _ => m.core),
        (0x08, fun _ => i.w.quanta),
        (0x09, fun f => if g.determ then i.w.retired else (Config.freeCycle (s.x.free + f / 16)).toNat),
        (0x0a, fun _ => if g.determ then Nat.land m.tdone i.w.obsTags else m.tdone), (0x0b, fun _ => m.status.toNat),
        (0x0e, fun _ => i.w.handler.elim 0 HandlerInfo.depth), (0x0f, fun _ => m.prio)] : List (Nat × (Nat → Nat))),
      n = p.1 → reads p.2) ∧
    (∀ k < 8, n = 0x10 + k → reads fun _ => (m.convs.get {} k).members + 2 ^ 16 * (m.convs.get {} k).signed +
      2 ^ 32 * (m.convs.get {} k).seq) ∧
    (∀ k < 32, n = 0x40 + k → reads fun _ => (c.ctrs.get 0 k).toNat) ∧
    (n = 0x0c ∨ n = 0x0d → (∀ f ∈ i.served w.h, (i.w.fib f).org = none) → reads fun _ => 0) ∧
    ∀ (org : Nat → Nat × Nat) (v : Nat → Wave) (r : Nat → Trap), (∀ f ∈ i.served w.h, (i.w.fib f).org = some (org f) ∧
        s.x.wave? (org f).1 = some (v f) ∧ (v f).team = i.w.team ∧ (v f).handler = none ∧ (v f).idx < 16 ∧
        ((v f).fib (org f).2).trap = some (r f)) →
      (n = 0x0d → reads fun f => (r f).opnd * 2 ^ 104 + (r f).cause * 2 ^ 96 + m.idx * 2 ^ 64 + (v f).idx * 2 ^ 55 +
        (org f).2 * 2 ^ 48 + (r f).pc) ∧
      (n = 0x0c → ∃ b : Nat → Nat, reads b ∧ ∀ f ∈ i.served w.h, ∀ j, bitOf (b f) j = true ↔
        ∃ p ∈ i.w.fibs, p.2.unfinished = true ∧ p.2.org = some ((org f).1, j))

/-- `UniformRegisters` And: `SpecialReads` And: `SpecialValues`. -/
def Obligations.Registers : Prop := UniformRegisters ∧ SpecialReads ∧ SpecialValues

/-- R226: HWAIT goes on when its handle is ready, writing the slot's value where the modifier asks, and holds the wave while it
is not; HTEST writes whether it is ready. -/
def Obligations.HandleWaits : Prop :=
  ∀ (s : State) (i : Iss) (w : OwnI), Issues s i →
    let hd := i.w.handles.get {} w.s1.toNat
    RunsAs s (.htest w) i 8 w.h (fun _ => flag w.d.toNat hd.ready) ∧
    (hd.ready = true → w.m ≠ 1 → RunsAs s (.hwait w) i 8 w.h fun _ => {}) ∧
    (hd.ready = true → w.m = 1 → InBudget s i w.h [w.d.toNat] →
      RunsAs s (.hwait w) i 8 w.h fun f => one w.d.toNat ((hd.vals.find? f).getD hd.all)) ∧
    (hd.ready = false → i.served w.h ≠ [] → ∃ t, Machine.exec (.hwait w) s = .next t ∧ t.trust = s.trust ∧ t.mem = s.mem ∧
      (t.x.wave? i.u).map Wave.hold = some (some (.handle w.s1.toNat)) ∧ ∀ u f, t.x.fib u f = s.x.fib u f)

/-- What executes once a wave is held at the instruction of i (R149). -/
def Sys2Proof.Claim.held (x : Exec) (i : Iss) (h : Hold) : Exec :=
  (x.modWave i.u fun w => { w with hold := some h, holdPc := i.pc }).post 0 (.waveRipens i.u)

/-- R157: ATTACH refused writes W[D] with bit 31 and the lowest reason that holds (which of several is told is the model's
choice, log entry 33); accepted, it starts a wave of the lowest free index with 128 Ready fibres at the entry and the attaching
wave's index in its W0, and writes that index to W[D]. The second clause is for a team without registered objects or barrier
arrivals, and for an index that no frieze names. -/
def Sys2Proof.Claim.WaveAttach : Prop :=
  ∀ (s : State) (i : Iss) (w : OwnI) (f : Nat) (m : Team), Uniform s i w.h f → i.inHandler = false →
    s.x.determ i.w = false → i.w.log = [] → s.x.teamOf i.w = some m →
    let role := (s.x.readW i.u w.s1.toNat).toNat
    let entry := i.pc / 2 ^ 32 * 2 ^ 32 + (s.x.readW i.u w.s2.toNat).toNat
    let full := decide (16 ≤ s.x.waveCount i.w.team)
    let busy := decide (64 ≤ s.x.coreLoad m.core)
    let reason := if full then 1 else if busy then 2 else if 1 < role then 3 else if entry % 8 ≠ 0 then 4 else 0
    (reason ≠ 0 → Makes s (.attach w) i (s.x.writeW i.u w.d.toNat (BitVec.ofNat 32 (2 ^ 31 + reason * 2 ^ 16))) 8) ∧
    (reason = 0 → m.tbreg = [] → (∀ b, (m.bars.get {} b).a = 0) → s.x.wave? s.x.fresh = none →
      m.friezeOf (s.x.freeIndex i.w.team) = none →
      let idx := s.x.freeIndex i.w.team
      let new : Wave := { team := i.w.team, idx := idx, role := role, quad := s.x.pickQuad m.core, stamp := s.x.fresh
                          fibs := (List.range 128).map fun f => (f, { st := .ready, pc := entry }), starved := List.range 128
                          w := SMap.put 0 [] 0 (BitVec.ofNat 32 i.w.idx) }
      Makes s (.attach w) i (({ s.x with waves := s.x.waves.insert s.x.fresh new, fresh := s.x.fresh + 1 } : Exec).writeW i.u
        w.d.toNat (BitVec.ofNat 32 idx)) 8)

/-- R158: DETACH of a group that holds every unfinished fibre of its wave frees them and ends the wave; any other group, or a
handler wave, traps DETPART in all of its fibres. -/
def Sys2Proof.Claim.WaveDetach : Prop :=
  ∀ (s : State) (i : Iss) (w : OwnI), s.x.issue? = some i → s.x.determ i.w = false → i.w.exited = false → i.w.log = [] →
    let whole := decide (∀ p ∈ i.w.fibs, p.2.st = .free ∨ p.1 ∈ i.grp)
    (i.inHandler = false → whole = true → ∃ t, Machine.exec (.detach w) s = .next t ∧ t.trust = s.trust ∧ t.mem = s.mem ∧
      (t.x.wave? i.u).map Wave.exited = some true ∧ ∀ f, (t.x.fib i.u f).st = .free) ∧
    (i.inHandler = true ∨ whole = false → ∃ t, Machine.exec (.detach w) s = .next t ∧ t.trust = s.trust ∧ t.mem = s.mem ∧
      ∀ f ∈ i.grp, (t.x.fib i.u f).st = .masked ∧ (t.x.fib i.u f).pc = i.pc ∧
        ((t.x.fib i.u f).trap.map Trap.cause = some cDETPART))

/-- `WaveAttach` And: `WaveDetach`. -/
def Obligations.TeamMembership : Prop := WaveAttach ∧ WaveDetach

/-- R219, R220: an arrival at a team barrier sets its count N and adds one to A; when A reaches N, or the number of live waves
where N is 0, the generation counts, A becomes 0, and the team's waves held at the generation that ended go on. BARARV goes
on; BARSYN is held while its generation lasts; BARWT is held if its wave has arrived in the present generation. -/
def Sys2Proof.Claim.TeamBarriers : Prop :=
  ∀ (s : State) (i : Iss) (w : OwnI) (m : Team), s.x.issue? = some i → i.inHandler = false → i.diverged = false →
    s.x.determ i.w = false → i.w.log = [] → s.x.teamOf i.w = some m →
    let b := w.m.toNat % 16
    let n := w.m.toNat / 16 % 32
    let r := m.bars.get {} b
    let req := if n = 0 then s.x.waveCount i.w.team else n
    let y := (s.x.modWave i.u fun v => { v with arrGen := v.arrGen.insert b (r.g, 0) }).modTeam i.w.team fun m =>
      { m with bars := m.bars.put {} b { r with n := n, a := r.a + 1 } }
    (r.a + 1 < req → Makes s (.bararv w) i y 8 ∧ Makes s (.barsyn w) i (held y i (.barrier b r.g)) 8) ∧
    (req ≤ r.a + 1 → r.g < 2 ^ 16 → ∀ p ∈ ([.bararv w, .barsyn w] : List Instr), ∃ t, Machine.exec p s = .next t ∧
      t.trust = s.trust ∧ t.mem = s.mem ∧
      (t.x.teams.find? i.w.team).map (fun m => m.bars.get {} b) = some { r with g := (r.g + 1) % 2 ^ 16, n := n, a := 0 } ∧
      ∀ v q, s.x.wave? v = some q → q.team = i.w.team → q.hold = some (.barrier b r.g) →
        (t.x.wave? v).map Wave.hold = some none) ∧
    ((i.w.arrGen.find? b).map Prod.fst = some r.g → Makes s (.barwt w) i (held s.x i (.barrier b r.g)) 8) ∧
    ((i.w.arrGen.find? b).map Prod.fst ≠ some r.g → Makes s (.barwt w) i s.x 8)

/-- R164, R223: a GRIDBAR in a cohort grid leaves the group's fibres waiting at it. -/
def Sys2Proof.Claim.GridBarrier : Prop :=
  ∀ (s : State) (i : Iss) (w : OwnI) (m : Team) (g : Grid), s.x.issue? = some i → i.inHandler = false →
    s.x.teamOf i.w = some m → s.x.gridOf m = some g → g.cohort = true →
    ∃ t, Machine.exec (.gridbar w) s = .next t ∧ t.trust = s.trust ∧ t.mem = s.mem ∧ { t.x with waves := s.x.waves } = s.x ∧
      (∀ u, (t.x.wave? u).map Wave.bare = (s.x.wave? u).map Wave.bare) ∧ (∀ u a k, t.x.slotReg u a k = s.x.slotReg u a k) ∧
      ∀ u f, t.x.fib u f = if u = i.u ∧ f ∈ i.grp then { s.x.fib u f with st := .waiting .gridbar } else s.x.fib u f

/-- R224: CVSET gives a convergence register that no signature is collected for its members, when the mask names one to eight
live waves of the team that no other register names; the armature of the register goes. -/
def Sys2Proof.Claim.ConvergenceSet : Prop :=
  ∀ (s : State) (i : Iss) (w : OwnI) (f : Nat) (m : Team), Uniform s i w.h f → i.inHandler = false → s.x.teamOf i.w = some m →
    let k := w.d.toNat
    let mask := (s.x.readW i.u w.s1.toNat).toNat % 2 ^ 16
    let l := (List.range 16).filter (bitOf mask ·)
    let c := m.convs.get {} k
    c.signed = 0 → 1 ≤ l.length → l.length ≤ 8 →
    (∀ j ∈ l, (∃ u v, s.x.wave? u = some v ∧ v.team = i.w.team ∧ v.exited = false ∧ v.handler = none ∧ v.idx = j) ∧
      ∀ q < 8, q ≠ k → bitOf (m.convs.get {} q).members j = false) →
    Makes s (.cvset w) i (s.x.modTeam i.w.team fun m =>
      { m with convs := m.convs.put {} k { c with members := mask, sig := none }, arms := m.arms.erase k }) 8

/-- `TeamBarriers` And: `GridBarrier` And: `ConvergenceSet`. -/
def Obligations.Barriers : Prop := TeamBarriers ∧ GridBarrier ∧ ConvergenceSet

/-- R121, R122, R227, R349: a FENCE of a wave whose log is empty, and whose reads all have settled, goes on; at `.die` or wider it leaves the core no sector in its L1
and no write on its way. QSYNC goes on, or in deterministic mode waits for the commit. SLEEPW waits for the cycles W[S1]
names, and its expiry lets the wave go on. That a cycle is a tick of the model's clock is log entry 2, that a FENCE drains in its
own step log entry 35, both the model's choice. -/
def Obligations.FencesAndSleep : Prop :=
  (∀ (s : State) (i : Iss) (w : OwnI), s.x.issue? = some i →
    let core := s.x.coreOf i.w
    let scope := w.m.toNat / 256 % 8
    let n := (s.x.readW i.u w.s1.toNat).toNat
    (i.w.log = [] → i.w.unset = [] → s.x.determ i.w = false →
      (scope < 4 → Makes s (.fence w) i s.x 8) ∧
      (4 ≤ scope → ∃ t, Machine.exec (.fence w) s = .next t ∧ t.trust = s.trust ∧ Moved s.x t.x i (fun _ => (i.pc + 8) % 2 ^ 48) ∧
        (∀ c ∈ t.mem.l1, c.core ≠ core) ∧ ∀ r ∈ t.mem.reqs, r.tok ≠ core + 1)) ∧
    (s.x.determ i.w = false → Makes s (.qsync w) i s.x 8 ∧ (n = 0 → Makes s (.sleepw w) i s.x 8) ∧
      (n ≠ 0 → Makes s (.sleepw w) i ((held s.x i .sleep).post n (.sleepwExpiry i.u)) 8)) ∧
    (s.x.determ i.w = true → Makes s (.qsync w) i (held s.x i .commit) 8 ∧ Makes s (.sleepw w) i (held s.x i .commit) 8)) ∧
  ∀ (s : State) (u : Nat) (v : Wave), s.x.wave? u = some v → v.hold = some .sleep → v.passing = none →
    ∃ t, Machine.exec (.sleepwExpiry u) s = .next t ∧ t.trust = s.trust ∧ t.mem = s.mem ∧
      t.x.wave? u = some { v with hold := none, stamp := s.x.fresh, resumed := false } ∧
      ∀ q, q ≠ u → t.x.wave? q = s.x.wave? q

/-! ## Traps and returns -/

/-- R228, R335: TRAP and BRK mask every served fibre with cause SWTRAP or BREAK and the operand M; the others go on. -/
def Sys2Proof.Claim.SoftwareTraps : Prop :=
  ∀ (s : State) (i : Iss) (w : OwnI), s.x.issue? = some i → (∀ f, (i.w.fib f).wins = []) →
    (∃ t, Machine.exec (.trap w) s = .next t ∧ Trapped s t i (i.served w.h) 0x20 w.m.toNat 8) ∧
    ∃ t, Machine.exec (.brk w) s = .next t ∧ Trapped s t i (i.served w.h) 0x21 w.m.toNat 8

/-- R200, R202: an undefined encoding of the unguarded kind, or of no major, and one with a guard, trap the fibres that R200
names, with the bits decoded in the record; the causes are UNDEFOP, DISABLEDOP and RSVFIELD. -/
def Sys2Proof.Claim.UndefinedEncodings : Prop :=
  ∀ (s : State) (i : Iss) (u : Undef), s.x.issue? = some i → (∀ f, (i.w.fib f).wins = []) →
    ∃ t, Machine.exec (.undefinedOpcode u) s = .next t ∧
      Trapped s t i (undefFibres i u) (match u.fate with
        | .undefop => 0x30
        | .disabledop => 0x31
        | .rsvfield => 0x32) 0 u.len ∧
      (u.raw.toNat ≠ 0 → ∀ f ∈ undefFibres i u, ((t.x.fib i.u f).trap.map Trap.raw) = some u.raw.toNat)

/-- `SoftwareTraps` And: `UndefinedEncodings`. -/
def Obligations.TrapEntry : Prop := SoftwareTraps ∧ UndefinedEncodings

/-- R145, R167, R335: in a per-fibre instruction a fibre that names a register past its role's budget traps REGRNG, and one
that reads a poisoned source traps POISON: here IADD, whose other fibres go on with their sums, in a wave of fibres of all three
kinds as in one of one kind. -/
def Obligations.RefusedRegisters : Prop :=
  ∀ (s : State) (i : Iss) (w : AluI), Issues s i → (∀ f, (i.w.fib f).wins = []) →
    ((∀ f ∈ i.served w.h, s.x.pastBudget i f [w.d.toNat, w.s1.toNat, w.s2.toNat] = true) → w.m.w2 = false →
      ∃ t, Machine.exec (.iadd w) s = .next t ∧ Trapped s t i (i.served w.h) 0x0c 0 8) ∧
    (InBudget s i w.h (opndsOf w).named → w.m.w2 = false →
      (∀ f ∈ i.served w.h, s.x.poisV i.u f w.s2.toNat = true) →
      ∃ t, Machine.exec (.iadd w) s = .next t ∧ Trapped s t i (i.served w.h) 0x0a 0 8) ∧
    ∀ a b : Nat → Word, w.m.w2 = false → w.h.la = 0 →
      let past (f : Nat) : Bool := s.x.pastBudget i f (opndsOf w).named
      let bad (f : Nat) : Bool := past f || (s.x.ab i f (opndsOf w)).isNone
      let fine := (i.served w.h).filter fun f => !bad f
      (∀ f ∈ fine, s.x.ab i f (opndsOf w) = some ((a f).toNat, (b f).toNat)) →
      ∃ t, Machine.exec (.iadd w) s = .next t ∧ t.trust = s.trust ∧ t.mem = s.mem ∧
        (∀ u, (t.x.wave? u).map Wave.bare = (s.x.wave? u).map Wave.bare) ∧
        (∀ f ∈ i.served w.h, bad f = true → ∃ r, t.x.fib i.u f = { s.x.fib i.u f with st := .masked, trap := some r } ∧
          r.cause = (if past f then 0x0c else 0x0a) ∧ r.pc = i.pc ∧ r.len = 8 ∧ r.opnd = 0 ∧ r.served = false) ∧
        (∀ u f, u ≠ i.u ∨ f ∉ (i.served w.h).filter bad → t.x.fib u f =
          { s.x.fib u f with pc := if u = i.u ∧ f ∈ i.grp then (i.pc + 8) % 2 ^ 48 else (s.x.fib u f).pc }) ∧
        ∀ u r k, r < 128 → t.x.slotReg u r k = (s.x.ownerOf i fine u r).elim (s.x.slotReg u r k)
          fun f => if k = w.d.toNat then a f + b f else s.x.slotReg u r k

/-- R229: in a handler wave ERET sends the origin of each served fibre back: to its trap's PC, past the trapped instruction,
to its end, or to the pair V[S1]; EMRET sends it past the instruction for the causes of R200. The handler fibre becomes Free.
In an ordinary wave both trap NOHANDLER. -/
def Obligations.HandlerReturns : Prop :=
  (∀ (s : State) (i : Iss) (w : OwnI), s.x.issue? = some i → i.inHandler = false → (∀ f, (i.w.fib f).wins = []) →
    (∃ t, Machine.exec (.eret w) s = .next t ∧ Trapped s t i (i.served w.h) 0x1a 0 8) ∧
    ∃ t, Machine.exec (.emret w) s = .next t ∧ Trapped s t i (i.served w.h) 0x1a 0 8) ∧
  ∀ (s : State) (i : Iss) (w : OwnI) (f ou g : Nat) (b : Fib) (r : Trap) (v : Wave), s.x.issue? = some i → i.inHandler = true →
    i.w.log = [] → i.served w.h = [f] → (i.w.fib f).org = some (ou, g) → ou ≠ i.u → (i.w.fib f).wins = [] →
    s.x.wave? ou = some v → b = v.fib g → b.trap = some r → b.st = .masked → b.async = [] →
    (∀ p ∈ v.fibs, p.2.rejoin? = none) → (∀ p ∈ i.w.fibs, p.2.rejoin? = none) → (∃ k, k ≠ f ∧ (i.w.fib k).st ≠ .free) →
    (i.w.handler.map HandlerInfo.orgs = some [ou]) → (∃ k, k ≠ g ∧ (v.fib k).st ≠ .free) →
    let back (n : Instr) (c : Fib) : Prop := ∃ t, Machine.exec n s = .next t ∧ t.trust = s.trust ∧ t.mem = s.mem ∧
      t.x.fib ou g = c ∧ (t.x.fib i.u f).st = .free
    let to_ (pc : Nat) : Fib := { b with st := .ready, pc := pc, trap := none }
    (w.m = 0 → back (.eret w) (to_ r.pc)) ∧
    (w.m = 1 → back (.eret w) (to_ ((r.pc + r.len) % 2 ^ 48))) ∧
    (w.m = 2 → back (.eret w) { b with st := .free, trap := none }) ∧
    (∀ p : Nat → BitVec 64, w.m = 3 → InBudget s i w.h (pairRegs w.s1.toNat) → Pair s i w.h w.s1.toNat p →
      back (.eret w) (to_ ((p f).toNat % 2 ^ 48))) ∧
    (0x30 ≤ r.cause → back (.emret w) (to_ ((r.pc + r.len) % 2 ^ 48)))

/-- R230: in a handler wave EMOPR reads of each fibre's origin: its trap's cause, length and PC, a V or W register named by
V[S1] + M / 256, or its predicates; EMOPW writes them. -/
def Obligations.OriginAccess : Prop :=
  ∀ (s : State) (i : Iss) (w : OwnI) (org : Nat → Nat × Nat) (n : Nat → Word), Issues s i → i.inHandler = true →
    (∀ f ∈ i.served w.h, (i.w.fib f).org = some (org f)) →
    let sel := w.m.toNat % 256
    let ob (f : Nat) : Fib := s.x.fib (org f).1 (org f).2
    let reg (f : Nat) : Nat := (n f).toNat + w.m.toNat / 256
    (InBudget s i w.h [w.d.toNat] →
      (sel ≤ 2 → ∀ r : Nat → Trap, (∀ f ∈ i.served w.h, (ob f).trap = some (r f)) → RunsAs s (.emopr w) i 8 w.h fun f =>
        one w.d.toNat (BitVec.ofNat 32 (if sel = 0 then
            (r f).cause + 2 ^ 8 * (r f).len + 2 ^ 12 * ((s.x.wave? (org f).1).elim 0 Wave.depth)
          else if sel = 1 then (r f).pc % 2 ^ 32 else (r f).pc / 2 ^ 32))) ∧
      (sel = 0x12 → RunsAs s (.emopr w) i 8 w.h fun f => one w.d.toNat (BitVec.ofNat 32 ((ob f).preds.toNat + 128))) ∧
      (InBudget s i w.h [w.s1.toNat] → Register s i w.h w.s1.toNat n →
        (sel = 0x11 → (∀ f ∈ i.served w.h, reg f ≤ 63) →
          RunsAs s (.emopr w) i 8 w.h fun f => one w.d.toNat (s.x.readW (org f).1 (reg f))) ∧
        ∀ v : Nat → Word, sel = 0x10 → (∀ f ∈ i.served w.h, reg f < min 128 (s.x.budget i.u f) ∧ s.x.ownRead i f (reg f) = some (v f)) →
          RunsAs s (.emopr w) i 8 w.h fun f => one w.d.toNat (v f))) ∧
    ∀ (f : Nat) (v : Word), i.served w.h = [f] → (org f).1 ≠ i.u → (s.x.wave? (org f).1).isSome = true →
      s.x.pastBudget i f [w.s2.toNat] = false → s.x.ownRead i f w.s2.toNat = some v →
      (sel = 0x12 → Makes s (.emopw w) i (s.x.modFib (org f).1 (org f).2 fun b => { b with preds := v.setWidth 7 }) 8) ∧
      (s.x.pastBudget i f [w.s1.toNat] = false → s.x.ownRead i f w.s1.toNat = some (n f) →
        (sel = 0x11 → reg f ≤ 63 → Makes s (.emopw w) i (s.x.writeW (org f).1 (reg f) v) 8) ∧
        (sel = 0x10 → reg f < min 128 (s.x.budget i.u f) → Makes s (.emopw w) i (s.x.writeV i.u f (reg f) v) 8))

/-- R235, R339: HALT ends its grid with the code M: at once, so that its completion is due, or in deterministic mode at the
commit, where the lowest position of its round counts. -/
def Obligations.GridHalt : Prop :=
  ∀ (s : State) (i : Iss) (w : OwnI) (f : Nat) (m : Team) (g : Grid), Uniform s i w.h f → s.x.teamOf i.w = some m →
    s.x.gridOf m = some g →
    let at_ : Nat × Nat × Nat × Nat := (g.round, m.idx, i.w.idx, w.m.toNat)
    (g.determ = false → Makes s (.halt w) i ((s.x.modGrid m.grid fun r =>
      if r.st = .running then { r with st := .halted w.m.toNat } else r).post 0 (.gridCompletion m.grid)) 8) ∧
    (g.determ = true → Makes s (.halt w) i ((s.x.modGrid m.grid fun r =>
      { r with haltAt := some (r.haltAt.elim at_ fun q => if haltLess at_ q then at_ else q) }).post 0 (.quantumCommit m.grid)) 8)

/-! ## Local memory -/

/-- Registers that a load of z bytes under a descriptor writes, and that a store reads (R273, R275). -/
def Sys2Proof.Claim.dataWords (desc z : Nat) : Nat := if desc = 0 then (z + 3) / 4 else 8 * z / (fmtOfDesc desc).storage
/-- What a load of the number n, in z bytes, writes from V[d] on (R274, R275): words, or its elements as FP32. -/
def Sys2Proof.Claim.loaded (d desc z n : Nat) : Res :=
  { v := (List.range (dataWords desc z)).map fun j => (d + j, BitVec.ofNat 32 (
      if desc = 0 then n / 2 ^ (32 * j)
      else encodeX fp32 (rne fp32 (value (fmtOfDesc desc) (n / 2 ^ ((fmtOfDesc desc).storage * j) % 2 ^ (fmtOfDesc desc).width))))) }
/-- The number that a store of the words l stores (R274, R275): the words, or their values rounded and saturated to the format. -/
def Sys2Proof.Claim.stored (desc : Nat) (l : List Word) : Nat :=
  if desc = 0 then (l.zipIdx.map fun p => p.1.toNat * 2 ^ (32 * p.2)).sum
  else (l.zipIdx.map fun p => (roundBits (fmtOfDesc desc) .rne true (value fp32 p.1.toNat)).bits *
    2 ^ ((fmtOfDesc desc).storage * p.2)).sum
/-- The z bytes of a byte map from an address, as a number (R4). -/
def Sys2Proof.Claim.number (m : Nat → Byte) (a z : Nat) : Nat := ((List.range z).map fun k => (m (a + k)).toNat * 256 ^ k).sum
/-- A byte map with z bytes from an address replaced by those of a number. -/
def Sys2Proof.Claim.patch (m : Nat → Byte) (a z n : Nat) : Nat → Byte := fun b =>
  if a ≤ b ∧ b < a + z then BitVec.ofNat 8 (n / 256 ^ (b - a)) else m b
/-- The byte map once the fibres of a list have written in their order: fibre f its z bytes from `at_ f`, to `new f` of what
stood there. -/
def Sys2Proof.Claim.patched (m : Nat → Byte) (at_ : Nat → Nat) (z : Nat) (new : Nat → Nat → Nat) (l : List Nat) : Nat → Byte :=
  l.foldl (fun m f => patch m (at_ f) z (new f (number m (at_ f) z))) m
/-- The byte map as fibre f of a list finds it. -/
def Sys2Proof.Claim.before (m : Nat → Byte) (at_ : Nat → Nat) (z : Nat) (new : Nat → Nat → Nat) (l : List Nat) (f : Nat) : Nat → Byte :=
  patched m at_ z new (l.takeWhile fun g => !decide (g = f))

/-- The offsets of a local access: the register plus the scaled immediate (R24). -/
def Sys2Proof.Claim.localAt (w : MemI) (a : Nat → Word) (f : Nat) : Int := (a f).toNat + w.imm.toInt * 2 ^ w.m.size.toNat
/-- They lie within the team's allocation, aligned and free of poisoned and uncorrectable sectors. -/
abbrev Sys2Proof.Claim.LocalOk (s : State) (i : Iss) (h : Hd) (w : MemI) (a : Nat → Word) (m : Team) : Prop :=
  ∀ f ∈ i.served h, 0 ≤ localAt w a f ∧ localAt w a f + 2 ^ w.m.size.toNat ≤ (s.x.localSize i.w.team : Int) ∧
    (2 ^ w.m.size.toNat : Int) ∣ localAt w a f ∧
    ∀ k ∈ m.lpois ++ m.lunc, (localAt w a f).toNat + 2 ^ w.m.size.toNat ≤ 32 * k ∨ 32 * k + 32 ≤ (localAt w a f).toNat

/-- R24, R274, R275: LDL reads the bytes of the team's allocation at its register plus the scaled immediate, whole or as the
elements of a format, and an offset outside it gives zero and the OOB bit; LDL_C is LDL of four bytes. -/
def Obligations.LocalLoads : Prop :=
  ∀ (s : State) (i : Iss) (w : MemI) (a : Nat → Word) (m : Team) (c : Nat), Issues s i → s.x.teamOf i.w = some m →
    s.x.memDesc w = some c → w.m.size.toNat ≤ 4 →
    let z := 2 ^ w.m.size.toNat
    let res (f : Nat) : Res := loaded w.d.toNat c z (number (m.mem.get 0) (localAt w a f).toNat z)
    let zero : Res := { v := (List.range (dataWords c z)).map fun j => (w.d.toNat + j, 0), oob := true }
    (InBudget s i w.h (w.s1.toNat :: (List.range (dataWords c z)).map (w.d.toNat + ·)) → Register s i w.h w.s1.toNat a →
      (LocalOk s i w.h w a m → RunsAs s (.ldl w) i 8 w.h res) ∧
      ((∀ f ∈ i.served w.h, localAt w a f < 0 ∨ (s.x.localSize i.w.team : Int) < localAt w a f + z) → w.m.oobt = false →
        RunsAs s (.ldl w) i 8 w.h fun _ => zero)) ∧
    ∀ v : CompI, w = ⟨hd0, ⟨false, 0, 0, 2, 0, 2⟩, BitVec.ofInt 10 v.imm.toInt, 0, v.va, v.vd⟩ →
      InBudget s i hd0 [v.va.toNat, v.vd.toNat] → Register s i hd0 v.va.toNat a → LocalOk s i hd0 w a m →
      RunsAs s (.ldlC v) i 4 hd0 res

/-- What a local store or atomic leaves: its results, the patched bytes of the team's allocation, and no other memory. -/
structure Sys2Proof.Claim.Wrote (s t : State) (i : Iss) (len : Nat) (h : Hd) (r : Nat → Res) (new : Nat → Byte) : Prop where
  mem   : t.mem = s.mem
  trust : t.trust = s.trust
  bytes : ∀ b, (t.x.teams.find? i.w.team).map (fun m => m.mem.get 0 b) = some (new b)
  teams : ∀ k, k ≠ i.w.team → t.x.teams.find? k = s.x.teams.find? k
  regs  : ∀ u a k, a < 128 → t.x.slotReg u a k = (s.x.ownerOf i (i.served h) u a).elim (s.x.slotReg u a k)
            fun f => if h.la = 0 then regAfter (s.x.slotReg u a k) k (r f).v else s.x.slotReg u a k
  pcs   : ∀ u f, (t.x.fib u f).pc = if u = i.u ∧ f ∈ i.grp then (i.pc + len) % 2 ^ 48 else (s.x.fib u f).pc
  sts   : ∀ u f, (t.x.fib u f).st = (s.x.fib u f).st ∧ (t.x.fib u f).preds = (s.x.fib u f).preds

/-- The atomic operations of R277 by code: add, and, or, xor, signed minimum and maximum, unsigned maximum, exchange. -/
def Sys2Proof.Claim.atomicOp {n : Nat} (op : Nat) (old x : BitVec n) : BitVec n :=
  [old + x, old &&& x, old ||| x, old ^^^ x, if x.slt old then x else old, if old.slt x then x else old,
    if old.ult x then x else old].getD op x

/-- R24, R55, R61, R117, R274, R277, R279: local stores, atomics and compare-and-swaps act on the team's allocation in
increasing fibre order; ATL and CASL return what stood there, and CASL stores only where that equals its compare value. One of
release order meets an empty side log here: that it waits for its wave's older stores otherwise is the model's reading (log
entry 70). -/
def Obligations.LocalWrites : Prop :=
  ∀ (s : State) (i : Iss) (w : MemI) (a : Nat → Word) (m : Team) (c : Nat) (D : Nat → Nat → Word), Issues s i →
    s.x.teamOf i.w = some m → s.x.memDesc w = some c → w.m.size.toNat ≤ 4 → i.w.log = [] ∨ w.m.ord.toNat < 2 →
    let z := 2 ^ w.m.size.toNat
    let at_ (f : Nat) : Nat := (localAt w a f).toNat
    let data (h : Hd) (n : Nat) : Prop := InBudget s i h (w.s1.toNat :: (List.range n).map (w.d.toNat + ·)) ∧
      Register s i h w.s1.toNat a ∧ ∀ j < n, Register s i h (w.d.toNat + j) (D · j)
    let words (f n : Nat) : List Word := (List.range n).map (D f)
    let put (f _ : Nat) : Nat := stored c (words f (dataWords c z))
    let x (f : Nat) : Nat := stored 0 (words f (z / 4))
    let swap (f : Nat) : Nat := stored 0 ((List.range (z / 4)).map fun j => D f (z / 4 + j))
    let op (f old : Nat) : Nat := (atomicOp (w.m.fmt.toNat % 8) (BitVec.ofNat (8 * z) old) (BitVec.ofNat (8 * z) (x f))).toNat
    let cas (f old : Nat) : Nat := if old = x f then swap f else old
    let l := i.served w.h
    let old (new : Nat → Nat → Nat) (f : Nat) : Res := loaded w.d.toNat 0 z (number (before (m.mem.get 0) at_ z new l f) (at_ f) z)
    (data w.h (dataWords c z) → LocalOk s i w.h w a { m with lpois := [], lunc := [] } →
      ∃ t, Machine.exec (.stl w) s = .next t ∧ Wrote s t i 8 { w.h with la := 0 } (fun _ => {}) (patched (m.mem.get 0) at_ z put l)) ∧
    (2 ≤ w.m.size.toNat → w.m.size.toNat ≤ 3 → LocalOk s i w.h w a m →
      (data w.h (z / 4) →
        ∃ t, Machine.exec (.atl w) s = .next t ∧ Wrote s t i 8 w.h (old op) (patched (m.mem.get 0) at_ z op l)) ∧
      (data w.h (2 * (z / 4)) →
        ∃ t, Machine.exec (.casl w) s = .next t ∧ Wrote s t i 8 w.h (old cas) (patched (m.mem.get 0) at_ z cas l))) ∧
    ∀ v : CompI, w = ⟨hd0, ⟨false, 0, 0, 2, 0, 2⟩, BitVec.ofInt 10 v.imm.toInt, 0, v.va, v.vd⟩ → data hd0 1 →
      LocalOk s i hd0 w a { m with lpois := [], lunc := [] } →
      ∃ t, Machine.exec (.stlC v) s = .next t ∧ Wrote s t i 4 hd0 (fun _ => {}) (patched (m.mem.get 0) at_ z put i.grp)

/-! ## Global memory -/

/-- A device address reaches a location by a cached translation whose page allows the access, and whose Dirty bit is set where
it writes. -/
def Sys2Proof.Claim.Reaches (s : State) (o : Who) (n : Need) (va : Nat) (l : Loc) : Prop :=
  va < 2 ^ 48 ∧ l.host = false ∧ ∃ t, s.mem.tlbFind o.core o.ctx va = some t ∧ s.checkEntry o.ctx t.z t.entry n = none ∧
    ((n.write || n.atomic) = true → eDirty t.entry = true) ∧ l = s.locOf o.ctx t.z t.entry va

/-- The address of a fibre's global access when its record grants it (R19): base plus the swizzled offset. -/
abbrev Sys2Proof.Claim.GlobalAt (s : State) (i : Iss) (w : MemI) (type2 : Bool) (right : Right) (a : Word) (va : Nat) : Prop :=
  let r := s.x.bufRec i.w w.bn.toNat
  let z := 2 ^ w.m.size.toNat
  let o : Int := a.toNat * (if r.stride = 0 then z else r.stride : Nat) + w.imm.toInt * z
  (if type2 then r.type = 2 else r.type ≠ 0) ∧ r.has right = true ∧ r.base % 16 = 0 ∧ 0 ≤ o ∧ o + z ≤ r.extent ∧ (z : Int) ∣ o ∧
  va = r.base + swizzle o.toNat r.swz r.swzP
/-- The effective scope (R17). -/
def Sys2Proof.Claim.scopeOf (s : State) (i : Iss) (w : MemI) : Nat :=
  if w.m.scope = 0 then (s.x.bufRec i.w w.bn.toNat).scope else w.m.scope.toNat
/-- A wave that waits for nothing and has staged nothing. -/
abbrev Sys2Proof.Claim.Clear (w : Wave) : Prop := w.hold = none ∧ w.log = [] ∧ w.pend = [] ∧ w.staged = []
/-- A core's L1 holds the whole sector of a location, with these bytes, not poisoned (R56). -/
def Sys2Proof.Claim.Cached (s : State) (core : Nat) (l : Loc) (d : List Byte) : Prop :=
  d.length = 32 ∧ ∃ c, s.mem.l1Find core l.sec l.key = some c ∧ c.have_ = fullMask ∧ c.pois = false ∧ c.data = d

/-- A wave without its registers, poison marks and fibres, and without its note of reads that have not settled (R122). -/
def Sys2Proof.Claim.bareRead (w : Wave) : Wave := { w.bare with unset := [] }
/-- What a global access leaves in the waves: the registers `r` says, or lookahead windows that hold them, and the group past
the instruction; a read of bytes whose last write is on its way is noted as unsettled. -/
structure Sys2Proof.Claim.Served (s t : State) (i : Iss) (h : Hd) (r : Nat → Res) : Prop where
  trust : t.trust = s.trust
  waves : ∀ u, (t.x.wave? u).map bareRead = (s.x.wave? u).map bareRead
  regs  : ∀ u a k, a < 128 → t.x.slotReg u a k = (s.x.ownerOf i (i.served h) u a).elim (s.x.slotReg u a k)
            fun f => if h.la = 0 then regAfter (s.x.slotReg u a k) k (r f).v else s.x.slotReg u a k
  wins  : ∀ u f, ((t.x.fib u f).wins.map fun q => (q.left, q.v, q.w)) = ((s.x.fib u f).wins.map fun q => (q.left, q.v, q.w)) ++
            if u = i.u ∧ f ∈ i.served h ∧ h.la ≠ 0 then [(h.la.toNat, (r f).v, [])] else []
  fibs  : ∀ u f, { t.x.fib u f with wins := [] } = { s.x.fib u f with
            pc := if u = i.u ∧ f ∈ i.grp then (i.pc + 8) % 2 ^ 48 else (s.x.fib u f).pc, wins := [] }

/-- R57, R58, R274 to R276, R280: loads at a scope narrower than `.die` whose sectors the core's L1 holds give those bytes and
change no byte of memory: LDB and LDSQ along rows in every served fibre, LDW once, in W registers. -/
def Sys2Proof.Claim.CachedLoads : Prop :=
  ∀ (s : State) (i : Iss) (w : MemI) (c : Nat) (va : Nat → Nat) (l : Nat → Loc) (d : Nat → List Byte), Issues s i → Clear i.w →
    w.m.size.toNat ≤ 4 → scopeOf s i w < 4 →
    (∀ f ∈ i.served w.h, ∀ g ∈ i.served w.h, (l f).pa / 32 = (l g).pa / 32 → { l f with pa := 0, va := 0 } = { l g with pa := 0, va := 0 }) →
    let o := s.x.who i.w
    let z := 2 ^ w.m.size.toNat
    let num (f : Nat) : Nat := number (fun k => (d f).getD k 0) ((l f).pa % 32) z
    let same (t : State) : Prop := t.mem.dev = s.mem.dev ∧ t.mem.host = s.mem.host ∧ { t.mem with l1 := s.mem.l1 } = s.mem
    (∀ (sq : Bool) (a : Nat → Word), InBudget s i w.h (w.s1.toNat :: (List.range (dataWords (if sq then 0 else c) z)).map (w.d.toNat + ·)) →
      Register s i w.h w.s1.toNat a → (sq = false → s.x.memDesc w = some c) → (sq = true → 2 ≤ w.m.size.toNat ∧
        (w.m.fmt = 1 ∨ w.m.fmt = 0 ∧ (s.x.bufRec i.w w.bn.toNat).col = false)) →
      (∀ f ∈ i.served w.h, GlobalAt s i w sq .read (a f) (va f) ∧ Reaches s o { host := !sq } (va f) (l f) ∧
        Cached s o.core (l f) (d f)) →
      ∃ t, Machine.exec (if sq then .ldsq w else .ldb w) s = .next t ∧ same t ∧
        Served s t i w.h fun f => loaded w.d.toNat (if sq then 0 else c) z (num f)) ∧
    ∀ f, (i.served w.h).head? = some f → w.h.la = 0 → 2 ≤ w.m.size.toNat → GlobalAt s i w false .read (s.x.readW i.u w.s1.toNat) (va f) →
      Reaches s o {} (va f) (l f) → Cached s o.core (l f) (d f) →
      ∃ t, Machine.exec (.ldw w) s = .next t ∧ same t ∧ t.trust = s.trust ∧
        (∀ k, t.x.readW i.u k = regAfter (s.x.readW i.u k) k (loaded w.d.toNat 0 z (num f)).v) ∧
        (∀ u a k, t.x.slotReg u a k = s.x.slotReg u a k) ∧
        ∀ u g, t.x.fib u g = { s.x.fib u g with pc := if u = i.u ∧ g ∈ i.grp then (i.pc + 8) % 2 ^ 48 else (s.x.fib u g).pc }

/-- R280: a column load of one fibre, whose square has no request waiting and no copy in the core's L1, reads its elements
at the home slice, one from each of consecutive rows. -/
def Sys2Proof.Claim.ColumnLoad : Prop :=
  ∀ (s : State) (i : Iss) (w : MemI) (f : Nat) (a : Word) (l : Loc), Issues s i → Clear i.w → w.h.la = 0 → i.served w.h = [f] →
    let o := s.x.who i.w
    let r := s.x.bufRec i.w w.bn.toNat
    let e := max r.elem 1
    let n := 2 ^ w.m.size.toNat / e
    let off : Int := a.toNat * e + w.imm.toInt * e
    2 ≤ w.m.size.toNat → w.m.size.toNat ≤ 4 → e ≤ 2 ^ w.m.size.toNat → r.width ≠ 0 → scopeOf s i w < 4 → (w.m.fmt = 2 ∨ w.m.fmt = 0 ∧ r.col = true) →
    InBudget s i w.h (w.s1.toNat :: (List.range (2 ^ w.m.size.toNat / 4)).map (w.d.toNat + ·)) →
    s.x.ownRead i f w.s1.toNat = some a → r.type = 2 → r.read = true → r.base % 1024 = 0 → 0 ≤ off →
    off + (32 * (n - 1) + e : Nat) ≤ r.extent → (e : Int) ∣ off → off.toNat % 1024 / 32 + n ≤ 32 →
    Reaches s o { host := false } (r.base + swizzle off.toNat r.swz r.swzP) l →
    (∀ q ∈ s.mem.reqs, q.sq ≠ l.sec / 32) → (∀ c ∈ s.mem.l1, c.core = o.core → c.sec / 32 ≠ l.sec / 32) →
    (∀ p ∈ s.mem.pois ++ s.mem.unc, p / 32 ≠ l.sec / 32) →
    let pos (k : Nat) : Nat := swizzle (off.toNat + 32 * (k / e)) r.swz r.swzP % 1024 + k % e
    ∃ t, Machine.exec (.ldsq w) s = .next t ∧ t.mem.dev = s.mem.dev ∧ t.mem.host = s.mem.host ∧
      Served s t i w.h fun _ => loaded w.d.toNat 0 (2 ^ w.m.size.toNat)
        (number (fun k => s.mem.byteAt l.key (1024 * (l.sec / 32) + pos k)) 0 (2 ^ w.m.size.toNat))

/-- `CachedLoads` And: `ColumnLoad`. -/
def Obligations.GlobalLoads : Prop := CachedLoads ∧ ColumnLoad

/-- R57, R58, R117, R274: a store at a scope narrower than `.die` into sectors that the core's L1 holds writes its bytes there,
marks them dirty, and writes no memory; a byte that several fibres store takes the highest one's value. -/
def Obligations.CachedStores : Prop :=
  ∀ (s : State) (i : Iss) (w : MemI) (c : Nat) (a : Nat → Word) (D : Nat → Nat → Word) (va : Nat → Nat) (l : Nat → Loc)
    (d : Nat → List Byte), Issues s i → Clear i.w → s.x.determ i.w = false → s.x.memDesc w = some c → w.m.size.toNat ≤ 4 →
    scopeOf s i w < 4 → w.m.hint ≠ 2 →
    let o := s.x.who i.w
    let z := 2 ^ w.m.size.toNat
    InBudget s i w.h (w.s1.toNat :: (List.range (dataWords c z)).map (w.d.toNat + ·)) → Register s i w.h w.s1.toNat a →
    (∀ j < dataWords c z, Register s i w.h (w.d.toNat + j) (D · j)) →
    (∀ f ∈ i.served w.h, GlobalAt s i w false .write (a f) (va f) ∧ Reaches s o { write := true } (va f / 32 * 32) (l f) ∧
      Cached s o.core (l f) (d f)) →
    (∀ f ∈ i.served w.h, ∀ g ∈ i.served w.h, (l f).sec = (l g).sec → va f / 32 = va g / 32) →
    ∃ t, Machine.exec (.stb w) s = .next t ∧ t.mem.dev = s.mem.dev ∧ t.mem.host = s.mem.host ∧
      Served s t i { w.h with la := 0 } (fun _ => {}) ∧
      ∀ f ∈ i.served w.h, ∃ n, t.mem.l1Find o.core (l f).sec (l f).key = some n ∧ n.have_ = fullMask ∧
        ∀ k < 32, match ((i.served w.h).filter fun g => decide (va g / 32 = va f / 32 ∧ va g % 32 ≤ k ∧ k < va g % 32 + z)).getLast? with
          | some g => n.data[k]? = some (BitVec.ofNat 8 (stored c ((List.range (dataWords c z)).map (D g)) / 256 ^ (k - va g % 32))) ∧
              n.dirty.testBit k = true
          | none => n.data[k]? = (d f)[k]?

/-- R57, R117, R124, R277 to R279: value-returning atomics at `.die` scope or wider are performed at the home slice in
increasing fibre order: each fibre gets what stood there and writes the new value. Here the sectors are on the core's own
die, with no write waiting, no copy in its L1, one key and no poison. -/
def Obligations.HomeAtomics : Prop :=
  ∀ (s : State) (i : Iss) (w : MemI) (a : Nat → Word) (D : Nat → Nat → Word) (va : Nat → Nat) (l : Nat → Loc) (key n : Nat),
    Issues s i → Clear i.w → s.x.determ i.w = false → 4 ≤ scopeOf s i w → w.m.ord = 0 →
    let o := s.x.who i.w
    let z := 2 ^ w.m.size.toNat
    InBudget s i w.h (w.s1.toNat :: (List.range (max n ((z + 3) / 4))).map (w.d.toNat + ·)) → Register s i w.h w.s1.toNat a →
    (∀ j < n, Register s i w.h (w.d.toNat + j) (D · j)) → key ≠ 0 →
    (∀ f ∈ i.served w.h, GlobalAt s i w false .atomic (a f) (va f) ∧ (l f).key = key ∧ (l f).home = dieOf o.core ∧
      (∀ q ∈ s.mem.reqs, q.sq ≠ (l f).sec / 32) ∧ (∀ c ∈ s.mem.l1, c.core = o.core → c.sec ≠ (l f).sec) ∧
      (l f).sec ∉ s.mem.pois ∧ (l f).sec ∉ s.mem.unc) →
    let at_ (f : Nat) : Nat := (l f).sa
    let x (f : Nat) : Nat := stored 0 ((List.range n).map (D f))
    let does (p : Instr) (need : Need) (new : Nat → Nat → Nat) : Prop := (∀ f ∈ i.served w.h, Reaches s o need (va f) (l f)) →
      ∃ t, Machine.exec p s = .next t ∧ t.mem.host = s.mem.host ∧
        Served s t i w.h (fun f => loaded w.d.toNat 0 z (number (before (s.mem.byteAt key) at_ z new (i.served w.h) f) (at_ f) z)) ∧
        (∀ f ∈ i.served w.h, ∀ b, b / 32 = (l f).sec → t.mem.byteAt key b = patched (s.mem.byteAt key) at_ z new (i.served w.h) b) ∧
        ∀ b, (∀ f ∈ i.served w.h, b / 32 ≠ (l f).sec) → t.mem.dev.get 0 b = s.mem.dev.get 0 b
    let wr : Need := { write := true, atomic := true, host := false }
    (w.m.size.toNat = 2 ∨ w.m.size.toNat = 3 → n = z / 4 → w.m.fmt.toNat < 8 → does (.atb w) { wr with host := true } fun f old =>
      (atomicOp (w.m.fmt.toNat % 8) (BitVec.ofNat (8 * z) old) (BitVec.ofNat (8 * z) (x f))).toNat) ∧
    (w.m.size.toNat = 1 ∨ w.m.size.toNat = 2 → n = 1 → w.m.fmt.toNat < 8 → does (.atbf w) wr fun f old =>
      atbfNew (atbfFmt z (w.m.fmt.getLsbD 0)) (w.m.fmt.toNat / 2 % 4) old (x f % 2 ^ (8 * z))) ∧
    (w.m.size.toNat = 3 → n = (if w.m.fmt = 1 then 2 else 1) → w.m.fmt.toNat < 8 → does (.atbc w) wr fun f old =>
      atbcNew old (D f 0).toNat (if w.m.fmt = 1 then (D f 1).toNat else 0)) ∧
    (2 ≤ w.m.size.toNat ∧ w.m.size.toNat ≤ 4 → n = 2 * (z / 4) → does (.casb w) { wr with host := decide (z ≤ 8) } fun f old =>
      if old = stored 0 ((List.range (z / 4)).map (D f)) then stored 0 ((List.range (z / 4)).map fun j => D f (z / 4 + j)) else old)

/-- R281: CWB at `.die` scope or wider sends the dirty bytes of its sectors to their home slices, whose next request merges
them, and leaves each line valid and clean; at narrower scopes it has no effect on memory. -/
def Sys2Proof.Claim.CacheWriteBack : Prop :=
  ∀ (s : State) (i : Iss) (w : MemI) (a : Nat → Word) (va : Nat → Nat) (l : Nat → Loc), Issues s i → Clear i.w →
    s.x.determ i.w = false → w.m.ord = 0 →
    let o := s.x.who i.w
    InBudget s i w.h [w.s1.toNat] → Register s i w.h w.s1.toNat a →
    (∀ f ∈ i.served w.h, GlobalAt s i w false .read (a f) (va f) ∧ Reaches s o { idle := true } (va f / 32 * 32) (l f)) →
    let mine (c : L1Sec) : Prop := c.core = o.core ∧ ∃ f ∈ i.served w.h, c.sec = (l f).sec
    ∃ t, Machine.exec (.cwb w) s = .next t ∧ Served s t i { w.h with la := 0 } (fun _ => {}) ∧ t.mem.dev = s.mem.dev ∧
      t.mem.host = s.mem.host ∧ (∀ r ∈ s.mem.reqs, r ∈ t.mem.reqs) ∧ (∀ c ∈ s.mem.l1, ¬ mine c → c ∈ t.mem.l1) ∧
      (scopeOf s i w < 4 → t.mem = s.mem) ∧
      (4 ≤ scopeOf s i w → (∀ c ∈ t.mem.l1, mine c → c.dirty = 0) ∧
        ∀ c ∈ s.mem.l1, mine c →
          (∃ d ∈ t.mem.l1, d.core = c.core ∧ d.loc = c.loc ∧ d.have_ = c.have_ ∧ d.data = c.data ∧ d.pois = c.pois ∧ d.dirty = 0) ∧
          (c.dirty ≠ 0 → (∃ r ∈ t.mem.reqs, r.loc = c.loc ∧ r.mask = c.dirty ∧ r.data = c.data ∧ r.tok = o.core + 1) ∧
            ((∀ f ∈ i.served w.h, (l f).sec = c.sec) → s.mem.reqs = [] → c.key ≠ 0 → c.data.length = 32 →
              (∀ d ∈ s.mem.l1, d.core = o.core → d.sec = c.sec → d = c) → s.mem.l1.Nodup →
              ∃ u, Machine.exec (.homeSliceRequest (c.sec / 32)) t = .next u ∧
                u.mem.sector c.key c.sec = mergeBytes c.dirty (s.mem.sector c.key c.sec) c.data)))

/-- R281: CINV leaves no copy of its sectors in the core's L1, at `.die` none that is valid in the die's remote-data cache,
and at `.mod` or `.sys` no valid row in the squares of their L2, where no engine claims one; every dirty byte that it
invalidates is on its way to its home slice, or merged there. -/
def Sys2Proof.Claim.CacheInvalidate : Prop :=
  ∀ (s : State) (i : Iss) (w : MemI) (a : Nat → Word) (va : Nat → Nat) (l : Nat → Loc), Issues s i → Clear i.w →
    s.x.determ i.w = false → w.m.ord = 0 →
    let o := s.x.who i.w
    InBudget s i w.h [w.s1.toNat] → Register s i w.h w.s1.toNat a →
    (∀ f ∈ i.served w.h, GlobalAt s i w false .write (a f) (va f) ∧ Reaches s o { write := true, idle := true } (va f / 32 * 32) (l f)) →
    let mine (c : L1Sec) : Prop := c.core = o.core ∧ ∃ f ∈ i.served w.h, c.sec = (l f).sec
    ∃ t, Machine.exec (.cinv w) s = .next t ∧ Served s t i { w.h with la := 0 } (fun _ => {}) ∧
      (∀ c ∈ t.mem.l1, ¬ mine c) ∧ (∀ c ∈ s.mem.l1, ¬ mine c → c ∈ t.mem.l1) ∧
      (scopeOf s i w < 5 → t.mem.dev = s.mem.dev ∧ ∀ c ∈ s.mem.l1, mine c → c.dirty ≠ 0 →
        ∃ r ∈ t.mem.reqs, r.loc = c.loc ∧ r.mask = c.dirty ∧ r.data = c.data ∧ r.tok = o.core + 1) ∧
      (4 ≤ scopeOf s i w → ∀ f ∈ i.served w.h, ∀ r ∈ t.mem.rdc, r.die = dieOf o.core → r.sec = (l f).sec →
        r.valid = false ∧ r.drop = true) ∧
      (5 ≤ scopeOf s i w → s.mem.claims = [] → (∀ p ∈ s.mem.sqs, p.2.hold = false) →
        (∀ f ∈ i.served w.h, (∀ r ∈ t.mem.reqs, r.sq ≠ (l f).sec / 32) ∧
          ∀ q, t.mem.sqs.find? ((l f).sec / 32) = some q → q.valid = 0 ∧ q.dirty = 0) ∧
        ∀ c ∈ s.mem.l1, mine c → c.dirty ≠ 0 → (∀ f ∈ i.served w.h, (l f).sec = c.sec) → s.mem.reqs = [] → c.key ≠ 0 →
          c.data.length = 32 → (∀ d ∈ s.mem.l1, d.core = o.core → d.sec = c.sec → d = c) → s.mem.l1.Nodup →
          t.mem.sector c.key c.sec = mergeBytes c.dirty (s.mem.sector c.key c.sec) c.data)

/-- R58, R281: PREF at a narrow scope brings the sector of every fibre into the core's L1, where it has room, with the bytes of
the home slice for one that the L1 did not hold; at a wide one into the home slice of the own die, or into the die's
remote-data cache, and the L1 is as it was. -/
def Sys2Proof.Claim.CachePrefetch : Prop :=
  ∀ (s : State) (i : Iss) (w : MemI) (a : Nat → Word) (va : Nat → Nat) (l : Nat → Loc), Issues s i →
    let o := s.x.who i.w
    let die := dieOf o.core
    InBudget s i w.h [w.s1.toNat] → Register s i w.h w.s1.toNat a → w.m.hint ≠ 2 →
    (∀ f ∈ i.served w.h, GlobalAt s i w false .read (a f) (va f) ∧ Reaches s o { wait := false } (va f / 32 * 32) (l f)) →
    ∃ t, Machine.exec (.pref w) s = .next t ∧ Served s t i { w.h with la := 0 } (fun _ => {}) ∧
      (scopeOf s i w < 4 → (s.mem.l1.filter fun c => decide (c.core = o.core)).length + (i.served w.h).length ≤ s.mem.l1Ways o.core →
        ∀ f ∈ i.served w.h, ∃ c, t.mem.l1Find o.core (l f).sec (l f).key = some c ∧ Nat.land c.have_ fullMask = fullMask ∧
          (s.mem.l1Find o.core (l f).sec (l f).key = none → (l f).home = die → s.mem.reqs = [] →
            c.data = s.mem.sector (l f).key (l f).sec ∧ c.dirty = 0)) ∧
      (4 ≤ scopeOf s i w → t.mem.l1 = s.mem.l1 ∧
        ((∀ f ∈ i.served w.h, (l f).home = die ∧ ∃ q, s.mem.sqs.find? ((l f).sec / 32) = some q ∧ q.key = (l f).key) → s.mem.reqs = [] →
          ∀ f ∈ i.served w.h, ∃ q, t.mem.sqs.find? ((l f).sec / 32) = some q ∧ q.valid.getLsbD ((l f).sec % 32) = true) ∧
        ∀ f, i.served w.h = [f] → (l f).home ≠ die → s.mem.claims = [] →
          (∃ q, s.mem.sqs.find? ((l f).sec / 32) = some q ∧ q.key = (l f).key) → s.mem.reqs = [] →
          (t.mem.rdcFind die (l f).sec (l f).key).isSome = true)

/-- `CacheWriteBack` And: `CacheInvalidate` And: `CachePrefetch`. -/
def Obligations.CacheControl : Prop := CacheWriteBack ∧ CacheInvalidate ∧ CachePrefetch

/-! ## Residency, copies, tags and barrier objects -/

/-- R88, R91, R92: RHNEW gives W[D] bit 31 and a reason that holds, or a free handle number: on every die that handle then is
the context's at the priority named, and every frame of the range belongs to it. That of several reasons the order 1, 2, 3, 6
decides, and that the lowest free number is given, are the model's choice (log entry 14). -/
def Sys2Proof.Claim.ResidencyNew : Prop :=
  ∀ (s : State) (i : Iss) (w : OwnI) (f : Nat), Uniform s i w.h f → Clear i.w → s.x.determ i.w = false →
    let o := s.x.who i.w
    let base := (s.x.readW i.u w.s1.toNat).toNat + 2 ^ 32 * ((s.x.readW i.u (w.s1.toNat + 1)).toNat % 2 ^ 16)
    let len := (s.x.readW i.u w.s2.toNat).toNat + 2 ^ 32 * (s.x.readW i.u (w.s2.toNat + 1)).toNat
    let prio := (s.x.readW i.u w.s3.toNat).toNat
    let numbers (l : List (Nat × ResH)) : Nat := (dedup (l.map fun p => p.1 % 4096)).length
    let mine := numbers (s.mem.resh.filter fun p => decide (p.2.ctx = o.ctx))
    let odd := base % 65536 ≠ 0 ∨ len % 65536 ≠ 0 ∨ len = 0
    let reason := if 4095 ≤ numbers s.mem.resh then 1 else if 256 ≤ mine then 2 else if odd then 3 else if 7 < prio then 6 else 0
    (reason ≠ 0 → Makes s (.rhnew w) i (s.x.writeW i.u w.d.toNat (BitVec.ofNat 32 (2 ^ 31 + reason * 2 ^ 16))) 8) ∧
    ∀ l : Nat → Loc, reason = 0 →
      (∀ k < len / 65536, Reaches s o {} (base + 65536 * k) (l k) ∧ ∀ d < 4, s.mem.resmap.get 0 (frameKey d (frameOf (l k).pa)) = 0) →
      let used (h : Nat) : Prop := ∃ p ∈ s.mem.resh, p.1 % 4096 = h
      ∃ t h, Machine.exec (.rhnew w) s = .next t ∧ t.trust = s.trust ∧ 1 ≤ h ∧ h ≤ 4095 ∧ ¬ used h ∧ (∀ j, 1 ≤ j → j < h → used j) ∧
        { t.mem with resh := s.mem.resh, resmap := s.mem.resmap } = s.mem ∧
        (∀ d < 4, t.mem.resh.find? (handleKey d h) = some ⟨o.ctx, prio, false⟩) ∧
        (∀ k, (∀ d < 4, k ≠ handleKey d h) → t.mem.resh.find? k = s.mem.resh.find? k) ∧
        (∀ d < 4, ∀ k < len / 65536, t.mem.resmap.get 0 (frameKey d (frameOf (l k).pa)) = h) ∧
        (∀ f, (∀ d < 4, ∀ k < len / 65536, f ≠ frameKey d (frameOf (l k).pa)) → t.mem.resmap.get 0 f = s.mem.resmap.get 0 f) ∧
        Past (s.x.writeW i.u w.d.toNat (BitVec.ofNat 32 h)) t.x i fun _ => (i.pc + 8) % 2 ^ 48

/-- R88, R91: RHSET, RHDEMOTE, RHEVICT and RHFREE of a handle live on the issuing die bind W's handle D to an update of each
die's copy of the table, or for RHEVICT to a sweep of each die; a freed handle leaves its context at once. The update of a
die's copy sets the priority or demotes the handle there, and the last one makes the future ready; a sweep that no claim
blocks leaves no square of the tensor on its die. -/
def Sys2Proof.Claim.ResidencyChanges : Prop :=
  (∀ (s : State) (i : Iss) (w : OwnI) (f : Nat) (r : ResH), Uniform s i w.h f → s.x.determ i.w = false →
    let h := (s.x.readW i.u w.s1.toNat).toNat
    let p := (s.x.readW i.u w.s2.toNat).toNat
    let n := s.x.fresh
    s.mem.resh.find? (handleKey (dieOf (s.x.coreOf i.w)) h) = some r → r.ctx = s.x.ctxOf i.w → h ≤ 4095 →
    let four (kind prio : Nat) : List ResUpd := (List.range 4).map fun d => ⟨n + 1 + d, d, h, kind, prio, n⟩
    let does (p : Instr) (m : MemSys) : Prop := ∃ t, Machine.exec p s = .next t ∧ t.trust = s.trust ∧ t.mem = m ∧
      (t.x.wave? i.u).map (fun v => v.handles.get {} w.d.toNat) = some { ready := false, op := n } ∧
      (∀ u a k, t.x.slotReg u a k = s.x.slotReg u a k) ∧
      ∀ u f, t.x.fib u f = { s.x.fib u f with pc := if u = i.u ∧ f ∈ i.grp then (i.pc + 8) % 2 ^ 48 else (s.x.fib u f).pc }
    (p ≤ 7 → does (.rhset w) { s.mem with resupd := s.mem.resupd ++ four 0 p }) ∧
    does (.rhdemote w) { s.mem with resupd := s.mem.resupd ++ four 1 0 } ∧
    does (.rhfree w) { s.mem with
      resh := (List.range 4).foldl (fun t d => SMap.modify t (handleKey d h) fun r => { r with ctx := 0 }) s.mem.resh
      resupd := s.mem.resupd ++ four 2 0 } ∧
    does (.rhevict w) { s.mem with resupd := s.mem.resupd ++ four 3 0 }) ∧
  (∀ (s : State) (n : Nat) (r : ResUpd), s.mem.resupd.find? (fun r => decide (r.id = n)) = some r → r.kind < 2 →
    (∀ q ∈ s.mem.resupd, q.id ≠ n → q.op ≠ r.op) →
    ∃ t, Machine.exec (.handleTableCopyUpdate n) s = .next t ∧ t.trust = s.trust ∧
      t.mem = { s.mem with resupd := s.mem.resupd.filter fun q => !decide (q.id = n)
                           resh := s.mem.resh.modify (handleKey r.die r.h) fun q =>
                             if r.kind = 0 then { q with prio := r.prio, dem := false } else { q with dem := true } } ∧
      ∀ u v k q, s.x.wave? u = some v → v.handles.find? k = some q → q.ready = false → q.op = r.op →
        (t.x.wave? u).bind (fun v => v.handles.find? k) = some {}) ∧
  ∀ (s : State) (die h : Nat) (r : ResUpd), s.mem.resupd.find? (fun r => decide (r.kind = 3 ∧ r.die = die ∧ r.h = h)) = some r →
    (∀ p ∈ s.mem.sqs, p.2.hold = false) → (∀ p ∈ s.mem.sqs, p.1 = p.2.id) →
    ∃ t, Machine.exec (.residencySweep die h) s = .next t ∧ t.trust = s.trust ∧
      (∀ q ∈ t.mem.resupd, q.id ≠ r.id) ∧
      ((∀ q ∈ s.mem.reqs, q.sq / 2 ^ 28 ≠ die) →
        ∀ p ∈ t.mem.sqs, p.2.id / 2 ^ 28 ≠ die ∨ t.mem.resmap.get 0 (frameKey die (frameOf p.2.pa)) ≠ h)

/-- R94, R95, R99, R283: a copy whose elements are all granted and within bounds starts a line operation for each pair of source
and destination lines, holding every fibre's element, and its tag waits for them all. -/
def Sys2Proof.Claim.CopyStarts : Prop :=
  ∀ (s : State) (i : Iss) (w : OwnI) (m : Team) (kind : Nat) (a b : Nat → Word) (src dst : Nat → Nat) (ls ld : Nat → Loc), Issues s i →
    i.served w.h ≠ [] → s.x.determ i.w = false → s.x.teamOf i.w = some m →
    let o := s.x.who i.w
    let z := 4 * 2 ^ (w.m.toNat % 4)
    let ctl := (s.x.readW i.u w.s3.toNat).toNat
    let tag := bitsOf ctl 8 6
    let rec_ (n : Nat) : BufRec := s.x.bufRec i.w (n % 16)
    let glob (r : BufRec) (right : Right) (idx : Word) (va : Nat) : Prop :=
      let off := idx.toNat * (if r.stride = 0 then z else r.stride)
      r.type ≠ 0 ∧ r.has right = true ∧ off + z ≤ r.extent ∧ z ∣ off ∧ va = r.base + swizzle off r.swz r.swzP
    let loc (off : Word) (at_ : Nat) : Prop := off.toNat + z ≤ s.x.localSize i.w.team ∧ z ∣ off.toNat ∧ at_ = off.toNat
    kind ≤ 2 → ctl % 256 = 0 → bitOf ctl 14 = true → bitOf ctl 15 = false → tag < s.x.tagCount m →
    InBudget s i w.h [w.d.toNat, w.s1.toNat] → Register s i w.h w.d.toNat a → Register s i w.h w.s1.toNat b →
    (∀ f ∈ i.served w.h,
      (if kind = 1 then loc (a f) (src f) else
        glob (rec_ w.s2.toNat) .read (b f) (src f) ∧ Reaches s o { host := false, wait := false } (src f) (ls f)) ∧
      (if kind = 0 then loc (a f) (dst f)
       else glob (rec_ (if kind = 1 then w.s2.toNat else w.m.toNat / 16)) .write (if kind = 1 then b f else a f) (dst f) ∧
         Reaches s o { write := true, host := false, wait := false } (dst f) (ld f))) →
    let keys := dedup ((i.served w.h).map fun f => (src f / 128, dst f / 128))
    s.x.inFlight o.core + keys.length ≤ 1024 → s.x.copyQueue o.core = [] →
    ∃ t, Machine.exec (if kind = 0 then .cpa w else if kind = 1 then .cps w else .cpl w) s = .next t ∧
      t.trust = s.trust ∧ t.mem = s.mem ∧ (∀ u a k, t.x.slotReg u a k = s.x.slotReg u a k) ∧
      (∀ u f, t.x.fib u f = { s.x.fib u f with pc := if u = i.u ∧ f ∈ i.grp then (i.pc + 8) % 2 ^ 48 else (s.x.fib u f).pc }) ∧
      (∀ f ∈ i.served w.h, ∃ id op, t.x.copies.find? id = some op ∧ op.inst = s.x.fresh ∧ op.kind = kind ∧ op.size = z ∧
        op.performed = false ∧ (⟨src f, dst f, false, f⟩ : CpElem) ∈ op.elems) ∧
      (t.x.teams.find? i.w.team).map (fun m => (m.tpend.get 0 tag, bitOf m.tdone tag)) =
        some (m.tpend.get 0 tag + keys.length, false)

/-- R97, R100: a line operation of a CPA moves its element from memory to the team's allocation, here from a sector of its own
die with no write waiting and no copy in its L1; retired, it leaves, and its tag is done once none of its line operations is
left. -/
def Sys2Proof.Claim.CopyMoves : Prop :=
  (∀ (s : State) (id : Nat) (op : LineOp) (e : CpElem) (m : Team) (l : Loc), s.x.copies.find? id = some op →
    op.kind = 0 → op.elems = [e] → e.zero = false → op.performed = false → op.held = none →
    s.x.teams.find? op.team = some m → m.st = .resident → m.lunc = [] → (∀ w, s.x.wave? op.wave = some w → w.log = []) →
    let o := s.x.opWho op
    Reaches s o { host := false } e.src l → l.home = dieOf o.core → l.pa % 32 + op.size ≤ 32 →
    (∀ q ∈ s.mem.reqs, q.sq ≠ l.sec / 32) → (∀ c ∈ s.mem.l1, c.core = o.core → c.sec ≠ l.sec) →
    l.sec ∉ s.mem.pois → l.sec ∉ s.mem.unc →
    ∃ t, Machine.exec (.lineOperationPerform id) s = .next t ∧ t.trust = s.trust ∧ t.mem.dev = s.mem.dev ∧ t.mem.host = s.mem.host ∧
      (t.x.copies.find? id).map LineOp.performed = some true ∧
      ∀ k, (t.x.teams.find? op.team).map (fun m => m.mem.get 0 k) =
        some (if e.dst ≤ k ∧ k < e.dst + op.size then s.mem.byteAt l.key (l.sa + (k - e.dst)) else m.mem.get 0 k)) ∧
  ∀ (s : State) (id : Nat) (op : LineOp) (c : CpInst) (m : Team) (n : Nat), s.x.copies.find? id = some op →
    op.performed = true → op.sqs = [] → s.x.insts.find? op.inst = some c → c.obj = none → c.tag = some n →
    s.x.teams.find? c.team = some m →
    ∃ t, Machine.exec (.lineOperationRetire id) s = .next t ∧ t.trust = s.trust ∧ t.mem.dev = s.mem.dev ∧
      t.x.copies.find? id = none ∧
      (t.x.teams.find? c.team).map (fun m => (m.tpend.get 0 n, bitOf m.tdone n)) =
        some (m.tpend.get 0 n - 1, decide (m.tpend.get 0 n ≤ 1) || bitOf m.tdone n)

/-- R102, R284: TAGWALL goes on when every selected tag is done, TAGWANY when one is or none of the team's tags is selected; else the
wave is held; one that was held until its tags were done goes on, whatever they have become since. TAGFFR writes the lowest selected done tag, or 64; TAGCLR clears the selected done bits. -/
def Sys2Proof.Claim.Tags : Prop :=
  ∀ (s : State) (i : Iss) (w : OwnI) (f : Nat) (m : Team), Uniform s i w.h f → s.x.determ i.w = false → s.x.teamOf i.w = some m →
    let n := s.x.tagCount m
    let mask := (s.x.readW i.u w.s1.toNat).toNat + 2 ^ 32 * (s.x.readW i.u (w.s1.toNat + 1)).toNat
    let all := ∀ k < n, bitOf mask k = true → bitOf m.tdone k = true
    let any := (∀ k < n, bitOf mask k = false) ∨ ∃ k < n, bitOf mask k = true ∧ bitOf m.tdone k = true
    (all ∨ i.w.resumed = true → Makes s (.tagwall w) i s.x 8) ∧ (any ∨ i.w.resumed = true → Makes s (.tagwany w) i s.x 8) ∧
    (¬ all → i.w.resumed = false → ∃ t, Machine.exec (.tagwall w) s = .next t ∧ t.mem = s.mem ∧ t.x = held s.x i (.tags mask true)) ∧
    (¬ any → i.w.resumed = false → ∃ t, Machine.exec (.tagwany w) s = .next t ∧ t.mem = s.mem ∧ t.x = held s.x i (.tags mask false)) ∧
    Makes s (.tagffr w) i (s.x.writeW i.u w.d.toNat (BitVec.ofNat 32
      (((List.range 64).find? fun k => decide (k < n) && bitOf mask k && bitOf m.tdone k).getD 64))) 8 ∧
    ∃ t, Machine.exec (.tagclr w) s = .next t ∧ t.trust = s.trust ∧ t.mem = s.mem ∧
      (∀ u a k, t.x.slotReg u a k = s.x.slotReg u a k) ∧
      (∀ u f, t.x.fib u f = { s.x.fib u f with pc := if u = i.u ∧ f ∈ i.grp then (i.pc + 8) % 2 ^ 48 else (s.x.fib u f).pc }) ∧
      ∀ k, (t.x.teams.find? i.w.team).map (fun m => bitOf m.tdone k) =
        some (bitOf m.tdone k && !(decide (k < n) && bitOf mask k))

/-- The phase test of an object (R106). -/
def Sys2Proof.Claim.tested (b : TbObj) : TbObj :=
  if b.pending = 0 ∧ b.inb = 0 ∧ b.outb = 0 then { b with phase := (b.phase + 1) % 16, pending := b.reset, swapped := false } else b
/-- A count of 24 bits plus an amount (R105). -/
def Sys2Proof.Claim.counted (c a : Nat) : Nat := (c + a) % 2 ^ 24

/-- R104 to R109, R285: at a 16-byte aligned offset inside the allocation, TBINIT writes an object with its count and clears
what it held, TBEXP adds to its sector counts, TBARV also takes its arrivals from Pending, and each ends in the phase test;
TBWAIT goes on once the phase differs, telling whether the wave was the last arriver of the phase it waited for, and else
holds the wave. -/
def Obligations.BarrierObjects : Prop :=
  ∀ (s : State) (i : Iss) (w : OwnI) (f : Nat) (m : Team), Uniform s i w.h f → s.x.determ i.w = false → i.diverged = false →
    s.x.teamOf i.w = some m →
    let o := (s.x.readW i.u w.s1.toNat).toNat
    let v (k : Nat) : Nat := (s.x.readW i.u k).toNat
    let b := m.tb o
    o + 16 ≤ s.x.localSize i.w.team → o % 16 = 0 →
    let does (p : Instr) (q : Team → Prop) : Prop := ∃ t, Machine.exec p s = .next t ∧ t.trust = s.trust ∧ t.mem = s.mem ∧
      (∀ u a k, t.x.slotReg u a k = s.x.slotReg u a k) ∧
      (∀ u f, t.x.fib u f = { s.x.fib u f with pc := if u = i.u ∧ f ∈ i.grp then (i.pc + 8) % 2 ^ 48 else (s.x.fib u f).pc }) ∧
      ∃ m', t.x.teams.find? i.w.team = some m' ∧ q m' ∧ ∀ k, k < o ∨ o + 16 ≤ k → m'.mem.get 0 k = m.mem.get 0 k
    (v w.s2.toNat ≤ 65535 → (w.m.getLsbD 0 = true → o ∈ m.tbreg ∨ m.tbreg.length < 8) → does (.tbinit w) fun m' =>
      m'.tb o = ⟨0, false, w.m.getLsbD 0, 0, 0, v w.s2.toNat, v w.s2.toNat, 0⟩ ∧ (o ∈ m'.tbreg ↔ w.m.getLsbD 0 = true)) ∧
    (v w.s2.toNat < 2 ^ 23 → v (w.s2.toNat + 1) < 2 ^ 23 → b.rsv = 0 → does (.tbexp w) fun m' =>
      m'.tb o = tested { b with inb := counted b.inb (v w.s2.toNat), outb := counted b.outb (v (w.s2.toNat + 1)) }) ∧
    (1 ≤ v w.s2.toNat → v w.s2.toNat ≤ b.pending → v w.s3.toNat < 2 ^ 23 → v (w.s3.toNat + 1) < 2 ^ 23 → b.rsv = 0 → i.w.log = [] →
      does (.tbarv w) fun m' => m'.tb o = tested { b with
        inb := counted b.inb (v w.s3.toNat), outb := counted b.outb (v (w.s3.toNat + 1)), pending := b.pending - v w.s2.toNat }) ∧
    (m.phaseAt o ≠ v w.s2.toNat % 16 → ∃ t, Machine.exec (.tbwait w) s = .next t ∧ t.trust = s.trust ∧ t.mem = s.mem ∧
      (∀ u a k, t.x.slotReg u a k = s.x.slotReg u a k) ∧
      ∀ f ∈ i.served w.h, t.x.fib i.u f = { (s.x.fib i.u f).setPred w.d.toNat (decide ((m.tbinfo.get {} o).last.find? (v w.s2.toNat % 16) = some i.u)) with
        pc := (i.pc + 8) % 2 ^ 48 }) ∧
    (m.phaseAt o = v w.s2.toNat % 16 → ∃ t, Machine.exec (.tbwait w) s = .next t ∧ t.mem = s.mem ∧
      t.x = held s.x i (.phase o (v w.s2.toNat % 16) w.d.toNat))

/-- R91, R92. -/
def Obligations.Residency : Prop := ResidencyNew ∧ ResidencyChanges
/-- R94 to R102, R283, R284. -/
def Obligations.CopiesAndTags : Prop := CopyStarts ∧ CopyMoves ∧ Tags

/-! ## Messages, near-memory commands and collectives -/

/-- R286 to R289: MSEND to a team of this module reads its payload and sends it; MPOST posts a receive, or takes the first
unmatched arrival that it matches; MPROBE reads the first match's header; MCANCEL withdraws an unmatched receive; an arrival
goes to the first posted receive that takes it, else it is queued. A receive of capacity 0, the reserved bits of a receive's
second word and an arrival's being matched before the limit of the queue is looked at are the model's choice (log entry 18). -/
def Obligations.Messages : Prop :=
  (∀ (s : State) (i : Iss) (w : OwnI) (f : Nat) (m : Team) (g : Grid), Uniform s i w.h f → i.w.log = [] →
    s.x.determ i.w = false → s.x.teamOf i.w = some m → s.x.gridOf m = some g →
    let v (k : Nat) : Nat := (s.x.readW i.u k).toNat
    let tag := v w.s2.toNat % 2 ^ 16
    let n := bitsOf (v w.s2.toNat) 16 8
    let off := v w.s3.toNat
    let op := s.x.fresh
    let moved (t : State) : Prop := t.trust = s.trust ∧ (∀ u a k, t.x.slotReg u a k = s.x.slotReg u a k) ∧
      ∀ u f, t.x.fib u f = { s.x.fib u f with pc := if u = i.u ∧ f ∈ i.grp then (i.pc + 8) % 2 ^ 48 else (s.x.fib u f).pc }
    let handle (t : State) : Option Handle := (t.x.wave? i.u).map fun v => v.handles.get {} w.d.toNat
    (v w.s1.toNat = s.x.rank → v (w.s1.toNat + 1) < g.word 16 4 * g.word 20 4 * g.word 24 4 → off % 16 = 0 →
      off + 16 * n ≤ s.x.localSize i.w.team → m.lpois = [] →
      ∃ t, Machine.exec (.msend w) s = .next t ∧ moved t ∧ handle t = some { ready := false, op := op } ∧
        t.x.msgs = s.x.msgs ++ [{ id := op, local_ := true, rank := s.x.rank, team := m.idx, grid := m.grid, dteam := v (w.s1.toNat + 1)
                                  tag := tag, data := m.bytes off (16 * n), pois := 0, total := 16 * n }]) ∧
    (let p : Post := { op := op, wave := i.u, rank := v w.s1.toNat, team := v (w.s1.toNat + 1), tag := v w.s2.toNat % 2 ^ 17
                       cap := bitsOf (v w.s2.toNat) 24 8, off := off }
     off % 16 = 0 → off + 16 + 16 * p.cap ≤ s.x.localSize i.w.team →
     (m.unmat.find? p.takes = none → m.posts.length < 64 → ∃ t, Machine.exec (.mpost w) s = .next t ∧ moved t ∧
        handle t = some { ready := false, op := op } ∧
        (t.x.teams.find? i.w.team) = some { m with posts := m.posts ++ [p] }) ∧
     ∀ q, m.unmat.find? p.takes = some q → q.pois = 0 → q.local_ = false → 16 ∣ q.data.length → q.data.length / 16 ≤ p.cap →
       ∃ t, Machine.exec (.mpost w) s = .next t ∧ moved t ∧
        (handle t).map (fun h => (h.ready, h.all)) = some (true, BitVec.ofNat 32 (q.data.length / 16 % 256 * 2 ^ 16 + q.tag % 2 ^ 16)) ∧
        (t.x.teams.find? i.w.team).map (fun m => m.bytes (off + 16) q.data.length) = some q.data) ∧
    Makes s (.mprobe w) i (s.x.writeW i.u w.d.toNat (BitVec.ofNat 32
      ((m.unmat.find? (takesMsg (v w.s1.toNat) (v (w.s1.toNat + 1)) (v w.s2.toNat % 2 ^ 17))).elim 0 fun q =>
        2 ^ 31 + q.data.length / 16 * 2 ^ 16 + q.tag))) 8 ∧
    ∀ p, (i.w.handle w.s1.toNat).ready = false → m.posts.find? (fun p => decide (p.op = (i.w.handle w.s1.toNat).op)) = some p →
      ∃ t, Machine.exec (.mcancel w) s = .next t ∧ moved t ∧
        (t.x.teams.find? i.w.team).map Team.posts = some (m.posts.filter fun q => !decide (q.op = p.op)) ∧
        ((t.x.wave? i.u).map fun v => ((v.handles.get {} w.s1.toNat).ready, (v.handles.get {} w.s1.toNat).all)) =
          some (true, BitVec.ofNat 32 (4 * 2 ^ 28 + p.tag % 2 ^ 16))) ∧
  ∀ (s : State) (n t : Nat) (m : Msg) (tm : Team), s.x.msgs.find? (fun m => decide (m.id = n)) = some m →
    s.x.teamAt m.grid m.dteam = some (t, tm) → s.x.teams.find? t = some tm → tm.st = .resident → m.pois = 0 →
    (tm.posts.find? (fun p => p.takes m) = none → s.x.overflowOf tm.core < 256 → ∃ r, Machine.exec (.messageArrival n) s = .next r ∧
      r.trust = s.trust ∧ (r.x.teams.find? t).map Team.unmat = some (tm.unmat ++ [{ m with local_ := false }]) ∧
      ∀ q ∈ r.x.msgs, q.id ≠ n) ∧
    ∀ p, tm.posts.find? (fun p => p.takes m) = some p → ∃ r, Machine.exec (.messageArrival n) s = .next r ∧ r.trust = s.trust ∧
      (r.x.teams.find? t).map Team.posts = some (tm.posts.filter fun q => !decide (q.op = p.op)) ∧
      (r.x.teams.find? t).map (fun m' => m'.bytes (p.off + 16) (16 * min (m.data.length / 16) p.cap)) =
        some (m.data.take (16 * min (m.data.length / 16) p.cap))

/-- The handles of waves that are bound to an operation, before it completes. -/
def Sys2Proof.Claim.BoundTo (s : State) (op u k : Nat) : Prop :=
  ((s.x.wave? u).map fun v => ((v.handles.get {} k).ready, (v.handles.get {} k).op)) = some (false, op)
/-- A wave's handle is ready and gives a slot a value. -/
def Sys2Proof.Claim.Gives (t : State) (u k slot : Nat) (v : Word) : Prop :=
  ∃ w, t.x.wave? u = some w ∧ (w.handles.get {} k).ready = true ∧
    ((w.handles.get {} k).vals.find? slot).getD (w.handles.get {} k).all = v

/-- R128, R133 to R139, R291: NMCMD whose command passes its checks enters it for the memory stack of its spans and binds its
handle; one that fails a check makes the handle ready with that check's status word. NMFENCE holds its wave while a command of
it is left, then goes on, at `.die` or wider with no clean sector in the L1; a command is sent once the entries before it are
performed and its stack has room; the stack then performs it, here for elements of one sector of each span, writes each
element's high and low words, and the handle is ready with DONE, the flags of its elements and their number; one that meets a
poisoned input writes nothing, and its handle is ready with POISON. That a command's release drains the core's writes in its own
step is the model's choice (log entry 35). -/
def Obligations.NearMemory : Prop :=
  (∀ (s : State) (i : Iss) (w : OwnI) (f : Nat) (l : List Word) (h lo g : Loc), Issues s i → i.served w.h = [f] →
    s.x.determ i.w = false → s.x.nmLoad (s.x.coreOf i.w) < 256 → s.x.nmQueue (s.x.coreOf i.w) = [] → s.x.nmg.find? s.x.fresh = none →
    InBudget s i w.h ((List.range 8).map (w.s1.toNat + ·)) → l.length = 8 →
    (∀ j < 8, s.x.ownRead i f (w.s1.toNat + j) = l[j]?) →
    let c := l.map BitVec.toNat
    let o := s.x.who i.w
    let need : Need := { write := true, atomic := true, host := false }
    let va := (s.x.nmSpans i.w c).map NmSpan.va
    s.x.nmCheck i.w c = none → Reaches s o need (va.getD 0 0) h → Reaches s o need (va.getD 1 0) lo →
    (nmUsesG c = true → Reaches s o { host := false } (va.getD 2 0) g) → h.cls = 1 → lo.cls = 2 → nmuOf lo = nmuOf h →
    (nmUsesG c = true → nmuOf g = nmuOf h) →
    ∃ t, Machine.exec (.nmcmd w) s = .next t ∧ t.trust = s.trust ∧ t.mem = s.mem ∧
      (∀ u a k, t.x.slotReg u a k = s.x.slotReg u a k) ∧
      (∀ u f, t.x.fib u f = { s.x.fib u f with pc := if u = i.u ∧ f ∈ i.grp then (i.pc + 8) % 2 ^ 48 else (s.x.fib u f).pc }) ∧
      ((t.x.wave? i.u).map fun v => v.handles.get {} w.d.toNat) = some { ready := false, op := s.x.fresh } ∧
      ∃ n q, t.x.nms.find? n = some q ∧ q.op = s.x.fresh ∧ q.wave = i.u ∧ q.words = c ∧ q.nmu = nmuOf h ∧ q.sent = false ∧
        q.held = none) ∧
  (∀ (s : State) (i : Iss) (w : OwnI) (f : Nat) (l : List Word) (code : Nat), Issues s i → i.served w.h = [f] →
    s.x.nmLoad (s.x.coreOf i.w) ≤ 256 → s.x.nmQueue (s.x.coreOf i.w) = [] → s.x.determ i.w = false → s.x.nmg.find? s.x.fresh = none →
    InBudget s i w.h ((List.range 8).map (w.s1.toNat + ·)) → l.length = 8 →
    (∀ j < 8, s.x.ownRead i f (w.s1.toNat + j) = l[j]?) → s.x.nmCheck i.w (l.map BitVec.toNat) = some (code, 0) → code ≠ 7 →
    (code = 3 → w.m.getLsbD 15 = false) →
    ∃ t, Machine.exec (.nmcmd w) s = .next t ∧ t.trust = s.trust ∧ t.mem = s.mem ∧ t.x.nms = s.x.nms ∧
      (∀ u a k, t.x.slotReg u a k = s.x.slotReg u a k) ∧ Gives t i.u w.d.toNat f (BitVec.ofNat 32 (code * 2 ^ 28))) ∧
  (∀ (s : State) (i : Iss) (w : OwnI), s.x.issue? = some i →
    ((∀ p ∈ s.x.nms, p.2.wave ≠ i.u) → ∃ t, Machine.exec (.nmfence w) s = .next t ∧ t.trust = s.trust ∧
      Past s.x t.x i (fun _ => (i.pc + 8) % 2 ^ 48) ∧ t.mem = { s.mem with l1 := t.mem.l1 } ∧
      if w.m.toNat / 256 % 8 < 4 then t.mem = s.mem else ∀ c ∈ t.mem.l1, c.core = s.x.coreOf i.w → c.dirty ≠ 0) ∧
    ((∃ p ∈ s.x.nms, p.2.wave = i.u) → ∃ t, Machine.exec (.nmfence w) s = .next t ∧ t.mem = s.mem ∧
      t.x = held s.x i (.retry 4))) ∧
  (∀ (s : State) (core n : Nat) (c : NmCmd), s.x.nms = [(n, c)] → c.core = core → c.sent = false → c.held = none → c.older = 0 →
    (∀ m g, s.x.teams.find? c.team = some m → s.x.gridOf m = some g → g.determ = false) →
    ∃ t k, Machine.exec (.nmcmdSend core) s = .next t ∧ t.trust = s.trust ∧ t.x.nms = [(k, { c with sent := true })] ∧
      (∀ q ∈ t.mem.l1, q.core = core → q.dirty = 0) ∧ ∀ r ∈ t.mem.reqs, r.tok ≠ core + 1) ∧
  ∀ (s : State) (die stack n : Nat) (c : NmCmd) (rest : List (Nat × NmCmd)) (h lo g : NmLoc),
    s.x.nmuQueue (3 * die + stack) = (n, c) :: rest → c.locs = [h, lo] ++ (if nmUsesG c.words then [g] else []) →
    s.mem.claims = [] → s.mem.unc = [] → s.mem.uncw = [] → s.mem.reqs = [] → s.x.nmg.find? c.op = some ⟨1, []⟩ →
    let l := c.words
    let w := nmWidth (nmPf l)
    let gw := nmWidth (nmGf l)
    let g' := if nmUsesG l then g else h
    h.sa % 32 = 0 → lo.sa % 32 = 0 → g'.sa % 32 = 0 → 0 < nmN l → w * nmN l ≤ 32 → gw * nmN l ≤ 32 → h.sa ≠ lo.sa →
    g'.sa ≠ lo.sa → (nmUsesG l = true → g'.sa ≠ h.sa) → h.key ≠ 0 → lo.key ≠ 0 →
    let e (k : Nat) : Nat × Nat × Bool × Bool :=
      nmElem (nmOp l) (nmFmt (nmPf l)) (nmFmt (nmGf l)) (s.mem.nmRead h w k) (s.mem.nmRead lo w k)
        (if nmUsesG l then s.mem.nmRead g' gw k else 0) (nmA l) (nmF l)
    let any (p : Nat → Bool) : Nat := ((List.range (nmN l)).any p).toNat
    (s.mem.pois = [] → ∃ t, Machine.exec (.nmuCommand die stack) s = .next t ∧ t.trust = s.trust ∧ t.x.nms.find? n = none ∧
      (∀ k < nmN l, t.mem.nmRead h w k = (e k).1 % 2 ^ (8 * w) ∧ t.mem.nmRead lo w k = (e k).2.1 % 2 ^ (8 * w)) ∧
      ∀ u k, BoundTo s c.op u k →
        Gives t u k c.slot (BitVec.ofNat 32 (2 ^ 27 * any (fun k => (e k).2.2.1) + 2 ^ 26 * any (fun k => (e k).2.2.2) + nmN l))) ∧
    (s.mem.pois = [h.sa / 32] → nmOp l ≠ 4 → ∃ t, Machine.exec (.nmuCommand die stack) s = .next t ∧ t.trust = s.trust ∧
      t.x.nms.find? n = none ∧ t.mem.dev = s.mem.dev ∧ t.mem.pois = s.mem.pois ∧
      ∀ u k, BoundTo s c.op u k → Gives t u k c.slot (BitVec.ofNat 32 (9 * 2 ^ 28)))

/-- R292, R355, R356, R360: COLL of a sound descriptor, whose operands lie on no host page, takes the next instance of its group; position 0 forgets an instance and
retires it once every member has completed. -/
def Obligations.Collectives : Prop :=
  (∀ (s : State) (i : Iss) (w : OwnI) (f : Nat) (m : Team) (g : CollGroup), Uniform s i w.h f → s.x.determ i.w = false →
    i.w.log = [] → s.x.teamOf i.w = some m →
    let o := (s.x.readW i.u w.s1.toNat).toNat
    let l := (List.range 8).map fun k => leNat (m.bytes (o + 4 * k) 4)
    let n := g.members.length
    let oper := bitsOf (word l 0) 0 4
    let b := eltBytes (bitsOf (word l 0) 8 4)
    let root := decide (word l 4 = s.x.rank)
    o + 32 ≤ s.x.localSize i.w.team → o % 16 = 0 → m.lpois = [] → s.x.groups.find? (word l 5) = some g →
    s.x.rank ∈ g.members → collBad l (some g) s.x.rank = false → (s.x.bufRec i.w (collSrcRec l)).refusal false false .read = none →
    (s.x.bufRec i.w (collDstRec l)).refusal false false .write = none →
    word l 2 * b + collReads oper (word l 1) n root * b ≤ (s.x.bufRec i.w (collSrcRec l)).extent →
    word l 3 * b + collWrites oper (word l 1) n root * b ≤ (s.x.bufRec i.w (collDstRec l)).extent →
    let a := s.x.collAsk i f s.x.fresh m.core l
    let h := s.collHost (s.x.who i.w) [] false a.part.src a.reads
    h.2.1 = false → h.2.2 = [] → (h.1.collHost (s.x.who i.w) [] true a.part.dst a.writes).2.1 = false →
    ∃ t, Machine.exec (.coll w) s = .next t ∧ t.trust = s.trust ∧
      t.x.groups.find? (word l 5) = some { g with next := g.next + 1 } ∧
      (∃ c, t.x.colls.find? s.x.fresh = some c ∧ c.group = word l 5 ∧ c.inst = g.next ∧ c.desc = l ∧ c.wave = i.u) ∧
      (∀ u a k, t.x.slotReg u a k = s.x.slotReg u a k) ∧
      ∀ u f, (t.x.fib u f).pc = if u = i.u ∧ f ∈ i.grp then (i.pc + 8) % 2 ^ 48 else (s.x.fib u f).pc) ∧
  ∀ (s : State) (group inst : Nat) (g : CollGroup), s.x.groups.find? group = some g → g.members.head? = some s.x.rank →
    (∀ r ∈ g.members, (s.x.collInOf group inst r).fin = true) →
    ∃ t, Machine.exec (.collInstanceRetire group inst) s = .next t ∧ t.trust = s.trust ∧ t.mem = s.mem ∧
      (∀ d ∈ t.x.collIn, ¬ (d.group = group ∧ d.inst = inst)) ∧
      ∀ p ∈ t.x.colls, ¬ (p.2.group = group ∧ p.2.inst = inst ∧ p.2.done = true)

/-! ## Frieze operations, tiles and scans -/

/-- Every fibre of i's group is past the instruction, and no register, status word of trust, or memory has changed. -/
structure Sys2Proof.Claim.Signed (s t : State) (i : Iss) : Prop where
  mem   : t.mem = s.mem
  trust : t.trust = s.trust
  regs  : ∀ u a k, t.x.slotReg u a k = s.x.slotReg u a k
  fibs  : ∀ u f, t.x.fib u f = { s.x.fib u f with
            pc := if u = i.u ∧ f ∈ i.grp then (i.pc + 8) % 2 ^ 48 else (s.x.fib u f).pc }

/-- The frieze operations of R293 with their majors. -/
def Sys2Proof.Claim.friezes (w : OwnI) : List (Instr × Nat) :=
  [(.mma w, 0x1c0), (.mmar w, 0x1c1), (.mmd w, 0x1c2), (.mmlr w, 0x1c3), (.tzero w, 0x1c4), (.tload w, 0x1c5),
   (.tstore w, 0x1c6), (.tnew w, 0x1c8), (.tfree w, 0x1c9), (.scan w, 0x1cc)]

/-- R159 to R161, R293, R303: in a fast-mode grid, whose engine's queue has room, a wave of no frieze starts an operation
that passes its checks at once; a member's signature that does not complete its frieze's set is recorded; the last one
starts the operation, clears Signed and counts Sequence. The handle S3 is bound to the operation, but by TFREE. -/
def Sys2Proof.Claim.MatrixSigning : Prop :=
  ∀ (s : State) (i : Iss) (w : OwnI) (m : Team), s.x.issue? = some i → i.inHandler = false → s.x.determ i.w = false →
    i.w.log = [] → s.x.teams.find? i.w.team = some m → s.x.mxRoom (s.x.coreOf i.w) = true →
    ∀ p ∈ friezes w,
      let l := (List.range (wordCount p.2)).map fun j => (s.x.readW i.u (w.s2.toNat + j)).toNat
      let bound (t : State) (op : Nat) : Prop := p.2 ≠ 0x1c9 →
        ((t.x.wave? i.u).map fun v => v.handles.get {} w.s3.toNat) = some { ready := false, op := op }
      let starts (t : State) (op : Nat) : Prop := ∃ o : MxOp, t.x.mxs = s.x.mxs ++ [o] ∧ o.id = op ∧ o.team = i.w.team ∧
        o.core = m.core ∧ o.major = p.2 ∧ o.m = w.m.toNat ∧ o.d = w.d.toNat ∧ o.words = l ∧ o.begun = false ∧ o.held = []
      (∀ r, m.friezeOf i.w.idx = none → s.x.signChecks i p.2 w [i.w.idx] (m.arms.find? (8 + i.u)) l = .ok r →
        ∃ t, Machine.exec p.1 s = .next t ∧ Signed s t i ∧ starts t s.x.fresh ∧ bound t s.x.fresh) ∧
      ∀ k, m.friezeOf i.w.idx = some k → i.diverged = false →
        let c := m.conv k
        bitOf c.signed i.w.idx = false →
        let now := bitSet c.signed i.w.idx true
        (∀ r, c.sig = none → now ≠ c.members →
          s.x.signChecks i p.2 w ((List.range 16).filter (bitOf c.members)) (m.arms.find? k) l = .ok r →
          ∃ t, Machine.exec p.1 s = .next t ∧ Signed s t i ∧ t.x.mxs = s.x.mxs ∧ bound t s.x.fresh ∧
            (t.x.teams.find? i.w.team).map (fun m => ((m.conv k).signed, (m.conv k).members, (m.conv k).seq)) =
              some (now, c.members, c.seq)) ∧
        ∀ g r, c.sig = some g → g.words = l → g.bits = p.2 + 2 ^ 9 * w.d.toNat + 2 ^ 16 * w.s1.toNat + 2 ^ 23 * w.s2.toNat +
            2 ^ 30 * w.s3.toNat + 2 ^ 37 * w.m.toNat → now = c.members →
          s.x.signChecks i p.2 w g.ranks (m.arms.find? k) l = .ok r →
          ∃ t, Machine.exec p.1 s = .next t ∧ Signed s t i ∧ starts t g.op ∧ bound t g.op ∧
            (t.x.teams.find? i.w.team).map (fun m => ((m.conv k).signed, (m.conv k).members, (m.conv k).seq)) =
              some (0, c.members, (c.seq + 1) % 256)

/-- R160, R161, R303: a frieze operation traps its whole group HNDOP in a handler wave, MXDIV in a diverged member of a frieze,
FRZMIS where it differs from the signature that is collected, and otherwise with the cause of its first failing check. -/
def Sys2Proof.Claim.MatrixRefusals : Prop :=
  ∀ (s : State) (i : Iss) (w : OwnI) (m : Team), s.x.issue? = some i → s.x.teams.find? i.w.team = some m →
    (∀ f, (i.w.fib f).wins = []) →
    ∀ p ∈ friezes w,
      let l := (List.range (wordCount p.2)).map fun j => (s.x.readW i.u (w.s2.toNat + j)).toNat
      let traps (c : Nat) : Prop := ∃ t, Machine.exec p.1 s = .next t ∧ Trapped s t i i.grp c 0 8
      (i.inHandler = true → traps 0x19) ∧
      (i.inHandler = false →
        (∀ c, m.friezeOf i.w.idx = none → s.x.signChecks i p.2 w [i.w.idx] (m.arms.find? (8 + i.u)) l = .error c → traps c) ∧
        ∀ k, m.friezeOf i.w.idx = some k →
          (i.diverged = true → i.w.resumed = false → traps 0x1b) ∧
          (i.diverged = false → bitOf (m.conv k).signed i.w.idx = false →
            ∀ g, (m.conv k).sig = some g → (g.words ≠ l ∨ g.bits % 2 ^ 9 ≠ p.2) → traps 0x1c))

/-- `MatrixSigning` And: `MatrixRefusals`. -/
def Obligations.MatrixInstructions : Prop := MatrixSigning ∧ MatrixRefusals

/-- Sum s of 16 products, g = rnd36(s), t ← rnd36(t + g), segment after segment (R304). -/
def Sys2Proof.Claim.segments (n : Nat) (term : Nat → XR) (t : XR) : XR :=
  (List.range n).foldl (fun t j =>
    rne accF (xsum false [t, rne accF (xsum false ((List.range 16).map fun q => term (16 * j + q)))])) t

/-- No frieze whose members have all signed waits for a place in an engine's queue. -/
def Sys2Proof.Claim.NoneToStart (s : State) : Prop := ∀ p ∈ s.x.teams, ∀ k, (p.2.conv k).complete = false

/-- An operation is performed: it has left the queue, and every handle bound to it is ready. -/
structure Sys2Proof.Claim.Performed (s t : State) (o : MxOp) : Prop where
  trust : t.trust = s.trust
  gone  : ∀ p ∈ t.x.mxs, p.id ≠ o.id
  ready : ∀ u k, ((s.x.wave? u).map fun v => ((v.handles.get {} k).ready, (v.handles.get {} k).op)) = some (false, o.id) →
            ((t.x.wave? u).map fun v => (v.handles.get {} k).ready) = some true

/-- R296, R304, R309, R312, R317: the engine performs the head of its queue, here on a name whose tile it holds, or which has none
while the core has a free one: TZERO makes the tile zero, TFREE makes the name
Unbound, TSTORE of a local image writes it, MMA of formats of 4 to 16 bits without scales, outliers or squares adds its
products segment by segment, and a SCAN is handed to its chunks. -/
def Sys2Proof.Claim.MatrixEngine : Prop :=
  ∀ (s : State) (core : Nat) (o : MxOp) (m : Team), s.x.mxHead core = some o → o.held = [] → NoneToStart s →
    (s.x.cores.get {} core).idle = false → s.x.teams.find? o.team = some m → m.st = .resident →
    let old := m.tile o.d
    old.imaged = false → (old.phys = true ∧ old.at_ = core ∨ old.phys = false ∧ (s.x.physTiles core).length < 48) →
    let performed (q : State → Prop) : Prop := ∃ t, Machine.exec (.matrixOpPerform core) s = .next t ∧ Performed s t o ∧ q t
    let tile (t : State) : Option Tile := (t.x.teams.find? o.team).map fun m => m.tile o.d
    (o.major = 0x1c4 → performed fun t => ∃ n, tile t =
      some { bound := true, phys := true, at_ := core, done := (old.done + 1) % 2 ^ 16, lru := n }) ∧
    (o.major = 0x1c9 → performed fun t => tile t = some {}) ∧
    (o.major = 0x1c6 → bitOf (word o.words 0) 4 = false → performed fun t =>
      let img := imageOfTile (bitsOf (word o.words 0) 5 2) old
      t.mem = s.mem ∧ (t.x.teams.find? o.team).map (fun m => m.bytes (word o.words 1) img.length) = some img) ∧
    (o.major = 0x1c0 → bitOf o.m 14 = false → bitOf o.m 12 = false → bitOf o.m 11 = false → specBits o.specs.1 ≤ 16 →
      specBits o.specs.2 = specBits o.specs.1 → performed fun t =>
      let bits := specBits o.specs.1
      let k := classK bits
      let a (r c : Nat) : XR := specValue o.specs.1
        (elemAt (fun n => ((o.a.getD (r / 8) []).getD n 0, false)) 0 bits (r % 8 * k + c)).1
      let b (r c : Nat) : XR := specValue o.specs.2 (elemAt (fun n => (m.mem.get 0 n, false)) (word o.words 0) bits
        (if bitOf o.m 13 then k * c + r else 64 * r + c)).1
      ∀ r < 64, ∀ c < 64, (tile t).map (fun q => q.main.get 0 (64 * r + c)) = some (BitVec.ofNat 36 (encodeX accF
        (segments (k / 16) (fun n => (a r n).mul (b n c)) (value accF (old.main.get 0 (64 * r + c)).toNat))))) ∧
    (o.major = 0x1cc → ∃ t, Machine.exec (.matrixOpPerform core) s = .next t ∧ t.trust = s.trust ∧ t.mem = s.mem ∧
      t.x = s.x.post 0 (.scanChunk core))

/-- The step of every state element and every output of R315, rounded, for a chunk of one step. -/
def Sys2Proof.Claim.scanState (k : ScanBlk) (fp : Nat → Nat → XR) (t p s : Nat) : XR :=
  rne fp32 (xsum false [(fp 1 (t * k.p + p)).mul (fp 5 (p * k.ss + s)), (fp 2 (t * k.ss + s)).mul (fp 0 (t * k.p + p))])

/-- R315, R317: a SCAN that finds its block unfit completes with INVALID; one that has begun performs a chunk, here of one step,
by the block it read when it began: it writes the outputs and the state it hands on, and then the step count. -/
def Sys2Proof.Claim.ScanChunks : Prop :=
  ∀ (s : State) (core : Nat) (o : MxOp) (m : Team), s.x.mxHead core = some o → o.major = 0x1cc → s.x.teams.find? o.team = some m →
    let blk := word o.words 0
    let k := ScanBlk.ofBytes (if o.begun then o.blk else m.bytes blk 128)
    let fp (j n : Nat) : XR := value fp32 (leNat (m.bytes (k.off j + 4 * n) 4))
    (o.begun = false → NoneToStart s → k.runs (s.x.localSize o.team) = false →
      ∃ t, Machine.exec (.scanChunk core) s = .next t ∧ t.mem = s.mem ∧ Performed s t o ∧
        ∀ u n, ((s.x.wave? u).map fun v => ((v.handles.get {} n).ready, (v.handles.get {} n).op)) = some (false, o.id) →
          ((t.x.wave? u).map fun v => (v.handles.get {} n).all) = some (BitVec.ofNat 32 (4 * 2 ^ 28 + k.next % 2 ^ 20))) ∧
    (o.begun = true → k.lc = 1 → o.sc < k.len → (k.z = true → o.sc ≠ 0) → 0 < k.p → 0 < k.ss →
      let ya := k.off 4 + 4 * o.sc * k.p
      (ya + 4 * k.p ≤ k.off 5 ∨ k.off 5 + 4 * k.p * k.ss ≤ ya) → (ya + 4 * k.p ≤ blk + 96 ∨ blk + 100 ≤ ya) →
      (k.off 5 + 4 * k.p * k.ss ≤ blk + 96 ∨ blk + 100 ≤ k.off 5) →
      ∃ t, Machine.exec (.scanChunk core) s = .next t ∧ t.trust = s.trust ∧ t.mem = s.mem ∧
        ∃ m', t.x.teams.find? o.team = some m' ∧ leNat (m'.bytes (blk + 96) 4) = o.sc + 1 ∧
          (∀ p < k.p, ∀ q < k.ss, leNat (m'.bytes (k.off 5 + 4 * (p * k.ss + q)) 4) =
            encodeX fp32 (rne fp32 (scanState k fp o.sc p q))) ∧
          ∀ p < k.p, leNat (m'.bytes (ya + 4 * p) 4) = encodeX fp32 (rne fp32 (xsum false ((List.range k.ss).map fun q =>
            (fp 3 (o.sc * k.ss + q)).mul (scanState k fp o.sc p q)))))

/-- `MatrixEngine` And: `ScanChunks`. -/
def Obligations.MatrixWork : Prop := MatrixEngine ∧ ScanChunks

/-- R296, R310, R311, R314, R316, R409: TREAD of a name without started operations gives each served fibre four elements of its
row in the asked form; TSTAT writes the status word and may clear its flags; SSCFG writes the code of a block and completes
a valid block; HCANCEL takes a queued operation that has not begun out of the queue, with CANCELLED; a displaced tile is
the one marked evictable first, else the least recently used of an idle name, and is written to its team's context image (whose
layout is the model's, log entry 48); an engine without an operation becomes idle; a start stage admits the first twenty waiting
engines of its die in the order in which they left idle, those of one cycle by logical core number, or closes. -/
def Obligations.TilesAndEngine : Prop :=
  (∀ (s : State) (i : Iss) (w : OwnI) (m : Team), Issues s i → s.x.teamOf i.w = some m →
    s.x.tileBusy i.w.team w.s1.toNat = false →
    let t := m.tile w.s1.toNat
    let form := bitsOf w.m.toNat 4 2
    let e (f c : Nat) : Nat := 64 * (8 * (w.m.toNat % 8) + f / 16) + 4 * (f % 16) + c
    let main (f c : Nat) : XR := value accF (t.main.get 0 (e f c)).toNat
    let d := w.d.toNat
    t.pois = [] →
    (form = 0 → InBudget s i w.h ((List.range 4).map (d + ·)) → RunsAs s (.tread w) i 8 w.h fun f =>
      { v := (List.range 4).map fun c => (d + c, BitVec.ofNat 32 (encodeX fp32 (rne fp32 (main f c)))) }) ∧
    (form = 1 → InBudget s i w.h ((List.range 8).map (d + ·)) → RunsAs s (.tread w) i 8 w.h fun f =>
      { v := (List.range 4).flatMap fun c =>
          let p := acc2x (main f c)
          [(d + 2 * c, BitVec.ofNat 32 (encodeX fp32 p.1)), (d + 2 * c + 1, BitVec.ofNat 32 (encodeX fp32 p.2))] }) ∧
    (form = 2 → InBudget s i w.h ((List.range 4).map (d + ·)) → RunsAs s (.tread w) i 8 w.h fun f =>
      { v := (List.range 4).map fun c => (d + c, t.res.get 0 (e f c)) })) ∧
  (∀ (s : State) (i : Iss) (w : OwnI) (f : Nat) (m : Team), Uniform s i w.h f → s.x.teamOf i.w = some m →
    (s.x.tileBusy i.w.team w.s1.toNat = false →
      let t := m.tile w.s1.toNat
      let y := s.x.writeW i.u w.d.toNat (BitVec.ofNat 32 (if t.bound then
        t.done % 2 ^ 16 * 2 ^ 16 + (if t.pois = [] then 0 else 2 ^ 7) + t.flags % 2 ^ 7 / 4 * 4 + 1 else 0))
      (w.m.getLsbD 0 = false → Makes s (.tstat w) i y 8) ∧
      (w.m.getLsbD 0 = true → i.inHandler = false → Makes s (.tstat w) i (y.modTeam i.w.team fun m =>
        { m with tiles := m.tiles.put {} w.s1.toNat { m.tiles.get {} w.s1.toNat with flags := 0 } }) 8)) ∧
    (let o := (s.x.readW i.u w.s1.toNat).toNat
     let size := s.x.localSize i.w.team
     let k := ScanBlk.ofBytes (m.bytes o 128)
     o + 128 ≤ size → o % 128 = 0 → m.lpois = [] →
      (k.code size ≠ 0 → Makes s (.sscfg w) i (s.x.writeW i.u w.d.toNat (BitVec.ofNat 32 (k.code size))) 8) ∧
      (k.code size = 0 → ∃ t, Machine.exec (.sscfg w) s = .next t ∧ t.trust = s.trust ∧ t.mem = s.mem ∧
        t.x.readW i.u w.d.toNat = 0 ∧
        (t.x.teams.find? i.w.team).map (fun m => m.bytes (o + 96) 16) = some (leBytes 4 0 ++ leBytes 4 ((k.len + k.lc - 1) / k.lc) ++
          leBytes 4 (k.len - k.lc * ((k.len + k.lc - 1) / k.lc - 1)) ++ leBytes 4 ((k.len + k.shape + k.offs.sum) % 2 ^ 32)))) ∧
    (let h := i.w.handles.get {} w.s1.toNat
     (h.ready = true → Makes s (.hcancel w) i s.x 8) ∧
     ∀ o, h.ready = false → NoneToStart s → s.x.mxs.find? (fun o => decide (o.id = h.op)) = some o → o.begun = false → o.held = [] →
      (∀ p ∈ s.x.nms, p.2.op ≠ h.op) → s.x.colls.find? h.op = none →
      ∃ t, Machine.exec (.hcancel w) s = .next t ∧ t.trust = s.trust ∧ t.mem = s.mem ∧ Performed s t o ∧
        ((t.x.wave? i.u).map fun v => ((v.handles.get {} w.s1.toNat).ready, (v.handles.get {} w.s1.toNat).all)) =
          some (true, BitVec.ofNat 32 (3 * 2 ^ 28 + if o.major = 0x1cc then (ScanBlk.ofBytes
            (((s.x.teams.find? o.team).map fun m => m.bytes (word o.words 0) 128).getD [])).next % 2 ^ 20 else 0)))) ∧
  ∀ (s : State) (n : Nat),
    (∀ q ∈ s.x.physTiles n, ∀ m, s.x.teams.find? q.1 = some m → m.tile q.2.1 = q.2.2 → s.mem.reqs = [] →
      let free (r : Nat × Nat × Tile) : Prop := ∀ o ∈ s.x.mxOn n, ¬ (o.team = r.1 ∧ o.uses r.2.1 = true)
      let marked (j : Nat) : Prop := q.2.2.mark = some j ∧ free q ∧
        ∀ r ∈ s.x.physTiles n, ∀ k, r.2.2.mark = some k → free r → r ≠ q → j < k
      let oldest : Prop := (∀ r ∈ s.x.physTiles n, r.2.2.mark ≠ none → ¬ free r) ∧ q.2.2.mark = none ∧ s.x.tileBusy q.1 q.2.1 = false ∧
        ∀ r ∈ s.x.physTiles n, r.2.2.mark = none → s.x.tileBusy r.1 r.2.1 = false → r ≠ q → q.2.2.lru < r.2.2.lru
      ((∃ j, marked j) ∨ oldest) → ∃ t, Machine.exec (.tileDisplace n) s = .next t ∧ t.trust = s.trust ∧ t.x.waves = s.x.waves ∧
        (t.x.teams.find? q.1).map (fun m => m.tile q.2.1) = some { q.2.2 with phys := false, mark := none, imaged := true } ∧
        (∀ k j, ¬ (k = q.1 ∧ j = q.2.1) → (t.x.teams.find? k).map (fun m => m.tile j) = (s.x.teams.find? k).map fun m => m.tile j) ∧
        let l := s.tileAt m q.2.1
        (∀ a, (∀ p ∈ l, a / 32 ≠ p.sec) → t.mem.dev.get 0 a = s.mem.dev.get 0 a) ∧
        ∀ j p, (l.map Loc.sec).Nodup → l[j]? = some p → p.key ≠ 0 → t.mem.sector p.key p.sec = (q.2.2.image.drop (32 * j)).take 32) ∧
    (s.x.mxHead n = none → ∃ t, Machine.exec (.engineIdle n) s = .next t ∧ t.trust = s.trust ∧ t.mem = s.mem ∧
      t.x = s.x.modCore n fun c => { c with idle := true }) ∧
    ∀ wait : List Nat, (s.x.cores.map (·.1)).Nodup →
      (∀ c, c ∈ wait ↔ dieOf c = n ∧ ((s.x.cores.find? c).bind Core.waitS).isSome = true) →
      let since (c : Nat) : Nat := ((s.x.cores.find? c).bind Core.waitS).getD 0
      wait.Pairwise (fun a b => since a < since b ∨ since a = since b ∧ s.logCore a < s.logCore b) →
      ∃ t, Machine.exec (.engineStartStage n) s = .next t ∧ t.trust = s.trust ∧ t.mem = s.mem ∧
        (wait = [] → t.x = { s.x with stages := s.x.stages.erase n }) ∧
        (wait ≠ [] → t.x.stages.find? n = some (min 20 wait.length) ∧
          (∀ c ∈ wait.take 20, (t.x.cores.get {} c).idle = false ∧ (t.x.cores.get {} c).waitS = none) ∧
          ∀ c, c ∉ wait.take 20 → t.x.cores.find? c = s.x.cores.find? c)

/-! ## Code caches and the caches of data -/

/-- R231, R363, R369, R370: ICINV of a range within its record takes the lines it meets out of its context's instruction caches
that its scope covers, and leaves the others; FETCHB waits for nothing when the wave has no write on its way, and brings
its range to the L1I, a line that the atoll's middle cache holds from there; a fill that arrives is in the L1I and lets the waves
that fetch it go on; the translation of a Pyratha run is kept by its die, which keeps at most 16 MiB of a context's, the least
recently used giving way. That a translation is as long as its run, and that what reads no line that is missing waits for
nothing, are the model's choice (log entries 58 and 39). -/
def Sys2Proof.Claim.CodeCaches : Prop :=
  (∀ (s : State) (i : Iss) (w : OwnI) (f : Nat), Uniform s i w.h f →
    let r := s.x.bufRec i.w (w.s1.toNat % 16)
    let va := r.base + (s.x.readW i.u w.s2.toNat).toNat
    let n := (s.x.readW i.u w.s3.toNat).toNat
    let core := s.x.coreOf i.w
    let ctx := s.x.ctxOf i.w
    let scope := w.m.toNat / 256 % 8
    let met (l : ILine) : Prop := l.ctx = ctx ∧ va / 128 ≤ l.line ∧ l.line ≤ (va + n - 1) / 128
    r.refusal false true .code = none → (s.x.readW i.u w.s2.toNat).toNat + n ≤ r.extent → n ≠ 0 →
    (∃ t, Machine.exec (.icinv w) s = .next t ∧ t.trust = s.trust ∧ Past s.x t.x i (fun _ => (i.pc + 8) % 2 ^ 48) ∧
      { t.mem with icache := s.mem.icache, ptrans := s.mem.ptrans } = s.mem ∧
      (∀ l ∈ s.mem.icache, ¬ met l → l ∈ t.mem.icache) ∧
      (∀ l ∈ t.mem.icache, met l → scope < 5 ∧ l ∈ s.mem.icache ∧
        ¬ (l.level = 1 ∧ l.unit / 8 = core / 8) ∧ ¬ (l.level = 0 ∧ l.unit / 32 = core / 8) ∧ ¬ (l.level = 2 ∧ l.unit = core / 8)) ∧
      (∀ q ∈ t.mem.ptrans, q.ctx = ctx → 5 ≤ scope ∨ q.die = dieOf core → va + n ≤ q.pc ∨ q.pc + q.len ≤ va) ∧
      ∀ q ∈ s.mem.ptrans, q.ctx ≠ ctx ∨ va + n ≤ q.pc ∨ q.pc + q.len ≤ va → q ∈ t.mem.ptrans) ∧
    (i.w.log = [] → i.w.staged = [] → ∃ t, Machine.exec (.fetchb w) s = .next t ∧ t.trust = s.trust ∧
      Moved s.x t.x i (fun _ => (i.pc + 8) % 2 ^ 48) ∧
      (scope < 4 → (∀ l, va / 128 ≤ l → l ≤ (va + n - 1) / 128 → (s.mem.iFind 1 core ctx l).isSome = true) → t.mem = s.mem) ∧
      (scope < 4 → (va + n - 1) / 128 = va / 128 → s.mem.iFind 1 core ctx (va / 128) = none →
        (∀ d, s.mem.iFind 2 (core / 8) ctx (va / 128) = none → (s.readLine core ctx (va / 128) false).2 = .got d 0 →
          (t.mem.iFind 1 core ctx (va / 128)).map ILine.data = some d) ∧
        ∀ l, s.mem.iFind 2 (core / 8) ctx (va / 128) = some l →
          { t.mem with icache := s.mem.icache } = s.mem ∧ (t.mem.iFind 1 core ctx (va / 128)).map ILine.data = some l.data))) ∧
  (∀ (s : State) (core ctx line : Nat) (d : List Byte), s.x.fetchers core ctx line ≠ [] →
    (∀ p ∈ s.x.fetchers core ctx line, s.x.wave? p.1 = some p.2 ∧ p.2.passing = none) →
    (s.readLine core ctx line).2 = .got d 0 → ∃ t, Machine.exec (.fetchFill core ctx line) s = .next t ∧ t.trust = s.trust ∧
      (t.mem.iFind 1 core ctx line).map ILine.data = some d ∧
      (∀ p ∈ s.x.fetchers core ctx line, (t.x.wave? p.1).map Wave.hold = some none) ∧
      ∀ u f, t.x.fib u f = s.x.fib u f) ∧
  ∀ (s : State) (die ctx : Nat) (pc : BitVec 48), ∃ t e, Machine.exec (.pyrathaRunTranslation die ctx pc) s = .next t ∧
    t.trust = s.trust ∧ t.x = { s.x with fresh := s.x.fresh + 1 } ∧ { t.mem with ptrans := s.mem.ptrans } = s.mem ∧
    e.die = die ∧ e.ctx = ctx ∧ e.pc = pc.toNat ∧ 8 ≤ e.len ∧ e.len ≤ 192 ∧
    (∀ q ∈ t.mem.ptrans, q ∈ s.mem.ptrans ∨ q = e) ∧
    (∀ q ∈ s.mem.ptrans, ¬ (q.die = die ∧ q.ctx = ctx) → q ∈ t.mem.ptrans) ∧
    let kept (m : MemSys) : Nat := ((m.ptrans.filter fun q => decide (q.die = die ∧ q.ctx = ctx)).map PTrans.len).sum
    (kept s.mem ≤ 2 ^ 24 → (∀ q ∈ s.mem.ptrans, 8 ≤ q.len) → kept t.mem ≤ 2 ^ 24) ∧
    (kept s.mem + 192 ≤ 2 ^ 24 → e ∈ t.mem.ptrans ∧
      ∀ q ∈ s.mem.ptrans, ¬ (q.die = die ∧ q.ctx = ctx ∧ q.pc = pc.toNat) → q ∈ t.mem.ptrans)

/-- R59, R71, R74, R81, R82, R85, R87: a timeout writes a dirty sector back; the home slice performs the oldest request of a
square; a turn takes its new axis; a remote-data cache keeps a filling sector, loses a valid one to an invalidation, and
its acknowledgement clears the die's bit; a square migrates to its candidate's near slice, where both
slices have room for it, and returns. -/
def Sys2Proof.Claim.CacheEvents : Prop :=
  (∀ (s : State) (core sec : Nat), ∃ t, Machine.exec (.l1WritebackTimeout core sec) s = .next t ∧ t.trust = s.trust ∧
    t.x.waves = s.x.waves ∧ t.mem.dev = s.mem.dev ∧ (∀ c ∈ t.mem.l1, c.core = core → c.sec = sec → c.dirty = 0) ∧
    ∀ c, s.mem.l1.filter (fun c => decide (c.core = core) && decide (c.sec = sec)) = [c] →
      (c.dirty = 0 → t.mem = s.mem) ∧
      (c.dirty ≠ 0 → ∃ r : Req, t.mem.reqs = s.mem.reqs ++ [r] ∧ r.loc = c.loc ∧ r.sq = sec / 32 ∧ r.mask = c.dirty ∧
        r.data = c.data ∧ r.tok = core + 1)) ∧
  (∀ (s : State) (q : Nat), (∀ r ∈ s.mem.reqs, r.sq ≠ q) → Machine.exec (.homeSliceRequest q) s = .next s) ∧
  (∀ (s : State) (q : Nat) (r : Req), s.mem.reqs.find? (fun r => decide (r.sq = q)) = some r → r.loc.key ≠ 0 → r.data.length = 32 →
    ∃ t, Machine.exec (.homeSliceRequest q) s = .next t ∧ t.trust = s.trust ∧ t.x.waves = s.x.waves ∧
      t.mem.reqs = s.mem.reqs.filter (fun p => !decide (p.id = r.id)) ∧
      t.mem.sector r.loc.key r.loc.sec = mergeBytes r.mask (s.mem.sector r.loc.key r.loc.sec) r.data ∧
      ∀ a, a / 32 ≠ r.loc.sec → t.mem.dev.get 0 a = s.mem.dev.get 0 a) ∧
  (∀ (s : State) (n : Nat) (q : Sq), s.mem.sqs.find? n = some q → ∃ t, Machine.exec (.squareTurn n) s = .next t ∧
    t.trust = s.trust ∧ t.x = s.x ∧ { t.mem with sqs := s.mem.sqs } = s.mem ∧
    (q.turning = true → t.mem.sqs.find? n = some { q with orient := q.tcol, width := q.twid, turning := false, turn := 0 }) ∧
    (q.turning = false → t.mem.sqs.find? n = some q) ∧ ∀ k, k ≠ n → t.mem.sqs.find? k = s.mem.sqs.find? k) ∧
  (∀ (s : State) (die sec : Nat), ∃ t, Machine.exec (.rdcFillArrival die sec) s = .next t ∧ t.trust = s.trust ∧ t.x = s.x ∧
    { t.mem with rdc := s.mem.rdc } = s.mem ∧
    ∀ r, r ∈ t.mem.rdc ↔ ∃ q ∈ s.mem.rdc, (¬ (q.die = die ∧ q.sec = sec) ∧ r = q) ∨
      (q.die = die ∧ q.sec = sec ∧ (q.valid = true ∨ q.drop = false) ∧ r = { q with valid := true })) ∧
  (∀ (s : State) (die sec : Nat) (v : Inval), v ∈ s.mem.invals → v.die = die → v.sec = sec →
    (v.ack = false → ∃ t, Machine.exec (.rdcInvalidation die sec) s = .next t ∧ t.trust = s.trust ∧
      t.x = s.x.post 1 (.invalidationAck die sec) ∧
      (∀ r ∈ t.mem.rdc, r.die = die → r.sec = sec → r.valid = false ∧ r.drop = true) ∧
      ∀ k ∈ t.mem.invals, k.die = die → k.sec = sec → k.ack = true) ∧
    (v.ack = true → ∃ t, Machine.exec (.invalidationAck die sec) s = .next t ∧ t.trust = s.trust ∧ t.x = s.x ∧
      t.mem.rdc = s.mem.rdc ∧ (∀ k ∈ t.mem.invals, ¬ (k.die = die ∧ k.sec = sec ∧ k.ack = true)) ∧
      ∀ q, s.mem.sqs.find? (sec / 32) = some q →
        let left := s.mem.rdc.any fun r => decide (r.die = die ∧ r.sec / 32 = sec / 32)
        let bits := bitSet q.sharers (sharerBit (sec / 2 ^ 33) die) false
        t.mem.sqs.find? (sec / 32) = some { q with sharers := if left then q.sharers else bits })) ∧
  ∀ (s : State) (n : Nat) (q : Sq), s.mem.sqs.find? n = some q → (∀ r ∈ s.mem.reqs, r.sq ≠ n) →
    (∀ p ∈ s.mem.sqs, p.2.id = p.1 ∧ (p.1 = n → p.2 = q)) →
    let on (slice : Nat) : Nat := (s.mem.sqs.filter fun p => decide (p.2.holder = slice)).length
    let ways (slice : Nat) : Nat := (s.mem.cways.filter fun c => decide (c.slice = slice)).length
    (q.holder ≠ sliceOf n → on (sliceOf n) < 16 → ∃ t, Machine.exec (.tidalReturn n) s = .next t ∧ t.trust = s.trust ∧ t.x = s.x ∧
      t.mem.dev = s.mem.dev ∧ t.mem.sqs.find? n = some { q with holder := sliceOf n } ∧ (∀ c ∈ t.mem.cways, c.sq ≠ n) ∧
      (∀ c ∈ t.mem.hints, c.sq ≠ n) ∧ ∀ k ∈ t.mem.tracks, k.sq ≠ n) ∧
    (q.holder = sliceOf n → Machine.exec (.tidalReturn n) s = .next s) ∧
    ∀ k a, s.mem.tracks.find? (fun k => decide (k.slice = sliceOf n ∧ k.sq = n)) = some k → k.atoll = some a →
      q.holder = sliceOf n → s.nearSlice a ≠ sliceOf n → q.turning = false → q.hold = false →
      ways (sliceOf n) < 1024 → ways (s.nearSlice a) < 1024 → on (s.nearSlice a) < 16 →
      ∃ t, Machine.exec (.tidalMigration n) s = .next t ∧ t.trust = s.trust ∧ t.mem.dev = s.mem.dev ∧
        t.mem.sqs.find? n = some { q with holder := s.nearSlice a } ∧ (∃ c ∈ t.mem.cways, c = ⟨sliceOf n, n, s.nearSlice a⟩) ∧
        ∀ k ∈ t.mem.tracks, k.sq ≠ n

/-- `CodeCaches` And: `CacheEvents`. -/
def Obligations.CacheSteps : Prop := CodeCaches ∧ CacheEvents

/-! ## Steps of the device: waves, rounds and the fabric -/

/-- A device step that only executes answers a state with y. -/
def Sys2Proof.Claim.Does (s : State) (n : Instr) (y : Exec) : Prop :=
  ∃ t, Machine.exec n s = .next t ∧ t.trust = s.trust ∧ t.mem = s.mem ∧ t.x = y

/-- R156, R167, R330, R336, R410: an asynchronous trap masks its fibre at the PC of its next instruction; a ripe wave asks for
a free handler slot; the slot's winner, of the highest priority and then the longest eligible, begins a run at its lowest
Ready PC; a hang sets its status bit and is reported; a missing register line that a run waits for comes to its core and is waited for
no more, and the slots of the poisoned or uncorrectable sectors it is read from are poisoned. Where a window's lines stand in the
context image, and that only a line once written there is read from it, are the model's choice (log entries 48 and 75). -/
def Sys2Proof.Claim.WaveEvents : Prop :=
  (∀ (s : State) (u f : Nat) (a : Trap), (∀ g, (s.x.fib u g).wins = []) →
    (s.x.waves.flatMap fun p => p.2.asyncNow.map fun q => (p.1, q)) = [(u, f, a)] → (s.x.fib u f).async.head? = some a →
    ∃ t r, Machine.exec .asyncTrap s = .next t ∧ t.trust = s.trust ∧ t.mem = s.mem ∧ r.cause = a.cause ∧ r.ipc = a.ipc ∧
      r.pc = (s.x.fib u f).pc ∧ r.served = a.served ∧
      t.x.fib u f = { s.x.fib u f with st := .masked, async := (s.x.fib u f).async.drop 1, trap := some r } ∧
      (∀ v g, ¬ (v = u ∧ g = f) → t.x.fib v g = s.x.fib v g) ∧ ∀ v g k, t.x.slotReg v g k = s.x.slotReg v g k) ∧
  (∀ (s : State) (u h : Nat) (v : Wave), s.x.wave? u = some v → s.x.freeHandler (s.x.coreOf v) = some h →
    Does s (.waveRipens u) (if v.isRipe then s.x.post 0 (.handlerDispatch (s.x.coreOf v) h) else s.x)) ∧
  (∀ (s : State) (core quad u : Nat) (w : Wave), s.x.cur = none → (u, w) ∈ s.x.waves → s.x.eligible w = true →
    s.x.quadOf w = 4 * core + quad → w.resumed = false →
    let prio (w : Wave) : Nat := (s.x.teamOf w).elim 0 Team.prio
    (∀ p ∈ s.x.waves, prio p.2 ≤ 11 ∧ p.2.stamp < 2 ^ 64) →
    (∀ p ∈ s.x.waves, p ≠ (u, w) → s.x.eligible p.2 = true → s.x.quadOf p.2 = 4 * core + quad →
      prio p.2 < prio w ∨ (prio p.2 = prio w ∧ w.stamp < p.2.stamp)) →
    (∀ l ∈ s.x.linesOf u w (List.range 256), s.x.hasLine core l = true) →
    ∃ t c, Machine.exec (.runArbitration core quad) s = .next t ∧ t.trust = s.trust ∧ t.mem = s.mem ∧
      { t.x with cores := s.x.cores } = { s.x with cur := some c, rr := 4 * core + quad + 1, fresh := s.x.fresh + 1 } ∧
      c.wave = u ∧ c.count = 0 ∧ c.again = false ∧ c.fmts = (s.x.teamOf w).elim [] Team.fmts ∧
      (∃ p ∈ w.fibs, p.2.st = .ready ∧ p.2.pc = c.pc) ∧ ∀ p ∈ w.fibs, p.2.st = .ready → c.pc ≤ p.2.pc) ∧
  (∀ (s : State) (core quad : Nat), (∀ p ∈ s.x.waves, s.x.eligible p.2 = true → s.x.quadOf p.2 ≠ 4 * core + quad) →
    Does s (.runArbitration core quad) s.x) ∧
  (∀ (s : State) (u : Nat) (v : Wave), s.x.wave? u = some v →
    (v.hang < 2 ^ 20 → Does s (.hangDetect u) s.x) ∧
    (2 ^ 20 ≤ v.hang → ∃ t e, Machine.exec (.hangDetect u) s = .next t ∧ t.trust = s.trust ∧ t.mem = s.mem ∧
      t.x.errq = s.x.errq ++ [e] ∧ e.type = 5 ∧ e.unit = s.x.coreOf v ∧ e.ctx = s.x.ctxOf v ∧
      (t.x.wave? u).map Wave.hang = some 0 ∧
      ∀ m, s.x.teams.find? v.team = some m → (t.x.teams.find? v.team) = some { m with status := m.status ||| 8 })) ∧
  ∀ (s : State) (core u k : Nat) (v : Wave), s.x.wave? u = some v →
    ((∀ p ∈ s.x.waves, s.x.coreOf p.2 = core → (u, k) ∉ p.2.lines) → Does s (.registerLineFill core u k) s.x) ∧
    ∀ p ∈ s.x.waves, s.x.coreOf p.2 = core → (u, k) ∈ p.2.lines → s.x.lineElsewhere core (u, k) = [] →
      (s.x.regLines core).length < 2048 → s.mem.reqs = [] → (∀ r ∈ s.mem.rdc, r.die ≠ dieOf core) →
      ∃ t v', Machine.exec (.registerLineFill core u k) s = .next t ∧ t.trust = s.trust ∧ t.mem.dev = s.mem.dev ∧
        t.x.hasLine core (u, k) = true ∧ (∀ q ∈ t.x.waves, (u, k) ∉ q.2.lines) ∧ t.x.wave? u = some v' ∧
        { v' with lines := v.lines, vpois := v.vpois, stamp := v.stamp } = v ∧
        (∀ n, n / 128 ≠ k → (n ∈ v'.vpois ↔ n ∈ v.vpois)) ∧
        (v.imaged.find? k = none → v'.vpois = v.vpois) ∧
        ((v.imaged.find? k).isSome = true → ∀ j a, j < 16 → a < 8 → (128 * k + (8 * j + a) ∈ v'.vpois ↔
          128 * k + (8 * j + a) ∈ v.vpois ∨ ∃ l, (s.lineAt v k)[j]? = some l ∧ (l.sec ∈ s.mem.pois ∨ l.sec ∈ s.mem.unc)))

/-- R334, R336, R337, R338: in a free slot of a core, the dispatcher starts a handler wave for the fibres of l, which it serves:
handler fibre number j stands at the handler's entry with origin number j; W0 counts them and W1 their waves. -/
def Sys2Proof.Claim.HandlerStart : Prop :=
  ∀ (s : State) (core slot t depth : Nat) (emu : Bool) (l : List (Nat × Nat)) (m : Team) (g : Grid), slot ≤ 3 →
    (∀ p ∈ s.x.handlersOn core, p.2.idx ≠ 16 + slot) → s.x.gather core = some (t, depth, emu, l) →
    s.x.teams.find? t = some m → s.x.gridOf m = some g → s.x.wave? s.x.fresh = none →
    ∃ r v, Machine.exec (.handlerDispatch core slot) s = .next r ∧ r.trust = s.trust ∧ r.mem = s.mem ∧
      r.x.wave? s.x.fresh = some v ∧ v.team = t ∧ v.idx = 16 + slot ∧ v.hold = none ∧ v.exited = false ∧
      v.handler = some ⟨depth + 1, emu, dedup (l.map Prod.fst)⟩ ∧
      v.w.get 0 0 = BitVec.ofNat 32 l.length ∧ v.w.get 0 1 = BitVec.ofNat 32 (dedup (l.map Prod.fst)).length ∧
      (∀ (j : Nat) (p : Nat × Nat), l[j]? = some p → v.fibs[j]? =
        some (j, ({ st := .ready, pc := if emu then g.word 112 8 else g.word 104 8, org := some p } : Fib))) ∧
      v.fibs.length = l.length ∧
      (∀ p ∈ l, (r.x.fib p.1 p.2).trap = (s.x.fib p.1 p.2).trap.map fun t => { t with served := true }) ∧
      ∀ u a k, u ≠ s.x.fresh → r.x.slotReg u a k = s.x.slotReg u a k

/-- `WaveEvents` And: `HandlerStart`. -/
def Obligations.WavesAndHandlers : Prop := WaveEvents ∧ HandlerStart

/-- R235, R348, R350: a wave whose count has reached its quantum closes it, and the commit is due; a round whose waves have all
closed, with nothing staged and no external event awaited, ends with the HALT it holds, or else the next round opens and
waves held for the commit go on. -/
def Obligations.Quanta : Prop :=
  (∀ (s : State) (u : Nat) (v : Wave) (m : Team) (g : Grid), s.x.wave? u = some v → s.x.teamOf v = some m → s.x.gridOf m = some g →
    g.determ = true → v.closed = false → v.handler = none →
    let n := if g.word 48 4 = 0 then 4096 else g.word 48 4
    Does s (.quantumClose u) (if n ≤ v.qcount then
      (s.x.modWave u fun w => { w with closed := true, quanta := w.quanta + 1 }).post 0 (.quantumCommit m.grid) else s.x)) ∧
  ∀ (s : State) (g : Nat) (r : Grid), s.x.grids.find? g = some r → r.determ = true → r.st = .running → s.x.roundOver g r = true →
    (∀ p ∈ s.x.waves, p.2.staged = [] ∧ p.2.atGridbar = false ∧ (∀ n, p.2.hold ≠ some (.gridbar n)) ∧
      ∀ k, p.2.hold = some (.handle k) → (p.2.handle k).ready = true) →
    (∀ a b c n, r.haltAt = some (a, b, c, n) → ∃ t, Machine.exec (.quantumCommit g) s = .next t ∧ t.trust = s.trust ∧ t.mem = s.mem ∧
      (t.x.grids.find? g).map Grid.st = some (if n < 2 ^ 16 then .halted n else .faulted)) ∧
    (r.haltAt = none → s.mem.reqs = [] → s.x.colls = [] ∨ s.x.gridWaves g ≠ [] → ∃ t, Machine.exec (.quantumCommit g) s = .next t ∧ t.trust = s.trust ∧
      t.mem.dev = s.mem.dev ∧ (t.x.grids.find? g).map Grid.round = some (r.round + 1) ∧
      ∀ u v, s.x.wave? u = some v → (u, v) ∈ s.x.gridWaves g → v.hold = some .commit → v.passing = none →
        (∃ p ∈ v.fibs, p.2.isReady = true) →
        (t.x.wave? u).map (fun w => (w.hold, w.closed, w.qcount)) = some (none, false, 0))

/-- The rows of the opcode table that are flits. -/
noncomputable def Sys2Proof.Claim.flits (f : Flit) : List Instr :=
  [.messageFlit f, .contributionFlit f, .partialFlit f, .retireFlit f, .gangStartToken f, .gangStopToken f, .linkControlFlit f,
   .idleFlit f, .discardedFlitType f]

/-- y is x with a port that has taken a flit in sequence: its failures are over, its sequence counts, and it keeps the
acknowledgement and the credits. -/
def Sys2Proof.Claim.Took (x y : Exec) (f : Flit) : Prop :=
  y.port f.port = { x.port f.port with fails := 0, rxSeq := ((x.port f.port).rxSeq + 1) % 2 ^ 32, acked := f.ack.toNat
                                       credit := f.credits.toNat } ∧
  ∀ p, p ≠ f.port → y.port p = x.port p

/-- R331, R333, R353, R360: a flit that fails its check is not taken, and the sixteenth in a row takes the link down with an
error entry; one on a link that is down has no effect, and one out of sequence none beyond its acknowledgement, which ends the replay
of the flits it covers; one in sequence for another rank goes on at the port of its route, under that link's next sequence
number and with a check of its own, or waits at a module without a route for it; one for this module acts by its type: a message's bytes are put
together, a contribution's or a partial's are kept, a completion is noted at position 0, a retired instance is forgotten,
a gang starts and stops, a discarded type is counted, and link control and idle flits do nothing more. The sequence a link begins with, the start and the byte order of the check, and the layout of the flits' headers are the
model's choice (log entries 17 to 19, 23). -/
def Obligations.FabricFlits : Prop :=
  (∀ (s : State) (f : Flit), ∀ p ∈ flits f,
    let q := s.x.port f.port
    (f.ok = false → ∃ t, Machine.exec p s = .next t ∧ t.trust = s.trust ∧ t.mem = s.mem ∧
      t.x.port f.port = { q with fails := q.fails + 1, down := q.down || decide (q.fails = 15) } ∧
      (∀ k, k ≠ f.port → t.x.port k = s.x.port k) ∧
      t.x.errq = s.x.errq ++ (if q.fails = 15 then [{ type := 4, die := f.port / 8, unit := f.port }] else []) ∧
      { t.x with ports := s.x.ports, errq := s.x.errq } = s.x) ∧
    (f.ok = true → q.down = true → Does s p s.x) ∧
    (f.ok = true → q.down = false → f.seq.toNat ≠ q.rxSeq → s.x.txq = [] → (∀ r ∈ q.replay, s.x.outs.find? r.1 = none) →
      ∃ t, Machine.exec p s = .next t ∧ t.trust = s.trust ∧ t.mem = s.mem ∧ (∀ k, k ≠ f.port → t.x.port k = s.x.port k) ∧
        { t.x with ports := s.x.ports } = s.x ∧ t.x.port f.port = { q with
          fails := 0, acked := f.ack.toNat, credit := f.credits.toNat
          replay := q.replay.filter fun r => decide (2 ^ 31 ≤ (f.ack.toNat + 2 ^ 32 - r.2.seq.toNat) % 2 ^ 32) }) ∧
    (f.ok = true → q.down = false → q.replay = [] → s.x.txq = [] → f.seq.toNat = q.rxSeq → f.dst ≠ s.x.rank →
      f.type.toNat ∈ [1, 2, 3, 4, 5] → ∀ k, s.x.routes.get 255 f.dst = k → k ≠ f.port → s.portUp k = true →
      (s.x.port k).replay.length < 256 → ∃ t g, Machine.exec p s = .next t ∧ t.trust = s.trust ∧ t.mem = s.mem ∧
        { t.x with ports := s.x.ports } = s.x ∧ (∀ j, j ≠ f.port → j ≠ k → t.x.port j = s.x.port j) ∧
        t.x.port f.port = { q with fails := 0, rxSeq := (q.rxSeq + 1) % 2 ^ 32, acked := f.ack.toNat, credit := f.credits.toNat } ∧
        t.x.port k = { s.x.port k with
          txSeq := ((s.x.port k).txSeq + 1) % 2 ^ 32, replay := (s.x.port k).replay ++ [(0, g)] } ∧
        g.ok = true ∧ g.port = k ∧ g.seq = BitVec.ofNat 32 (s.x.port k).txSeq ∧
        { g with port := f.port, check := f.check, seq := f.seq, ack := f.ack } = f) ∧
    (f.ok = true → q.down = false → q.replay = [] → s.x.txq = [] → f.seq.toNat = q.rxSeq → f.dst ≠ s.x.rank →
      f.type.toNat ∈ [1, 2, 3, 4, 5] → s.x.routes.get 255 f.dst = 255 →
      ∃ t, Machine.exec p s = .next t ∧ t.trust = s.trust ∧ t.mem = s.mem ∧ Took s.x t.x f ∧ t.x.txq = [(0, f)] ∧
        t.x.errq = s.x.errq ++ [{ type := 4, unit := 255, detail := f.dst }])) ∧
  ∀ (s : State) (f : Flit), f.ok = true → (s.x.port f.port).down = false → (s.x.port f.port).replay = [] → s.x.txq = [] →
    f.seq.toNat = (s.x.port f.port).rxSeq → f.dst = s.x.rank →
    let h := f.hdr.toNat
    let bytes := f.payload.take f.len
    let takes (n : Instr) (q : Exec → Prop) : Prop := ∃ t, Machine.exec n s = .next t ∧ t.trust = s.trust ∧ t.mem = s.mem ∧
      Took s.x t.x f ∧ q t.x
    let same (y : Exec) : Prop := { y with ports := s.x.ports } = s.x
    takes (.linkControlFlit f) same ∧ takes (.idleFlit f) same ∧
    takes (.discardedFlitType f) (fun y => y.errq = s.x.errq ++ [{ type := 9, die := f.port / 8, unit := f.port, detail := f.type.toNat }] ∧
      { y with ports := s.x.ports, errq := s.x.errq } = s.x) ∧
    (bitsOf h 64 32 = 0 → (∀ m ∈ s.x.msgs, m.id ≠ s.x.fresh ∧ (m.local_ = false → m.data ≠ [])) →
      (bytes.length < bitsOf h 96 32 → takes (.messageFlit f) fun y =>
        y.msgs = s.x.msgs ++ [{ id := s.x.fresh, local_ := false, rank := f.src, team := 0, grid := 0, dteam := bitsOf h 0 32
                                tag := bitsOf h 32 16, data := bytes, pois := 0, total := bitsOf h 96 32 }]) ∧
      (bitsOf h 96 32 ≤ bytes.length → takes (.messageFlit f) fun y =>
        y.msgs = s.x.msgs ++ [{ id := s.x.fresh, local_ := false, rank := leNat (bytes.take 4), team := leNat ((bytes.drop 4).take 4)
                                grid := s.x.gridWithTeam (bitsOf h 0 32), dteam := bitsOf h 0 32, tag := bitsOf h 32 16
                                data := bytes.drop 16, pois := 0, total := bitsOf h 96 32 - 16 }])) ∧
    ((∀ p ∈ s.x.colls, ¬ (p.2.group = bitsOf h 0 32 ∧ p.2.inst = bitsOf h 32 32)) → bitsOf h 64 64 = 0 →
      (s.x.collInOf (bitsOf h 0 32) (bitsOf h 32 32) f.src).parts = [] →
      ∀ n ∈ ([.contributionFlit f, .partialFlit f] : List Instr), takes n fun y =>
        y.collInOf (bitsOf h 0 32) (bitsOf h 32 32) f.src =
          { s.x.collInOf (bitsOf h 0 32) (bitsOf h 32 32) f.src with parts := [(0, bytes)] }) ∧
    (((s.x.groups.find? (bitsOf h 0 32)).elim [] CollGroup.members).head? = some s.x.rank → takes (.retireFlit f) fun y =>
      (y.collInOf (bitsOf h 0 32) (bitsOf h 32 32) f.src).fin = true) ∧
    (((s.x.groups.find? (bitsOf h 0 32)).elim [] CollGroup.members).head? ≠ some s.x.rank → takes (.retireFlit f) fun y =>
      (∀ d ∈ y.collIn, ¬ (d.group = bitsOf h 0 32 ∧ d.inst = bitsOf h 32 32)) ∧
      ∀ p ∈ y.colls, ¬ (p.2.group = bitsOf h 0 32 ∧ p.2.inst = bitsOf h 32 32 ∧ p.2.done = true)) ∧
    ((∀ p ∈ s.x.teams, p.2.saving = []) → s.x.colls = [] → takes (.gangStartToken f) fun y =>
      bitsOf h 0 32 ∈ y.gangs ∧ { y with ports := s.x.ports, gangs := s.x.gangs } = s.x.post 0 .teamPlacement) ∧
    takes (.gangStopToken f) fun y => bitsOf h 0 32 ∉ y.gangs ∧
      ∀ k m g, s.x.teams.find? k = some m → m.st = .resident → s.x.grids.find? m.grid = some g → bitOf (g.byte 45) 2 = true →
        g.word 60 4 = bitsOf h 0 32 →
        (y.teams.find? k).map (fun m => (m.st, m.saving)) =
          some (.queued true, List.range ((g.word 36 4 + 1023) / 1024 * 1024 / 1024))

/-! ## Paging -/

/-- Nothing of the module but accesses of waves waits for a verdict. -/
def Sys2Proof.Claim.Calm (s : State) : Prop :=
  s.x.copies = [] ∧ s.x.nms = [] ∧ s.x.colls = [] ∧ s.x.mxs = [] ∧ ∀ p ∈ s.x.waves, p.2.log = [] ∧ p.2.staged = []

/-- R36, R42, R43, R50: a retry starts a walker for the record's granule, or joins the record to the one that walks it; a fail
refuses the load that waits: its registers become zero, its fibre traps XLATE and its wave goes on; a response that names
no pending record is counted. A walker that is not granted waits; one that finds a match resolves its records; one that
finds none posts its record again under the next sequence number. How walkers are granted and shared, that a record answered with retry is
pending until its walker returns, and what a dropped response's entry holds, are the model's choice (log entries 54, 77 and 20). -/
def Sys2Proof.Claim.FaultVerdicts : Prop :=
  (∀ (s : State) (c : Nat) (seq : BitVec 32),
    (s.x.recordOf c seq.toNat = none → ∀ n ∈ ([.faultRetry c seq, .faultFail c seq] : List Instr), ∃ t, Machine.exec n s = .next t ∧
      t.trust = s.trust ∧ t.mem = s.mem ∧ { t.x with errq := s.x.errq } = s.x ∧ ∃ e, t.x.errq = s.x.errq ++ [e] ∧ e.type = 9) ∧
    ∀ r k, s.x.recordOf c seq.toNat = some r → s.x.ctxs.find? c = some k →
      ((∀ w ∈ s.mem.walks, ¬ (w.ctx = c ∧ w.granule = r.granule)) → ∃ t w, Machine.exec (.faultRetry c seq) s = .next t ∧
        t.trust = s.trust ∧ t.mem = { s.mem with walks := s.mem.walks ++ [w] } ∧ w.ctx = c ∧ w.granule = r.granule ∧
        w.write = r.write ∧ w.descs = k.tables ∧ w.recs = [r.id] ∧ t.x.waves = s.x.waves ∧ t.x.ctxs = s.x.ctxs) ∧
      (∀ w ∈ s.mem.walks, (∀ v ∈ s.mem.walks, v.die = dieOf r.core ∧ v.ctx = c ∧ v.granule = r.granule ↔ v = w) →
        (∀ v ∈ s.mem.walks, v.id = w.id → v = w) →
        ∃ t, Machine.exec (.faultRetry c seq) s = .next t ∧ t.trust = s.trust ∧ t.x.waves = s.x.waves ∧ t.x.ctxs = s.x.ctxs ∧
          t.mem = { s.mem with walks := s.mem.walks.map fun v =>
            if v = w then { w with recs := if r.id ∈ w.recs then w.recs else w.recs ++ [r.id] } else v }) ∧
      ∀ u v a l, Calm s → s.x.wave? u = some v → v.passing = none → v.pend = [a] → a.frec = r.id → a.kind = 0 → a.wdst = false →
        v.hold = some (.fault l) → (s.x.fib u a.slot).wins = [] → (∀ p ∈ s.x.waves, p.1 ≠ u → p.2.pend = []) →
        ∃ t b, Machine.exec (.faultFail c seq) s = .next t ∧ t.trust = s.trust ∧ t.mem = s.mem ∧
          (t.x.fib u a.slot).st = .masked ∧ (t.x.fib u a.slot).trap = some b ∧ b.cause = 8 ∧ b.pc = a.pc ∧ b.len = a.len ∧
          (∀ p ∈ a.zeros, t.x.readV u a.slot p.1 = 0) ∧
          (t.x.wave? u).map (fun v => (v.hold, v.pend)) = some (none, []) ∧
          (t.x.ctxs.find? c).map Ctx.faults = some (k.faults.filter fun q => !decide (q.id = r.id))) ∧
  ∀ (s : State) (n : Nat) (w : Walker) (k : Ctx), s.mem.walks.find? (fun w => decide (w.id = n)) = some w →
    s.x.ctxs.find? w.ctx = some k →
    (s.mem.granted w = false → ∃ t, Machine.exec (.translationProbeReturn n) s = .next t ∧ t.trust = s.trust ∧ t.mem = s.mem ∧
      t.x = s.x.post 1 (.translationProbeReturn n)) ∧
    (s.mem.granted w = true →
      (∀ z a e id, s.probe w.ctx (65536 * w.granule) w.descs = .hit z a e → w.recs = [id] → Calm s →
        (∀ p ∈ s.x.waves, p.2.pend = []) → ∃ t, Machine.exec (.translationProbeReturn n) s = .next t ∧ t.trust = s.trust ∧
          t.mem = { s.mem with walks := s.mem.walks.filter fun v => !decide (v.id = n) } ∧ t.x.waves = s.x.waves ∧
          (t.x.ctxs.find? w.ctx).map Ctx.faults = some (k.faults.filter fun q => !decide (q.id = id))) ∧
      ∀ r base, s.probe w.ctx (65536 * w.granule) w.descs = .absent → k.tables = w.descs → w.recs = [r.id] →
        k.faults.filter (fun q => decide (q.id = r.id)) = [r] → (∀ q ∈ k.faults, q.posted = true) → k.fqBase = some base →
        (k.fqSeq + 2 ^ 32 - k.fqCons) % 2 ^ 32 < k.fqSize → ∃ t, Machine.exec (.translationProbeReturn n) s = .next t ∧
          t.trust = s.trust ∧ t.x.waves = s.x.waves ∧ (∀ v ∈ t.mem.walks, v.id ≠ n) ∧
          (t.x.ctxs.find? w.ctx).map (fun k => (k.faults, k.fqSeq)) =
            some (k.faults.filter (fun q => !decide (q.id = r.id)) ++ [{ r with seq := k.fqSeq % 2 ^ 32, walk := false }],
              (k.fqSeq + 1) % 2 ^ 32))

/-- R29, R36, R39, R41, R44, R46, R65, R396: the only entry of a wave's side log, a store at a scope narrower than `.die` whose
sector the core's L1 holds, is performed there; a read of host memory returns its bytes and its wave goes on; the migration
pointer only rises within its table; consumer registers take an index of 32 bits, and the dispatcher looks again at each of these
writes. What a dropped access's entry holds, and that posted records outlive a new fault queue, are the model's choice (log entries 20
and 77). -/
def Sys2Proof.Claim.PagingEvents : Prop :=
  (∀ (s : State) (u : Nat) (v : Wave) (e : LogEnt) (l : Loc) (d : List Byte), s.x.wave? u = some v → v.log = [e] → e.held = none →
    e.kind = 0 → e.scope < 4 → Reaches s (s.x.who v) { write := true } e.va l → Cached s (s.x.coreOf v) l d →
    ∃ t n, Machine.exec (.sideLogReplay u) s = .next t ∧ t.trust = s.trust ∧ t.mem.dev = s.mem.dev ∧
      (t.x.wave? u).map (fun v => (v.log, decide (v.hold = some (.retry 3)))) = some ([], false) ∧
      t.mem.l1Find (s.x.coreOf v) l.sec l.key = some n ∧ n.data = mergeBytes e.mask d e.data ∧ n.dirty &&& e.mask = e.mask) ∧
  (∀ (s : State) (n u : Nat) (h : Nat × Nat) (v : Wave) (a : PendAcc) (pa : Nat), s.x.hostq.find? (fun h => decide (h.1 = n)) = some (n, u, h) →
    s.x.wave? u = some v → v.passing = none → v.pend = [a] → v.staged = [] → a.host = some pa → a.kind = 0 → a.wdst = false → a.fmt = 0 → a.size = 4 → a.look = 0 →
    a.scope < 4 → pa % 32 ≤ 28 → v.hold = some (.fault [0]) → ((s.x.wave? (s.x.window u a.slot).1).isSome = true) →
    ∃ t, Machine.exec (.pcieReadCompletion n) s = .next t ∧ t.trust = s.trust ∧ t.mem = s.mem ∧ (∀ h ∈ t.x.hostq, h.1 ≠ n) ∧
      t.x.readV u a.slot a.d = BitVec.ofNat 32 (leNat ((List.range 4).map fun j => s.mem.host.get 0 (pa + j))) ∧
      (t.x.wave? u).map (fun v => (v.hold, v.pend)) = some (none, [])) ∧
  (∀ (s : State) (c z : Nat) (v : BitVec 64) (k : Ctx) (d : Nat), s.x.ctxs.find? c = some k → k.tables.find? z = some d →
    v.toNat < 2 ^ 32 →
    (dResizing d = true → dMig d < v.toNat → v.toNat ≤ 2 ^ dLog d → ∃ t d', Machine.exec (.migrationDoorbell c z v) s = .next t ∧
      t.trust = s.trust ∧ t.mem = s.mem ∧ (t.x.ctxs.find? c) = some { k with tables := k.tables.insert z d' } ∧
      dMig d' = v.toNat ∧ d' % 2 ^ 128 = d % 2 ^ 128 ∧ d' / 2 ^ 160 = d / 2 ^ 160) ∧
    (dResizing d = false ∨ v.toNat ≤ dMig d ∨ 2 ^ dLog d < v.toNat →
      Does s (.migrationDoorbell c z v) ((s.x.err { type := 9, ctx := c, detail := 0x88 + 8 * z }).post 1 .launchDispatch))) ∧
  ∀ (s : State) (c : Nat) (v : BitVec 64) (k : Ctx), s.x.ctxs.find? c = some k →
    (v.toNat < 2 ^ 32 → Does s (.errorRingConsumer c v) ((s.x.modCtx c fun k => { k with errCons := v.toNat }).post 1 .launchDispatch)) ∧
    (2 ^ 32 ≤ v.toNat → Does s (.errorRingConsumer c v) (s.x.err { type := 9, ctx := c, detail := 0xa0 }) ∧
      Does s (.faultQueueConsumer c v) (s.x.err { type := 9, ctx := c, detail := 0xa8 })) ∧
    (v.toNat < 2 ^ 32 → (∀ r ∈ k.faults, r.posted = true) →
      Does s (.faultQueueConsumer c v) ((if (k.fqSeq + 2 ^ 32 - k.fqCons) % 2 ^ 32 < (v.toNat + 2 ^ 32 - k.fqCons) % 2 ^ 32 then
        s.x.err { type := 9, ctx := c, detail := 0xa8 } else s.x.modCtx c fun k => { k with fqCons := v.toNat }).post 1 .launchDispatch))

/-- `FaultVerdicts` And: `PagingEvents`. -/
def Obligations.FaultsAndPaging : Prop := FaultVerdicts ∧ PagingEvents

/-! ## Queues, launches and teams -/

/-- The only unread entry of a queue is b, which is performed, and no command of the queue waits. -/
structure Sys2Proof.Claim.Entry (s : State) (c q : Nat) (k : Queue) (b : List Byte) : Prop where
  queue : s.x.queue? c q = some k
  last  : k.tail = k.hidx + 1
  alone : k.wait = []
  bytes : b = s.mem.readPhys (k.base + 64 * (k.hidx % k.size)) 64
  fine  : cmdOk b = true
  plain : fieldAt b 1 1 = 0

/-- The memory once the device has told that it has read an entry (R319). -/
def Sys2Proof.Claim.told (s : State) (k : Queue) : MemSys := s.mem.writePhys k.head (leBytes 8 ((k.hidx + 1) % 2 ^ 32))

/-- R29, R36, R39, R41, R319, R320, R321, R331: a tail doorbell within the ring covers new entries, one past it is counted;
SETXT gives a table a descriptor that R29 takes, or a fault queue its ring; XINV takes translations, lines and runs of its
range away; LAUNCH waits for the dispatcher; PREEMPT saves the resident teams of the grid it names. Each tells that its
entry is read. What the entry of a dropped doorbell or of a refused descriptor holds is the model's choice (log entry 20). -/
def Sys2Proof.Claim.QueueCommands : Prop :=
  (∀ (s : State) (c q : Nat) (v : BitVec 64) (k : Queue), s.x.queue? c q = some k → v.toNat < 2 ^ 32 →
    let d := (v.toNat + 2 ^ 32 - k.tail % 2 ^ 32) % 2 ^ 32
    (k.size < k.tail - k.hidx + d → Does s (.queueTailDoorbell c q v)
      ((s.x.err { type := 9, ctx := c, detail := 8 * q }).post 1 .launchDispatch)) ∧
    (k.tail - k.hidx + d ≤ k.size → ∃ t, Machine.exec (.queueTailDoorbell c q v) s = .next t ∧ t.trust = s.trust ∧
      t.x.waves = s.x.waves ∧ (t.x.queue? c q).map Queue.tail = some (k.tail + d) ∧ (k.hidx < k.tail → t.mem = s.mem))) ∧
  ∀ (s : State) (c q : Nat) (k : Queue) (b : List Byte) (x : Ctx), Entry s c q k b → s.x.ctxs.find? c = some x →
    let reads (n : Instr) (y : State → Prop) : Prop := ∃ t, Machine.exec n s = .next t ∧ t.trust = s.trust ∧ t.x.waves = s.x.waves ∧
      (t.x.queue? c q).map Queue.hidx = some (k.hidx + 1) ∧ y t
    let d := fieldAt b 32 32
    (fieldAt b 0 1 = 2 → fieldAt b 8 1 < 3 → descriptorOk d = true → reads (.setxtTable c q) fun t => t.mem = told s k ∧
      (t.x.ctxs.find? c).map Ctx.tables = some (x.tables.insert (fieldAt b 8 1) d)) ∧
    (fieldAt b 0 1 = 2 → fieldAt b 8 1 < 3 → descriptorOk d = false → reads (.setxtTable c q) fun t => t.mem = told s k ∧
      (t.x.ctxs.find? c).map Ctx.tables = some x.tables ∧
      t.x.errq = s.x.errq ++ [{ type := 9, ctx := c, detail := fieldAt b 4 4 + 2 ^ 32 * q }]) ∧
    (fieldAt b 0 1 = 2 → fieldAt b 8 1 = 3 → (∀ r ∈ x.faults, r.posted = true) → reads (.setxtFaultQueue c q) fun t =>
      t.mem = (told s k).writePhys (fieldAt b 48 8) (leBytes 8 0) ∧
      (t.x.ctxs.find? c).map (fun x => (x.fqBase, x.fqSize, x.fqStat, x.fqSeq, x.fqCons)) =
        some (some (fieldAt b 32 8), fieldAt b 40 4, fieldAt b 48 8, 0, 0)) ∧
    (let va := fieldAt b 16 8
     let n := fieldAt b 24 8
     fieldAt b 0 1 = 3 → (∀ r ∈ s.mem.reqs, r.ctx ≠ c) → s.mem.invals = [] → s.xinvWaits c va n = false →
       (∀ p ∈ s.mem.sqs, p.2.holder = sliceOf p.1) → reads (.xinv c q) fun t =>
      { t.mem with tlbs := s.mem.tlbs, icache := s.mem.icache, ptrans := s.mem.ptrans } = told s k ∧
      (∀ e, e ∈ t.mem.tlbs ↔ e ∈ s.mem.tlbs ∧ ¬ (e.ctx = c ∧ e.vpn * pageBytes e.z < va + n ∧ va < (e.vpn + 1) * pageBytes e.z)) ∧
      (∀ l, l ∈ t.mem.icache ↔ l ∈ s.mem.icache ∧ ¬ (l.ctx = c ∧ l.line * 128 < va + n ∧ va < (l.line + 1) * 128)) ∧
      ∀ r, r ∈ t.mem.ptrans ↔ r ∈ s.mem.ptrans ∧ ¬ (r.ctx = c ∧ r.pc < va + n ∧ va < r.pc + r.len)) ∧
    (fieldAt b 0 1 = 1 → reads (.launch c q) fun t => t.mem = told s k ∧
      ∃ w, (t.x.queue? c q).map Queue.wait = some [w] ∧ w.op = 1 ∧ w.bytes = b ∧ w.index = k.hidx ∧
        w.order = (k.bells.head?).elim 0 Prod.snd) ∧
    (fieldAt b 0 1 = 4 → reads (.preempt c q) fun t => t.mem = told s k ∧
      ∀ n m g, s.x.teams.find? n = some m → m.st = .resident → s.x.grids.find? m.grid = some g → g.ctx = c → g.id = fieldAt b 8 4 →
        (t.x.teams.find? n).map (fun m => (m.st, m.saving)) =
          some (.queued true, List.range ((g.word 36 4 + 1023) / 1024 * 1024 / 1024)))

/-- R321 to R327: the dispatcher, which reads through the caches that log entry 21 chooses for it (the model's choice), takes the
only LAUNCH that waits when its record, which it reads once, is readable and depends on nothing: a record that a check of R325 refuses starts no grid; one that passes, without arguments, starts a grid with the next identifier
and its teams enter the queue in order. -/
def Sys2Proof.Claim.Dispatch : Prop :=
  (∀ s : State, (∀ c ∈ s.x.ctxs, ∀ q ∈ c.2.queues, ∀ w ∈ q.2.wait, w.op ≠ 1) → Machine.exec .launchDispatch s = .next s) ∧
  ∀ (s u : State) (c q : Nat) (k : Ctx) (r : Queue) (w : Cmd) (l : LRec), s.x.ctxs = [(c, k)] → k.queues = [(q, r)] → r.wait = [w] →
    w.op = 1 → w.flagO = false → w.record = none → s.devRead c (fieldAt w.bytes 8 8) 256 = (u, some l) → (∀ n < 4, fieldAt l (128 + 16 * n) 8 = 0) →
    let id := if k.launch + 1 = 2 ^ 32 then 1 else k.launch + 1
    let kept : State := u.modX fun x => x.modQueue c q fun k =>
      { k with wait := k.wait.map fun v => if v.index = w.index then { v with record := some (some l) } else v }
    let taken : State := kept.modX fun x => ((x.modCtx c fun k => { k with launch := id }).modQueue c q fun k =>
      { k with wait := k.wait.filter fun v => !decide (v.index = w.index) }).post 1 .launchDispatch
    (taken.refusal l r.ceil ≠ 0 → fieldAt l 192 8 = 0 → fieldAt l 208 8 = 0 → ∃ t, Machine.exec .launchDispatch s = .next t ∧
      t.trust = s.trust ∧ t.x.grids = s.x.grids ∧ t.x.teams = s.x.teams ∧ (t.x.queue? c q).map Queue.wait = some []) ∧
    ∀ v tab, taken.refusal l r.ceil = 0 → fieldAt l 96 4 = 0 → fieldAt l 88 8 % 16 = 0 → fieldAt l 80 8 % 16 = 0 →
      taken.devRead c (fieldAt l 80 8) 256 = (v, some tab) → (∀ p ∈ s.x.teams, p.1 < s.x.fresh) →
      ∃ t n g, Machine.exec .launchDispatch s = .next t ∧ t.trust = s.trust ∧ (t.x.queue? c q).map Queue.wait = some [] ∧
        t.x.grids.find? n = some g ∧ g.ctx = c ∧ g.queue = q ∧ g.id = id ∧ g.lrec = l ∧ g.st = .running ∧
        (∀ j < 16, g.recs[j]? = some (if (BufRec.ofNat (fieldAt tab (16 * j) 16)).valid then BitVec.ofNat 128 (fieldAt tab (16 * j) 16) else 0)) ∧
        (∀ j < fieldAt l 16 4 * fieldAt l 20 4 * fieldAt l 24 4, ∃ m, t.x.teams.find? (n + 1 + j) = some m ∧ m.grid = n ∧ m.idx = j ∧
          m.st = .queued false ∧ m.prio = fieldAt l 44 1 ∧
          ∀ b < 8, (m.conv b).members = fieldAt l (64 + 2 * b) 2 ∧ (m.conv b).signed = 0) ∧
        ∀ p ∈ s.x.teams, p ∈ t.x.teams

/-- `QueueCommands` And: `Dispatch`. -/
def Obligations.SubmissionAndLaunch : Prop := QueueCommands ∧ Dispatch

/-- R143, R145, R326 to R329, R347: the first team of the queue, of a launch that is neither cohort nor stitched, is placed on
the core that R328 finds, and its waves stand at their entries; a region that holds no other pattern is stitched; a team
without a wave or an operation left ends; a grid that is over writes its completion record, and then leaves the module. Where a
placed team lies in the context image, that a team's queued matrix work and staged operations are awaited, and through which
caches the record is written, are the model's choice (log entries 48, 24 and 21). -/
def Sys2Proof.Claim.TeamPlaces : Prop :=
  (∀ (s : State) (t : Nat) (m : Team) (g : Grid) (pos core : Nat), (s.modX Exec.resetPtr).x.queueHead = some (t, m) →
    s.x.teams.find? t = some m → s.x.gridOf m = some g → m.st = .queued false → fieldAt g.lrec 56 1 = 0 → bitOf (fieldAt g.lrec 45 1) 0 = false →
    (s.modX Exec.resetPtr).findCore t m = some (pos, core) →
    ∃ r, Machine.exec .teamPlacement s = .next r ∧ r.trust = s.trust ∧
      (∃ k, r.x.teams.find? t = some { m with st := .resident, core := core, img := k }) ∧ r.x.ptr = (pos + 1) % 640 ∧
      ∀ j < fieldAt g.lrec 28 1, ∃ u v, r.x.wave? u = some v ∧ v.team = t ∧ v.idx = j ∧ v.hold = none ∧
        v.role = (if j < fieldAt g.lrec 30 1 then 0 else 1) ∧
        let entry := if v.role = 0 then fieldAt g.lrec 0 8 else wrap 48 ((fieldAt g.lrec 0 8 : Int) + signed 32 (fieldAt g.lrec 40 4))
        ∀ f, v.fib f = if f < (if j + 1 = fieldAt g.lrec 28 1 then fieldAt g.lrec 29 1 else 128) then { st := .ready, pc := entry } else {}) ∧
  (∀ s : State, (∀ p ∈ s.x.teams, ∀ b, p.2.st ≠ .queued b) → Does s .teamPlacement s.x.resetPtr) ∧
  (∀ (s : State) (n : Nat) (g : Grid), s.x.grids.find? n = some g → fieldAt g.lrec 56 1 ≠ 0 →
    ((∃ p ∈ s.x.teams, p.2.st = .resident ∧ LRec.allows g.lrec p.2.core = true ∧ (s.x.lrecOf p.2).stitch.1 ≠ fieldAt g.lrec 56 1) →
      Does s (.restitch n) s.x) ∧
    ((∀ p ∈ s.x.teams, p.2.st ≠ .resident) → ∃ t, Machine.exec (.restitch n) s = .next t ∧ t.trust = s.trust ∧ t.mem = s.mem ∧
      ∀ d a, d < 4 → a < 21 → fieldAt g.lrec 57 1 ≤ 21 → t.x.stitch.get (0, 0) (21 * d + a) =
        if bitOf (fieldAt g.lrec 46 1) d = true ∧ a < fieldAt g.lrec 57 1 then (fieldAt g.lrec 56 1, fieldAt g.lrec 57 1)
        else s.x.stitch.get (0, 0) (21 * d + a))) ∧
  (∀ (s : State) (n : Nat) (m : Team), s.x.teams.find? n = some m →
    (s.x.teamFreeable n m = true → ∃ t, Machine.exec (.teamFree n) s = .next t ∧ t.trust = s.trust ∧ t.mem = s.mem ∧
      t.x.teams.find? n = some { m with st := .ended, tiles := [], arms := [], posts := [], unmat := [], saving := [], flagged := [] }) ∧
    (s.x.teamFreeable n m = false → Does s (.teamFree n) s.x)) ∧
  ∀ (s : State) (n : Nat) (g : Grid), s.x.grids.find? n = some g →
    (g.st = .done → ∃ t, Machine.exec (.gridCompletion n) s = .next t ∧ t.trust = s.trust ∧ t.mem = s.mem ∧
      t.x.grids.find? n = none ∧ ∀ p ∈ t.x.teams, p.2.grid ≠ n) ∧
    (g.st ≠ .done → s.x.gridBusy n = true ∨ g.st = .running ∧ s.x.teamsEnded n = false → Does s (.gridCompletion n) s.x) ∧
    (g.st ≠ .done → s.x.gridBusy n = false → g.st ≠ .running ∨ s.x.teamsEnded n = true →
      ∃ t, Machine.exec (.gridCompletion n) s = .next t ∧ t.trust = s.trust ∧ (t.x.grids.find? n).map Grid.st = some .done ∧
      ∀ l, let va := fieldAt g.lrec 208 8
        fieldAt g.lrec 192 8 = 0 → va % 32 = 0 → va ≠ 0 → Reaches s ⟨0, g.ctx, 0⟩ { write := true } va l → l.pa % 32 = 0 → l.key ≠ 0 →
        (∀ c ∈ s.mem.l1, n ∉ c.grids ∧ c.core ≠ 0) → s.mem.reqs = [] → l.sec ∉ s.mem.unc →
        let p : Nat × Nat := match g.st with
          | .halted c => (1, c)
          | .faulted => (3, 0)
          | _ => (0, 0)
        t.mem.sector l.key l.sec = leBytes 1 p.1 ++ [0] ++ leBytes 1 (if g.late then 1 else 0) ++ [0] ++ leBytes 2 g.inval ++
          leBytes 2 p.2 ++ leBytes 4 g.id ++ List.replicate 20 0)

/-- R111 to R113, R331, R343: a head that fits no core stops the victims that R331 chooses; one block of a stopped team is saved
at a time, to the place in the context image that log entry 48 chooses (the model's choice); a team whose park clock has run
leaves its core, and when what it waits for comes it is queued again. -/
def Sys2Proof.Claim.TeamStops : Prop :=
  (∀ s : State, s.x.queueHead = none → Does s .priorityPreemption s.x) ∧
  (∀ (s : State) (t : Nat) (m : Team), s.x.queueHead = some (t, m) → (s.x.lrecOf m).cohort = false →
    (s.victimsFor [(t, m)] = none → Does s .priorityPreemption s.x) ∧
    ∀ vs, s.victimsFor [(t, m)] = some vs → ∃ r, Machine.exec .priorityPreemption s = .next r ∧ r.trust = s.trust ∧ r.mem = s.mem ∧
      ∀ p ∈ vs, s.x.teams.find? p.1 = some p.2 → p.2.st = .resident → (s.x.lrecOf p.2).cohort = false →
        (r.x.teams.find? p.1).map (fun m => (m.st, m.saving)) = some (.queued true, List.range ((s.x.lrecOf p.2).space / 1024))) ∧
  ∀ (s : State) (n : Nat) (m : Team), s.x.teams.find? n = some m →
    (∃ t, Machine.exec (.localBlockSave n) s = .next t ∧ t.trust = s.trust ∧
      t.x.teams.find? n = some { m with saving := m.saving.drop 1 } ∧ t.x.waves = s.x.waves ∧
      (m.saving = [] → t.mem = s.mem) ∧
      ∀ b, m.saving.head? = some b → s.mem.reqs = [] →
        let kept := s.imageAt ((s.x.gridOf m).elim 0 Grid.ctx) m.img (localOff (1024 * b)) 1024
        ∀ a, (∀ l ∈ kept, a / 32 ≠ l.sec) → t.mem.dev.get 0 a = s.mem.dev.get 0 a) ∧
    (s.x.parkClock n m = false → Does s (.swapOut n) s.x) ∧
    (s.x.parkClock n m = true → ∃ t, Machine.exec (.swapOut n) s = .next t ∧ t.trust = s.trust ∧ t.mem = s.mem ∧
      (NoneToStart s → (∀ p ∈ s.x.waves, p.2.hold ≠ some (.retry rvMatrix) ∧ p.2.hold ≠ some (.retry rvCopy)) → t.x.waves = s.x.waves) ∧
      (t.x.teams.find? n).map (fun m => (m.st, m.saving)) =
        some (.swapped, List.range ((s.x.lrecOf m).space / 1024))) ∧
    (m.st = .swapped → ∃ t, Machine.exec (.swapRequeue n) s = .next t ∧ t.trust = s.trust ∧ t.mem = s.mem ∧ t.x.waves = s.x.waves ∧
      t.x.teams.find? n = some { m with st := .queued true }) ∧
    (m.st ≠ .swapped → Does s (.swapRequeue n) s.x)

/-- `TeamPlaces` And: `TeamStops`. -/
def Obligations.TeamsPlacedAndStopped : Prop := TeamPlaces ∧ TeamStops

/-! ## The host, the module's registers and the root of trust -/

/-- What a read of BAR0 gives, by the table of R398. -/
def Sys2Proof.Claim.register (t : Trust) (o : Nat) : Nat :=
  if o = 0 then t.status + 8 * t.failStep + 256 * t.failDie + 65536 * t.failUnit +
    2 ^ 32 * (if t.failStep = 1 then 0 else t.manifest.version.toNat)
  else if o = 0x08 then (if t.failStep = 0 then deviceHash t.manifest.disabled else 0)
  else if o = 0x10 then t.ring.toNat else if o = 0x18 then t.ringSize else if o = 0x28 then t.ringHead % 2 ^ 32
  else if o = 0x30 then t.logBase.toNat else if o = 0x38 then t.logSize
  else if o = 0x40 then t.logIdx + 2 ^ 32 * t.logLost else 0

/-- R398: the base or size of the admin ring and of the module error log is taken while that ring is empty and the value is
well formed, and both indices become 0; at any other time the write is dropped and counted. A bring-up that failed is told
once the log has a base and a size. The log's consumer takes an index; the admin tail doorbell is not heard while the module
or its ring is not ready, and one that overfills the ring is counted; a read by the PF gives the register of the table; a
fault response with a reserved bit set is dropped and counted (R396). What a dropped access's entry holds, and that a doorbell that
comes before the ring is ready leaves no entry, are the model's choice (log entries 20 and 55). -/
def Obligations.ModuleRegisters : Prop :=
  ∀ (s : State) (v : BitVec 64),
    let t := s.trust
    let drop (n : Instr) (offset : Nat) : Prop := Does s n (s.x.err { type := 9, detail := offset })
    let becomes (n : Instr) (t : Trust) : Prop := Machine.exec n s = .next { s with trust := t }
    let base : Prop := v.toNat / 2 ^ 56 % 128 = 0 ∧ v.toNat % 64 = 0
    let pow (lo hi : Nat) : Prop := ∃ k, v.toNat = 2 ^ k ∧ lo ≤ 2 ^ k ∧ 2 ^ k ≤ hi
    let quiet : Prop := t.status ≠ 3 ∨ t.failPosted = true
    (t.ringHead = t.ringTail → base → becomes (.adminRingBaseWrite v) { t with ring := v, ringHead := 0, ringTail := 0 }) ∧
    (t.ringHead ≠ t.ringTail ∨ ¬ base → drop (.adminRingBaseWrite v) 0x10) ∧
    (t.ringHead = t.ringTail → pow 16 4096 → becomes (.adminRingSizeWrite v) { t with ringSize := v.toNat, ringHead := 0, ringTail := 0 }) ∧
    (t.ringHead ≠ t.ringTail ∨ ¬ pow 16 4096 → drop (.adminRingSizeWrite v) 0x18) ∧
    (t.logIdx = t.logCons → base → quiet → becomes (.errorLogBaseWrite v) { t with logBase := v, logIdx := 0, logCons := 0 }) ∧
    (t.logIdx ≠ t.logCons ∨ ¬ base → drop (.errorLogBaseWrite v) 0x30) ∧
    (t.logIdx = t.logCons → pow 64 65536 → quiet → becomes (.errorLogSizeWrite v) { t with logSize := v.toNat, logIdx := 0, logCons := 0 }) ∧
    (t.logIdx ≠ t.logCons ∨ ¬ pow 64 65536 → drop (.errorLogSizeWrite v) 0x38) ∧
    (t.logIdx = t.logCons → pow 64 65536 → t.status = 3 → t.failPosted = false → t.logBase ≠ 0 →
      Machine.exec (.errorLogSizeWrite v) s = .next { s with
        trust := { t with logSize := v.toNat, logIdx := 0, logCons := 0, failPosted := true }
        x := s.x.err { type := 2, die := t.failDie, unit := t.failUnit, detail := t.failStep } }) ∧
    (v.toNat < 2 ^ 32 → becomes (.errorLogConsumer v) { t with logCons := v.toNat }) ∧
    (2 ^ 32 ≤ v.toNat → drop (.errorLogConsumer v) 0x48 ∧ drop (.adminTailDoorbell v) 0x20) ∧
    (let d := (v.toNat + 2 ^ 32 - t.ringTail % 2 ^ 32) % 2 ^ 32
     v.toNat < 2 ^ 32 →
      (t.ring = 0 ∨ t.ringSize = 0 ∨ t.status ≠ 1 → Machine.exec (.adminTailDoorbell v) s = .next s) ∧
      (t.ring ≠ 0 → t.ringSize ≠ 0 → t.status = 1 →
        (t.ringSize < t.ringTail - t.ringHead + d → drop (.adminTailDoorbell v) 0x20) ∧
        (t.ringTail - t.ringHead + d ≤ t.ringSize → t.ringHead < t.ringTail → Machine.exec (.adminTailDoorbell v) s =
          .next { s with trust := { t with ringTail := t.ringTail + d }, x := s.x.post 1 .launchDispatch }) ∧
        (t.ringHead = t.ringTail → d ≤ t.ringSize → ∃ r, Machine.exec (.adminTailDoorbell v) s = .next r ∧ r.mem = s.mem ∧
          r.trust.ringTail = t.ringTail + d ∧ t.ringHead ≤ r.trust.ringHead ∧ r.trust.ringHead ≤ r.trust.ringTail ∧
          { r.trust with ringHead := t.ringHead, ringTail := t.ringTail } = t))) ∧
    ∀ (fn ctx : Nat) (o : Nat) (w : BitVec 64),
      (o < 2 ^ 8 → o % 8 = 0 → becomes (.registerWriteOther ⟨true, 0, ctx, o, 8, false, w⟩) { t with hostRead := leBytes 8 (register t o) }) ∧
      (fn ≠ 0 → ∀ size write, drop (.registerWriteOther ⟨true, fn, ctx, o, size, write, w⟩) o) ∧
      (∀ k size, s.x.ctxs.find? ctx = some k →
        (k.owner ≠ fn → ∀ write, Machine.exec (.registerWriteOther ⟨false, fn, ctx, o, size, write, w⟩) s = .next s) ∧
        (k.owner = fn → Does s (.registerWriteOther ⟨false, fn, ctx, o, size, false, w⟩) (s.x.err { type := 9, ctx := ctx, detail := o })) ∧
        (k.owner = fn → 2 ^ 33 ≤ w.toNat →
          Does s (.registerWriteOther ⟨false, fn, ctx, 0x80, size, true, w⟩) (s.x.err { type := 9, ctx := ctx, detail := 0x80 })))

/-- The only unread entry of the admin ring is b, and its fields are in range. -/
structure Sys2Proof.Claim.AdminEntry (s : State) (b : List Byte) : Prop where
  ready : s.trust.status = 1
  last  : s.trust.ringTail = s.trust.ringHead + 1
  bytes : b = s.mem.readPhys (s.trust.ring.toNat + 64 * (s.trust.ringHead % s.trust.ringSize)) 64
  fine  : adminOk b = true

/-- R320, R354, R355, R397, R399, R405, R407: each admin command, when its entry is the only one left, is performed or, where
a check of R399 fails, reported in the module error log; the head then passes it. A context's identifier is free, and its
keys are erased, once none of its grids is left. Corrected errors are reported at most once an interval, with their count. What
the entry of a refused command holds, that CTXDEL and a spare look again every 64 ticks, which areas are out of range, and the unit
numbers of a spare's entries are the model's choice (log entries 20, 51, 61, 55 and 57). -/
def Obligations.AdminCommands : Prop :=
  (∀ (s : State) (b : List Byte), AdminEntry s b →
    let t := s.trust
    let past : Trust := { t with ringHead := t.ringHead + 1 }
    let does (n : Instr) (x : Exec) : Prop := Machine.exec n s = .next { s with trust := past, x := x }
    let refused (n : Instr) : Prop := does n (s.x.err { type := 9, detail := fieldAt b 4 4 })
    let c := fieldAt b 8 2
    (fieldAt b 0 1 = 16 →
      let taken : Prop := s.x.ctxs.find? c ≠ none ∨ s.x.overlaps c (fieldAt b 16 8) (64 * fieldAt b 12 4) = true ∨
        s.x.overlaps c (fieldAt b 32 8) (fieldAt b 40 8) = true
      (taken → refused .ctxnew) ∧
      (¬ taken → ∃ key n, Machine.exec .ctxnew s = .next { s with
        trust := { past with imgKeys := t.imgKeys.insert c key }
        x := { s.x with fresh := n, ctxs := s.x.ctxs.insert c { owner := fieldAt b 10 1, errSize := fieldAt b 12 4, errBase := fieldAt b 16 8, errStat := fieldAt b 24 8, imgBase := fieldAt b 32 8, imgSize := fieldAt b 40 8 } } })) ∧
    (fieldAt b 0 1 = 17 →
      (s.x.ctxs.find? c = none → refused .ctxdel) ∧
      ∀ k, s.x.ctxs.find? c = some k → k.deleting = true →
        ((∃ g ∈ s.x.grids, g.2.ctx = c) → Does s .ctxdel (s.x.post 64 .ctxdel)) ∧
        ((∀ g ∈ s.x.grids, g.2.ctx ≠ c) → Machine.exec .ctxdel s = .next { s with
          trust := { past with keys := t.keys.filter (fun k => !decide (k.1 / 4 = c)), imgKeys := t.imgKeys.erase c }
          x := { s.x with ctxs := s.x.ctxs.erase c } })) ∧
    (fieldAt b 0 1 = 18 →
      (s.x.ctxs.find? c = none ∨ s.x.queue? c (fieldAt b 10 1) ≠ none ∨ s.x.overlaps c (fieldAt b 16 8) (64 * fieldAt b 12 4) = true →
        refused .qnew) ∧
      ∀ k, s.x.ctxs.find? c = some k → s.x.queue? c (fieldAt b 10 1) = none →
        s.x.overlaps c (fieldAt b 16 8) (64 * fieldAt b 12 4) = false →
        let new : Queue := ⟨s.x.fresh, fieldAt b 11 1, fieldAt b 12 4, fieldAt b 16 8, fieldAt b 24 8, 0, 0, [], []⟩
        does .qnew (Exec.modCtx { s.x with fresh := s.x.fresh + 1 } c fun k => { k with queues := k.queues.insert (fieldAt b 10 1) new })) ∧
    (fieldAt b 0 1 = 19 →
      (s.x.queue? c (fieldAt b 10 1) = none → refused .qdel) ∧
      (s.x.queue? c (fieldAt b 10 1) ≠ none → does .qdel (s.x.modCtx c fun k => { k with queues := k.queues.erase (fieldAt b 10 1) }))) ∧
    (fieldAt b 0 1 = 20 → bitOf (fieldAt b 28 1) 0 = false → s.x.txq = [] → (∀ k ∈ s.x.ports, k.2.down = true → k.2.replay = []) →
      let l := s.mem.readPhys (fieldAt b 16 8) (fieldAt b 12 4)
      let fine : Prop := ∀ p ∈ l, p.toNat < 32 ∨ p.toNat = 255
      (¬ fine → refused .route) ∧
      (fine → ∃ r, Machine.exec .route s = .next r ∧ r.trust = past ∧ r.mem = s.mem ∧
        { r.x with routes := s.x.routes, rank := s.x.rank } = s.x ∧
        r.x.rank = (if fieldAt b 24 4 = 0xffffffff then s.x.rank else fieldAt b 24 4) ∧
        ∀ j, r.x.routes.get 255 j = if fieldAt b 8 4 ≤ j ∧ j < fieldAt b 8 4 + l.length then (l.getD (j - fieldAt b 8 4) 0).toNat
          else s.x.routes.get 255 j)) ∧
    (fieldAt b 0 1 = 20 → bitOf (fieldAt b 28 1) 0 = true → t.manifest.policy.getLsbD 2 = false →
      does .route ((s.x.err { type := 12, die := 255, unit := 65535 }).err { type := 9, detail := fieldAt b 4 4 })) ∧
    (fieldAt b 0 1 = 21 → fieldAt b 12 1 = 0 →
      let l := (List.range (fieldAt b 16 4)).map fun j => fieldAt (s.mem.readPhys (fieldAt b 24 8) (4 * fieldAt b 16 4)) (4 * j) 4
      let fine : Prop := s.x.groups.find? (fieldAt b 8 4) = none ∧ l.Pairwise (· < ·) ∧ ∀ r ∈ l, r < 2097152
      (¬ fine → refused .groupInstall) ∧
      (fine → does .groupInstall { s.x with groups := s.x.groups.insert (fieldAt b 8 4) ⟨l, fieldAt b 20 4, 0⟩ })) ∧
    (fieldAt b 0 1 = 21 → fieldAt b 12 1 = 1 → does .groupRemove { s.x with groups := s.x.groups.erase (fieldAt b 8 4) }) ∧
    (fieldAt b 0 1 = 22 →
      let p : SpareOp := ⟨fieldAt b 8 1, fieldAt b 9 1, fieldAt b 10 2⟩
      let u := s.unitOf p.die p.kind p.unit
      let may : Prop := t.manifest.policy.getLsbD p.kind = true ∧ t.spareCount < t.manifest.policy.toNat / 256 % 16 ∧ p ∉ t.spares
      (¬ may → does .spare (s.x.err { type := 12, die := p.die, unit := u })) ∧
      (may → Machine.exec .spare s = .next { s with
        trust := { past with spares := t.spares ++ [p], spareCount := t.spareCount + 1 }
        x := (s.x.err { type := 10, die := p.die, unit := u }).post 1 (.spareSwap p.die p.kind p.unit) }))) ∧
  (∀ (s : State) (die kind unit : Nat), (⟨die, kind, unit⟩ : SpareOp) ∉ s.trust.spares →
    Machine.exec (.spareSwap die kind unit) s = .next s) ∧
  (∀ (s : State) (die unit : Nat), (⟨die, 0, unit⟩ : SpareOp) ∈ s.trust.spares → die < 4 → unit < 160 →
    (s.x.coreHeld (s.unitOf die 0 unit) = true → Does s (.spareSwap die 0 unit) (s.x.post 64 (.spareSwap die 0 unit))) ∧
    (s.x.coreHeld (s.unitOf die 0 unit) = false → s.spareUnits die 0 ≠ [] → ∃ t v e, Machine.exec (.spareSwap die 0 unit) s = .next t ∧
      v ∈ s.spareUnits die 0 ∧ t.physCore die unit = some v ∧ (⟨die, 0, unit⟩ : SpareOp) ∉ t.trust.spares ∧
      t.trust.spareCount = s.trust.spareCount ∧ e ∈ t.x.errq ∧ e.type = 11 ∧ e.die = die ∧ e.unit = v)) ∧
  ∀ (s : State) (e : CorrErr),
    let key := corrKey e
    let c := s.trust.corr.get (0, 0) key
    (s.x.tick < c.1 → Machine.exec (.correctedErrorReport e) s = .next { s with
      trust := { s.trust with corr := s.trust.corr.insert key (c.1, c.2 + e.count) } }) ∧
    (c.1 ≤ s.x.tick → Machine.exec (.correctedErrorReport e) s = .next { s with
      trust := { s.trust with corr := s.trust.corr.insert key (s.x.tick + 2 ^ 20, 0) }
      x := s.x.err { type := 1, die := e.die, unit := e.unit, ctx := e.ctx, count := (c.2 + e.count) % 2 ^ 32 } })

/-- R400, R404 (the codes and the order of a session are the model's choice, log entry 26): each request is answered when the
session is ready for it and the module's bring-up answers it at all; else with UnexpectedRequest, or not at all. After
BOOTFAIL three requests are answered; after BRINGUPFAIL all but the three that establish keys. -/
def Sys2Proof.Claim.Sessions : Prop :=
  ∀ (s : State) (r : SpdmReq),
    let t := s.trust
    let d := t.spdm.get {} r.fn
    let msg (code : Nat) : List Byte := [0x13, BitVec.ofNat 8 code, 0, 0]
    (∀ p ∈ ([(.getVersion r, true, true, true, { version := true }, [0x10, 0x04, 0, 0, 0, 1, 0, 0x13]),
        (.getCapabilities r, true, true, d.version, { d with caps := true }, msg 0x61),
        (.negotiateAlgorithms r, false, true, d.caps, { d with algs := true }, msg 0x63),
        (.getDigests r, false, true, d.algs, d, msg 0x01), (.getCertificate r, false, true, d.algs, d, msg 0x02),
        (.challenge r, false, true, d.algs, d, msg 0x03),
        (.keyExchange r, false, false, d.algs && !d.session, { d with pending := true }, msg 0x64),
        (.finish r, false, false, d.pending, { d with pending := false, session := true, keys := 0 }, msg 0x65),
        (.keyUpdate r, false, false, d.session && r.secure, { d with keys := d.keys + 1 }, msg 0x69),
        (.heartbeat r, false, true, d.session && r.secure, d, msg 0x68),
        (.endSession r, false, true, d.session && r.secure, { d with session := false, keys := 0 }, msg 0x6c)] :
        List (Instr × Bool × Bool × Bool × Spdm × List Byte)),
      ((t.status = 2 ∧ p.2.1 = false) ∨ (t.status = 3 ∧ p.2.2.1 = false) → Machine.exec p.1 s = .next s) ∧
      ((t.status = 2 → p.2.1 = true) → (t.status = 3 → p.2.2.1 = true) → Machine.exec p.1 s = .next { s with trust :=
        if p.2.2.2.1 then { t with spdm := t.spdm.put {} r.fn p.2.2.2.2.1, resp := t.resp ++ [(r.fn, p.2.2.2.2.2)] }
        else { t with resp := t.resp ++ [(r.fn, [0x13, 0x7f, 4, 0])] } })) ∧
    (d.caps = true →
      let tells (b : List Byte) : Prop := ∃ u, Machine.exec (.getMeasurements r) s = .next u ∧ u.mem = s.mem ∧ u.x = s.x ∧
        u.trust.resp = t.resp ++ [(r.fn, b)] ∧ u.trust.keys = t.keys ∧ u.trust.spdm.get {} r.fn = d
      let op := (r.payload.getD 1 0).toNat
      let ok : List Byte := [0x13, 0x60, 0, 0]
      (t.status = 1 → t.failStep = 0 → t.digests.length = 5 →
        (op = 0 → tells [0x13, 0x60, 7, 0]) ∧
        (∀ m, 1 ≤ op → op ≤ 5 → t.digests[op - 1]? = some m → tells (ok ++ [BitVec.ofNat 8 op, 32, 0] ++ leBytes 32 m.toNat)) ∧
        (op = 6 → tells (ok ++ [6, 4, 0] ++ leBytes 4 t.manifest.version.toNat)) ∧
        (op = 7 → tells (ok ++ [7, 8, 0] ++ leBytes 8 (deviceHash t.manifest.disabled))) ∧
        (7 < op → op < 255 → tells [0x13, 0x7f, 1, 0])) ∧
      (t.status = 2 → t.failStep ≠ 0 → t.digests = [] → op = 0 → tells ok))

/-- R401, R402: SETKEY answers with the status of the table and installs a key for status 0 alone; outside a secure session it is
an unexpected request. The order of the refusals, that a message type other than 1 is malformed, and the answer to other vendor
fields are the model's choice (log entry 27). -/
def Sys2Proof.Claim.KeySlots : Prop :=
  ∀ (s : State) (r : SpdmReq), s.trust.status = 1 →
    let t := s.trust
    let b := r.payload
    let c := fieldAt b 2 2
    let slot := fieldAt b 1 1
    let answered (keys : SMap (BitVec 512)) (m : List Byte) : Prop :=
      Machine.exec (.setkey r) s = .next { s with trust := { t with keys := keys, resp := t.resp ++ [(r.fn, m)] } }
    let status (n : Nat) : Prop := answered t.keys [0x13, 0x7e, 0, 0, 0x81, BitVec.ofNat 8 slot, BitVec.ofNat 8 n, 0, 0, 0, 0, 0]
    let bad : Prop := b.length ≠ 72 ∨ fieldAt b 0 1 ≠ 1 ∨ fieldAt b 4 4 ≠ 0 ∨ 3 < slot ∨ fieldAt b 8 32 = fieldAt b 40 32
    let running : Prop := r.fn ≠ 0 ∧ t.tdisp.find? r.fn = some .run
    let own : Prop := ∃ k, s.x.ctxs.find? c = some k ∧ k.owner = r.fn ∧ k.deleting = false
    let held : Prop := t.keys.find? (4 * c + slot) ≠ none
    let secure : Prop := r.secure = true ∧ (t.spdm.get {} r.fn).session = true
    (¬ secure → answered t.keys [0x13, 0x7f, 4, 0]) ∧
    (secure → r.vendor = false → answered t.keys [0x13, 0x7f, 1, 0]) ∧
    (secure → r.vendor = true → bad → status 4) ∧
    (secure → r.vendor = true → ¬ bad → ¬ running → status 2) ∧
    (secure → r.vendor = true → ¬ bad → running → ¬ own → status 3) ∧
    (secure → r.vendor = true → ¬ bad → running → own → held → status 1) ∧
    (secure → r.vendor = true → ¬ bad → running → own → ¬ held →
      answered (t.keys.insert (4 * c + slot) (BitVec.ofNat 512 (leNat (b.drop 8)))) [0x13, 0x7e, 0, 0, 0x81, BitVec.ofNat 8 slot, 0, 0, 0, 0, 0, 0])

/-- `Sessions` And: `KeySlots`. -/
def Obligations.RootOfTrust : Prop := Sessions ∧ KeySlots

/-- R62, R395, R401: a host read of device memory gives what stands there, ciphertext where a key sealed it; a host write is
seen there as written, and nowhere else; neither reaches a context image (what a read of one gives is free, log entry 76);
an address without storage stops the machine by name. A VF's interface changes state only as TDISP lets it (log entry 26), and in
BOOTFAIL not at all (R404); a request that a running VF turns away is counted. That a sector's key is noted beside its bytes, that the tweak
is its storage address, and the home of such an access, are the model's choice (log entries 4 and 56), AES-256-XTS as in log entry 81. -/
def Obligations.HostAccess : Prop :=
  (∀ (s : State) (pa n : Nat) (b : List Byte),
    let here (n : Nat) : Prop := pa + n ≤ 2 ^ 40 ∧ pa % 2 ^ 38 + n ≤ 0x3000000000
    (here n → s.x.inImage pa n = false → Machine.exec (.hostAccessToDeviceMemory ⟨false, pa, b, n⟩) s = .next { s with trust := { s.trust with
      hostRead := (List.range n).map fun j =>
        if s.mem.sealed.get 0 ((pa + j) / 32) ≤ 1 then s.mem.dev.get 0 (pa + j)
        else (Machine.xtsUnit true (Machine.keyBits (s.mem.sealed.get 0 ((pa + j) / 32))) (32 * ((pa + j) / 32)) ((List.range 32).map fun i =>
          s.mem.dev.get 0 (32 * ((pa + j) / 32) + i))).getD ((pa + j) % 32) 0 } }) ∧
    (here b.length → s.x.inImage pa b.length = false → ∃ t, Machine.exec (.hostAccessToDeviceMemory ⟨true, pa, b, n⟩) s = .next t ∧ t.trust = s.trust ∧ t.x = s.x ∧
      t.mem.host = s.mem.host ∧ (∀ j, (h : j < b.length) → t.mem.hostView (pa + j) = b[j]) ∧
      ∀ a, a < pa ∨ pa + b.length ≤ a → t.mem.hostView a = s.mem.hostView a) ∧
    (here n → s.x.inImage pa n = true → ∃ l, l.length = n ∧ Machine.exec (.hostAccessToDeviceMemory ⟨false, pa, b, n⟩) s =
      .next { s with trust := { s.trust with hostRead := l }, x := { s.x with free := s.x.free + 1 } }) ∧
    (here b.length → s.x.inImage pa b.length = true → Machine.exec (.hostAccessToDeviceMemory ⟨true, pa, b, n⟩) s = .next s) ∧
    (¬ here n → Machine.exec (.hostAccessToDeviceMemory ⟨false, pa, b, n⟩) s = .fault (.noStorage pa)) ∧
    (¬ here b.length → Machine.exec (.hostAccessToDeviceMemory ⟨true, pa, b, n⟩) s = .fault (.noStorage pa))) ∧
  (∀ (s : State) (fn : Nat) (a b : TdispState), s.trust.tdisp.get .configUnlocked fn = a → 1 ≤ fn → fn ≤ 63 →
    (s.trust.status = 2 → Machine.exec (.tdispInterfaceRequest fn b) s = .next s) ∧
    let may : Prop := b = .configUnlocked ∨ (a = .configUnlocked ∧ b = .configLocked) ∨ (a = .configLocked ∧ (b = .run ∨ b = .error)) ∨
      (a = .run ∧ b = .error)
    (s.trust.status ≠ 2 → may → Machine.exec (.tdispInterfaceRequest fn b) s =
      .next { s with trust := { s.trust with tdisp := s.trust.tdisp.put .configUnlocked fn b } }) ∧
    (¬ may → Machine.exec (.tdispInterfaceRequest fn b) s = .next s)) ∧
  ∀ (s : State) (fn : Nat),
    (s.trust.tdisp.find? fn = some .run → Does s (.vfRequestDropped fn) (s.x.err { type := 9, detail := fn })) ∧
    (s.trust.tdisp.find? fn ≠ some .run → Machine.exec (.vfRequestDropped fn) s = .next s)

/-- R398, R403, R404: a reset leaves a module with no context, grid, key or queue. With a valid manifest and no failure it is
ready and its device memory is zero; a step up to 3 that fails leaves BOOTFAIL and device memory as it was, a later one
BRINGUPFAIL, each naming the step and the unit; a manifest that fails its checks fails step 2. Host memory is the host's. The module's
own manifest, the zero of the registers without a stated value, and what a bring-up that fails in step 4 leaves of device memory
are the model's choice (log entries 6, 28 and 53). -/
def Obligations.ResetLeaves : Prop :=
  (State.reset.x = {} ∧ State.reset.mem = {} ∧ State.reset.trust.status = 1 ∧ State.reset.trust.failStep = 0 ∧
    State.reset.trust.ring = 0 ∧ State.reset.trust.ringSize = 0 ∧ State.reset.trust.logBase = 0 ∧ State.reset.trust.logSize = 0 ∧
    State.reset.trust.keys = [] ∧ State.reset.trust.imgKeys = [] ∧ ∀ a, State.reset.mem.dev.get 0 a = 0) ∧
  ∀ (s : State) (b : BootInput), ∃ t, Machine.exec (.reset b) s = .next t ∧ t.mem.host = s.mem.host ∧ { t.x with free := 0 } = ({} : Exec) ∧
    t.trust.keys = [] ∧ t.trust.imgKeys = [] ∧ t.trust.ring = 0 ∧ t.trust.ringSize = 0 ∧ t.trust.logSize = 0 ∧ t.trust.manifest = b.manifest ∧
    (b.fail = none → manifestValid b.manifest = true → t.trust.status = 1 ∧ t.trust.failStep = 0 ∧ ∀ a, t.mem.dev.get 0 a = 0) ∧
    (∀ n d u, b.fail = some (n, d, u) → n = 1 ∨ manifestValid b.manifest = true →
      t.trust.failStep = n ∧ t.trust.failDie = d ∧ t.trust.failUnit = u ∧
      (n ≤ 3 → t.trust.status = 2) ∧ (3 < n → t.trust.status = 3) ∧
      (1 ≤ n → n ≤ 3 → t.mem.dev = s.mem.dev) ∧ (4 < n → ∀ a, t.mem.dev.get 0 a = 0) ∧
      (n = 4 → ∀ a, t.mem.dev.get 0 a = 0 ∨ t.mem.dev.get 0 a = s.mem.dev.get 0 a)) ∧
    (manifestValid b.manifest = false → (∀ d u, b.fail ≠ some (1, d, u)) →
      t.trust.status = 2 ∧ t.trust.failStep = 2 ∧ t.trust.failDie = 255 ∧ t.trust.failUnit = 65535)

/-! ## Encodings and the step -/

/-- R186 to R190, R194, R195: words of every encoding layout, written out from the tables, decode to the instructions they
stand for; a reserved field, an unassigned major and a disabled major do not execute (R200). -/
def Obligations.DecodeWords : Prop :=
  (∀ p ∈ ([
      (8, 0b1_0000_000_0000_0_0_00_0000000_0000011_0000110_0000101_0_010_0000_001000000_0_11, .iadd ⟨⟨false, 2, 0, false⟩, ⟨true, 0, 0, 0, false, false, 0⟩, 0, 3, 6, 5⟩),
      (8, 0b0_0001_011_0000_0_0_01_0000000_0000011_0000010_0000001_1_011_0000_011000000_1_11, .fadd ⟨⟨true, 3, 0, true⟩, ⟨false, 1, 3, 0, false, false, 1⟩, 0, 3, 2, 1⟩),
      (8, 0b11011110101011011011111011101111_00000_0000111_0_111_0000_001101010_0_11, .movi ⟨⟨false, 7, 0, false⟩, 0xdeadbeef, 0, 7⟩),
      (8, 0b1_01_00_000_0000_0010_1111111101_0100_0001001_0001010_0_111_1001_101000000_0_11, .ldb ⟨⟨false, 7, 9, false⟩, ⟨true, 1, 0, 0, 0, 2⟩, 1021, 4, 9, 10⟩),
      (8, 0b0000000000000000_0000000_0000000_0000000_0000000_0_111_0000_000000000_0_11, .nop ⟨⟨false, 7, 0, false⟩, 0, 0, 0, 0, 0⟩),
      (2, 0b1_10001_00011_0001_0, .iadd16 ⟨true, 17, 3⟩),
      (2, 0b0_00101_00100_0000_0, .mov16 ⟨5, 4⟩),
      (2, 0b1_11111_00100_0000_0, .movi16 ⟨31, 4⟩),
      (4, 0b10_0000011_0000010_0000001_010101_1_01, .faddC ⟨true, 2, 3, 2, 1⟩),
      (4, 0b111111011_0000010_0000001_001111_0_01, .iaddCi ⟨false, 507, 2, 1⟩),
      (4, 0b1111111111111111100_1_011_000001_0_01, .braC ⟨false, 524284, true, 3⟩),
      (4, 0b00000_000010_000001_000011_100110_0_01, .isubCw ⟨false, 0, 2, 1, 3⟩),
      (4, 0b00000000000000000000000_000000_0_01, .nopC ⟨false, 0⟩)] : List (Nat × Nat × Instr)), ∀ l, decode 0 (leList p.1 p.2.1 ++ l) = .instr p.2.2 p.1) ∧
  ∀ l, decode 0 (leList 4 0b00000000000000000000001_000000_0_01 ++ l) = .emulate .rsvfield 4 0x201 ∧
    decode 0 (leList 8 0b0000000000000000_0000000_0000000_0000000_0000000_0_111_0000_100001010_0_11 ++ l) = .emulate .undefop 8 0x70853 ∧
    decode (1 <<< 0x54) (leList 2 0b0_00001_00000_0100_0 ++ l) = .emulate .disabledop 2 0x0408

/-- R186 to R195: every instruction that has an encoding and no reserved field decodes from its own bytes, whatever
follows them, unless the manifest disables its major. -/
def Obligations.RoundTrip : Prop :=
  ∀ (d : BitVec 512) (i : Instr) (x n : Nat) (l : List Byte), encode i = some (x, n) → i.wellFormed = true →
    d.getLsbD i.major = false → (encodeBytes i).length = n ∧ decode d (encodeBytes i ++ l) = .instr i n

/-- R148, R186, R200, R362, R364: when the wave of the run in progress may issue and the bytes at its PC are fetched and decode
to an instruction, a step is that instruction's execution at that state, with the count of the clock, its length and bits
noted, and then what follows every instruction and every step. A word of a Pyratha grid is issued in the same way (R368), and at
the first of a run the die's translation of the run is used, or is due to be made (R369; when is the model's choice, log entry 58). A
step that is due on the agenda, with no run in progress, is that row's execution. The order in which the machine's agents take their
steps, and when its own steps come due, are the model's choice (log entries 25 and 31). -/
def Obligations.StepRunsDecoded : Prop :=
  (∀ (s : State) (c : Cur) (w : Wave) (m : State) (l : List Byte) (bad : List Bool) (i : Instr) (n : Nat),
    let s₁ := s.modX fun x => { x with tick := x.tick + 1 }
    let grid := (s.x.teamOf w).bind s.x.gridOf
    let pyr := grid.elim false Grid.pyr
    s.x.cur = some c → s.x.wave? c.wave = some w → w.asyncNow = [] → w.groupAt c.pc ≠ [] →
    s₁.fetchAt c.wave (s.x.coreOf w) w.quad (s.x.ctxOf w) c.pc = (m, .bytes l bad) → decode m.trust.manifest.disabled l = .instr i n →
    c.pc % 2 = 0 → (n ≠ 2 → c.pc % 4 = 0) → (∀ b ∈ bad.take n, b = false) → (pyr = true → n = 8 ∧ c.pc % 8 = 0) →
    let c' : Cur := { c with len := n, raw := leVal (l.take n) }
    let has (r : State) : State := r.modX fun x => { x with cur := some c' }
    let die := dieOf (s.x.coreOf w)
    let at_ : State := if pyr = true ∧ c.count = 0 then
      if m.mem.ptransHas die (s.x.ctxOf w) c.pc then (has m).ptransUse die (s.x.ctxOf w) c.pc
      else (has m).modX fun x => x.post 4096 (.pyrathaRunTranslation die (s.x.ctxOf w) (BitVec.ofNat 48 c.pc))
    else has m
    step s = match Machine.exec i at_ with
      | .next t => .next (t.issued ⟨c, w, w.groupAt c.pc, n, leVal (l.take n), true⟩).settle
      | .fault f => .fault f
      | .refused f => .refused f) ∧
  ∀ (s : State) (t : Nat) (e : Ev) (r : List (Nat × Ev)), s.x.cur = none → (∀ p ∈ s.x.waves, p.2.asyncNow = []) →
    s.x.agenda = (t, e) :: r → t ≤ s.x.tick + 1 →
    step s = settleOut (Machine.exec e.toInstr (s.modX fun x => { x with tick := x.tick + 1, agenda := r }))

/-! ## An invariant of every step -/

/-- What the module's registers and keys always satisfy. -/
structure Sys2Proof.Claim.Sound (t : Trust) : Prop where
  state  : t.status = 1 ∨ t.status = 2 ∨ t.status = 3
  whole  : t.status = 1 → t.failStep = 0
  order  : t.ringHead ≤ t.ringTail
  room   : t.ringTail ≤ t.ringHead + t.ringSize
  ring   : t.ring.toNat / 2 ^ 56 % 128 = 0 ∧ t.ring.toNat % 64 = 0
  size   : t.ringSize = 0 ∨ ∃ k, t.ringSize = 2 ^ k ∧ 16 ≤ 2 ^ k ∧ 2 ^ k ≤ 4096
  log    : t.logBase.toNat / 2 ^ 56 % 128 = 0 ∧ t.logBase.toNat % 64 = 0
  logSz  : t.logSize = 0 ∨ ∃ k, t.logSize = 2 ^ k ∧ 64 ≤ 2 ^ k ∧ 2 ^ k ≤ 65536
  logIdx : t.logIdx < 2 ^ 32 ∧ t.logLost < 2 ^ 32
  keys   : ∀ p ∈ t.keys, p.2.toNat % 2 ^ 256 ≠ p.2.toNat / 2 ^ 256
  spares : t.spares.length ≤ t.spareCount ∧ t.spareCount ≤ t.manifest.policy.toNat / 256 % 16

/-- R398, R401, R402, R404, R407: whatever a step does, in whatever state, the module's status stays one of those of R398, its
rings stay well formed and hold no more than they have room for, no installed key has two equal halves, and no more
spares are taken than the policy allows. -/
def Obligations.SoundStep : Prop := ∀ s t : State, Sound s.trust → step s = .next t → Sound t.trust

/-- The machine after reset has that invariant. -/
def Obligations.SoundReset : Prop := Sound State.reset.trust
end

