-- ==== Sys2Proof/Laws/Assoc.lean ====
section
/-! SUPPORT. Sparse maps: what a read after a write gives, and that every write keeps the canonical form. -/

namespace Sys2Proof.Machine

variable {α : Type}

theorem SMap.find?_insert (m : SMap α) (i j : Nat) (v : α) :
    (m.insert i v).find? j = if j = i then some v else m.find? j := by
  induction m with
  | nil => simp [SMap.insert, SMap.find?]
  | cons p r ih =>
    obtain ⟨k, x⟩ := p
    simp only [SMap.insert]
    split
    · simp [SMap.find?]
    · split
      · subst_vars; simp only [SMap.find?]; split <;> rfl
      · simp only [SMap.find?, ih]
        split <;> split <;> simp_all

theorem SMap.find?_filter_key (m : SMap α) (p : Nat → Bool) (j : Nat) :
    SMap.find? (m.filter fun q => p q.1) j = if p j then m.find? j else none := by
  induction m with
  | nil => simp [SMap.find?]
  | cons q r ih =>
    obtain ⟨k, x⟩ := q
    by_cases h : p k <;> by_cases e : j = k <;> simp_all [SMap.find?]

theorem SMap.find?_erase (m : SMap α) (i j : Nat) :
    (m.erase i).find? j = if j = i then none else m.find? j := by
  rw [SMap.erase, SMap.find?_filter_key m (fun k => !decide (k = i))]
  by_cases h : j = i <;> simp [h]

theorem SMap.find?_modify (m : SMap α) (i j : Nat) (f : α → α) :
    (m.modify i f).find? j = if j = i then (m.find? j).map f else m.find? j := by
  induction m with
  | nil => simp [SMap.modify, SMap.find?]
  | cons q r ih =>
    obtain ⟨k, x⟩ := q
    simp only [SMap.modify, List.map_cons] at ih ⊢
    by_cases h : k = i <;> by_cases e : j = k <;> simp_all [SMap.find?]

/-! ### Keys stay strictly rising -/

theorem SMap.sortedFrom_mono {a b : Nat} {m : SMap α} (h : a ≤ b) (hm : SMap.sortedFrom b m = true) :
    SMap.sortedFrom a m = true := by
  cases m with
  | nil => rfl
  | cons p r =>
    simp only [SMap.sortedFrom, Bool.and_eq_true, decide_eq_true_eq] at hm ⊢
    exact ⟨by omega, hm.2⟩

theorem SMap.sortedFrom_filter {b : Nat} {m : SMap α} (p : Nat × α → Bool) (hm : SMap.sortedFrom b m = true) :
    SMap.sortedFrom b (m.filter p) = true := by
  induction m generalizing b with
  | nil => rfl
  | cons q r ih =>
    simp only [SMap.sortedFrom, Bool.and_eq_true, decide_eq_true_eq] at hm
    rw [List.filter_cons]
    split
    · simp only [SMap.sortedFrom, Bool.and_eq_true, decide_eq_true_eq]
      exact ⟨hm.1, ih hm.2⟩
    · exact SMap.sortedFrom_mono (by omega) (ih hm.2)

theorem SMap.sortedFrom_insert {b i : Nat} {m : SMap α} (v : α) (hb : b ≤ i) (hm : SMap.sortedFrom b m = true) :
    SMap.sortedFrom b (m.insert i v) = true := by
  induction m generalizing b with
  | nil => simp [SMap.insert, SMap.sortedFrom, hb]
  | cons q r ih =>
    obtain ⟨k, x⟩ := q
    simp only [SMap.sortedFrom, Bool.and_eq_true, decide_eq_true_eq] at hm
    simp only [SMap.insert]
    split
    · simp only [SMap.sortedFrom, Bool.and_eq_true, decide_eq_true_eq]
      exact ⟨hb, by omega, hm.2⟩
    · split
      · subst_vars
        simp only [SMap.sortedFrom, Bool.and_eq_true, decide_eq_true_eq]
        exact ⟨hb, hm.2⟩
      · simp only [SMap.sortedFrom, Bool.and_eq_true, decide_eq_true_eq]
        exact ⟨hm.1, ih (by omega) hm.2⟩

theorem SMap.mem_insert {m : SMap α} {i : Nat} {v : α} {q : Nat × α} (h : q ∈ m.insert i v) : q = (i, v) ∨ q ∈ m := by
  induction m with
  | nil => simpa [SMap.insert] using h
  | cons p r ih =>
    obtain ⟨k, x⟩ := p
    simp only [SMap.insert] at h
    split at h
    · simpa using h
    · split at h
      · rcases List.mem_cons.1 h with h | h
        · exact .inl h
        · exact .inr (List.mem_cons_of_mem _ h)
      · rcases List.mem_cons.1 h with h | h
        · exact .inr (h ▸ List.mem_cons_self ..)
        · rcases ih h with h | h
          · exact .inl h
          · exact .inr (List.mem_cons_of_mem _ h)

variable [DecidableEq α]

theorem SMap.get_put (d : α) (m : SMap α) (i j : Nat) (v : α) :
    (SMap.put d m i v).get d j = if j = i then v else m.get d j := by
  unfold SMap.put SMap.get
  split
  · rw [SMap.find?_erase]; split <;> simp_all
  · rw [SMap.find?_insert]; split <;> simp

@[simp] theorem SMap.get_put_self (d : α) (m : SMap α) (i : Nat) (v : α) : (SMap.put d m i v).get d i = v := by
  rw [SMap.get_put, if_pos rfl]

theorem SMap.get_put_ne (d : α) (m : SMap α) {i j : Nat} (v : α) (h : j ≠ i) :
    (SMap.put d m i v).get d j = m.get d j := by
  rw [SMap.get_put, if_neg h]

/-! ### The canonical form -/

theorem SMap.wf_filter {d : α} {m : SMap α} (p : Nat × α → Bool) (h : SMap.wf d m = true) :
    SMap.wf d (m.filter p) = true := by
  simp only [SMap.wf, Bool.and_eq_true, List.all_eq_true] at h ⊢
  exact ⟨SMap.sortedFrom_filter p h.1, fun q hq => h.2 q (List.mem_filter.1 hq).1⟩

theorem SMap.wf_put {d : α} {m : SMap α} (i : Nat) (v : α) (h : SMap.wf d m = true) :
    SMap.wf d (SMap.put d m i v) = true := by
  unfold SMap.put
  split
  · exact SMap.wf_filter _ h
  · simp only [SMap.wf, Bool.and_eq_true, List.all_eq_true] at h ⊢
    refine ⟨SMap.sortedFrom_insert v (Nat.zero_le _) h.1, fun q hq => ?_⟩
    rcases SMap.mem_insert hq with rfl | hq
    · simpa
    · exact h.2 q hq

theorem SMap.wf_puts {d : α} (l : List (Nat × α)) {m : SMap α} (h : SMap.wf d m = true) :
    SMap.wf d (SMap.puts d m l) = true := by
  induction l generalizing m with
  | nil => exact h
  | cons p r ih => exact ih (SMap.wf_put p.1 p.2 h)

end Sys2Proof.Machine
end

