-- ==== Sys2Proof/Laws/Encode.lean ====
section
/-! SUPPORT. Each layout read back from what it is written as, and where its major stands. -/

namespace Sys2Proof

theorem bitAt_eq (x i : Nat) : bitAt x i = decide (x / 2 ^ i % 2 = 1) := rfl

/-- A field read at its place. -/
theorem field_eq {n : Nat} (v : BitVec n) (x p : Nat) (h : x / 2 ^ p % 2 ^ n = v.toNat) : BitVec.ofNat n (x / 2 ^ p) = v :=
  BitVec.eq_of_toNat_eq (by rw [BitVec.toNat_ofNat, h])

/-- A one-bit field read at its place. -/
theorem bit_eq (b : Bool) (x i : Nat) (h : x / 2 ^ i % 2 = b.toNat) : bitAt x i = b := by
  rw [bitAt_eq, h]; cases b <;> rfl

theorem Hd.parts (h : Hd) : h.b.toNat < 2 ∧ h.la.toNat < 16 ∧ h.pg.toNat < 8 ∧ h.pn.toNat < 2 :=
  ⟨Bool.toNat_lt _, h.la.isLt, h.pg.isLt, Bool.toNat_lt _⟩

theorem Hd.read (h : Hd) (maj r : Nat) (hm : maj < 512) :
    Hd.ofNat (h.toNat maj + 2 ^ 20 * r) = h ∧ (h.toNat maj + 2 ^ 20 * r) / 8 % 512 = maj ∧
      (h.toNat maj + 2 ^ 20 * r) % 4 = 3 := by
  obtain ⟨h1, h2, h3, h4⟩ := h.parts
  unfold Hd.toNat
  refine ⟨?_, by omega, by omega⟩
  unfold Hd.ofNat
  rw [bit_eq h.pn _ 19 (by omega), field_eq h.pg _ 16 (by omega), field_eq h.la _ 12 (by omega), bit_eq h.b _ 2 (by omega)]

theorem AluM.read (m : AluM) : AluM.ofNat m.toNat = m ∧ m.toNat < 2 ^ 16 := by
  have h1 := m.rnd.isLt
  have h2 := Bool.toNat_lt m.sat
  have h3 := Bool.toNat_lt m.sr
  have h4 := m.fmt.isLt
  have h5 := m.xl.isLt
  have h6 := m.xlp.isLt
  have h7 := Bool.toNat_lt m.w2
  unfold AluM.toNat
  refine ⟨?_, by omega⟩
  unfold AluM.ofNat
  rw [bit_eq m.w2 _ 15 (by omega), field_eq m.xlp _ 11 (by omega), field_eq m.xl _ 8 (by omega),
    show (16 : Nat) = 2 ^ 4 from rfl, field_eq m.fmt _ 4 (by omega), bit_eq m.sr _ 3 (by omega), bit_eq m.sat _ 2 (by omega)]
  have := field_eq m.rnd (m.rnd.toNat + 4 * m.sat.toNat + 8 * m.sr.toNat + 2 ^ 4 * m.fmt.toNat + 2 ^ 8 * m.xl.toNat +
    2 ^ 11 * m.xlp.toNat + 2 ^ 15 * m.w2.toNat) 0 (by omega)
  rw [Nat.pow_zero, Nat.div_one] at this
  rw [this]

theorem MemM.read (m : MemM) : MemM.ofNat m.toNat = m ∧ m.toNat < 2 ^ 16 := by
  have h1 := m.size.isLt
  have h2 := m.fmt.isLt
  have h3 := m.scope.isLt
  have h4 := m.ord.isLt
  have h5 := m.hint.isLt
  have h6 := Bool.toNat_lt m.oobt
  unfold MemM.toNat
  refine ⟨?_, by omega⟩
  unfold MemM.ofNat
  rw [bit_eq m.oobt _ 15 (by omega), field_eq m.hint _ 13 (by omega), field_eq m.ord _ 11 (by omega),
    field_eq m.scope _ 8 (by omega), show (16 : Nat) = 2 ^ 4 from rfl, field_eq m.fmt _ 4 (by omega)]
  have := field_eq m.size (m.size.toNat + 2 ^ 4 * m.fmt.toNat + 2 ^ 8 * m.scope.toNat + 2 ^ 11 * m.ord.toNat +
    2 ^ 13 * m.hint.toNat + 2 ^ 15 * m.oobt.toNat) 0 (by omega)
  rw [Nat.pow_zero, Nat.div_one] at this
  rw [this]

/-- A 64-bit layout: its pattern, its size and its major. -/
theorem AluI.read (w : AluI) (maj : Nat) (hm : maj < 512) : AluI.ofNat (w.toNat maj) = w ∧ w.toNat maj < 2 ^ 64 ∧
    w.toNat maj / 8 % 512 = maj ∧ w.toNat maj % 4 = 3 := by
  have h1 := w.d.isLt
  have h2 := w.s1.isLt
  have h3 := w.s2.isLt
  have h4 := w.s3.isLt
  obtain ⟨h5, h6⟩ := w.m.read
  obtain ⟨p1, p2, p3, p4⟩ := w.h.parts
  have e : w.toNat maj = w.h.toNat maj + 2 ^ 20 * (w.d.toNat + 2 ^ 7 * w.s1.toNat + 2 ^ 14 * w.s2.toNat +
      2 ^ 21 * w.s3.toNat + 2 ^ 28 * w.m.toNat) := by unfold AluI.toNat; omega
  have hh : w.h.toNat maj < 2 ^ 20 := by unfold Hd.toNat; omega
  obtain ⟨r1, r2, r3⟩ := w.h.read maj (w.d.toNat + 2 ^ 7 * w.s1.toNat + 2 ^ 14 * w.s2.toNat +
      2 ^ 21 * w.s3.toNat + 2 ^ 28 * w.m.toNat) hm
  rw [e]
  refine ⟨?_, by omega, r2, r3⟩
  unfold AluI.ofNat
  rw [r1, field_eq w.s3 _ 41 (by omega), field_eq w.s2 _ 34 (by omega), field_eq w.s1 _ 27 (by omega),
    field_eq w.d _ 20 (by omega)]
  have : (w.h.toNat maj + 2 ^ 20 * (w.d.toNat + 2 ^ 7 * w.s1.toNat + 2 ^ 14 * w.s2.toNat +
      2 ^ 21 * w.s3.toNat + 2 ^ 28 * w.m.toNat)) / 2 ^ 48 = w.m.toNat := by omega
  rw [this, h5]

/-- A 64-bit layout: its pattern, its size and its major. -/
theorem OwnI.read (w : OwnI) (maj : Nat) (hm : maj < 512) : OwnI.ofNat (w.toNat maj) = w ∧ w.toNat maj < 2 ^ 64 ∧
    w.toNat maj / 8 % 512 = maj ∧ w.toNat maj % 4 = 3 := by
  have h1 := w.d.isLt
  have h2 := w.s1.isLt
  have h3 := w.s2.isLt
  have h4 := w.s3.isLt
  have h6 := w.m.isLt
  obtain ⟨p1, p2, p3, p4⟩ := w.h.parts
  have e : w.toNat maj = w.h.toNat maj + 2 ^ 20 * (w.d.toNat + 2 ^ 7 * w.s1.toNat + 2 ^ 14 * w.s2.toNat +
      2 ^ 21 * w.s3.toNat + 2 ^ 28 * w.m.toNat) := by unfold OwnI.toNat; omega
  have hh : w.h.toNat maj < 2 ^ 20 := by unfold Hd.toNat; omega
  obtain ⟨r1, r2, r3⟩ := w.h.read maj (w.d.toNat + 2 ^ 7 * w.s1.toNat + 2 ^ 14 * w.s2.toNat +
      2 ^ 21 * w.s3.toNat + 2 ^ 28 * w.m.toNat) hm
  rw [e]
  refine ⟨?_, by omega, r2, r3⟩
  unfold OwnI.ofNat
  rw [r1, field_eq w.m _ 48 (by omega), field_eq w.s3 _ 41 (by omega), field_eq w.s2 _ 34 (by omega),
    field_eq w.s1 _ 27 (by omega), field_eq w.d _ 20 (by omega)]

/-- A 64-bit layout: its pattern, its size and its major. -/
theorem LongI.read (w : LongI) (maj : Nat) (hm : maj < 512) : LongI.ofNat (w.toNat maj) = w ∧ w.toNat maj < 2 ^ 64 ∧
    w.toNat maj / 8 % 512 = maj ∧ w.toNat maj % 4 = 3 := by
  have h1 := w.d.isLt
  have h2 := w.z.isLt
  have h3 := w.imm.isLt
  obtain ⟨p1, p2, p3, p4⟩ := w.h.parts
  have e : w.toNat maj = w.h.toNat maj + 2 ^ 20 * (w.d.toNat + 2 ^ 7 * w.z.toNat + 2 ^ 12 * w.imm.toNat) := by
    unfold LongI.toNat; omega
  have hh : w.h.toNat maj < 2 ^ 20 := by unfold Hd.toNat; omega
  obtain ⟨r1, r2, r3⟩ := w.h.read maj (w.d.toNat + 2 ^ 7 * w.z.toNat + 2 ^ 12 * w.imm.toNat) hm
  rw [e]
  refine ⟨?_, by omega, r2, r3⟩
  unfold LongI.ofNat
  rw [r1, field_eq w.imm _ 32 (by omega), field_eq w.z _ 27 (by omega), field_eq w.d _ 20 (by omega)]

/-- A 64-bit layout: its pattern, its size and its major. -/
theorem MemI.read (w : MemI) (maj : Nat) (hm : maj < 512) : MemI.ofNat (w.toNat maj) = w ∧ w.toNat maj < 2 ^ 64 ∧
    w.toNat maj / 8 % 512 = maj ∧ w.toNat maj % 4 = 3 := by
  have h1 := w.d.isLt
  have h2 := w.s1.isLt
  have h3 := w.bn.isLt
  have h4 := w.imm.isLt
  obtain ⟨h5, h6⟩ := w.m.read
  obtain ⟨p1, p2, p3, p4⟩ := w.h.parts
  have e : w.toNat maj = w.h.toNat maj + 2 ^ 20 * (w.d.toNat + 2 ^ 7 * w.s1.toNat + 2 ^ 14 * w.bn.toNat +
      2 ^ 18 * w.imm.toNat + 2 ^ 28 * w.m.toNat) := by unfold MemI.toNat; omega
  have hh : w.h.toNat maj < 2 ^ 20 := by unfold Hd.toNat; omega
  obtain ⟨r1, r2, r3⟩ := w.h.read maj (w.d.toNat + 2 ^ 7 * w.s1.toNat + 2 ^ 14 * w.bn.toNat +
      2 ^ 18 * w.imm.toNat + 2 ^ 28 * w.m.toNat) hm
  rw [e]
  refine ⟨?_, by omega, r2, r3⟩
  unfold MemI.ofNat
  rw [r1, field_eq w.imm _ 38 (by omega), field_eq w.bn _ 34 (by omega), field_eq w.s1 _ 27 (by omega),
    field_eq w.d _ 20 (by omega)]
  have : (w.h.toNat maj + 2 ^ 20 * (w.d.toNat + 2 ^ 7 * w.s1.toNat + 2 ^ 14 * w.bn.toNat +
      2 ^ 18 * w.imm.toNat + 2 ^ 28 * w.m.toNat)) / 2 ^ 48 = w.m.toNat := by omega
  rw [this, h5]

/-! ### Shorter layouts -/

theorem Mov16.read (w : Mov16) (i : Bool) : Mov16.ofNat (w.toNat i.toNat) = w ∧ w.toNat i.toNat < 2 ^ 16 ∧
    w.toNat i.toNat / 2 % 16 = 0 ∧ w.toNat i.toNat % 2 = 0 ∧ bitAt (w.toNat i.toNat) 15 = i := by
  have h1 := w.s.isLt
  have h2 := w.d.isLt
  have h3 := Bool.toNat_lt i
  unfold Mov16.toNat
  refine ⟨?_, by omega, by omega, by omega, bit_eq i _ 15 (by omega)⟩
  unfold Mov16.ofNat
  rw [field_eq w.s _ 10 (by omega), field_eq w.d _ 5 (by omega)]

theorem Op16.read (w : Op16) (op : Nat) (ho : op < 16) : Op16.ofNat (w.toNat op) = w ∧ w.toNat op < 2 ^ 16 ∧
    w.toNat op / 2 % 16 = op ∧ w.toNat op % 2 = 0 := by
  have h1 := w.s.isLt
  have h2 := w.d.isLt
  have h3 := Bool.toNat_lt w.i
  unfold Op16.toNat
  refine ⟨?_, by omega, by omega, by omega⟩
  unfold Op16.ofNat
  rw [bit_eq w.i _ 15 (by omega), field_eq w.s _ 10 (by omega), field_eq w.d _ 5 (by omega)]

theorem CompA.read (w : CompA) (maj : Nat) (hm : maj < 64) : CompA.ofNat (w.toNat maj) = w ∧ w.toNat maj < 2 ^ 32 ∧
    w.toNat maj / 8 % 64 = maj ∧ w.toNat maj % 4 = 1 := by
  have h1 := Bool.toNat_lt w.b
  have h2 := w.fn2.isLt
  have h3 := w.vb.isLt
  have h4 := w.va.isLt
  have h5 := w.vd.isLt
  unfold CompA.toNat
  refine ⟨?_, by omega, by omega, by omega⟩
  unfold CompA.ofNat
  rw [bit_eq w.b _ 2 (by omega), field_eq w.fn2 _ 30 (by omega), field_eq w.vb _ 23 (by omega),
    field_eq w.va _ 16 (by omega), field_eq w.vd _ 9 (by omega)]

theorem CompI.read (w : CompI) (maj : Nat) (hm : maj < 64) : CompI.ofNat (w.toNat maj) = w ∧ w.toNat maj < 2 ^ 32 ∧
    w.toNat maj / 8 % 64 = maj ∧ w.toNat maj % 4 = 1 := by
  have h1 := Bool.toNat_lt w.b
  have h3 := w.imm.isLt
  have h4 := w.va.isLt
  have h5 := w.vd.isLt
  unfold CompI.toNat
  refine ⟨?_, by omega, by omega, by omega⟩
  unfold CompI.ofNat
  rw [bit_eq w.b _ 2 (by omega), field_eq w.imm _ 23 (by omega), field_eq w.va _ 16 (by omega), field_eq w.vd _ 9 (by omega)]

theorem CompJ.read (w : CompJ) (maj : Nat) (hm : maj < 64) : CompJ.ofNat (w.toNat maj) = w ∧ w.toNat maj < 2 ^ 32 ∧
    w.toNat maj / 8 % 64 = maj ∧ w.toNat maj % 4 = 1 := by
  have h1 := Bool.toNat_lt w.b
  have h3 := w.off.isLt
  have h4 := Bool.toNat_lt w.neg
  have h5 := w.pg.isLt
  unfold CompJ.toNat
  refine ⟨?_, by omega, by omega, by omega⟩
  unfold CompJ.ofNat
  rw [bit_eq w.b _ 2 (by omega), field_eq w.off _ 13 (by omega), bit_eq w.neg _ 12 (by omega), field_eq w.pg _ 9 (by omega)]

theorem CompW.read (w : CompW) (maj : Nat) (hm : maj < 64) : CompW.ofNat (w.toNat maj) = w ∧ w.toNat maj < 2 ^ 32 ∧
    w.toNat maj / 8 % 64 = maj ∧ w.toNat maj % 4 = 1 := by
  have h1 := Bool.toNat_lt w.b
  have h2 := w.z.isLt
  have h3 := w.wb.isLt
  have h4 := w.wa.isLt
  have h5 := w.wd.isLt
  unfold CompW.toNat
  refine ⟨?_, by omega, by omega, by omega⟩
  unfold CompW.ofNat
  rw [bit_eq w.b _ 2 (by omega), field_eq w.z _ 27 (by omega), field_eq w.wb _ 21 (by omega),
    field_eq w.wa _ 15 (by omega), field_eq w.wd _ 9 (by omega)]

theorem CompN.read (w : CompN) : CompN.ofNat (w.toNat 0) = w ∧ w.toNat 0 < 2 ^ 32 ∧
    w.toNat 0 / 8 % 64 = 0 ∧ w.toNat 0 % 4 = 1 := by
  have h1 := Bool.toNat_lt w.b
  have h2 := w.z.isLt
  unfold CompN.toNat
  refine ⟨?_, by omega, by omega, by omega⟩
  unfold CompN.ofNat
  rw [bit_eq w.b _ 2 (by omega), field_eq w.z _ 9 (by omega)]

end Sys2Proof
end

