-- ==== Sys2Proof/Laws/Fabric.lean ====
section
/-! SUPPORT. A flit's check (18 R353). -/

namespace Sys2Proof

/-- The check is no part of what it covers. -/
theorem Flit.bytes_check (f : Flit) (c : BitVec 64) : Flit.bytes { f with check := c } = f.bytes := rfl

/-- A flit's check holds exactly if it is that of its bytes. -/
theorem Flit.ok_iff (f : Flit) : f.ok = true ↔ f.check = crc64 f.bytes := by
  unfold Flit.ok
  exact decide_eq_true_iff

/-- A flit with some check is whole exactly if the check is that of its bytes. -/
theorem Flit.ok_check (f : Flit) (c : BitVec 64) : Flit.ok { f with check := c } = true ↔ c = crc64 f.bytes := by
  rw [Flit.ok_iff, Flit.bytes_check]

/-- A sealed flit is whole. -/
theorem Flit.sealed_ok (f : Flit) : f.sealed.ok = true := by
  unfold Flit.sealed
  rw [Flit.ok_check]

end Sys2Proof
end

