-- ==== Sys2Proof/Laws/State.lean ====
section
/-! SUPPORT. What each field reads after each named update of the state, of what executes and of a wave. -/

namespace Sys2Proof.Machine

@[simp] theorem State.modX_trust (s : State) (f : Exec → Exec) :
    (s.modX f).trust = s.trust := rfl
@[simp] theorem State.modM_trust (s : State) (f : MemSys → MemSys) :
    (s.modM f).trust = s.trust := rfl
@[simp] theorem State.modT_trust (s : State) (f : Trust → Trust) :
    (s.modT f).trust = f s.trust := rfl
@[simp] theorem State.modX_mem (s : State) (f : Exec → Exec) :
    (s.modX f).mem = s.mem := rfl
@[simp] theorem State.modM_mem (s : State) (f : MemSys → MemSys) :
    (s.modM f).mem = f s.mem := rfl
@[simp] theorem State.modT_mem (s : State) (f : Trust → Trust) :
    (s.modT f).mem = s.mem := rfl
@[simp] theorem State.modX_x (s : State) (f : Exec → Exec) :
    (s.modX f).x = f s.x := rfl
@[simp] theorem State.modM_x (s : State) (f : MemSys → MemSys) :
    (s.modM f).x = s.x := rfl
@[simp] theorem State.modT_x (s : State) (f : Trust → Trust) :
    (s.modT f).x = s.x := rfl

@[simp] theorem Exec.modWave_ctxs (x : Exec) (u : Nat) (f : Wave → Wave) :
    (x.modWave u f).ctxs = x.ctxs := rfl
@[simp] theorem Exec.modWave_grids (x : Exec) (u : Nat) (f : Wave → Wave) :
    (x.modWave u f).grids = x.grids := rfl
@[simp] theorem Exec.modWave_teams (x : Exec) (u : Nat) (f : Wave → Wave) :
    (x.modWave u f).teams = x.teams := rfl
@[simp] theorem Exec.modWave_waves (x : Exec) (u : Nat) (f : Wave → Wave) :
    (x.modWave u f).waves = SMap.modify x.waves u f := rfl
@[simp] theorem Exec.modWave_cores (x : Exec) (u : Nat) (f : Wave → Wave) :
    (x.modWave u f).cores = x.cores := rfl
@[simp] theorem Exec.modWave_cur (x : Exec) (u : Nat) (f : Wave → Wave) :
    (x.modWave u f).cur = x.cur := rfl
@[simp] theorem Exec.modWave_agenda (x : Exec) (u : Nat) (f : Wave → Wave) :
    (x.modWave u f).agenda = x.agenda := rfl
@[simp] theorem Exec.modWave_tick (x : Exec) (u : Nat) (f : Wave → Wave) :
    (x.modWave u f).tick = x.tick := rfl
@[simp] theorem Exec.modWave_fresh (x : Exec) (u : Nat) (f : Wave → Wave) :
    (x.modWave u f).fresh = x.fresh := rfl
@[simp] theorem Exec.modWave_free (x : Exec) (u : Nat) (f : Wave → Wave) :
    (x.modWave u f).free = x.free := rfl
@[simp] theorem Exec.modWave_rr (x : Exec) (u : Nat) (f : Wave → Wave) :
    (x.modWave u f).rr = x.rr := rfl
@[simp] theorem Exec.modWave_ptr (x : Exec) (u : Nat) (f : Wave → Wave) :
    (x.modWave u f).ptr = x.ptr := rfl
@[simp] theorem Exec.modWave_stages (x : Exec) (u : Nat) (f : Wave → Wave) :
    (x.modWave u f).stages = x.stages := rfl
@[simp] theorem Exec.modWave_copies (x : Exec) (u : Nat) (f : Wave → Wave) :
    (x.modWave u f).copies = x.copies := rfl
@[simp] theorem Exec.modWave_insts (x : Exec) (u : Nat) (f : Wave → Wave) :
    (x.modWave u f).insts = x.insts := rfl
@[simp] theorem Exec.modWave_nms (x : Exec) (u : Nat) (f : Wave → Wave) :
    (x.modWave u f).nms = x.nms := rfl
@[simp] theorem Exec.modWave_nmg (x : Exec) (u : Nat) (f : Wave → Wave) :
    (x.modWave u f).nmg = x.nmg := rfl
@[simp] theorem Exec.modWave_mxs (x : Exec) (u : Nat) (f : Wave → Wave) :
    (x.modWave u f).mxs = x.mxs := rfl
@[simp] theorem Exec.modWave_msgs (x : Exec) (u : Nat) (f : Wave → Wave) :
    (x.modWave u f).msgs = x.msgs := rfl
@[simp] theorem Exec.modWave_outs (x : Exec) (u : Nat) (f : Wave → Wave) :
    (x.modWave u f).outs = x.outs := rfl
@[simp] theorem Exec.modWave_colls (x : Exec) (u : Nat) (f : Wave → Wave) :
    (x.modWave u f).colls = x.colls := rfl
@[simp] theorem Exec.modWave_collIn (x : Exec) (u : Nat) (f : Wave → Wave) :
    (x.modWave u f).collIn = x.collIn := rfl
@[simp] theorem Exec.modWave_groups (x : Exec) (u : Nat) (f : Wave → Wave) :
    (x.modWave u f).groups = x.groups := rfl
@[simp] theorem Exec.modWave_ports (x : Exec) (u : Nat) (f : Wave → Wave) :
    (x.modWave u f).ports = x.ports := rfl
@[simp] theorem Exec.modWave_txq (x : Exec) (u : Nat) (f : Wave → Wave) :
    (x.modWave u f).txq = x.txq := rfl
@[simp] theorem Exec.modWave_rank (x : Exec) (u : Nat) (f : Wave → Wave) :
    (x.modWave u f).rank = x.rank := rfl
@[simp] theorem Exec.modWave_routes (x : Exec) (u : Nat) (f : Wave → Wave) :
    (x.modWave u f).routes = x.routes := rfl
@[simp] theorem Exec.modWave_gangs (x : Exec) (u : Nat) (f : Wave → Wave) :
    (x.modWave u f).gangs = x.gangs := rfl
@[simp] theorem Exec.modWave_stitch (x : Exec) (u : Nat) (f : Wave → Wave) :
    (x.modWave u f).stitch = x.stitch := rfl
@[simp] theorem Exec.modWave_hostq (x : Exec) (u : Nat) (f : Wave → Wave) :
    (x.modWave u f).hostq = x.hostq := rfl
@[simp] theorem Exec.modWave_errq (x : Exec) (u : Nat) (f : Wave → Wave) :
    (x.modWave u f).errq = x.errq := rfl

@[simp] theorem Exec.modTeam_ctxs (x : Exec) (t : Nat) (f : Team → Team) :
    (x.modTeam t f).ctxs = x.ctxs := rfl
@[simp] theorem Exec.modTeam_grids (x : Exec) (t : Nat) (f : Team → Team) :
    (x.modTeam t f).grids = x.grids := rfl
@[simp] theorem Exec.modTeam_teams (x : Exec) (t : Nat) (f : Team → Team) :
    (x.modTeam t f).teams = SMap.modify x.teams t f := rfl
@[simp] theorem Exec.modTeam_waves (x : Exec) (t : Nat) (f : Team → Team) :
    (x.modTeam t f).waves = x.waves := rfl
@[simp] theorem Exec.modTeam_cores (x : Exec) (t : Nat) (f : Team → Team) :
    (x.modTeam t f).cores = x.cores := rfl
@[simp] theorem Exec.modTeam_cur (x : Exec) (t : Nat) (f : Team → Team) :
    (x.modTeam t f).cur = x.cur := rfl
@[simp] theorem Exec.modTeam_agenda (x : Exec) (t : Nat) (f : Team → Team) :
    (x.modTeam t f).agenda = x.agenda := rfl
@[simp] theorem Exec.modTeam_tick (x : Exec) (t : Nat) (f : Team → Team) :
    (x.modTeam t f).tick = x.tick := rfl
@[simp] theorem Exec.modTeam_fresh (x : Exec) (t : Nat) (f : Team → Team) :
    (x.modTeam t f).fresh = x.fresh := rfl
@[simp] theorem Exec.modTeam_free (x : Exec) (t : Nat) (f : Team → Team) :
    (x.modTeam t f).free = x.free := rfl
@[simp] theorem Exec.modTeam_rr (x : Exec) (t : Nat) (f : Team → Team) :
    (x.modTeam t f).rr = x.rr := rfl
@[simp] theorem Exec.modTeam_ptr (x : Exec) (t : Nat) (f : Team → Team) :
    (x.modTeam t f).ptr = x.ptr := rfl
@[simp] theorem Exec.modTeam_stages (x : Exec) (t : Nat) (f : Team → Team) :
    (x.modTeam t f).stages = x.stages := rfl
@[simp] theorem Exec.modTeam_copies (x : Exec) (t : Nat) (f : Team → Team) :
    (x.modTeam t f).copies = x.copies := rfl
@[simp] theorem Exec.modTeam_insts (x : Exec) (t : Nat) (f : Team → Team) :
    (x.modTeam t f).insts = x.insts := rfl
@[simp] theorem Exec.modTeam_nms (x : Exec) (t : Nat) (f : Team → Team) :
    (x.modTeam t f).nms = x.nms := rfl
@[simp] theorem Exec.modTeam_nmg (x : Exec) (t : Nat) (f : Team → Team) :
    (x.modTeam t f).nmg = x.nmg := rfl
@[simp] theorem Exec.modTeam_mxs (x : Exec) (t : Nat) (f : Team → Team) :
    (x.modTeam t f).mxs = x.mxs := rfl
@[simp] theorem Exec.modTeam_msgs (x : Exec) (t : Nat) (f : Team → Team) :
    (x.modTeam t f).msgs = x.msgs := rfl
@[simp] theorem Exec.modTeam_outs (x : Exec) (t : Nat) (f : Team → Team) :
    (x.modTeam t f).outs = x.outs := rfl
@[simp] theorem Exec.modTeam_colls (x : Exec) (t : Nat) (f : Team → Team) :
    (x.modTeam t f).colls = x.colls := rfl
@[simp] theorem Exec.modTeam_collIn (x : Exec) (t : Nat) (f : Team → Team) :
    (x.modTeam t f).collIn = x.collIn := rfl
@[simp] theorem Exec.modTeam_groups (x : Exec) (t : Nat) (f : Team → Team) :
    (x.modTeam t f).groups = x.groups := rfl
@[simp] theorem Exec.modTeam_ports (x : Exec) (t : Nat) (f : Team → Team) :
    (x.modTeam t f).ports = x.ports := rfl
@[simp] theorem Exec.modTeam_txq (x : Exec) (t : Nat) (f : Team → Team) :
    (x.modTeam t f).txq = x.txq := rfl
@[simp] theorem Exec.modTeam_rank (x : Exec) (t : Nat) (f : Team → Team) :
    (x.modTeam t f).rank = x.rank := rfl
@[simp] theorem Exec.modTeam_routes (x : Exec) (t : Nat) (f : Team → Team) :
    (x.modTeam t f).routes = x.routes := rfl
@[simp] theorem Exec.modTeam_gangs (x : Exec) (t : Nat) (f : Team → Team) :
    (x.modTeam t f).gangs = x.gangs := rfl
@[simp] theorem Exec.modTeam_stitch (x : Exec) (t : Nat) (f : Team → Team) :
    (x.modTeam t f).stitch = x.stitch := rfl
@[simp] theorem Exec.modTeam_hostq (x : Exec) (t : Nat) (f : Team → Team) :
    (x.modTeam t f).hostq = x.hostq := rfl
@[simp] theorem Exec.modTeam_errq (x : Exec) (t : Nat) (f : Team → Team) :
    (x.modTeam t f).errq = x.errq := rfl

@[simp] theorem Exec.modGrid_ctxs (x : Exec) (g : Nat) (f : Grid → Grid) :
    (x.modGrid g f).ctxs = x.ctxs := rfl
@[simp] theorem Exec.modGrid_grids (x : Exec) (g : Nat) (f : Grid → Grid) :
    (x.modGrid g f).grids = SMap.modify x.grids g f := rfl
@[simp] theorem Exec.modGrid_teams (x : Exec) (g : Nat) (f : Grid → Grid) :
    (x.modGrid g f).teams = x.teams := rfl
@[simp] theorem Exec.modGrid_waves (x : Exec) (g : Nat) (f : Grid → Grid) :
    (x.modGrid g f).waves = x.waves := rfl
@[simp] theorem Exec.modGrid_cores (x : Exec) (g : Nat) (f : Grid → Grid) :
    (x.modGrid g f).cores = x.cores := rfl
@[simp] theorem Exec.modGrid_cur (x : Exec) (g : Nat) (f : Grid → Grid) :
    (x.modGrid g f).cur = x.cur := rfl
@[simp] theorem Exec.modGrid_agenda (x : Exec) (g : Nat) (f : Grid → Grid) :
    (x.modGrid g f).agenda = x.agenda := rfl
@[simp] theorem Exec.modGrid_tick (x : Exec) (g : Nat) (f : Grid → Grid) :
    (x.modGrid g f).tick = x.tick := rfl
@[simp] theorem Exec.modGrid_fresh (x : Exec) (g : Nat) (f : Grid → Grid) :
    (x.modGrid g f).fresh = x.fresh := rfl
@[simp] theorem Exec.modGrid_free (x : Exec) (g : Nat) (f : Grid → Grid) :
    (x.modGrid g f).free = x.free := rfl
@[simp] theorem Exec.modGrid_rr (x : Exec) (g : Nat) (f : Grid → Grid) :
    (x.modGrid g f).rr = x.rr := rfl
@[simp] theorem Exec.modGrid_ptr (x : Exec) (g : Nat) (f : Grid → Grid) :
    (x.modGrid g f).ptr = x.ptr := rfl
@[simp] theorem Exec.modGrid_stages (x : Exec) (g : Nat) (f : Grid → Grid) :
    (x.modGrid g f).stages = x.stages := rfl
@[simp] theorem Exec.modGrid_copies (x : Exec) (g : Nat) (f : Grid → Grid) :
    (x.modGrid g f).copies = x.copies := rfl
@[simp] theorem Exec.modGrid_insts (x : Exec) (g : Nat) (f : Grid → Grid) :
    (x.modGrid g f).insts = x.insts := rfl
@[simp] theorem Exec.modGrid_nms (x : Exec) (g : Nat) (f : Grid → Grid) :
    (x.modGrid g f).nms = x.nms := rfl
@[simp] theorem Exec.modGrid_nmg (x : Exec) (g : Nat) (f : Grid → Grid) :
    (x.modGrid g f).nmg = x.nmg := rfl
@[simp] theorem Exec.modGrid_mxs (x : Exec) (g : Nat) (f : Grid → Grid) :
    (x.modGrid g f).mxs = x.mxs := rfl
@[simp] theorem Exec.modGrid_msgs (x : Exec) (g : Nat) (f : Grid → Grid) :
    (x.modGrid g f).msgs = x.msgs := rfl
@[simp] theorem Exec.modGrid_outs (x : Exec) (g : Nat) (f : Grid → Grid) :
    (x.modGrid g f).outs = x.outs := rfl
@[simp] theorem Exec.modGrid_colls (x : Exec) (g : Nat) (f : Grid → Grid) :
    (x.modGrid g f).colls = x.colls := rfl
@[simp] theorem Exec.modGrid_collIn (x : Exec) (g : Nat) (f : Grid → Grid) :
    (x.modGrid g f).collIn = x.collIn := rfl
@[simp] theorem Exec.modGrid_groups (x : Exec) (g : Nat) (f : Grid → Grid) :
    (x.modGrid g f).groups = x.groups := rfl
@[simp] theorem Exec.modGrid_ports (x : Exec) (g : Nat) (f : Grid → Grid) :
    (x.modGrid g f).ports = x.ports := rfl
@[simp] theorem Exec.modGrid_txq (x : Exec) (g : Nat) (f : Grid → Grid) :
    (x.modGrid g f).txq = x.txq := rfl
@[simp] theorem Exec.modGrid_rank (x : Exec) (g : Nat) (f : Grid → Grid) :
    (x.modGrid g f).rank = x.rank := rfl
@[simp] theorem Exec.modGrid_routes (x : Exec) (g : Nat) (f : Grid → Grid) :
    (x.modGrid g f).routes = x.routes := rfl
@[simp] theorem Exec.modGrid_gangs (x : Exec) (g : Nat) (f : Grid → Grid) :
    (x.modGrid g f).gangs = x.gangs := rfl
@[simp] theorem Exec.modGrid_stitch (x : Exec) (g : Nat) (f : Grid → Grid) :
    (x.modGrid g f).stitch = x.stitch := rfl
@[simp] theorem Exec.modGrid_hostq (x : Exec) (g : Nat) (f : Grid → Grid) :
    (x.modGrid g f).hostq = x.hostq := rfl
@[simp] theorem Exec.modGrid_errq (x : Exec) (g : Nat) (f : Grid → Grid) :
    (x.modGrid g f).errq = x.errq := rfl

@[simp] theorem Exec.modCtx_ctxs (x : Exec) (c : Nat) (f : Ctx → Ctx) :
    (x.modCtx c f).ctxs = SMap.modify x.ctxs c f := rfl
@[simp] theorem Exec.modCtx_grids (x : Exec) (c : Nat) (f : Ctx → Ctx) :
    (x.modCtx c f).grids = x.grids := rfl
@[simp] theorem Exec.modCtx_teams (x : Exec) (c : Nat) (f : Ctx → Ctx) :
    (x.modCtx c f).teams = x.teams := rfl
@[simp] theorem Exec.modCtx_waves (x : Exec) (c : Nat) (f : Ctx → Ctx) :
    (x.modCtx c f).waves = x.waves := rfl
@[simp] theorem Exec.modCtx_cores (x : Exec) (c : Nat) (f : Ctx → Ctx) :
    (x.modCtx c f).cores = x.cores := rfl
@[simp] theorem Exec.modCtx_cur (x : Exec) (c : Nat) (f : Ctx → Ctx) :
    (x.modCtx c f).cur = x.cur := rfl
@[simp] theorem Exec.modCtx_agenda (x : Exec) (c : Nat) (f : Ctx → Ctx) :
    (x.modCtx c f).agenda = x.agenda := rfl
@[simp] theorem Exec.modCtx_tick (x : Exec) (c : Nat) (f : Ctx → Ctx) :
    (x.modCtx c f).tick = x.tick := rfl
@[simp] theorem Exec.modCtx_fresh (x : Exec) (c : Nat) (f : Ctx → Ctx) :
    (x.modCtx c f).fresh = x.fresh := rfl
@[simp] theorem Exec.modCtx_free (x : Exec) (c : Nat) (f : Ctx → Ctx) :
    (x.modCtx c f).free = x.free := rfl
@[simp] theorem Exec.modCtx_rr (x : Exec) (c : Nat) (f : Ctx → Ctx) :
    (x.modCtx c f).rr = x.rr := rfl
@[simp] theorem Exec.modCtx_ptr (x : Exec) (c : Nat) (f : Ctx → Ctx) :
    (x.modCtx c f).ptr = x.ptr := rfl
@[simp] theorem Exec.modCtx_stages (x : Exec) (c : Nat) (f : Ctx → Ctx) :
    (x.modCtx c f).stages = x.stages := rfl
@[simp] theorem Exec.modCtx_copies (x : Exec) (c : Nat) (f : Ctx → Ctx) :
    (x.modCtx c f).copies = x.copies := rfl
@[simp] theorem Exec.modCtx_insts (x : Exec) (c : Nat) (f : Ctx → Ctx) :
    (x.modCtx c f).insts = x.insts := rfl
@[simp] theorem Exec.modCtx_nms (x : Exec) (c : Nat) (f : Ctx → Ctx) :
    (x.modCtx c f).nms = x.nms := rfl
@[simp] theorem Exec.modCtx_nmg (x : Exec) (c : Nat) (f : Ctx → Ctx) :
    (x.modCtx c f).nmg = x.nmg := rfl
@[simp] theorem Exec.modCtx_mxs (x : Exec) (c : Nat) (f : Ctx → Ctx) :
    (x.modCtx c f).mxs = x.mxs := rfl
@[simp] theorem Exec.modCtx_msgs (x : Exec) (c : Nat) (f : Ctx → Ctx) :
    (x.modCtx c f).msgs = x.msgs := rfl
@[simp] theorem Exec.modCtx_outs (x : Exec) (c : Nat) (f : Ctx → Ctx) :
    (x.modCtx c f).outs = x.outs := rfl
@[simp] theorem Exec.modCtx_colls (x : Exec) (c : Nat) (f : Ctx → Ctx) :
    (x.modCtx c f).colls = x.colls := rfl
@[simp] theorem Exec.modCtx_collIn (x : Exec) (c : Nat) (f : Ctx → Ctx) :
    (x.modCtx c f).collIn = x.collIn := rfl
@[simp] theorem Exec.modCtx_groups (x : Exec) (c : Nat) (f : Ctx → Ctx) :
    (x.modCtx c f).groups = x.groups := rfl
@[simp] theorem Exec.modCtx_ports (x : Exec) (c : Nat) (f : Ctx → Ctx) :
    (x.modCtx c f).ports = x.ports := rfl
@[simp] theorem Exec.modCtx_txq (x : Exec) (c : Nat) (f : Ctx → Ctx) :
    (x.modCtx c f).txq = x.txq := rfl
@[simp] theorem Exec.modCtx_rank (x : Exec) (c : Nat) (f : Ctx → Ctx) :
    (x.modCtx c f).rank = x.rank := rfl
@[simp] theorem Exec.modCtx_routes (x : Exec) (c : Nat) (f : Ctx → Ctx) :
    (x.modCtx c f).routes = x.routes := rfl
@[simp] theorem Exec.modCtx_gangs (x : Exec) (c : Nat) (f : Ctx → Ctx) :
    (x.modCtx c f).gangs = x.gangs := rfl
@[simp] theorem Exec.modCtx_stitch (x : Exec) (c : Nat) (f : Ctx → Ctx) :
    (x.modCtx c f).stitch = x.stitch := rfl
@[simp] theorem Exec.modCtx_hostq (x : Exec) (c : Nat) (f : Ctx → Ctx) :
    (x.modCtx c f).hostq = x.hostq := rfl
@[simp] theorem Exec.modCtx_errq (x : Exec) (c : Nat) (f : Ctx → Ctx) :
    (x.modCtx c f).errq = x.errq := rfl

@[simp] theorem Exec.modFib_ctxs (x : Exec) (u f : Nat) (g : Fib → Fib) :
    (x.modFib u f g).ctxs = x.ctxs := rfl
@[simp] theorem Exec.modFib_grids (x : Exec) (u f : Nat) (g : Fib → Fib) :
    (x.modFib u f g).grids = x.grids := rfl
@[simp] theorem Exec.modFib_teams (x : Exec) (u f : Nat) (g : Fib → Fib) :
    (x.modFib u f g).teams = x.teams := rfl
@[simp] theorem Exec.modFib_waves (x : Exec) (u f : Nat) (g : Fib → Fib) :
    (x.modFib u f g).waves = SMap.modify x.waves u (fun w => w.modFib f g) := rfl
@[simp] theorem Exec.modFib_cores (x : Exec) (u f : Nat) (g : Fib → Fib) :
    (x.modFib u f g).cores = x.cores := rfl
@[simp] theorem Exec.modFib_cur (x : Exec) (u f : Nat) (g : Fib → Fib) :
    (x.modFib u f g).cur = x.cur := rfl
@[simp] theorem Exec.modFib_agenda (x : Exec) (u f : Nat) (g : Fib → Fib) :
    (x.modFib u f g).agenda = x.agenda := rfl
@[simp] theorem Exec.modFib_tick (x : Exec) (u f : Nat) (g : Fib → Fib) :
    (x.modFib u f g).tick = x.tick := rfl
@[simp] theorem Exec.modFib_fresh (x : Exec) (u f : Nat) (g : Fib → Fib) :
    (x.modFib u f g).fresh = x.fresh := rfl
@[simp] theorem Exec.modFib_free (x : Exec) (u f : Nat) (g : Fib → Fib) :
    (x.modFib u f g).free = x.free := rfl
@[simp] theorem Exec.modFib_rr (x : Exec) (u f : Nat) (g : Fib → Fib) :
    (x.modFib u f g).rr = x.rr := rfl
@[simp] theorem Exec.modFib_ptr (x : Exec) (u f : Nat) (g : Fib → Fib) :
    (x.modFib u f g).ptr = x.ptr := rfl
@[simp] theorem Exec.modFib_stages (x : Exec) (u f : Nat) (g : Fib → Fib) :
    (x.modFib u f g).stages = x.stages := rfl
@[simp] theorem Exec.modFib_copies (x : Exec) (u f : Nat) (g : Fib → Fib) :
    (x.modFib u f g).copies = x.copies := rfl
@[simp] theorem Exec.modFib_insts (x : Exec) (u f : Nat) (g : Fib → Fib) :
    (x.modFib u f g).insts = x.insts := rfl
@[simp] theorem Exec.modFib_nms (x : Exec) (u f : Nat) (g : Fib → Fib) :
    (x.modFib u f g).nms = x.nms := rfl
@[simp] theorem Exec.modFib_nmg (x : Exec) (u f : Nat) (g : Fib → Fib) :
    (x.modFib u f g).nmg = x.nmg := rfl
@[simp] theorem Exec.modFib_mxs (x : Exec) (u f : Nat) (g : Fib → Fib) :
    (x.modFib u f g).mxs = x.mxs := rfl
@[simp] theorem Exec.modFib_msgs (x : Exec) (u f : Nat) (g : Fib → Fib) :
    (x.modFib u f g).msgs = x.msgs := rfl
@[simp] theorem Exec.modFib_outs (x : Exec) (u f : Nat) (g : Fib → Fib) :
    (x.modFib u f g).outs = x.outs := rfl
@[simp] theorem Exec.modFib_colls (x : Exec) (u f : Nat) (g : Fib → Fib) :
    (x.modFib u f g).colls = x.colls := rfl
@[simp] theorem Exec.modFib_collIn (x : Exec) (u f : Nat) (g : Fib → Fib) :
    (x.modFib u f g).collIn = x.collIn := rfl
@[simp] theorem Exec.modFib_groups (x : Exec) (u f : Nat) (g : Fib → Fib) :
    (x.modFib u f g).groups = x.groups := rfl
@[simp] theorem Exec.modFib_ports (x : Exec) (u f : Nat) (g : Fib → Fib) :
    (x.modFib u f g).ports = x.ports := rfl
@[simp] theorem Exec.modFib_txq (x : Exec) (u f : Nat) (g : Fib → Fib) :
    (x.modFib u f g).txq = x.txq := rfl
@[simp] theorem Exec.modFib_rank (x : Exec) (u f : Nat) (g : Fib → Fib) :
    (x.modFib u f g).rank = x.rank := rfl
@[simp] theorem Exec.modFib_routes (x : Exec) (u f : Nat) (g : Fib → Fib) :
    (x.modFib u f g).routes = x.routes := rfl
@[simp] theorem Exec.modFib_gangs (x : Exec) (u f : Nat) (g : Fib → Fib) :
    (x.modFib u f g).gangs = x.gangs := rfl
@[simp] theorem Exec.modFib_stitch (x : Exec) (u f : Nat) (g : Fib → Fib) :
    (x.modFib u f g).stitch = x.stitch := rfl
@[simp] theorem Exec.modFib_hostq (x : Exec) (u f : Nat) (g : Fib → Fib) :
    (x.modFib u f g).hostq = x.hostq := rfl
@[simp] theorem Exec.modFib_errq (x : Exec) (u f : Nat) (g : Fib → Fib) :
    (x.modFib u f g).errq = x.errq := rfl

@[simp] theorem Exec.writeW_ctxs (x : Exec) (u k : Nat) (v : Word) :
    (x.writeW u k v).ctxs = x.ctxs := rfl
@[simp] theorem Exec.writeW_grids (x : Exec) (u k : Nat) (v : Word) :
    (x.writeW u k v).grids = x.grids := rfl
@[simp] theorem Exec.writeW_teams (x : Exec) (u k : Nat) (v : Word) :
    (x.writeW u k v).teams = x.teams := rfl
@[simp] theorem Exec.writeW_cores (x : Exec) (u k : Nat) (v : Word) :
    (x.writeW u k v).cores = x.cores := rfl
@[simp] theorem Exec.writeW_cur (x : Exec) (u k : Nat) (v : Word) :
    (x.writeW u k v).cur = x.cur := rfl
@[simp] theorem Exec.writeW_agenda (x : Exec) (u k : Nat) (v : Word) :
    (x.writeW u k v).agenda = x.agenda := rfl
@[simp] theorem Exec.writeW_tick (x : Exec) (u k : Nat) (v : Word) :
    (x.writeW u k v).tick = x.tick := rfl
@[simp] theorem Exec.writeW_fresh (x : Exec) (u k : Nat) (v : Word) :
    (x.writeW u k v).fresh = x.fresh := rfl
@[simp] theorem Exec.writeW_free (x : Exec) (u k : Nat) (v : Word) :
    (x.writeW u k v).free = x.free := rfl
@[simp] theorem Exec.writeW_rr (x : Exec) (u k : Nat) (v : Word) :
    (x.writeW u k v).rr = x.rr := rfl
@[simp] theorem Exec.writeW_ptr (x : Exec) (u k : Nat) (v : Word) :
    (x.writeW u k v).ptr = x.ptr := rfl
@[simp] theorem Exec.writeW_stages (x : Exec) (u k : Nat) (v : Word) :
    (x.writeW u k v).stages = x.stages := rfl
@[simp] theorem Exec.writeW_copies (x : Exec) (u k : Nat) (v : Word) :
    (x.writeW u k v).copies = x.copies := rfl
@[simp] theorem Exec.writeW_insts (x : Exec) (u k : Nat) (v : Word) :
    (x.writeW u k v).insts = x.insts := rfl
@[simp] theorem Exec.writeW_nms (x : Exec) (u k : Nat) (v : Word) :
    (x.writeW u k v).nms = x.nms := rfl
@[simp] theorem Exec.writeW_nmg (x : Exec) (u k : Nat) (v : Word) :
    (x.writeW u k v).nmg = x.nmg := rfl
@[simp] theorem Exec.writeW_mxs (x : Exec) (u k : Nat) (v : Word) :
    (x.writeW u k v).mxs = x.mxs := rfl
@[simp] theorem Exec.writeW_msgs (x : Exec) (u k : Nat) (v : Word) :
    (x.writeW u k v).msgs = x.msgs := rfl
@[simp] theorem Exec.writeW_outs (x : Exec) (u k : Nat) (v : Word) :
    (x.writeW u k v).outs = x.outs := rfl
@[simp] theorem Exec.writeW_colls (x : Exec) (u k : Nat) (v : Word) :
    (x.writeW u k v).colls = x.colls := rfl
@[simp] theorem Exec.writeW_collIn (x : Exec) (u k : Nat) (v : Word) :
    (x.writeW u k v).collIn = x.collIn := rfl
@[simp] theorem Exec.writeW_groups (x : Exec) (u k : Nat) (v : Word) :
    (x.writeW u k v).groups = x.groups := rfl
@[simp] theorem Exec.writeW_ports (x : Exec) (u k : Nat) (v : Word) :
    (x.writeW u k v).ports = x.ports := rfl
@[simp] theorem Exec.writeW_txq (x : Exec) (u k : Nat) (v : Word) :
    (x.writeW u k v).txq = x.txq := rfl
@[simp] theorem Exec.writeW_rank (x : Exec) (u k : Nat) (v : Word) :
    (x.writeW u k v).rank = x.rank := rfl
@[simp] theorem Exec.writeW_routes (x : Exec) (u k : Nat) (v : Word) :
    (x.writeW u k v).routes = x.routes := rfl
@[simp] theorem Exec.writeW_gangs (x : Exec) (u k : Nat) (v : Word) :
    (x.writeW u k v).gangs = x.gangs := rfl
@[simp] theorem Exec.writeW_stitch (x : Exec) (u k : Nat) (v : Word) :
    (x.writeW u k v).stitch = x.stitch := rfl
@[simp] theorem Exec.writeW_hostq (x : Exec) (u k : Nat) (v : Word) :
    (x.writeW u k v).hostq = x.hostq := rfl
@[simp] theorem Exec.writeW_errq (x : Exec) (u k : Nat) (v : Word) :
    (x.writeW u k v).errq = x.errq := rfl

@[simp] theorem Exec.writeV_ctxs (x : Exec) (u f k : Nat) (v : Word) :
    (x.writeV u f k v).ctxs = x.ctxs := rfl
@[simp] theorem Exec.writeV_grids (x : Exec) (u f k : Nat) (v : Word) :
    (x.writeV u f k v).grids = x.grids := rfl
@[simp] theorem Exec.writeV_teams (x : Exec) (u f k : Nat) (v : Word) :
    (x.writeV u f k v).teams = x.teams := rfl
@[simp] theorem Exec.writeV_cores (x : Exec) (u f k : Nat) (v : Word) :
    (x.writeV u f k v).cores = x.cores := rfl
@[simp] theorem Exec.writeV_cur (x : Exec) (u f k : Nat) (v : Word) :
    (x.writeV u f k v).cur = x.cur := rfl
@[simp] theorem Exec.writeV_agenda (x : Exec) (u f k : Nat) (v : Word) :
    (x.writeV u f k v).agenda = x.agenda := rfl
@[simp] theorem Exec.writeV_tick (x : Exec) (u f k : Nat) (v : Word) :
    (x.writeV u f k v).tick = x.tick := rfl
@[simp] theorem Exec.writeV_fresh (x : Exec) (u f k : Nat) (v : Word) :
    (x.writeV u f k v).fresh = x.fresh := rfl
@[simp] theorem Exec.writeV_free (x : Exec) (u f k : Nat) (v : Word) :
    (x.writeV u f k v).free = x.free := rfl
@[simp] theorem Exec.writeV_rr (x : Exec) (u f k : Nat) (v : Word) :
    (x.writeV u f k v).rr = x.rr := rfl
@[simp] theorem Exec.writeV_ptr (x : Exec) (u f k : Nat) (v : Word) :
    (x.writeV u f k v).ptr = x.ptr := rfl
@[simp] theorem Exec.writeV_stages (x : Exec) (u f k : Nat) (v : Word) :
    (x.writeV u f k v).stages = x.stages := rfl
@[simp] theorem Exec.writeV_copies (x : Exec) (u f k : Nat) (v : Word) :
    (x.writeV u f k v).copies = x.copies := rfl
@[simp] theorem Exec.writeV_insts (x : Exec) (u f k : Nat) (v : Word) :
    (x.writeV u f k v).insts = x.insts := rfl
@[simp] theorem Exec.writeV_nms (x : Exec) (u f k : Nat) (v : Word) :
    (x.writeV u f k v).nms = x.nms := rfl
@[simp] theorem Exec.writeV_nmg (x : Exec) (u f k : Nat) (v : Word) :
    (x.writeV u f k v).nmg = x.nmg := rfl
@[simp] theorem Exec.writeV_mxs (x : Exec) (u f k : Nat) (v : Word) :
    (x.writeV u f k v).mxs = x.mxs := rfl
@[simp] theorem Exec.writeV_msgs (x : Exec) (u f k : Nat) (v : Word) :
    (x.writeV u f k v).msgs = x.msgs := rfl
@[simp] theorem Exec.writeV_outs (x : Exec) (u f k : Nat) (v : Word) :
    (x.writeV u f k v).outs = x.outs := rfl
@[simp] theorem Exec.writeV_colls (x : Exec) (u f k : Nat) (v : Word) :
    (x.writeV u f k v).colls = x.colls := rfl
@[simp] theorem Exec.writeV_collIn (x : Exec) (u f k : Nat) (v : Word) :
    (x.writeV u f k v).collIn = x.collIn := rfl
@[simp] theorem Exec.writeV_groups (x : Exec) (u f k : Nat) (v : Word) :
    (x.writeV u f k v).groups = x.groups := rfl
@[simp] theorem Exec.writeV_ports (x : Exec) (u f k : Nat) (v : Word) :
    (x.writeV u f k v).ports = x.ports := rfl
@[simp] theorem Exec.writeV_txq (x : Exec) (u f k : Nat) (v : Word) :
    (x.writeV u f k v).txq = x.txq := rfl
@[simp] theorem Exec.writeV_rank (x : Exec) (u f k : Nat) (v : Word) :
    (x.writeV u f k v).rank = x.rank := rfl
@[simp] theorem Exec.writeV_routes (x : Exec) (u f k : Nat) (v : Word) :
    (x.writeV u f k v).routes = x.routes := rfl
@[simp] theorem Exec.writeV_gangs (x : Exec) (u f k : Nat) (v : Word) :
    (x.writeV u f k v).gangs = x.gangs := rfl
@[simp] theorem Exec.writeV_stitch (x : Exec) (u f k : Nat) (v : Word) :
    (x.writeV u f k v).stitch = x.stitch := rfl
@[simp] theorem Exec.writeV_hostq (x : Exec) (u f k : Nat) (v : Word) :
    (x.writeV u f k v).hostq = x.hostq := rfl
@[simp] theorem Exec.writeV_errq (x : Exec) (u f k : Nat) (v : Word) :
    (x.writeV u f k v).errq = x.errq := rfl

@[simp] theorem Exec.advance_ctxs (x : Exec) (i : Iss) (len : Nat) :
    (x.advance i len).ctxs = x.ctxs := rfl
@[simp] theorem Exec.advance_grids (x : Exec) (i : Iss) (len : Nat) :
    (x.advance i len).grids = x.grids := rfl
@[simp] theorem Exec.advance_teams (x : Exec) (i : Iss) (len : Nat) :
    (x.advance i len).teams = x.teams := rfl
@[simp] theorem Exec.advance_cores (x : Exec) (i : Iss) (len : Nat) :
    (x.advance i len).cores = x.cores := rfl
@[simp] theorem Exec.advance_cur (x : Exec) (i : Iss) (len : Nat) :
    (x.advance i len).cur = x.cur := rfl
@[simp] theorem Exec.advance_agenda (x : Exec) (i : Iss) (len : Nat) :
    (x.advance i len).agenda = x.agenda := rfl
@[simp] theorem Exec.advance_tick (x : Exec) (i : Iss) (len : Nat) :
    (x.advance i len).tick = x.tick := rfl
@[simp] theorem Exec.advance_fresh (x : Exec) (i : Iss) (len : Nat) :
    (x.advance i len).fresh = x.fresh := rfl
@[simp] theorem Exec.advance_free (x : Exec) (i : Iss) (len : Nat) :
    (x.advance i len).free = x.free := rfl
@[simp] theorem Exec.advance_rr (x : Exec) (i : Iss) (len : Nat) :
    (x.advance i len).rr = x.rr := rfl
@[simp] theorem Exec.advance_ptr (x : Exec) (i : Iss) (len : Nat) :
    (x.advance i len).ptr = x.ptr := rfl
@[simp] theorem Exec.advance_stages (x : Exec) (i : Iss) (len : Nat) :
    (x.advance i len).stages = x.stages := rfl
@[simp] theorem Exec.advance_copies (x : Exec) (i : Iss) (len : Nat) :
    (x.advance i len).copies = x.copies := rfl
@[simp] theorem Exec.advance_insts (x : Exec) (i : Iss) (len : Nat) :
    (x.advance i len).insts = x.insts := rfl
@[simp] theorem Exec.advance_nms (x : Exec) (i : Iss) (len : Nat) :
    (x.advance i len).nms = x.nms := rfl
@[simp] theorem Exec.advance_nmg (x : Exec) (i : Iss) (len : Nat) :
    (x.advance i len).nmg = x.nmg := rfl
@[simp] theorem Exec.advance_mxs (x : Exec) (i : Iss) (len : Nat) :
    (x.advance i len).mxs = x.mxs := rfl
@[simp] theorem Exec.advance_msgs (x : Exec) (i : Iss) (len : Nat) :
    (x.advance i len).msgs = x.msgs := rfl
@[simp] theorem Exec.advance_outs (x : Exec) (i : Iss) (len : Nat) :
    (x.advance i len).outs = x.outs := rfl
@[simp] theorem Exec.advance_colls (x : Exec) (i : Iss) (len : Nat) :
    (x.advance i len).colls = x.colls := rfl
@[simp] theorem Exec.advance_collIn (x : Exec) (i : Iss) (len : Nat) :
    (x.advance i len).collIn = x.collIn := rfl
@[simp] theorem Exec.advance_groups (x : Exec) (i : Iss) (len : Nat) :
    (x.advance i len).groups = x.groups := rfl
@[simp] theorem Exec.advance_ports (x : Exec) (i : Iss) (len : Nat) :
    (x.advance i len).ports = x.ports := rfl
@[simp] theorem Exec.advance_txq (x : Exec) (i : Iss) (len : Nat) :
    (x.advance i len).txq = x.txq := rfl
@[simp] theorem Exec.advance_rank (x : Exec) (i : Iss) (len : Nat) :
    (x.advance i len).rank = x.rank := rfl
@[simp] theorem Exec.advance_routes (x : Exec) (i : Iss) (len : Nat) :
    (x.advance i len).routes = x.routes := rfl
@[simp] theorem Exec.advance_gangs (x : Exec) (i : Iss) (len : Nat) :
    (x.advance i len).gangs = x.gangs := rfl
@[simp] theorem Exec.advance_stitch (x : Exec) (i : Iss) (len : Nat) :
    (x.advance i len).stitch = x.stitch := rfl
@[simp] theorem Exec.advance_hostq (x : Exec) (i : Iss) (len : Nat) :
    (x.advance i len).hostq = x.hostq := rfl
@[simp] theorem Exec.advance_errq (x : Exec) (i : Iss) (len : Nat) :
    (x.advance i len).errq = x.errq := rfl

@[simp] theorem Exec.err_ctxs (x : Exec) (e : ErrEnt) :
    (x.err e).ctxs = x.ctxs := rfl
@[simp] theorem Exec.err_grids (x : Exec) (e : ErrEnt) :
    (x.err e).grids = x.grids := rfl
@[simp] theorem Exec.err_teams (x : Exec) (e : ErrEnt) :
    (x.err e).teams = x.teams := rfl
@[simp] theorem Exec.err_waves (x : Exec) (e : ErrEnt) :
    (x.err e).waves = x.waves := rfl
@[simp] theorem Exec.err_cores (x : Exec) (e : ErrEnt) :
    (x.err e).cores = x.cores := rfl
@[simp] theorem Exec.err_cur (x : Exec) (e : ErrEnt) :
    (x.err e).cur = x.cur := rfl
@[simp] theorem Exec.err_agenda (x : Exec) (e : ErrEnt) :
    (x.err e).agenda = x.agenda := rfl
@[simp] theorem Exec.err_tick (x : Exec) (e : ErrEnt) :
    (x.err e).tick = x.tick := rfl
@[simp] theorem Exec.err_fresh (x : Exec) (e : ErrEnt) :
    (x.err e).fresh = x.fresh := rfl
@[simp] theorem Exec.err_free (x : Exec) (e : ErrEnt) :
    (x.err e).free = x.free := rfl
@[simp] theorem Exec.err_rr (x : Exec) (e : ErrEnt) :
    (x.err e).rr = x.rr := rfl
@[simp] theorem Exec.err_ptr (x : Exec) (e : ErrEnt) :
    (x.err e).ptr = x.ptr := rfl
@[simp] theorem Exec.err_stages (x : Exec) (e : ErrEnt) :
    (x.err e).stages = x.stages := rfl
@[simp] theorem Exec.err_copies (x : Exec) (e : ErrEnt) :
    (x.err e).copies = x.copies := rfl
@[simp] theorem Exec.err_insts (x : Exec) (e : ErrEnt) :
    (x.err e).insts = x.insts := rfl
@[simp] theorem Exec.err_nms (x : Exec) (e : ErrEnt) :
    (x.err e).nms = x.nms := rfl
@[simp] theorem Exec.err_nmg (x : Exec) (e : ErrEnt) :
    (x.err e).nmg = x.nmg := rfl
@[simp] theorem Exec.err_mxs (x : Exec) (e : ErrEnt) :
    (x.err e).mxs = x.mxs := rfl
@[simp] theorem Exec.err_msgs (x : Exec) (e : ErrEnt) :
    (x.err e).msgs = x.msgs := rfl
@[simp] theorem Exec.err_outs (x : Exec) (e : ErrEnt) :
    (x.err e).outs = x.outs := rfl
@[simp] theorem Exec.err_colls (x : Exec) (e : ErrEnt) :
    (x.err e).colls = x.colls := rfl
@[simp] theorem Exec.err_collIn (x : Exec) (e : ErrEnt) :
    (x.err e).collIn = x.collIn := rfl
@[simp] theorem Exec.err_groups (x : Exec) (e : ErrEnt) :
    (x.err e).groups = x.groups := rfl
@[simp] theorem Exec.err_ports (x : Exec) (e : ErrEnt) :
    (x.err e).ports = x.ports := rfl
@[simp] theorem Exec.err_txq (x : Exec) (e : ErrEnt) :
    (x.err e).txq = x.txq := rfl
@[simp] theorem Exec.err_rank (x : Exec) (e : ErrEnt) :
    (x.err e).rank = x.rank := rfl
@[simp] theorem Exec.err_routes (x : Exec) (e : ErrEnt) :
    (x.err e).routes = x.routes := rfl
@[simp] theorem Exec.err_gangs (x : Exec) (e : ErrEnt) :
    (x.err e).gangs = x.gangs := rfl
@[simp] theorem Exec.err_stitch (x : Exec) (e : ErrEnt) :
    (x.err e).stitch = x.stitch := rfl
@[simp] theorem Exec.err_hostq (x : Exec) (e : ErrEnt) :
    (x.err e).hostq = x.hostq := rfl
@[simp] theorem Exec.err_errq (x : Exec) (e : ErrEnt) :
    (x.err e).errq = x.errq ++ [e] := rfl

@[simp] theorem Exec.setStatus_ctxs (x : Exec) (t bit : Nat) :
    (x.setStatus t bit).ctxs = x.ctxs := rfl
@[simp] theorem Exec.setStatus_grids (x : Exec) (t bit : Nat) :
    (x.setStatus t bit).grids = x.grids := rfl
@[simp] theorem Exec.setStatus_waves (x : Exec) (t bit : Nat) :
    (x.setStatus t bit).waves = x.waves := rfl
@[simp] theorem Exec.setStatus_cores (x : Exec) (t bit : Nat) :
    (x.setStatus t bit).cores = x.cores := rfl
@[simp] theorem Exec.setStatus_cur (x : Exec) (t bit : Nat) :
    (x.setStatus t bit).cur = x.cur := rfl
@[simp] theorem Exec.setStatus_agenda (x : Exec) (t bit : Nat) :
    (x.setStatus t bit).agenda = x.agenda := rfl
@[simp] theorem Exec.setStatus_tick (x : Exec) (t bit : Nat) :
    (x.setStatus t bit).tick = x.tick := rfl
@[simp] theorem Exec.setStatus_fresh (x : Exec) (t bit : Nat) :
    (x.setStatus t bit).fresh = x.fresh := rfl
@[simp] theorem Exec.setStatus_free (x : Exec) (t bit : Nat) :
    (x.setStatus t bit).free = x.free := rfl
@[simp] theorem Exec.setStatus_rr (x : Exec) (t bit : Nat) :
    (x.setStatus t bit).rr = x.rr := rfl
@[simp] theorem Exec.setStatus_ptr (x : Exec) (t bit : Nat) :
    (x.setStatus t bit).ptr = x.ptr := rfl
@[simp] theorem Exec.setStatus_stages (x : Exec) (t bit : Nat) :
    (x.setStatus t bit).stages = x.stages := rfl
@[simp] theorem Exec.setStatus_copies (x : Exec) (t bit : Nat) :
    (x.setStatus t bit).copies = x.copies := rfl
@[simp] theorem Exec.setStatus_insts (x : Exec) (t bit : Nat) :
    (x.setStatus t bit).insts = x.insts := rfl
@[simp] theorem Exec.setStatus_nms (x : Exec) (t bit : Nat) :
    (x.setStatus t bit).nms = x.nms := rfl
@[simp] theorem Exec.setStatus_nmg (x : Exec) (t bit : Nat) :
    (x.setStatus t bit).nmg = x.nmg := rfl
@[simp] theorem Exec.setStatus_mxs (x : Exec) (t bit : Nat) :
    (x.setStatus t bit).mxs = x.mxs := rfl
@[simp] theorem Exec.setStatus_msgs (x : Exec) (t bit : Nat) :
    (x.setStatus t bit).msgs = x.msgs := rfl
@[simp] theorem Exec.setStatus_outs (x : Exec) (t bit : Nat) :
    (x.setStatus t bit).outs = x.outs := rfl
@[simp] theorem Exec.setStatus_colls (x : Exec) (t bit : Nat) :
    (x.setStatus t bit).colls = x.colls := rfl
@[simp] theorem Exec.setStatus_collIn (x : Exec) (t bit : Nat) :
    (x.setStatus t bit).collIn = x.collIn := rfl
@[simp] theorem Exec.setStatus_groups (x : Exec) (t bit : Nat) :
    (x.setStatus t bit).groups = x.groups := rfl
@[simp] theorem Exec.setStatus_ports (x : Exec) (t bit : Nat) :
    (x.setStatus t bit).ports = x.ports := rfl
@[simp] theorem Exec.setStatus_txq (x : Exec) (t bit : Nat) :
    (x.setStatus t bit).txq = x.txq := rfl
@[simp] theorem Exec.setStatus_rank (x : Exec) (t bit : Nat) :
    (x.setStatus t bit).rank = x.rank := rfl
@[simp] theorem Exec.setStatus_routes (x : Exec) (t bit : Nat) :
    (x.setStatus t bit).routes = x.routes := rfl
@[simp] theorem Exec.setStatus_gangs (x : Exec) (t bit : Nat) :
    (x.setStatus t bit).gangs = x.gangs := rfl
@[simp] theorem Exec.setStatus_stitch (x : Exec) (t bit : Nat) :
    (x.setStatus t bit).stitch = x.stitch := rfl
@[simp] theorem Exec.setStatus_hostq (x : Exec) (t bit : Nat) :
    (x.setStatus t bit).hostq = x.hostq := rfl
@[simp] theorem Exec.setStatus_errq (x : Exec) (t bit : Nat) :
    (x.setStatus t bit).errq = x.errq := rfl

@[simp] theorem Wave.modFib_team (w : Wave) (f : Nat) (g : Fib → Fib) :
    (w.modFib f g).team = w.team := rfl
@[simp] theorem Wave.modFib_idx (w : Wave) (f : Nat) (g : Fib → Fib) :
    (w.modFib f g).idx = w.idx := rfl
@[simp] theorem Wave.modFib_role (w : Wave) (f : Nat) (g : Fib → Fib) :
    (w.modFib f g).role = w.role := rfl
@[simp] theorem Wave.modFib_quad (w : Wave) (f : Nat) (g : Fib → Fib) :
    (w.modFib f g).quad = w.quad := rfl
@[simp] theorem Wave.modFib_v (w : Wave) (f : Nat) (g : Fib → Fib) :
    (w.modFib f g).v = w.v := rfl
@[simp] theorem Wave.modFib_vpois (w : Wave) (f : Nat) (g : Fib → Fib) :
    (w.modFib f g).vpois = w.vpois := rfl
@[simp] theorem Wave.modFib_w (w : Wave) (f : Nat) (g : Fib → Fib) :
    (w.modFib f g).w = w.w := rfl
@[simp] theorem Wave.modFib_key (w : Wave) (f : Nat) (g : Fib → Fib) :
    (w.modFib f g).key = w.key := rfl
@[simp] theorem Wave.modFib_handles (w : Wave) (f : Nat) (g : Fib → Fib) :
    (w.modFib f g).handles = w.handles := rfl
@[simp] theorem Wave.modFib_hold (w : Wave) (f : Nat) (g : Fib → Fib) :
    (w.modFib f g).hold = w.hold := rfl
@[simp] theorem Wave.modFib_holdPc (w : Wave) (f : Nat) (g : Fib → Fib) :
    (w.modFib f g).holdPc = w.holdPc := rfl
@[simp] theorem Wave.modFib_log (w : Wave) (f : Nat) (g : Fib → Fib) :
    (w.modFib f g).log = w.log := rfl
@[simp] theorem Wave.modFib_pend (w : Wave) (f : Nat) (g : Fib → Fib) :
    (w.modFib f g).pend = w.pend := rfl
@[simp] theorem Wave.modFib_staged (w : Wave) (f : Nat) (g : Fib → Fib) :
    (w.modFib f g).staged = w.staged := rfl
@[simp] theorem Wave.modFib_handler (w : Wave) (f : Nat) (g : Fib → Fib) :
    (w.modFib f g).handler = w.handler := rfl
@[simp] theorem Wave.modFib_exited (w : Wave) (f : Nat) (g : Fib → Fib) :
    (w.modFib f g).exited = w.exited := rfl
@[simp] theorem Wave.modFib_stamp (w : Wave) (f : Nat) (g : Fib → Fib) :
    (w.modFib f g).stamp = w.stamp := rfl
@[simp] theorem Wave.modFib_retired (w : Wave) (f : Nat) (g : Fib → Fib) :
    (w.modFib f g).retired = w.retired := rfl
@[simp] theorem Wave.modFib_qcount (w : Wave) (f : Nat) (g : Fib → Fib) :
    (w.modFib f g).qcount = w.qcount := rfl
@[simp] theorem Wave.modFib_quanta (w : Wave) (f : Nat) (g : Fib → Fib) :
    (w.modFib f g).quanta = w.quanta := rfl
@[simp] theorem Wave.modFib_closed (w : Wave) (f : Nat) (g : Fib → Fib) :
    (w.modFib f g).closed = w.closed := rfl
@[simp] theorem Wave.modFib_resumed (w : Wave) (f : Nat) (g : Fib → Fib) :
    (w.modFib f g).resumed = w.resumed := rfl
@[simp] theorem Wave.modFib_runs (w : Wave) (f : Nat) (g : Fib → Fib) :
    (w.modFib f g).runs = w.runs := rfl
@[simp] theorem Wave.modFib_hang (w : Wave) (f : Nat) (g : Fib → Fib) :
    (w.modFib f g).hang = w.hang := rfl
@[simp] theorem Wave.modFib_starved (w : Wave) (f : Nat) (g : Fib → Fib) :
    (w.modFib f g).starved = w.starved := rfl
@[simp] theorem Wave.modFib_since (w : Wave) (f : Nat) (g : Fib → Fib) :
    (w.modFib f g).since = w.since := rfl
@[simp] theorem Wave.modFib_arrGen (w : Wave) (f : Nat) (g : Fib → Fib) :
    (w.modFib f g).arrGen = w.arrGen := rfl
@[simp] theorem Wave.modFib_obsTags (w : Wave) (f : Nat) (g : Fib → Fib) :
    (w.modFib f g).obsTags = w.obsTags := rfl
@[simp] theorem Wave.modFib_lines (w : Wave) (f : Nat) (g : Fib → Fib) :
    (w.modFib f g).lines = w.lines := rfl
@[simp] theorem Wave.modFib_hfmts (w : Wave) (f : Nat) (g : Fib → Fib) :
    (w.modFib f g).hfmts = w.hfmts := rfl
@[simp] theorem Wave.modFib_imaged (w : Wave) (f : Nat) (g : Fib → Fib) :
    (w.modFib f g).imaged = w.imaged := rfl
@[simp] theorem Wave.modFib_unset (w : Wave) (f : Nat) (g : Fib → Fib) :
    (w.modFib f g).unset = w.unset := rfl
@[simp] theorem Wave.modFib_passing (w : Wave) (f : Nat) (g : Fib → Fib) :
    (w.modFib f g).passing = w.passing := rfl
@[simp] theorem Wave.modFib_fibs (w : Wave) (f : Nat) (g : Fib → Fib) :
    (w.modFib f g).fibs = w.fibs.put {} f (g (w.fib f)) := rfl

end Sys2Proof.Machine
end

