-- ==== Sys2Proof/Laws/Fibre.lean ====
section
/-! SUPPORT. Waves, fibres and register windows: what a read after a write gives, and everything that the result of one
per-fibre instruction does. -/

namespace Sys2Proof.Machine

/-! ### Waves and fibres -/

theorem Exec.wave?_modWave (x : Exec) (u v : Nat) (f : Wave → Wave) :
    (x.modWave u f).wave? v = if v = u then (x.wave? v).map f else x.wave? v := SMap.find?_modify ..

theorem Wave.fib_modFib (w : Wave) (f g : Nat) (h : Fib → Fib) :
    (w.modFib f h).fib g = if g = f then h (w.fib f) else w.fib g := SMap.get_put ..

theorem Exec.wave?_modFib (x : Exec) (u v f : Nat) (g : Fib → Fib) :
    (x.modFib u f g).wave? v = if v = u then (x.wave? v).map (·.modFib f g) else x.wave? v := x.wave?_modWave ..

theorem Exec.fib_modFib (x : Exec) (u f v k : Nat) (g : Fib → Fib) (hu : (x.wave? u).isSome = true) :
    (x.modFib u f g).fib v k = if v = u ∧ k = f then g (x.fib v k) else x.fib v k := by
  unfold Exec.fib
  rw [Exec.wave?_modFib]
  by_cases e : v = u
  · subst e
    obtain ⟨w, hw⟩ := Option.isSome_iff_exists.1 hu
    simp only [hw, if_true, Option.map_some, Option.elim_some, Wave.fib_modFib, true_and]
    by_cases e2 : k = f <;> simp [e2]
  · simp [e]

theorem Exec.slotReg_modFib (x : Exec) (u f v a k : Nat) (g : Fib → Fib) :
    (x.modFib u f g).slotReg v a k = x.slotReg v a k := by
  unfold Exec.slotReg
  rw [Exec.wave?_modFib]
  split
  · cases x.wave? v <;> rfl
  · rfl

theorem Exec.slotPois_modFib (x : Exec) (u f v a k : Nat) (g : Fib → Fib) :
    (x.modFib u f g).slotPois v a k = x.slotPois v a k := by
  unfold Exec.slotPois
  rw [Exec.wave?_modFib]
  split
  · cases x.wave? v <;> rfl
  · rfl

theorem Exec.bare_modFib (x : Exec) (u f v : Nat) (g : Fib → Fib) :
    ((x.modFib u f g).wave? v).map Wave.bare = (x.wave? v).map Wave.bare := by
  rw [Exec.wave?_modFib]
  split
  · cases x.wave? v <;> rfl
  · rfl

theorem Exec.isSome_modFib (x : Exec) (u f v : Nat) (g : Fib → Fib) :
    ((x.modFib u f g).wave? v).isSome = (x.wave? v).isSome := by
  rw [Exec.wave?_modFib]; split <;> simp

/-! ### Register windows -/

/-- A window depends on which fibre each handler fibre serves, and on nothing else. -/
theorem Exec.window_congr {x y : Exec} (h : ∀ u f, (y.fib u f).org = (x.fib u f).org) (u f : Nat) :
    y.window u f = x.window u f := by
  unfold Exec.window
  rw [h]
  cases (x.fib u f).org with
  | none => rfl
  | some p => simp only [h]

theorem Exec.wave?_writeV (x : Exec) (u f k v : Nat) (b : Word) : (x.writeV u f k b).wave? v =
    if v = (x.window u f).1 then (x.wave? v).map fun w =>
      { w with v := w.v.put 0 (128 * k + (x.window u f).2) b, vpois := setDel w.vpois (128 * k + (x.window u f).2) }
    else x.wave? v := x.wave?_modWave ..

theorem Exec.fib_writeV (x : Exec) (u f k v g : Nat) (b : Word) : (x.writeV u f k b).fib v g = x.fib v g := by
  unfold Exec.fib
  rw [Exec.wave?_writeV]
  split
  · cases x.wave? v <;> rfl
  · rfl

theorem Exec.bare_writeV (x : Exec) (u f k v : Nat) (b : Word) :
    ((x.writeV u f k b).wave? v).map Wave.bare = (x.wave? v).map Wave.bare := by
  rw [Exec.wave?_writeV]
  split
  · cases x.wave? v <;> rfl
  · rfl

theorem Exec.isSome_writeV (x : Exec) (u f k v : Nat) (b : Word) :
    ((x.writeV u f k b).wave? v).isSome = (x.wave? v).isSome := by
  rw [Exec.wave?_writeV]; split <;> simp

theorem Exec.slotReg_writeV (x : Exec) (u f k v a j : Nat) (b : Word) (hw : (x.wave? (x.window u f).1).isSome = true)
    (hs : (x.window u f).2 < 128) (ha : a < 128) :
    (x.writeV u f k b).slotReg v a j = if x.window u f = (v, a) ∧ j = k then b else x.slotReg v a j := by
  unfold Exec.slotReg
  rw [Exec.wave?_writeV]
  by_cases e : v = (x.window u f).1
  · subst e
    obtain ⟨w, hw⟩ := Option.isSome_iff_exists.1 hw
    simp only [hw, if_true, Option.map_some, Option.elim_some, Wave.reg, SMap.get_put]
    by_cases e2 : 128 * j + a = 128 * k + (x.window u f).2
    · have : a = (x.window u f).2 ∧ j = k := by omega
      simp [this.1.symm, this.2, Prod.ext_iff]
    · rw [if_neg e2, if_neg]
      rintro ⟨h, rfl⟩
      rw [h] at e2
      exact e2 rfl
  · rw [if_neg e, if_neg]
    rintro ⟨h, -⟩
    rw [h] at e
    exact e rfl

theorem mem_setDel (l : List Nat) (i j : Nat) : (setDel l i).contains j = (l.contains j && !decide (j = i)) := by
  rw [Bool.eq_iff_iff]
  simp [setDel, List.mem_filter]

theorem Exec.slotPois_writeV (x : Exec) (u f k v a j : Nat) (b : Word) (hs : (x.window u f).2 < 128) (ha : a < 128) :
    (x.writeV u f k b).slotPois v a j = (x.slotPois v a j && !decide (x.window u f = (v, a) ∧ j = k)) := by
  unfold Exec.slotPois
  rw [Exec.wave?_writeV]
  by_cases e : v = (x.window u f).1
  · subst e
    cases hw : x.wave? (x.window u f).1 with
    | none => simp
    | some w =>
      simp only [if_true, Option.map_some, Option.elim_some, mem_setDel]
      congr 2
      rw [decide_eq_decide]
      constructor
      · intro h
        have : a = (x.window u f).2 ∧ j = k := by omega
        exact ⟨Prod.ext rfl this.1.symm, this.2⟩
      · rintro ⟨h, rfl⟩
        rw [h]
  · rw [if_neg e]
    have : ¬ (x.window u f = (v, a) ∧ j = k) := by
      rintro ⟨h, -⟩
      rw [h] at e
      exact e rfl
    simp [this]

/-- A read of V is a read of the window's slot. -/
theorem Exec.readV_eq (x : Exec) (u f k : Nat) : x.readV u f k = x.slotReg (x.window u f).1 (x.window u f).2 k := rfl

/-! ### Several writes -/

/-- The register writes of one fibre, in their order. -/
def Exec.writeVs (x : Exec) (u f : Nat) (l : List (Nat × Word)) : Exec := l.foldl (fun x p => x.writeV u f p.1 p.2) x

theorem Exec.fib_writeVs (l : List (Nat × Word)) (x : Exec) (u f v g : Nat) : (x.writeVs u f l).fib v g = x.fib v g := by
  induction l generalizing x with
  | nil => rfl
  | cons p r ih => exact (ih (x.writeV u f p.1 p.2)).trans (x.fib_writeV ..)

theorem Exec.window_writeVs (l : List (Nat × Word)) (x : Exec) (u f v g : Nat) :
    (x.writeVs u f l).window v g = x.window v g :=
  Exec.window_congr (fun _ _ => by rw [Exec.fib_writeVs]) ..

theorem Exec.window_writeV (x : Exec) (u f k v g : Nat) (b : Word) : (x.writeV u f k b).window v g = x.window v g :=
  Exec.window_congr (fun _ _ => by rw [Exec.fib_writeV]) ..

theorem Exec.bare_writeVs (l : List (Nat × Word)) (x : Exec) (u f v : Nat) :
    ((x.writeVs u f l).wave? v).map Wave.bare = (x.wave? v).map Wave.bare := by
  induction l generalizing x with
  | nil => rfl
  | cons p r ih => exact (ih (x.writeV u f p.1 p.2)).trans (x.bare_writeV ..)

theorem Exec.isSome_of_bare {x y : Exec} {v : Nat} (h : (y.wave? v).map Wave.bare = (x.wave? v).map Wave.bare) :
    (y.wave? v).isSome = (x.wave? v).isSome := by
  have := congrArg Option.isSome h
  simpa using this

/-- Writes of registers change waves only. -/
theorem Exec.rest_writeVs (l : List (Nat × Word)) (x : Exec) (u f : Nat) :
    { x.writeVs u f l with waves := x.waves } = x := by
  induction l generalizing x with
  | nil => rfl
  | cons p r ih =>
    have h := ih (x.writeV u f p.1 p.2)
    have e : { x.writeVs u f (p :: r) with waves := x.waves } =
      { { (x.writeV u f p.1 p.2).writeVs u f r with waves := (x.writeV u f p.1 p.2).waves } with waves := x.waves } := rfl
    rw [e, h]
    rfl

theorem Exec.slotReg_writeVs (l : List (Nat × Word)) (x : Exec) (u f v a j : Nat)
    (hw : (x.wave? (x.window u f).1).isSome = true) (hs : (x.window u f).2 < 128) (ha : a < 128) :
    (x.writeVs u f l).slotReg v a j =
      if x.window u f = (v, a) then regAfter (x.slotReg v a j) j l else x.slotReg v a j := by
  induction l generalizing x with
  | nil => simp [Exec.writeVs, regAfter]
  | cons p r ih =>
    have hwin := x.window_writeV u f p.1 u f p.2
    have h := ih (x.writeV u f p.1 p.2) (by rw [hwin, Exec.isSome_writeV]; exact hw) (by rw [hwin]; exact hs)
    change ((x.writeV u f p.1 p.2).writeVs u f r).slotReg v a j = _
    rw [h, hwin, x.slotReg_writeV u f p.1 v a j p.2 hw hs ha]
    by_cases e : x.window u f = (v, a)
    · simp only [e, if_true, true_and, regAfter, List.foldl_cons]
      by_cases e2 : j = p.1
      · subst e2; simp
      · simp [e2, Ne.symm e2]
    · simp [e]

theorem Exec.slotPois_writeVs (l : List (Nat × Word)) (x : Exec) (u f v a j : Nat)
    (hs : (x.window u f).2 < 128) (ha : a < 128) :
    (x.writeVs u f l).slotPois v a j =
      (x.slotPois v a j && !(decide (x.window u f = (v, a)) && l.any fun p => decide (p.1 = j))) := by
  induction l generalizing x with
  | nil => simp [Exec.writeVs]
  | cons p r ih =>
    have hwin := x.window_writeV u f p.1 u f p.2
    have h := ih (x.writeV u f p.1 p.2) (by rw [hwin]; exact hs)
    change ((x.writeV u f p.1 p.2).writeVs u f r).slotPois v a j = _
    rw [h, hwin, x.slotPois_writeV u f p.1 v a j p.2 hs ha]
    by_cases e : x.window u f = (v, a)
    · by_cases e2 : j = p.1
      · subst e2; simp [e]
      · simp [e, e2, Ne.symm e2]
    · simp [e]

/-! ### The result of one fibre -/

/-- The fibre's own record after a result that does not trap. -/
def fibRes (x : Exec) (i : Iss) (la f : Nat) (r : Res) (u g : Nat) : Fib :=
  let b := x.fib u g
  { b with
    preds := if u = i.u ∧ g = f then (r.p.foldl (fun b p => b.setPred p.1 p.2) b).preds else b.preds
    wins := if u = i.u ∧ g = f ∧ la ≠ 0 then b.wins ++ [⟨x.fresh, la, r.v, []⟩] else b.wins
    draws := if x.window i.u f = (u, g) then (if r.draws = 0 then b.draws else (b.draws + r.draws) % 2 ^ 32) else b.draws }

theorem Exec.teams_setStatusIf (x : Exec) (c : Bool) (t bit k : Nat) :
    (x.setStatusIf c t bit).teams.find? k = (x.teams.find? k).map fun m =>
      if k = t then { m with status := m.status ||| (if c then BitVec.ofNat 32 (2 ^ bit) else 0) } else m := by
  unfold Exec.setStatusIf
  cases c
  · by_cases e : k = t <;> cases h : x.teams.find? k <;> simp [h]
  · simp only [if_true, Exec.setStatus, Exec.modTeam, SMap.find?_modify]
    by_cases e : k = t <;> cases h : x.teams.find? k <;> simp [e]

theorem Exec.rest_setStatusIf (x : Exec) (c : Bool) (t bit : Nat) : { x.setStatusIf c t bit with teams := x.teams } = x := by
  cases c <;> rfl
theorem Exec.waves_setStatusIf (x : Exec) (c : Bool) (t bit : Nat) : (x.setStatusIf c t bit).waves = x.waves := by
  cases c <;> rfl
theorem Exec.fresh_setStatusIf (x : Exec) (c : Bool) (t bit : Nat) : (x.setStatusIf c t bit).fresh = x.fresh := by
  cases c <;> rfl

theorem Fib.setPreds_eq (l : List (Nat × Bool)) (b : Fib) :
    l.foldl (fun b p => b.setPred p.1 p.2) b = { b with preds := (l.foldl (fun b p => b.setPred p.1 p.2) b).preds } := by
  induction l generalizing b with
  | nil => rfl
  | cons p r ih =>
    rw [List.foldl_cons, ih]
    unfold Fib.setPred
    split <;> rfl

theorem Fib.setPreds_preds (l : List (Nat × Bool)) (b c : Fib) (h : b.preds = c.preds) :
    (l.foldl (fun b p => b.setPred p.1 p.2) b).preds = (l.foldl (fun b p => b.setPred p.1 p.2) c).preds := by
  induction l generalizing b c with
  | nil => exact h
  | cons p r ih =>
    rw [List.foldl_cons, List.foldl_cons]
    apply ih
    unfold Fib.setPred
    split <;> simp [h]

theorem Exec.fib_addDraws (x : Exec) (u f n v g : Nat) (hw : (x.wave? (x.window u f).1).isSome = true) :
    (x.addDraws u f n).fib v g = { x.fib v g with
      draws := if x.window u f = (v, g) then (if n = 0 then (x.fib v g).draws else ((x.fib v g).draws + n) % 2 ^ 32)
        else (x.fib v g).draws } := by
  unfold Exec.addDraws
  by_cases hn : n = 0
  · simp [hn]
  · simp only [hn, if_false]
    rw [Exec.fib_modFib _ _ _ _ _ _ hw]
    by_cases e : x.window u f = (v, g)
    · simp [e]
    · rw [if_neg (fun h => e (Prod.ext h.1.symm h.2.symm)), if_neg e]

theorem Exec.bare_addDraws (x : Exec) (u f n v : Nat) :
    ((x.addDraws u f n).wave? v).map Wave.bare = (x.wave? v).map Wave.bare := by
  unfold Exec.addDraws
  split
  · rfl
  · exact x.bare_modFib ..

theorem Exec.slotReg_addDraws (x : Exec) (u f n v a k : Nat) : (x.addDraws u f n).slotReg v a k = x.slotReg v a k := by
  unfold Exec.addDraws
  split
  · rfl
  · exact x.slotReg_modFib ..

theorem Exec.slotPois_addDraws (x : Exec) (u f n v a k : Nat) :
    (x.addDraws u f n).slotPois v a k = x.slotPois v a k := by
  unfold Exec.addDraws
  split
  · rfl
  · exact x.slotPois_modFib ..

theorem Exec.rest_addDraws (x : Exec) (u f n : Nat) : { x.addDraws u f n with waves := x.waves } = x := by
  unfold Exec.addDraws
  split <;> rfl

/-- What a result that does not trap does. -/
structure ResDone (x y : Exec) (i : Iss) (la f : Nat) (r : Res) : Prop where
  rest  : { y with waves := x.waves, fresh := x.fresh, teams := x.teams } = x
  fresh : y.fresh = x.fresh + (if la = 0 then 0 else 1)
  teams : ∀ k, y.teams.find? k = (x.teams.find? k).map fun m =>
            if k = i.w.team then { m with status := m.status ||| r.raised } else m
  bare  : ∀ u, (y.wave? u).map Wave.bare = (x.wave? u).map Wave.bare
  regs  : ∀ u a k, a < 128 → y.slotReg u a k =
            if x.window i.u f = (u, a) ∧ la = 0 then regAfter (x.slotReg u a k) k r.v else x.slotReg u a k
  pois  : ∀ u a k, a < 128 → y.slotPois u a k =
            (x.slotPois u a k && !(decide (x.window i.u f = (u, a) ∧ la = 0) && r.v.any fun p => decide (p.1 = k)))
  fibs  : ∀ u g, y.fib u g = fibRes x i la f r u g

theorem Exec.wave?_congr {x y : Exec} (h : y.waves = x.waves) (u : Nat) : y.wave? u = x.wave? u := by
  unfold Exec.wave?; rw [h]
theorem Exec.fib_congr {x y : Exec} (h : y.waves = x.waves) (u f : Nat) : y.fib u f = x.fib u f := by
  unfold Exec.fib; rw [Exec.wave?_congr h]
theorem Exec.slotReg_congr {x y : Exec} (h : y.waves = x.waves) (u a k : Nat) : y.slotReg u a k = x.slotReg u a k := by
  unfold Exec.slotReg; rw [Exec.wave?_congr h]
theorem Exec.slotPois_congr {x y : Exec} (h : y.waves = x.waves) (u a k : Nat) : y.slotPois u a k = x.slotPois u a k := by
  unfold Exec.slotPois; rw [Exec.wave?_congr h]

/-- The register writes of a result: made at once, or kept in a window. -/
def Exec.place (x : Exec) (u f la : Nat) (l : List (Nat × Word)) : Exec :=
  if la = 0 then x.writeVs u f l
  else { x.modFib u f (fun b => { b with wins := b.wins ++ [⟨x.fresh, la, l, []⟩] }) with fresh := x.fresh + 1 }

theorem Exec.bare_place (x : Exec) (u f la v : Nat) (l : List (Nat × Word)) :
    ((x.place u f la l).wave? v).map Wave.bare = (x.wave? v).map Wave.bare := by
  unfold Exec.place
  split
  · exact Exec.bare_writeVs ..
  · exact Exec.bare_modFib ..

theorem Exec.fib_place (x : Exec) (u f la v g : Nat) (l : List (Nat × Word)) (hu : (x.wave? u).isSome = true) :
    (x.place u f la l).fib v g = { x.fib v g with
      wins := if v = u ∧ g = f ∧ la ≠ 0 then (x.fib v g).wins ++ [⟨x.fresh, la, l, []⟩] else (x.fib v g).wins } := by
  unfold Exec.place
  by_cases h : la = 0
  · rw [if_pos h, Exec.fib_writeVs]; simp [h]
  · rw [if_neg h]
    have e : ({ x.modFib u f (fun b => { b with wins := b.wins ++ [⟨x.fresh, la, l, []⟩] }) with
        fresh := x.fresh + 1 } : Exec).fib v g =
      (x.modFib u f (fun b => { b with wins := b.wins ++ [⟨x.fresh, la, l, []⟩] })).fib v g := rfl
    rw [e, Exec.fib_modFib _ _ _ _ _ _ hu]
    by_cases k : v = u ∧ g = f
    · simp [k.1, k.2, h]
    · rw [if_neg k, if_neg (fun j => k ⟨j.1, j.2.1⟩)]

theorem Exec.slotReg_place (x : Exec) (u f la v a k : Nat) (l : List (Nat × Word))
    (hw : (x.wave? (x.window u f).1).isSome = true) (hs : (x.window u f).2 < 128) (ha : a < 128) :
    (x.place u f la l).slotReg v a k =
      if x.window u f = (v, a) ∧ la = 0 then regAfter (x.slotReg v a k) k l else x.slotReg v a k := by
  unfold Exec.place
  by_cases h : la = 0
  · rw [if_pos h, Exec.slotReg_writeVs _ _ _ _ _ _ _ hw hs ha]; simp [h]
  · rw [if_neg h, if_neg (fun k => h k.2)]
    exact Exec.slotReg_modFib ..

theorem Exec.slotPois_place (x : Exec) (u f la v a k : Nat) (l : List (Nat × Word))
    (hs : (x.window u f).2 < 128) (ha : a < 128) : (x.place u f la l).slotPois v a k =
      (x.slotPois v a k && !(decide (x.window u f = (v, a) ∧ la = 0) && l.any fun p => decide (p.1 = k))) := by
  unfold Exec.place
  by_cases h : la = 0
  · rw [if_pos h, Exec.slotPois_writeVs _ _ _ _ _ _ _ hs ha]; simp [h]
  · rw [if_neg h]
    simp only [h, and_false, decide_false, Bool.false_and, Bool.not_false, Bool.and_true]
    exact Exec.slotPois_modFib ..

theorem Exec.rest_place (x : Exec) (u f la : Nat) (l : List (Nat × Word)) :
    { x.place u f la l with waves := x.waves, fresh := x.fresh } = x := by
  unfold Exec.place
  split
  · have h := Exec.rest_writeVs l x u f
    have e : { x.writeVs u f l with waves := x.waves, fresh := x.fresh } =
      { { x.writeVs u f l with waves := x.waves } with fresh := x.fresh } := rfl
    rw [e, h]
  · rfl

theorem Exec.fresh_place (x : Exec) (u f la : Nat) (l : List (Nat × Word)) :
    (x.place u f la l).fresh = x.fresh + (if la = 0 then 0 else 1) := by
  unfold Exec.place
  split
  · have h := congrArg Exec.fresh (Exec.rest_writeVs l x u f)
    exact h
  · rfl

/-- A result that does not trap, stage by stage. -/
theorem Exec.applyRes_stages (x : Exec) (i : Iss) (la len f : Nat) (r : Res) (ht : r.trap = none) :
    x.applyRes i la len f r =
      ((((((x.setStatusIf r.oob i.w.team stOOB).place i.u f la r.v).modFib i.u f
        fun b => r.p.foldl (fun b p => b.setPred p.1 p.2) b).addDraws i.u f r.draws).setStatusIf
          r.ovf i.w.team stOVF).setStatusIf r.nan i.w.team stNAN) := by
  simp only [Exec.applyRes, Exec.place, ht]
  rfl

theorem Exec.applyRes_done (x : Exec) (i : Iss) (la len f : Nat) (r : Res) (ht : r.trap = none)
    (hu : (x.wave? i.u).isSome = true) (hw : (x.wave? (x.window i.u f).1).isSome = true)
    (hs : (x.window i.u f).2 < 128) : ResDone x (x.applyRes i la len f r) i la f r := by
  rw [x.applyRes_stages i la len f r ht]
  have w1 := x.waves_setStatusIf r.oob i.w.team stOOB
  have f1 := x.fresh_setStatusIf r.oob i.w.team stOOB
  have t1 := x.rest_setStatusIf r.oob i.w.team stOOB
  have tm1 := x.teams_setStatusIf r.oob i.w.team stOOB
  generalize x.setStatusIf r.oob i.w.team stOOB = x1 at w1 f1 t1 tm1 ⊢
  have win1 : ∀ u g, x1.window u g = x.window u g := Exec.window_congr fun u g => by rw [Exec.fib_congr w1]
  have hu1 : (x1.wave? i.u).isSome = true := by rw [Exec.wave?_congr w1]; exact hu
  have hw1 : (x1.wave? (x1.window i.u f).1).isSome = true := by rw [Exec.wave?_congr w1, win1]; exact hw
  have hs1 : (x1.window i.u f).2 < 128 := by rw [win1]; exact hs
  have bare2 := fun v => x1.bare_place i.u f la v r.v
  have fib2 := fun v g => x1.fib_place i.u f la v g r.v hu1
  have reg2 := fun v a k => x1.slotReg_place i.u f la v a k r.v hw1 hs1
  have pois2 := fun v a k => x1.slotPois_place i.u f la v a k r.v hs1
  have rest2 := x1.rest_place i.u f la r.v
  have fresh2 := x1.fresh_place i.u f la r.v
  generalize x1.place i.u f la r.v = x2 at bare2 fib2 reg2 pois2 rest2 fresh2 ⊢
  have hu2 : (x2.wave? i.u).isSome = true := by rw [Exec.isSome_of_bare (bare2 _)]; exact hu1
  have win2 : ∀ u g, x2.window u g = x.window u g := fun u g =>
    (Exec.window_congr (fun u g => by rw [fib2]) u g).trans (win1 u g)
  have fib3 : ∀ u g, (x2.modFib i.u f fun b => r.p.foldl (fun b p => b.setPred p.1 p.2) b).fib u g =
      if u = i.u ∧ g = f then r.p.foldl (fun b p => b.setPred p.1 p.2) (x2.fib u g) else x2.fib u g :=
    fun u g => Exec.fib_modFib _ _ _ _ _ _ hu2
  have bare3 := fun v => x2.bare_modFib i.u f v fun b => r.p.foldl (fun b p => b.setPred p.1 p.2) b
  have reg3 := fun v a k => x2.slotReg_modFib i.u f v a k fun b => r.p.foldl (fun b p => b.setPred p.1 p.2) b
  have pois3 := fun v a k => x2.slotPois_modFib i.u f v a k fun b => r.p.foldl (fun b p => b.setPred p.1 p.2) b
  have rest3 : { x2.modFib i.u f (fun b => r.p.foldl (fun b p => b.setPred p.1 p.2) b) with waves := x2.waves } = x2 := rfl
  generalize (x2.modFib i.u f fun b => r.p.foldl (fun b p => b.setPred p.1 p.2) b) = x3 at fib3 bare3 reg3 pois3 rest3 ⊢
  have win3 : ∀ u g, x3.window u g = x.window u g := fun u g =>
    (Exec.window_congr (fun u g => by
      rw [fib3]
      split
      · rw [Fib.setPreds_eq]
      · rfl) u g).trans (win2 u g)
  have hw3 : (x3.wave? (x3.window i.u f).1).isSome = true := by
    rw [win3, Exec.isSome_of_bare (bare3 _), Exec.isSome_of_bare (bare2 _), Exec.wave?_congr w1]; exact hw
  have bare4 := fun v => x3.bare_addDraws i.u f r.draws v
  have fib4 := fun v g => x3.fib_addDraws i.u f r.draws v g hw3
  have reg4 := fun v a k => x3.slotReg_addDraws i.u f r.draws v a k
  have pois4 := fun v a k => x3.slotPois_addDraws i.u f r.draws v a k
  have rest4 := x3.rest_addDraws i.u f r.draws
  generalize x3.addDraws i.u f r.draws = x4 at bare4 fib4 reg4 pois4 rest4 ⊢
  have w5 : ((x4.setStatusIf r.ovf i.w.team stOVF).setStatusIf r.nan i.w.team stNAN).waves = x4.waves :=
    (Exec.waves_setStatusIf ..).trans (Exec.waves_setStatusIf ..)
  have f5 : ((x4.setStatusIf r.ovf i.w.team stOVF).setStatusIf r.nan i.w.team stNAN).fresh = x4.fresh :=
    (Exec.fresh_setStatusIf ..).trans (Exec.fresh_setStatusIf ..)
  have rest5 : { (x4.setStatusIf r.ovf i.w.team stOVF).setStatusIf r.nan i.w.team stNAN with teams := x4.teams } = x4 := by
    cases r.ovf <;> cases r.nan <;> rfl
  have tm5 : ∀ k, ((x4.setStatusIf r.ovf i.w.team stOVF).setStatusIf r.nan i.w.team stNAN).teams.find? k =
      (x4.teams.find? k).map fun m => if k = i.w.team then { m with status := m.status |||
        (if r.ovf then BitVec.ofNat 32 (2 ^ stOVF) else 0) ||| (if r.nan then BitVec.ofNat 32 (2 ^ stNAN) else 0) } else m := by
    intro k
    rw [Exec.teams_setStatusIf, Exec.teams_setStatusIf]
    cases x4.teams.find? k with
    | none => rfl
    | some m => by_cases e : k = i.w.team <;> simp [e]
  generalize (x4.setStatusIf r.ovf i.w.team stOVF).setStatusIf r.nan i.w.team stNAN = x5 at w5 f5 rest5 tm5 ⊢
  have b4 : { x4 with waves := x2.waves } = x2 := by
    have e := congrArg (fun y : Exec => { y with waves := x2.waves }) rest4
    exact e.trans rest3
  have fr4 : x4.fresh = x2.fresh := by have h := congrArg Exec.fresh b4; exact h
  have tm4 : x4.teams = x1.teams := by
    have h := congrArg Exec.teams b4
    have k := congrArg Exec.teams rest2
    exact h.trans k
  refine ⟨?_, ?_, ?_, ?_, ?_, ?_, ?_⟩
  · have e5 := congrArg (fun y : Exec => { y with waves := x.waves, fresh := x.fresh, teams := x.teams }) rest5
    have e4 := congrArg (fun y : Exec => { y with waves := x.waves, fresh := x.fresh, teams := x.teams }) b4
    have e2 := congrArg (fun y : Exec => { y with waves := x.waves, fresh := x.fresh, teams := x.teams }) rest2
    have e1 := congrArg (fun y : Exec => { y with waves := x.waves, fresh := x.fresh }) t1
    exact e5.trans (e4.trans (e2.trans e1))
  · rw [f5, fr4, fresh2, f1]
  · intro k
    rw [tm5, tm4, tm1]
    cases x.teams.find? k with
    | none => rfl
    | some m =>
      by_cases e : k = i.w.team
      · simp [e, Res.raised, BitVec.or_assoc, stOOB]
      · simp [e]
  · intro u
    rw [Exec.wave?_congr w5, bare4, bare3, bare2, Exec.wave?_congr w1]
  · intro u a k ha
    rw [Exec.slotReg_congr w5, reg4, reg3, reg2 u a k ha, win1, Exec.slotReg_congr w1]
  · intro u a k ha
    rw [Exec.slotPois_congr w5, pois4, pois3, pois2 u a k ha, win1, Exec.slotPois_congr w1]
  · intro u g
    rw [Exec.fib_congr w5, fib4, win3, fib3, fib2, Exec.fib_congr w1, f1]
    unfold fibRes
    by_cases e : u = i.u ∧ g = f
    · obtain ⟨rfl, rfl⟩ := e
      simp only [and_self, if_true, true_and]
      rw [Fib.setPreds_eq]
      congr 1
      exact Fib.setPreds_preds _ _ _ rfl
    · have e2 : ¬ (u = i.u ∧ g = f ∧ la ≠ 0) := fun k => e ⟨k.1, k.2.1⟩
      simp only [e, e2, if_false]

theorem ResDone.fib_org {x y : Exec} {i : Iss} {la f : Nat} {r : Res} (h : ResDone x y i la f r) (u g : Nat) :
    (y.fib u g).org = (x.fib u g).org := by rw [h.fibs]; rfl

theorem ResDone.window {x y : Exec} {i : Iss} {la f : Nat} {r : Res} (h : ResDone x y i la f r) (u g : Nat) :
    y.window u g = x.window u g := Exec.window_congr h.fib_org u g

/-! ### The results of a group -/

/-- The fibre's own record after the results of a list of fibres. -/
def fibRess (x : Exec) (i : Iss) (la : Nat) (l : List Nat) (r : Nat → Res) (u g : Nat) : Fib :=
  let b := x.fib u g
  { b with
    preds := if u = i.u ∧ g ∈ l then ((r g).p.foldl (fun b p => b.setPred p.1 p.2) b).preds else b.preds
    wins := if (u = i.u ∧ g ∈ l) ∧ la ≠ 0 then b.wins ++ [⟨x.fresh + l.idxOf g, la, (r g).v, []⟩] else b.wins
    draws := (x.ownerOf i l u g).elim b.draws fun f =>
      if (r f).draws = 0 then b.draws else (b.draws + (r f).draws) % 2 ^ 32 }

/-- What the results of a list of fibres do. -/
structure AllDone (x y : Exec) (i : Iss) (la : Nat) (l : List Nat) (r : Nat → Res) : Prop where
  rest  : { y with waves := x.waves, fresh := x.fresh, teams := x.teams } = x
  fresh : y.fresh = x.fresh + (if la = 0 then 0 else l.length)
  teams : ∀ k, y.teams.find? k = (x.teams.find? k).map fun m =>
            if k = i.w.team then { m with status := l.foldl (fun b f => b ||| (r f).raised) m.status } else m
  bare  : ∀ u, (y.wave? u).map Wave.bare = (x.wave? u).map Wave.bare
  regs  : ∀ u a k, a < 128 → y.slotReg u a k = (x.ownerOf i l u a).elim (x.slotReg u a k)
            fun f => if la = 0 then regAfter (x.slotReg u a k) k (r f).v else x.slotReg u a k
  pois  : ∀ u a k, a < 128 → y.slotPois u a k = (x.ownerOf i l u a).elim (x.slotPois u a k)
            fun f => x.slotPois u a k && !(decide (la = 0) && (r f).v.any fun p => decide (p.1 = k))
  fibs  : ∀ u g, y.fib u g = fibRess x i la l r u g

theorem Exec.applyAll_done (i : Iss) (la len : Nat) (r : Nat → Res) (l : List Nat) (x : Exec)
    (hn : l.Nodup) (ht : ∀ f ∈ l, (r f).trap = none) (hu : (x.wave? i.u).isSome = true)
    (ha : ∀ f ∈ l, ∀ g ∈ l, x.window i.u f = x.window i.u g → f = g)
    (hw : ∀ f ∈ l, (x.wave? (x.window i.u f).1).isSome = true) (hs : ∀ f ∈ l, (x.window i.u f).2 < 128) :
    AllDone x (l.foldl (fun x f => x.applyRes i la len f (r f)) x) i la l r := by
  induction l generalizing x with
  | nil =>
    refine ⟨rfl, by simp, fun k => ?_, fun _ => rfl, fun _ _ _ _ => rfl, fun _ _ _ _ => rfl, fun u g => ?_⟩
    · cases h : x.teams.find? k <;> simp [h]
    · simp [fibRess, Exec.ownerOf]
  | cons f l ih =>
    obtain ⟨hf, hn⟩ := List.nodup_cons.1 hn
    have d := x.applyRes_done i la len f (r f) (ht f (List.mem_cons_self ..)) hu (hw f (List.mem_cons_self ..))
      (hs f (List.mem_cons_self ..))
    rw [List.foldl_cons]
    generalize x.applyRes i la len f (r f) = y at d ⊢
    have win := d.window
    have own : ∀ u a, y.ownerOf i l u a = x.ownerOf i l u a := fun u a => by simp only [Exec.ownerOf, win]
    have e := ih y hn (fun g hg => ht g (List.mem_cons_of_mem _ hg)) (by rw [Exec.isSome_of_bare (d.bare _)]; exact hu)
      (fun g hg k hk h => ha g (List.mem_cons_of_mem _ hg) k (List.mem_cons_of_mem _ hk) (by rw [← win, ← win]; exact h))
      (fun g hg => by rw [win, Exec.isSome_of_bare (d.bare _)]; exact hw g (List.mem_cons_of_mem _ hg))
      (fun g hg => by rw [win]; exact hs g (List.mem_cons_of_mem _ hg))
    generalize l.foldl (fun x f => x.applyRes i la len f (r f)) y = z at e ⊢
    -- a slot that f owns is owned by no other fibre
    have only : ∀ u a, x.window i.u f = (u, a) → x.ownerOf i l u a = none := by
      intro u a h
      refine List.find?_eq_none.2 fun g hg k => ?_
      have k := of_decide_eq_true k
      exact hf (ha f (List.mem_cons_self ..) g (List.mem_cons_of_mem _ hg) (h.trans k.symm) ▸ hg)
    have cons : ∀ u a, x.ownerOf i (f :: l) u a = if x.window i.u f = (u, a) then some f else x.ownerOf i l u a := by
      intro u a
      by_cases h : x.window i.u f = (u, a) <;> simp [Exec.ownerOf, h]
    refine ⟨?_, ?_, ?_, ?_, ?_, ?_, ?_⟩
    · have e1 := congrArg (fun v : Exec => { v with waves := x.waves, fresh := x.fresh, teams := x.teams }) e.rest
      exact e1.trans d.rest
    · rw [e.fresh, d.fresh]
      split <;> simp only [List.length_cons] <;> omega
    · intro k
      rw [e.teams, d.teams]
      cases x.teams.find? k with
      | none => rfl
      | some m => by_cases h : k = i.w.team <;> simp [h]
    · intro u
      rw [e.bare, d.bare]
    · intro u a k hlt
      rw [e.regs u a k hlt, own, cons, d.regs u a k hlt]
      by_cases h : x.window i.u f = (u, a)
      · rw [only u a h]; simp [h]
      · simp [h]
    · intro u a k hlt
      rw [e.pois u a k hlt, own, cons, d.pois u a k hlt]
      by_cases h : x.window i.u f = (u, a)
      · rw [only u a h]; simp [h]
      · simp [h]
    · intro u g
      rw [e.fibs]
      unfold fibRess
      rw [own, cons, d.fibs, d.fresh]
      unfold fibRes
      by_cases hu : u = i.u
      · subst hu
        by_cases hg : g = f
        · subst hg
          simp only [hf, and_false, if_false, true_and, if_true, List.mem_cons, true_or, and_true, false_and,
            List.idxOf_cons_self, Nat.add_zero]
          congr 1
          by_cases h : x.window i.u g = (i.u, g)
          · simp [h, only i.u g h]
          · simp [h]
        · have hidx : (f :: l).idxOf g = l.idxOf g + 1 := by
            rw [List.idxOf_cons, show (f == g) = false by simpa using Ne.symm hg]; rfl
          simp only [true_and, hg, if_false, List.mem_cons, false_or, false_and, hidx]
          congr 1
          · split
            · exact Fib.setPreds_preds _ _ _ rfl
            · rfl
          · by_cases h : x.window i.u f = (i.u, g)
            · simp [h, only i.u g h]
            · simp [h]
          · split
            next hh => simp only [hh.2, if_false]; rw [show x.fresh + 1 + l.idxOf g = x.fresh + (l.idxOf g + 1) by omega]
            next => rfl
      · simp only [hu, false_and, if_false]
        congr 1
        by_cases h : x.window i.u f = (u, g)
        · simp [h, only u g h]
        · simp [h]

/-! ### The issuing group -/

theorem Exec.issue?_spec {x : Exec} {i : Iss} (h : x.issue? = some i) :
    (∃ c, x.cur = some c ∧ i.u = c.wave ∧ i.pc = c.pc) ∧ x.wave? i.u = some i.w ∧ i.grp = i.w.groupAt i.pc := by
  unfold Exec.issue? at h
  split at h
  · cases h
  next c hc =>
    split at h
    · cases h
    next w hw =>
      cases h
      exact ⟨⟨c, hc, rfl, rfl⟩, hw, rfl⟩

theorem Iss.mem_grp {x : Exec} {i : Iss} (h : x.issue? = some i) (f : Nat) :
    f ∈ i.grp ↔ f < 128 ∧ (x.fib i.u f).st = .ready ∧ (x.fib i.u f).pc = i.pc := by
  obtain ⟨-, hw, hg⟩ := Exec.issue?_spec h
  rw [hg, Wave.groupAt, List.mem_filter]
  simp [Exec.fib, hw, Fib.isReady]

theorem Iss.grp_nodup {x : Exec} {i : Iss} (h : x.issue? = some i) : i.grp.Nodup := by
  rw [(Exec.issue?_spec h).2.2]
  exact List.Pairwise.filter _ List.nodup_range

/-- The fibres of a list that stand Ready at an instruction move past it. -/
def stepFibs (pc len : Nat) (l : List Nat) (w : Wave) : Wave :=
  l.foldl (fun w f => w.modFib f fun b => if b.isReady && decide (b.pc = pc) then { b with pc := (pc + len) % 2 ^ 48 } else b) w

theorem stepFibs_fib (pc len : Nat) (l : List Nat) (w : Wave) (hn : l.Nodup) (g : Nat) :
    (stepFibs pc len l w).fib g =
      if g ∈ l ∧ (w.fib g).st = .ready ∧ (w.fib g).pc = pc then { w.fib g with pc := (pc + len) % 2 ^ 48 } else w.fib g := by
  induction l generalizing w with
  | nil => simp [stepFibs]
  | cons f l ih =>
    obtain ⟨hf, hn⟩ := List.nodup_cons.1 hn
    have e := ih (w.modFib f fun b => if b.isReady && decide (b.pc = pc) then { b with pc := (pc + len) % 2 ^ 48 } else b) hn
    change (stepFibs pc len l _).fib g = _
    rw [e, Wave.fib_modFib]
    by_cases h : g = f
    · subst h
      simp [hf, Fib.isReady]
    · simp [h]

theorem stepFibs_bare (pc len : Nat) (l : List Nat) (w : Wave) :
    (stepFibs pc len l w).bare = w.bare ∧ (stepFibs pc len l w).v = w.v ∧ (stepFibs pc len l w).vpois = w.vpois := by
  induction l generalizing w with
  | nil => exact ⟨rfl, rfl, rfl⟩
  | cons f l ih => exact ih _

theorem Exec.advance_eq (x : Exec) (i : Iss) (len : Nat) : x.advance i len = x.modWave i.u (stepFibs i.pc len i.grp) := rfl

theorem Exec.fib_advance (x : Exec) (i : Iss) (len : Nat) (hn : i.grp.Nodup) (u f : Nat) :
    (x.advance i len).fib u f =
      if u = i.u ∧ f ∈ i.grp ∧ (x.fib u f).st = .ready ∧ (x.fib u f).pc = i.pc
      then { x.fib u f with pc := (i.pc + len) % 2 ^ 48 } else x.fib u f := by
  rw [Exec.advance_eq]
  unfold Exec.fib
  rw [Exec.wave?_modWave]
  by_cases e : u = i.u
  · subst e
    cases x.wave? i.u with
    | none => simp
    | some w => simp [stepFibs_fib _ _ _ _ hn]
  · simp [e]

theorem Exec.bare_advance (x : Exec) (i : Iss) (len u : Nat) :
    ((x.advance i len).wave? u).map Wave.bare = (x.wave? u).map Wave.bare := by
  rw [Exec.advance_eq, Exec.wave?_modWave]
  split
  · cases x.wave? u with
    | none => rfl
    | some w => simp [(stepFibs_bare ..).1]
  · rfl

theorem Exec.slotReg_advance (x : Exec) (i : Iss) (len u a k : Nat) :
    (x.advance i len).slotReg u a k = x.slotReg u a k := by
  unfold Exec.slotReg
  rw [Exec.advance_eq, Exec.wave?_modWave]
  split
  · cases x.wave? u with
    | none => rfl
    | some w => simp [Wave.reg, (stepFibs_bare ..).2.1]
  · rfl

theorem Exec.slotPois_advance (x : Exec) (i : Iss) (len u a k : Nat) :
    (x.advance i len).slotPois u a k = x.slotPois u a k := by
  unfold Exec.slotPois
  rw [Exec.advance_eq, Exec.wave?_modWave]
  split
  · cases x.wave? u with
    | none => rfl
    | some w => simp [(stepFibs_bare ..).2.2]
  · rfl

/-! ### A per-fibre instruction -/

/-- Everything a per-fibre instruction does when no served fibre traps. -/
theorem Exec.perFibre_ran (s : State) (i : Iss) (len : Nat) (h : Hd) (named : List Nat) (g : Iss → Nat → Res)
    (hi : s.x.issue? = some i) (hw : Windows s.x i) (hb : ∀ f ∈ i.served h, s.x.pastBudget i f named = false)
    (ht : ∀ f ∈ i.served h, (g i f).trap = none) :
    Ran s { s with x := s.x.perFibre len h named g } i len h (g i) := by
  have sub : ∀ f ∈ i.served h, f ∈ i.grp := fun f hf => (List.mem_filter.1 hf).1
  have hwave := (Exec.issue?_spec hi).2.1
  have d := Exec.applyAll_done i h.la.toNat len (g i) (i.served h) s.x ((Iss.grp_nodup hi).filter _) ht
    (by rw [hwave]; rfl) (fun f hf k hk => hw.apart f (sub f hf) k (sub k hk)) (fun f hf => hw.held f (sub f hf))
    (fun f hf => hw.slot f (sub f hf))
  have e : s.x.perFibre len h named g =
      ((i.served h).foldl (fun x f => x.applyRes i h.la.toNat len f (g i f)) s.x).advance i len := by
    unfold Exec.perFibre
    simp only [hi]
    congr 1
    rw [List.foldl_map]
    have : ∀ (l : List Nat) (x : Exec), (∀ f ∈ l, s.x.pastBudget i f named = false) →
        l.foldl (fun x f => x.applyRes i h.la.toNat len f
          (if s.x.pastBudget i f named = true then { trap := some cREGRNG } else g i f)) x =
        l.foldl (fun x f => x.applyRes i h.la.toNat len f (g i f)) x := by
      intro l
      induction l with
      | nil => intros; rfl
      | cons f l ih =>
        intro x hx
        rw [List.foldl_cons, List.foldl_cons, hx f (List.mem_cons_self ..)]
        exact ih _ fun k hk => hx k (List.mem_cons_of_mem _ hk)
    exact this _ _ hb
  rw [e]
  generalize (i.served h).foldl (fun x f => x.applyRes i h.la.toNat len f (g i f)) s.x = y at d ⊢
  have la : h.la.toNat = 0 ↔ h.la = 0 := by
    constructor
    · intro k; exact BitVec.eq_of_toNat_eq k
    · intro k; rw [k]; rfl
  refine ⟨rfl, rfl, ?_, ?_, ?_, ?_, ?_, ?_, ?_⟩
  · exact d.rest
  · have := d.fresh
    simp only [la] at this
    exact this
  · exact d.teams
  · intro u
    rw [← d.bare u]
    exact Exec.bare_advance ..
  · intro u a k ha
    rw [show ({ s with x := y.advance i len } : State).x.slotReg u a k = y.slotReg u a k from Exec.slotReg_advance ..,
      d.regs u a k ha]
    simp only [la]
  · intro u a k ha
    rw [show ({ s with x := y.advance i len } : State).x.slotPois u a k = y.slotPois u a k from Exec.slotPois_advance ..,
      d.pois u a k ha]
    simp only [la]
  · intro u f
    rw [show ({ s with x := y.advance i len } : State).x.fib u f = _ from Exec.fib_advance y i len (Iss.grp_nodup hi) u f]
    have hst : (y.fib u f).st = (s.x.fib u f).st := by rw [d.fibs]; rfl
    have hpc : (y.fib u f).pc = (s.x.fib u f).pc := by rw [d.fibs]; rfl
    rw [hst, hpc, d.fibs]
    have hmem : u = i.u → f ∈ i.grp → (s.x.fib u f).st = .ready ∧ (s.x.fib u f).pc = i.pc := by
      rintro rfl hf
      exact ((Iss.mem_grp hi f).1 hf).2
    by_cases c : u = i.u ∧ f ∈ i.grp
    · rw [if_pos ⟨c.1, c.2, hmem c.1 c.2⟩]
      simp [fibAfter, fibRess, c, la]
    · rw [if_neg (fun k => c ⟨k.1, k.2.1⟩)]
      simp [fibAfter, fibRess, c, la]

theorem Exec.ownerOf_mem {x : Exec} {i : Iss} {l : List Nat} {u a f : Nat} (h : x.ownerOf i l u a = some f) : f ∈ l :=
  List.mem_of_find?_eq_some h

/-- Only the results of served fibres count. -/
theorem Ran.congr {s t : State} {i : Iss} {len : Nat} {h : Hd} {r r' : Nat → Res} (e : ∀ f ∈ i.served h, r f = r' f)
    (hr : Ran s t i len h r) : Ran s t i len h r' := by
  refine ⟨hr.mem, hr.trust, hr.rest, hr.fresh, fun k => ?_, hr.waves, fun u a k ha => ?_, fun u a k ha => ?_, fun u f => ?_⟩
  · rw [hr.teams k]
    congr 1
    funext m
    have : ∀ (l : List Nat) (b : Word), (∀ f ∈ l, r f = r' f) →
        l.foldl (fun b f => b ||| (r f).raised) b = l.foldl (fun b f => b ||| (r' f).raised) b := by
      intro l
      induction l with
      | nil => intros; rfl
      | cons f l ih =>
        intro b hl
        rw [List.foldl_cons, List.foldl_cons, hl f (List.mem_cons_self ..)]
        exact ih _ fun g hg => hl g (List.mem_cons_of_mem _ hg)
    rw [this _ _ e]
  · rw [hr.regs u a k ha]
    cases o : s.x.ownerOf i (i.served h) u a with
    | none => rfl
    | some f => simp only [Option.elim_some, e f (Exec.ownerOf_mem o)]
  · rw [hr.pois u a k ha]
    cases o : s.x.ownerOf i (i.served h) u a with
    | none => rfl
    | some f => simp only [Option.elim_some, e f (Exec.ownerOf_mem o)]
  · rw [hr.fibs u f]
    have e2 : (s.x.ownerOf i (i.served h) u f).elim (s.x.fib u f).draws (fun g =>
          if (r g).draws = 0 then (s.x.fib u f).draws else ((s.x.fib u f).draws + (r g).draws) % 2 ^ 32) =
        (s.x.ownerOf i (i.served h) u f).elim (s.x.fib u f).draws (fun g =>
          if (r' g).draws = 0 then (s.x.fib u f).draws else ((s.x.fib u f).draws + (r' g).draws) % 2 ^ 32) := by
      cases o : s.x.ownerOf i (i.served h) u f with
      | none => rfl
      | some g => simp only [Option.elim_some, e g (Exec.ownerOf_mem o)]
    simp only [fibAfter]
    rw [e2]
    by_cases m : f ∈ i.served h
    · rw [e f m]
    · simp [m]

end Sys2Proof.Machine
end

