-- ==== Sys2Proof/Laws/Memory.lean ====
section
/-! SUPPORT. Memory: what a read of a byte after a write gives, and that every memory operation keeps the canonical
form. -/

namespace Sys2Proof.Machine

/-! ### Byte maps -/

theorem get_putBytes (b : List Byte) (m : SMap Byte) (o a : Nat) :
    (putBytes m o b).get 0 a = if o ≤ a ∧ a < o + b.length then b.getD (a - o) 0 else m.get 0 a := by
  induction b generalizing m o with
  | nil => rw [putBytes, if_neg (by simp only [List.length_nil]; omega)]
  | cons x r ih =>
    rw [putBytes, ih, SMap.get_put]
    by_cases h : a = o
    · subst h
      rw [if_neg (by omega), if_pos rfl, if_pos (by simp only [List.length_cons]; omega)]
      simp
    · by_cases g : o + 1 ≤ a ∧ a < o + 1 + r.length
      · rw [if_pos g, if_pos (by simp only [List.length_cons]; omega)]
        have : a - o = (a - (o + 1)) + 1 := by omega
        rw [this, List.getD_cons_succ]
      · rw [if_neg g, if_neg h, if_neg (by simp only [List.length_cons]; omega)]

theorem wf_putBytes (b : List Byte) {m : SMap Byte} (o : Nat) (h : Memory.wf m = true) :
    Memory.wf (putBytes m o b) = true := by
  induction b generalizing m o with
  | nil => exact h
  | cons x r ih => exact ih _ (SMap.wf_put o x h)

/-! ### The memory operations -/

theorem MemSys.wf_iff (m : MemSys) : m.wf = true ↔ Memory.wf m.dev = true ∧ Memory.wf m.host = true := by
  simp [MemSys.wf]

theorem MemSys.wf_putDev {m : MemSys} (sa : Nat) (b : List Byte) (h : m.wf = true) : (m.putDev sa b).wf = true :=
  (wf_iff _).2 ⟨wf_putBytes b sa ((wf_iff m).1 h).1, ((wf_iff m).1 h).2⟩

theorem MemSys.wf_putHost {m : MemSys} (a : Nat) (b : List Byte) (h : m.wf = true) : (m.putHost a b).wf = true :=
  (wf_iff _).2 ⟨((wf_iff m).1 h).1, wf_putBytes b a ((wf_iff m).1 h).2⟩

/-- An update that keeps device and host bytes keeps the canonical form. -/
theorem MemSys.wf_of_eq {m n : MemSys} (hd : n.dev = m.dev) (hh : n.host = m.host) (h : m.wf = true) : n.wf = true := by
  rw [wf_iff, hd, hh]; exact (wf_iff m).1 h

theorem MemSys.wf_putSector {m : MemSys} (key sec mask : Nat) (data : List Byte) (bad : Bool) (h : m.wf = true) :
    (m.putSector key sec mask data bad).wf = true := by
  have h1 := wf_putDev (32 * sec) (mergeBytes mask (m.sector key sec) data) h
  refine wf_of_eq ?_ ?_ h1 <;> cases bad <;> by_cases hm : mask = fullMask <;> simp [putSector, hm]

theorem MemSys.wf_writePhys {m : MemSys} (a : Nat) (b : List Byte) (h : m.wf = true) : (m.writePhys a b).wf = true := by
  unfold writePhys
  split
  · exact wf_putHost _ b h
  · exact wf_of_eq rfl rfl (wf_putDev (storageAt (a / 2 ^ 38 % 4) a) b h)

theorem MemSys.wf_setEntryBit {m : MemSys} (slot bit : Nat) (h : m.wf = true) : (m.setEntryBit slot bit).wf = true :=
  wf_writePhys _ _ h

theorem MemSys.wf_hostMask {m : MemSys} (a mask : Nat) (d : List Byte) (h : m.wf = true) :
    (m.hostMask a mask d).wf = true := by
  unfold hostMask
  induction d.zipIdx generalizing m with
  | nil => exact h
  | cons p r ih =>
    rw [List.foldl_cons]
    split
    · exact ih (wf_putHost _ _ h)
    · exact ih h

theorem MemSys.wf_hostSector {m : MemSys} (sec off : Nat) (b : List Byte) (h : m.wf = true) :
    (m.hostSector sec off b).wf = true := by
  have h1 := wf_putDev (32 * sec) (mergeBytes (maskAt off b.length)
    ((List.range 32).map fun i => m.hostView (32 * sec + i)) (placeAt off b)) h
  simp only [hostSector]
  split <;> exact wf_of_eq rfl rfl h1

theorem MemSys.wf_hostWrite {m : MemSys} (sa : Nat) (b : List Byte) (h : m.wf = true) : (m.hostWrite sa b).wf = true := by
  unfold hostWrite
  induction (List.range ((sa + b.length + 31) / 32 - sa / 32)).map (sa / 32 + ·) generalizing m with
  | nil => exact h
  | cons p r ih => exact ih (wf_hostSector _ _ _ h)

theorem MemSys.wf_boot {m : MemSys} (failStep free : Nat) (h : m.wf = true) : (m.boot failStep free).wf = true := by
  have ⟨hd, hh⟩ := (wf_iff m).1 h
  unfold boot
  split
  · exact (wf_iff _).2 ⟨rfl, hh⟩
  · exact (wf_iff _).2 ⟨SMap.wf_filter _ hd, hh⟩

theorem reset_wf : State.reset.mem.wf = true := rfl

end Sys2Proof.Machine
end

