-- ==== Sys2Proof/Laws/PerInstr.lean ====
section
/-! SUPPORT. Per instruction: the pattern an instruction is encoded as has its length, and reads back as the instruction
(R186 to R190). -/

namespace Sys2Proof.Laws

/-- An instruction that has an encoding is read back from it, at its length. -/
def RoundTrip.Statement (i : Instr) : Prop :=
  match encode i with
  | some (x, n) => lenOf x = n ∧ x < 256 ^ n ∧ ofRaw n x = some i
  | none => True

theorem row8 {i : Instr} {x : Nat} (h : x < 2 ^ 64) (m : x % 4 = 3) (e : of64 x = some i) :
    lenOf x = 8 ∧ x < 256 ^ 8 ∧ ofRaw 8 x = some i := by
  refine ⟨?_, by omega, ?_⟩
  · unfold lenOf; rw [if_neg (by omega), if_neg (by omega)]
  · unfold ofRaw; rw [if_neg (by decide), if_neg (by decide)]; exact e

theorem row4 {i : Instr} {x : Nat} (h : x < 2 ^ 32) (m : x % 4 = 1) (e : of32 x = some i) :
    lenOf x = 4 ∧ x < 256 ^ 4 ∧ ofRaw 4 x = some i := by
  refine ⟨?_, by omega, ?_⟩
  · unfold lenOf; rw [if_neg (by omega), if_pos m]
  · unfold ofRaw; rw [if_neg (by decide), if_pos rfl]; exact e

theorem row2 {i : Instr} {x : Nat} (h : x < 2 ^ 16) (m : x % 2 = 0) (e : of16 x = some i) :
    lenOf x = 2 ∧ x < 256 ^ 2 ∧ ofRaw 2 x = some i := by
  refine ⟨?_, by omega, ?_⟩
  · unfold lenOf; rw [if_pos m]
  · unfold ofRaw; rw [if_pos rfl]; exact e

theorem aluRow (w : AluI) (m : Nat) (c : AluI → Instr) (hm : m < 512) (h : rowAt aluRows m = some c) :
    lenOf (w.toNat m) = 8 ∧ w.toNat m < 256 ^ 8 ∧ ofRaw 8 (w.toNat m) = some (c w) := by
  obtain ⟨r, l, j, q⟩ := w.read m hm
  exact row8 l q (by simp only [of64, j, h, r])

theorem memRow (w : MemI) (m : Nat) (c : MemI → Instr) (hm : m < 512) (h0 : (rowAt aluRows m).isNone = true)
    (h : rowAt memRows m = some c) :
    lenOf (w.toNat m) = 8 ∧ w.toNat m < 256 ^ 8 ∧ ofRaw 8 (w.toNat m) = some (c w) := by
  obtain ⟨r, l, j, q⟩ := w.read m hm
  exact row8 l q (by simp only [of64, j, Option.isNone_iff_eq_none.1 h0, h, r])

theorem ownRow (w : OwnI) (m : Nat) (c : OwnI → Instr) (hm : m < 512) (h0 : (rowAt aluRows m).isNone = true)
    (h1 : (rowAt memRows m).isNone = true) (h : rowAt ownRows m = some c) :
    lenOf (w.toNat m) = 8 ∧ w.toNat m < 256 ^ 8 ∧ ofRaw 8 (w.toNat m) = some (c w) := by
  obtain ⟨r, l, j, q⟩ := w.read m hm
  exact row8 l q (by simp only [of64, j, Option.isNone_iff_eq_none.1 h0, Option.isNone_iff_eq_none.1 h1, h, r])

theorem longRow (w : LongI) (m : Nat) (c : LongI → Instr) (hm : m < 512) (h0 : (rowAt aluRows m).isNone = true)
    (h1 : (rowAt memRows m).isNone = true) (h2 : (rowAt ownRows m).isNone = true) (h : rowAt longRows m = some c) :
    lenOf (w.toNat m) = 8 ∧ w.toNat m < 256 ^ 8 ∧ ofRaw 8 (w.toNat m) = some (c w) := by
  obtain ⟨r, l, j, q⟩ := w.read m hm
  exact row8 l q (by simp only [of64, j, Option.isNone_iff_eq_none.1 h0, Option.isNone_iff_eq_none.1 h1,
    Option.isNone_iff_eq_none.1 h2, h, r])

theorem compARow (w : CompA) (m : Nat) (c : CompA → Instr) (hm : m < 64) (h0 : m ≠ 0) (h : rowAt compARows m = some c) :
    lenOf (w.toNat m) = 4 ∧ w.toNat m < 256 ^ 4 ∧ ofRaw 4 (w.toNat m) = some (c w) := by
  obtain ⟨r, l, j, q⟩ := w.read m hm
  exact row4 l q (by simp only [of32, j, h0, if_false, h, r])

theorem compIRow (w : CompI) (m : Nat) (c : CompI → Instr) (hm : m < 64) (h0 : m ≠ 0)
    (h1 : (rowAt compARows m).isNone = true) (h : rowAt compIRows m = some c) :
    lenOf (w.toNat m) = 4 ∧ w.toNat m < 256 ^ 4 ∧ ofRaw 4 (w.toNat m) = some (c w) := by
  obtain ⟨r, l, j, q⟩ := w.read m hm
  exact row4 l q (by simp only [of32, j, h0, if_false, Option.isNone_iff_eq_none.1 h1, h, r])

theorem compJRow (w : CompJ) (m : Nat) (c : CompJ → Instr) (hm : m < 64) (h0 : m ≠ 0)
    (h1 : (rowAt compARows m).isNone = true) (h2 : (rowAt compIRows m).isNone = true) (h : rowAt compJRows m = some c) :
    lenOf (w.toNat m) = 4 ∧ w.toNat m < 256 ^ 4 ∧ ofRaw 4 (w.toNat m) = some (c w) := by
  obtain ⟨r, l, j, q⟩ := w.read m hm
  exact row4 l q (by simp only [of32, j, h0, if_false, Option.isNone_iff_eq_none.1 h1, Option.isNone_iff_eq_none.1 h2, h, r])

theorem compWRow (w : CompW) (m : Nat) (c : CompW → Instr) (hm : m < 64) (h0 : m ≠ 0)
    (h1 : (rowAt compARows m).isNone = true) (h2 : (rowAt compIRows m).isNone = true)
    (h3 : (rowAt compJRows m).isNone = true) (h : rowAt compWRows m = some c) :
    lenOf (w.toNat m) = 4 ∧ w.toNat m < 256 ^ 4 ∧ ofRaw 4 (w.toNat m) = some (c w) := by
  obtain ⟨r, l, j, q⟩ := w.read m hm
  exact row4 l q (by simp only [of32, j, h0, if_false, Option.isNone_iff_eq_none.1 h1, Option.isNone_iff_eq_none.1 h2,
    Option.isNone_iff_eq_none.1 h3, h, r])

theorem opRow (w : Op16) (m : Nat) (c : Op16 → Instr) (hm : m < 16) (h0 : m ≠ 0) (h : rowAt opRows m = some c) :
    lenOf (w.toNat m) = 2 ∧ w.toNat m < 256 ^ 2 ∧ ofRaw 2 (w.toNat m) = some (c w) := by
  obtain ⟨r, l, j, q⟩ := w.read m hm
  exact row2 l q (by simp only [of16, j, h0, if_false, h, r])

theorem RoundTrip.nop (w : OwnI) : RoundTrip.Statement (.nop w) := ownRow w 0x000 .nop (by decide) rfl rfl rfl
theorem RoundTrip.bra (w : LongI) : RoundTrip.Statement (.bra w) := longRow w 0x001 .bra (by decide) rfl rfl rfl rfl
theorem RoundTrip.brp (w : LongI) : RoundTrip.Statement (.brp w) := longRow w 0x002 .brp (by decide) rfl rfl rfl rfl
theorem RoundTrip.brx (w : OwnI) : RoundTrip.Statement (.brx w) := ownRow w 0x003 .brx (by decide) rfl rfl rfl
theorem RoundTrip.call (w : LongI) : RoundTrip.Statement (.call w) := longRow w 0x004 .call (by decide) rfl rfl rfl rfl
theorem RoundTrip.callx (w : OwnI) : RoundTrip.Statement (.callx w) := ownRow w 0x005 .callx (by decide) rfl rfl rfl
theorem RoundTrip.ret (w : OwnI) : RoundTrip.Statement (.ret w) := ownRow w 0x006 .ret (by decide) rfl rfl rfl
theorem RoundTrip.loopw (w : OwnI) : RoundTrip.Statement (.loopw w) := ownRow w 0x007 .loopw (by decide) rfl rfl rfl
theorem RoundTrip.fspawn (w : OwnI) : RoundTrip.Statement (.fspawn w) := ownRow w 0x008 .fspawn (by decide) rfl rfl rfl
theorem RoundTrip.fquit (w : OwnI) : RoundTrip.Statement (.fquit w) := ownRow w 0x009 .fquit (by decide) rfl rfl rfl
theorem RoundTrip.rejoin (w : OwnI) : RoundTrip.Statement (.rejoin w) := ownRow w 0x00a .rejoin (by decide) rfl rfl rfl
theorem RoundTrip.yield (w : OwnI) : RoundTrip.Statement (.yield w) := ownRow w 0x00b .yield (by decide) rfl rfl rfl
theorem RoundTrip.attach (w : OwnI) : RoundTrip.Statement (.attach w) := ownRow w 0x00c .attach (by decide) rfl rfl rfl
theorem RoundTrip.detach (w : OwnI) : RoundTrip.Statement (.detach w) := ownRow w 0x00d .detach (by decide) rfl rfl rfl
theorem RoundTrip.bararv (w : OwnI) : RoundTrip.Statement (.bararv w) := ownRow w 0x00e .bararv (by decide) rfl rfl rfl
theorem RoundTrip.barwt (w : OwnI) : RoundTrip.Statement (.barwt w) := ownRow w 0x00f .barwt (by decide) rfl rfl rfl
theorem RoundTrip.barsyn (w : OwnI) : RoundTrip.Statement (.barsyn w) := ownRow w 0x010 .barsyn (by decide) rfl rfl rfl
theorem RoundTrip.gridbar (w : OwnI) : RoundTrip.Statement (.gridbar w) := ownRow w 0x011 .gridbar (by decide) rfl rfl rfl
theorem RoundTrip.cvset (w : OwnI) : RoundTrip.Statement (.cvset w) := ownRow w 0x012 .cvset (by decide) rfl rfl rfl
theorem RoundTrip.hwait (w : OwnI) : RoundTrip.Statement (.hwait w) := ownRow w 0x013 .hwait (by decide) rfl rfl rfl
theorem RoundTrip.htest (w : OwnI) : RoundTrip.Statement (.htest w) := ownRow w 0x014 .htest (by decide) rfl rfl rfl
theorem RoundTrip.hcancel (w : OwnI) : RoundTrip.Statement (.hcancel w) := ownRow w 0x015 .hcancel (by decide) rfl rfl rfl
theorem RoundTrip.hmov (w : OwnI) : RoundTrip.Statement (.hmov w) := ownRow w 0x016 .hmov (by decide) rfl rfl rfl
theorem RoundTrip.fence (w : OwnI) : RoundTrip.Statement (.fence w) := ownRow w 0x017 .fence (by decide) rfl rfl rfl
theorem RoundTrip.qsync (w : OwnI) : RoundTrip.Statement (.qsync w) := ownRow w 0x018 .qsync (by decide) rfl rfl rfl
theorem RoundTrip.sleepw (w : OwnI) : RoundTrip.Statement (.sleepw w) := ownRow w 0x019 .sleepw (by decide) rfl rfl rfl
theorem RoundTrip.iadd (w : AluI) : RoundTrip.Statement (.iadd w) := aluRow w 0x040 .iadd (by decide) rfl
theorem RoundTrip.isub (w : AluI) : RoundTrip.Statement (.isub w) := aluRow w 0x041 .isub (by decide) rfl
theorem RoundTrip.iaddc (w : AluI) : RoundTrip.Statement (.iaddc w) := aluRow w 0x042 .iaddc (by decide) rfl
theorem RoundTrip.isubb (w : AluI) : RoundTrip.Statement (.isubb w) := aluRow w 0x043 .isubb (by decide) rfl
theorem RoundTrip.imul (w : AluI) : RoundTrip.Statement (.imul w) := aluRow w 0x044 .imul (by decide) rfl
theorem RoundTrip.imulh (w : AluI) : RoundTrip.Statement (.imulh w) := aluRow w 0x045 .imulh (by decide) rfl
theorem RoundTrip.imulhu (w : AluI) : RoundTrip.Statement (.imulhu w) := aluRow w 0x046 .imulhu (by decide) rfl
theorem RoundTrip.imad (w : AluI) : RoundTrip.Statement (.imad w) := aluRow w 0x047 .imad (by decide) rfl
theorem RoundTrip.iadd64 (w : AluI) : RoundTrip.Statement (.iadd64 w) := aluRow w 0x048 .iadd64 (by decide) rfl
theorem RoundTrip.imad64 (w : AluI) : RoundTrip.Statement (.imad64 w) := aluRow w 0x049 .imad64 (by decide) rfl
theorem RoundTrip.idiv (w : AluI) : RoundTrip.Statement (.idiv w) := aluRow w 0x04a .idiv (by decide) rfl
theorem RoundTrip.idivu (w : AluI) : RoundTrip.Statement (.idivu w) := aluRow w 0x04b .idivu (by decide) rfl
theorem RoundTrip.irem (w : AluI) : RoundTrip.Statement (.irem w) := aluRow w 0x04c .irem (by decide) rfl
theorem RoundTrip.iremu (w : AluI) : RoundTrip.Statement (.iremu w) := aluRow w 0x04d .iremu (by decide) rfl
theorem RoundTrip.imin (w : AluI) : RoundTrip.Statement (.imin w) := aluRow w 0x04e .imin (by decide) rfl
theorem RoundTrip.imax (w : AluI) : RoundTrip.Statement (.imax w) := aluRow w 0x04f .imax (by decide) rfl
theorem RoundTrip.iminu (w : AluI) : RoundTrip.Statement (.iminu w) := aluRow w 0x050 .iminu (by decide) rfl
theorem RoundTrip.imaxu (w : AluI) : RoundTrip.Statement (.imaxu w) := aluRow w 0x051 .imaxu (by decide) rfl
theorem RoundTrip.iabs (w : AluI) : RoundTrip.Statement (.iabs w) := aluRow w 0x052 .iabs (by decide) rfl
theorem RoundTrip.ineg (w : AluI) : RoundTrip.Statement (.ineg w) := aluRow w 0x053 .ineg (by decide) rfl
theorem RoundTrip.iand (w : AluI) : RoundTrip.Statement (.iand w) := aluRow w 0x054 .iand (by decide) rfl
theorem RoundTrip.ior (w : AluI) : RoundTrip.Statement (.ior w) := aluRow w 0x055 .ior (by decide) rfl
theorem RoundTrip.ixor (w : AluI) : RoundTrip.Statement (.ixor w) := aluRow w 0x056 .ixor (by decide) rfl
theorem RoundTrip.inot (w : AluI) : RoundTrip.Statement (.inot w) := aluRow w 0x057 .inot (by decide) rfl
theorem RoundTrip.iandn (w : AluI) : RoundTrip.Statement (.iandn w) := aluRow w 0x058 .iandn (by decide) rfl
theorem RoundTrip.shl (w : AluI) : RoundTrip.Statement (.shl w) := aluRow w 0x059 .shl (by decide) rfl
theorem RoundTrip.shr (w : AluI) : RoundTrip.Statement (.shr w) := aluRow w 0x05a .shr (by decide) rfl
theorem RoundTrip.sar (w : AluI) : RoundTrip.Statement (.sar w) := aluRow w 0x05b .sar (by decide) rfl
theorem RoundTrip.rol (w : AluI) : RoundTrip.Statement (.rol w) := aluRow w 0x05c .rol (by decide) rfl
theorem RoundTrip.ror (w : AluI) : RoundTrip.Statement (.ror w) := aluRow w 0x05d .ror (by decide) rfl
theorem RoundTrip.shl64 (w : AluI) : RoundTrip.Statement (.shl64 w) := aluRow w 0x05e .shl64 (by decide) rfl
theorem RoundTrip.shr64 (w : AluI) : RoundTrip.Statement (.shr64 w) := aluRow w 0x05f .shr64 (by decide) rfl
theorem RoundTrip.popc (w : AluI) : RoundTrip.Statement (.popc w) := aluRow w 0x060 .popc (by decide) rfl
theorem RoundTrip.clz (w : AluI) : RoundTrip.Statement (.clz w) := aluRow w 0x061 .clz (by decide) rfl
theorem RoundTrip.ctz (w : AluI) : RoundTrip.Statement (.ctz w) := aluRow w 0x062 .ctz (by decide) rfl
theorem RoundTrip.brev (w : AluI) : RoundTrip.Statement (.brev w) := aluRow w 0x063 .brev (by decide) rfl
theorem RoundTrip.bfe (w : AluI) : RoundTrip.Statement (.bfe w) := aluRow w 0x064 .bfe (by decide) rfl
theorem RoundTrip.bfi (w : AluI) : RoundTrip.Statement (.bfi w) := aluRow w 0x065 .bfi (by decide) rfl
theorem RoundTrip.perm (w : AluI) : RoundTrip.Statement (.perm w) := aluRow w 0x066 .perm (by decide) rfl
theorem RoundTrip.isel (w : AluI) : RoundTrip.Statement (.isel w) := aluRow w 0x067 .isel (by decide) rfl
theorem RoundTrip.icmp (w : AluI) : RoundTrip.Statement (.icmp w) := aluRow w 0x068 .icmp (by decide) rfl
theorem RoundTrip.mov (w : AluI) : RoundTrip.Statement (.mov w) := aluRow w 0x069 .mov (by decide) rfl
theorem RoundTrip.movi (w : LongI) : RoundTrip.Statement (.movi w) := longRow w 0x06a .movi (by decide) rfl rfl rfl rfl
theorem RoundTrip.wmov (w : AluI) : RoundTrip.Statement (.wmov w) := aluRow w 0x06b .wmov (by decide) rfl
theorem RoundTrip.lea (w : AluI) : RoundTrip.Statement (.lea w) := aluRow w 0x06c .lea (by decide) rfl
theorem RoundTrip.iadds (w : AluI) : RoundTrip.Statement (.iadds w) := aluRow w 0x06d .iadds (by decide) rfl
theorem RoundTrip.shfl (w : AluI) : RoundTrip.Statement (.shfl w) := aluRow w 0x080 .shfl (by decide) rfl
theorem RoundTrip.shflup (w : AluI) : RoundTrip.Statement (.shflup w) := aluRow w 0x081 .shflup (by decide) rfl
theorem RoundTrip.shfldn (w : AluI) : RoundTrip.Statement (.shfldn w) := aluRow w 0x082 .shfldn (by decide) rfl
theorem RoundTrip.shflx (w : AluI) : RoundTrip.Statement (.shflx w) := aluRow w 0x083 .shflx (by decide) rfl
theorem RoundTrip.vote (w : AluI) : RoundTrip.Statement (.vote w) := aluRow w 0x084 .vote (by decide) rfl
theorem RoundTrip.wredi (w : AluI) : RoundTrip.Statement (.wredi w) := aluRow w 0x085 .wredi (by decide) rfl
theorem RoundTrip.wredf (w : AluI) : RoundTrip.Statement (.wredf w) := aluRow w 0x086 .wredf (by decide) rfl
theorem RoundTrip.wscan (w : AluI) : RoundTrip.Statement (.wscan w) := aluRow w 0x087 .wscan (by decide) rfl
theorem RoundTrip.wargx (w : AluI) : RoundTrip.Statement (.wargx w) := aluRow w 0x088 .wargx (by decide) rfl
theorem RoundTrip.plop (w : AluI) : RoundTrip.Statement (.plop w) := aluRow w 0x089 .plop (by decide) rfl
theorem RoundTrip.pmov (w : AluI) : RoundTrip.Statement (.pmov w) := aluRow w 0x08a .pmov (by decide) rfl
theorem RoundTrip.cvtf (w : AluI) : RoundTrip.Statement (.cvtf w) := aluRow w 0x08b .cvtf (by decide) rfl
theorem RoundTrip.cvtfi (w : AluI) : RoundTrip.Statement (.cvtfi w) := aluRow w 0x08c .cvtfi (by decide) rfl
theorem RoundTrip.cvtif (w : AluI) : RoundTrip.Statement (.cvtif w) := aluRow w 0x08d .cvtif (by decide) rfl
theorem RoundTrip.pack (w : AluI) : RoundTrip.Statement (.pack w) := aluRow w 0x08e .pack (by decide) rfl
theorem RoundTrip.unpack (w : AluI) : RoundTrip.Statement (.unpack w) := aluRow w 0x08f .unpack (by decide) rfl
theorem RoundTrip.srseed (w : AluI) : RoundTrip.Statement (.srseed w) := aluRow w 0x090 .srseed (by decide) rfl
theorem RoundTrip.srdraw (w : AluI) : RoundTrip.Statement (.srdraw w) := aluRow w 0x091 .srdraw (by decide) rfl
theorem RoundTrip.fadd (w : AluI) : RoundTrip.Statement (.fadd w) := aluRow w 0x0c0 .fadd (by decide) rfl
theorem RoundTrip.fsub (w : AluI) : RoundTrip.Statement (.fsub w) := aluRow w 0x0c1 .fsub (by decide) rfl
theorem RoundTrip.fmul (w : AluI) : RoundTrip.Statement (.fmul w) := aluRow w 0x0c2 .fmul (by decide) rfl
theorem RoundTrip.ffma (w : AluI) : RoundTrip.Statement (.ffma w) := aluRow w 0x0c3 .ffma (by decide) rfl
theorem RoundTrip.fmin (w : AluI) : RoundTrip.Statement (.fmin w) := aluRow w 0x0c4 .fmin (by decide) rfl
theorem RoundTrip.fmax (w : AluI) : RoundTrip.Statement (.fmax w) := aluRow w 0x0c5 .fmax (by decide) rfl
theorem RoundTrip.fcmp (w : AluI) : RoundTrip.Statement (.fcmp w) := aluRow w 0x0c6 .fcmp (by decide) rfl
theorem RoundTrip.fsel (w : AluI) : RoundTrip.Statement (.fsel w) := aluRow w 0x0c7 .fsel (by decide) rfl
theorem RoundTrip.frcp (w : AluI) : RoundTrip.Statement (.frcp w) := aluRow w 0x0c8 .frcp (by decide) rfl
theorem RoundTrip.frsq (w : AluI) : RoundTrip.Statement (.frsq w) := aluRow w 0x0c9 .frsq (by decide) rfl
theorem RoundTrip.fsqrt (w : AluI) : RoundTrip.Statement (.fsqrt w) := aluRow w 0x0ca .fsqrt (by decide) rfl
theorem RoundTrip.fdiv (w : AluI) : RoundTrip.Statement (.fdiv w) := aluRow w 0x0cb .fdiv (by decide) rfl
theorem RoundTrip.fexp2 (w : AluI) : RoundTrip.Statement (.fexp2 w) := aluRow w 0x0cc .fexp2 (by decide) rfl
theorem RoundTrip.flog2 (w : AluI) : RoundTrip.Statement (.flog2 w) := aluRow w 0x0cd .flog2 (by decide) rfl
theorem RoundTrip.fsinr (w : AluI) : RoundTrip.Statement (.fsinr w) := aluRow w 0x0ce .fsinr (by decide) rfl
theorem RoundTrip.fcosr (w : AluI) : RoundTrip.Statement (.fcosr w) := aluRow w 0x0cf .fcosr (by decide) rfl
theorem RoundTrip.ftanh (w : AluI) : RoundTrip.Statement (.ftanh w) := aluRow w 0x0d0 .ftanh (by decide) rfl
theorem RoundTrip.fclass (w : AluI) : RoundTrip.Statement (.fclass w) := aluRow w 0x0d1 .fclass (by decide) rfl
theorem RoundTrip.fscale (w : AluI) : RoundTrip.Statement (.fscale w) := aluRow w 0x0d2 .fscale (by decide) rfl
theorem RoundTrip.frint (w : AluI) : RoundTrip.Statement (.frint w) := aluRow w 0x0d3 .frint (by decide) rfl
theorem RoundTrip.hadd2 (w : AluI) : RoundTrip.Statement (.hadd2 w) := aluRow w 0x0d4 .hadd2 (by decide) rfl
theorem RoundTrip.hmul2 (w : AluI) : RoundTrip.Statement (.hmul2 w) := aluRow w 0x0d5 .hmul2 (by decide) rfl
theorem RoundTrip.hfma2 (w : AluI) : RoundTrip.Statement (.hfma2 w) := aluRow w 0x0d6 .hfma2 (by decide) rfl
theorem RoundTrip.addx (w : AluI) : RoundTrip.Statement (.addx w) := aluRow w 0x0d7 .addx (by decide) rfl
theorem RoundTrip.subx (w : AluI) : RoundTrip.Statement (.subx w) := aluRow w 0x0d8 .subx (by decide) rfl
theorem RoundTrip.mulx (w : AluI) : RoundTrip.Statement (.mulx w) := aluRow w 0x0d9 .mulx (by decide) rfl
theorem RoundTrip.fmae (w : AluI) : RoundTrip.Statement (.fmae w) := aluRow w 0x0da .fmae (by decide) rfl
theorem RoundTrip.fastx (w : AluI) : RoundTrip.Statement (.fastx w) := aluRow w 0x0db .fastx (by decide) rfl
theorem RoundTrip.xadd (w : AluI) : RoundTrip.Statement (.xadd w) := aluRow w 0x100 .xadd (by decide) rfl
theorem RoundTrip.xsub (w : AluI) : RoundTrip.Statement (.xsub w) := aluRow w 0x101 .xsub (by decide) rfl
theorem RoundTrip.xmul (w : AluI) : RoundTrip.Statement (.xmul w) := aluRow w 0x102 .xmul (by decide) rfl
theorem RoundTrip.xfma (w : AluI) : RoundTrip.Statement (.xfma w) := aluRow w 0x103 .xfma (by decide) rfl
theorem RoundTrip.xren (w : AluI) : RoundTrip.Statement (.xren w) := aluRow w 0x104 .xren (by decide) rfl
theorem RoundTrip.xcpr (w : AluI) : RoundTrip.Statement (.xcpr w) := aluRow w 0x105 .xcpr (by decide) rfl
theorem RoundTrip.xcmp (w : AluI) : RoundTrip.Statement (.xcmp w) := aluRow w 0x106 .xcmp (by decide) rfl
theorem RoundTrip.xsplit (w : AluI) : RoundTrip.Statement (.xsplit w) := aluRow w 0x107 .xsplit (by decide) rfl
theorem RoundTrip.xtof (w : AluI) : RoundTrip.Statement (.xtof w) := aluRow w 0x108 .xtof (by decide) rfl
theorem RoundTrip.xacc (w : AluI) : RoundTrip.Statement (.xacc w) := aluRow w 0x109 .xacc (by decide) rfl
theorem RoundTrip.ldb (w : MemI) : RoundTrip.Statement (.ldb w) := memRow w 0x140 .ldb (by decide) rfl rfl
theorem RoundTrip.stb (w : MemI) : RoundTrip.Statement (.stb w) := memRow w 0x141 .stb (by decide) rfl rfl
theorem RoundTrip.ldl (w : MemI) : RoundTrip.Statement (.ldl w) := memRow w 0x142 .ldl (by decide) rfl rfl
theorem RoundTrip.stl (w : MemI) : RoundTrip.Statement (.stl w) := memRow w 0x143 .stl (by decide) rfl rfl
theorem RoundTrip.ldw (w : MemI) : RoundTrip.Statement (.ldw w) := memRow w 0x144 .ldw (by decide) rfl rfl
theorem RoundTrip.atb (w : MemI) : RoundTrip.Statement (.atb w) := memRow w 0x145 .atb (by decide) rfl rfl
theorem RoundTrip.atbf (w : MemI) : RoundTrip.Statement (.atbf w) := memRow w 0x146 .atbf (by decide) rfl rfl
theorem RoundTrip.atbc (w : MemI) : RoundTrip.Statement (.atbc w) := memRow w 0x147 .atbc (by decide) rfl rfl
theorem RoundTrip.casb (w : MemI) : RoundTrip.Statement (.casb w) := memRow w 0x148 .casb (by decide) rfl rfl
theorem RoundTrip.atl (w : MemI) : RoundTrip.Statement (.atl w) := memRow w 0x149 .atl (by decide) rfl rfl
theorem RoundTrip.casl (w : MemI) : RoundTrip.Statement (.casl w) := memRow w 0x14a .casl (by decide) rfl rfl
theorem RoundTrip.ldsq (w : MemI) : RoundTrip.Statement (.ldsq w) := memRow w 0x14b .ldsq (by decide) rfl rfl
theorem RoundTrip.pref (w : MemI) : RoundTrip.Statement (.pref w) := memRow w 0x14c .pref (by decide) rfl rfl
theorem RoundTrip.cwb (w : MemI) : RoundTrip.Statement (.cwb w) := memRow w 0x14d .cwb (by decide) rfl rfl
theorem RoundTrip.cinv (w : MemI) : RoundTrip.Statement (.cinv w) := memRow w 0x14e .cinv (by decide) rfl rfl
theorem RoundTrip.rhnew (w : OwnI) : RoundTrip.Statement (.rhnew w) := ownRow w 0x14f .rhnew (by decide) rfl rfl rfl
theorem RoundTrip.rhset (w : OwnI) : RoundTrip.Statement (.rhset w) := ownRow w 0x150 .rhset (by decide) rfl rfl rfl
theorem RoundTrip.rhdemote (w : OwnI) : RoundTrip.Statement (.rhdemote w) := ownRow w 0x151 .rhdemote (by decide) rfl rfl rfl
theorem RoundTrip.rhevict (w : OwnI) : RoundTrip.Statement (.rhevict w) := ownRow w 0x152 .rhevict (by decide) rfl rfl rfl
theorem RoundTrip.rhfree (w : OwnI) : RoundTrip.Statement (.rhfree w) := ownRow w 0x153 .rhfree (by decide) rfl rfl rfl
theorem RoundTrip.cpa (w : OwnI) : RoundTrip.Statement (.cpa w) := ownRow w 0x180 .cpa (by decide) rfl rfl rfl
theorem RoundTrip.cps (w : OwnI) : RoundTrip.Statement (.cps w) := ownRow w 0x181 .cps (by decide) rfl rfl rfl
theorem RoundTrip.cpl (w : OwnI) : RoundTrip.Statement (.cpl w) := ownRow w 0x182 .cpl (by decide) rfl rfl rfl
theorem RoundTrip.tagwall (w : OwnI) : RoundTrip.Statement (.tagwall w) := ownRow w 0x183 .tagwall (by decide) rfl rfl rfl
theorem RoundTrip.tagwany (w : OwnI) : RoundTrip.Statement (.tagwany w) := ownRow w 0x184 .tagwany (by decide) rfl rfl rfl
theorem RoundTrip.tagffr (w : OwnI) : RoundTrip.Statement (.tagffr w) := ownRow w 0x185 .tagffr (by decide) rfl rfl rfl
theorem RoundTrip.tagclr (w : OwnI) : RoundTrip.Statement (.tagclr w) := ownRow w 0x186 .tagclr (by decide) rfl rfl rfl
theorem RoundTrip.tbinit (w : OwnI) : RoundTrip.Statement (.tbinit w) := ownRow w 0x187 .tbinit (by decide) rfl rfl rfl
theorem RoundTrip.tbexp (w : OwnI) : RoundTrip.Statement (.tbexp w) := ownRow w 0x188 .tbexp (by decide) rfl rfl rfl
theorem RoundTrip.tbarv (w : OwnI) : RoundTrip.Statement (.tbarv w) := ownRow w 0x189 .tbarv (by decide) rfl rfl rfl
theorem RoundTrip.tbwait (w : OwnI) : RoundTrip.Statement (.tbwait w) := ownRow w 0x18a .tbwait (by decide) rfl rfl rfl
theorem RoundTrip.msend (w : OwnI) : RoundTrip.Statement (.msend w) := ownRow w 0x18b .msend (by decide) rfl rfl rfl
theorem RoundTrip.mpost (w : OwnI) : RoundTrip.Statement (.mpost w) := ownRow w 0x18c .mpost (by decide) rfl rfl rfl
theorem RoundTrip.mprobe (w : OwnI) : RoundTrip.Statement (.mprobe w) := ownRow w 0x18d .mprobe (by decide) rfl rfl rfl
theorem RoundTrip.mcancel (w : OwnI) : RoundTrip.Statement (.mcancel w) := ownRow w 0x18e .mcancel (by decide) rfl rfl rfl
theorem RoundTrip.nmcmd (w : OwnI) : RoundTrip.Statement (.nmcmd w) := ownRow w 0x18f .nmcmd (by decide) rfl rfl rfl
theorem RoundTrip.nmfence (w : OwnI) : RoundTrip.Statement (.nmfence w) := ownRow w 0x190 .nmfence (by decide) rfl rfl rfl
theorem RoundTrip.coll (w : OwnI) : RoundTrip.Statement (.coll w) := ownRow w 0x191 .coll (by decide) rfl rfl rfl
theorem RoundTrip.mma (w : OwnI) : RoundTrip.Statement (.mma w) := ownRow w 0x1c0 .mma (by decide) rfl rfl rfl
theorem RoundTrip.mmar (w : OwnI) : RoundTrip.Statement (.mmar w) := ownRow w 0x1c1 .mmar (by decide) rfl rfl rfl
theorem RoundTrip.mmd (w : OwnI) : RoundTrip.Statement (.mmd w) := ownRow w 0x1c2 .mmd (by decide) rfl rfl rfl
theorem RoundTrip.mmlr (w : OwnI) : RoundTrip.Statement (.mmlr w) := ownRow w 0x1c3 .mmlr (by decide) rfl rfl rfl
theorem RoundTrip.tzero (w : OwnI) : RoundTrip.Statement (.tzero w) := ownRow w 0x1c4 .tzero (by decide) rfl rfl rfl
theorem RoundTrip.tload (w : OwnI) : RoundTrip.Statement (.tload w) := ownRow w 0x1c5 .tload (by decide) rfl rfl rfl
theorem RoundTrip.tstore (w : OwnI) : RoundTrip.Statement (.tstore w) := ownRow w 0x1c6 .tstore (by decide) rfl rfl rfl
theorem RoundTrip.tread (w : OwnI) : RoundTrip.Statement (.tread w) := ownRow w 0x1c7 .tread (by decide) rfl rfl rfl
theorem RoundTrip.tnew (w : OwnI) : RoundTrip.Statement (.tnew w) := ownRow w 0x1c8 .tnew (by decide) rfl rfl rfl
theorem RoundTrip.tfree (w : OwnI) : RoundTrip.Statement (.tfree w) := ownRow w 0x1c9 .tfree (by decide) rfl rfl rfl
theorem RoundTrip.tstat (w : OwnI) : RoundTrip.Statement (.tstat w) := ownRow w 0x1ca .tstat (by decide) rfl rfl rfl
theorem RoundTrip.sscfg (w : OwnI) : RoundTrip.Statement (.sscfg w) := ownRow w 0x1cb .sscfg (by decide) rfl rfl rfl
theorem RoundTrip.scan (w : OwnI) : RoundTrip.Statement (.scan w) := ownRow w 0x1cc .scan (by decide) rfl rfl rfl
theorem RoundTrip.srr (w : OwnI) : RoundTrip.Statement (.srr w) := ownRow w 0x1e0 .srr (by decide) rfl rfl rfl
theorem RoundTrip.srw (w : OwnI) : RoundTrip.Statement (.srw w) := ownRow w 0x1e1 .srw (by decide) rfl rfl rfl
theorem RoundTrip.trap (w : OwnI) : RoundTrip.Statement (.trap w) := ownRow w 0x1e2 .trap (by decide) rfl rfl rfl
theorem RoundTrip.eret (w : OwnI) : RoundTrip.Statement (.eret w) := ownRow w 0x1e3 .eret (by decide) rfl rfl rfl
theorem RoundTrip.emopr (w : OwnI) : RoundTrip.Statement (.emopr w) := ownRow w 0x1e4 .emopr (by decide) rfl rfl rfl
theorem RoundTrip.emopw (w : OwnI) : RoundTrip.Statement (.emopw w) := ownRow w 0x1e5 .emopw (by decide) rfl rfl rfl
theorem RoundTrip.emret (w : OwnI) : RoundTrip.Statement (.emret w) := ownRow w 0x1e6 .emret (by decide) rfl rfl rfl
theorem RoundTrip.icinv (w : OwnI) : RoundTrip.Statement (.icinv w) := ownRow w 0x1e7 .icinv (by decide) rfl rfl rfl
theorem RoundTrip.fetchb (w : OwnI) : RoundTrip.Statement (.fetchb w) := ownRow w 0x1e8 .fetchb (by decide) rfl rfl rfl
theorem RoundTrip.fmtw (w : OwnI) : RoundTrip.Statement (.fmtw w) := ownRow w 0x1e9 .fmtw (by decide) rfl rfl rfl
theorem RoundTrip.fmtr (w : OwnI) : RoundTrip.Statement (.fmtr w) := ownRow w 0x1ea .fmtr (by decide) rfl rfl rfl
theorem RoundTrip.setprio (w : OwnI) : RoundTrip.Statement (.setprio w) := ownRow w 0x1eb .setprio (by decide) rfl rfl rfl
theorem RoundTrip.brk (w : OwnI) : RoundTrip.Statement (.brk w) := ownRow w 0x1ec .brk (by decide) rfl rfl rfl
theorem RoundTrip.halt (w : OwnI) : RoundTrip.Statement (.halt w) := ownRow w 0x1ed .halt (by decide) rfl rfl rfl
theorem RoundTrip.mov16 (w : Mov16) : RoundTrip.Statement (.mov16 w) :=
  row2 (w.read false).2.1 (w.read false).2.2.2.1 (by
    simp [of16, show w.toNat 0 / 2 % 16 = 0 from (w.read false).2.2.1, show Mov16.ofNat (w.toNat 0) = w from (w.read false).1,
      show bitAt (w.toNat 0) 15 = false from (w.read false).2.2.2.2])
theorem RoundTrip.movi16 (w : Mov16) : RoundTrip.Statement (.movi16 w) :=
  row2 (w.read true).2.1 (w.read true).2.2.2.1 (by
    simp [of16, show w.toNat 1 / 2 % 16 = 0 from (w.read true).2.2.1, show Mov16.ofNat (w.toNat 1) = w from (w.read true).1,
      show bitAt (w.toNat 1) 15 = true from (w.read true).2.2.2.2])
theorem RoundTrip.iadd16 (w : Op16) : RoundTrip.Statement (.iadd16 w) := opRow w 1 .iadd16 (by decide) (by decide) rfl
theorem RoundTrip.isub16 (w : Op16) : RoundTrip.Statement (.isub16 w) := opRow w 2 .isub16 (by decide) (by decide) rfl
theorem RoundTrip.imul16 (w : Op16) : RoundTrip.Statement (.imul16 w) := opRow w 3 .imul16 (by decide) (by decide) rfl
theorem RoundTrip.iand16 (w : Op16) : RoundTrip.Statement (.iand16 w) := opRow w 4 .iand16 (by decide) (by decide) rfl
theorem RoundTrip.ior16 (w : Op16) : RoundTrip.Statement (.ior16 w) := opRow w 5 .ior16 (by decide) (by decide) rfl
theorem RoundTrip.ixor16 (w : Op16) : RoundTrip.Statement (.ixor16 w) := opRow w 6 .ixor16 (by decide) (by decide) rfl
theorem RoundTrip.shl16 (w : Op16) : RoundTrip.Statement (.shl16 w) := opRow w 7 .shl16 (by decide) (by decide) rfl
theorem RoundTrip.shr16 (w : Op16) : RoundTrip.Statement (.shr16 w) := opRow w 8 .shr16 (by decide) (by decide) rfl
theorem RoundTrip.sar16 (w : Op16) : RoundTrip.Statement (.sar16 w) := opRow w 9 .sar16 (by decide) (by decide) rfl
theorem RoundTrip.imin16 (w : Op16) : RoundTrip.Statement (.imin16 w) := opRow w 10 .imin16 (by decide) (by decide) rfl
theorem RoundTrip.imax16 (w : Op16) : RoundTrip.Statement (.imax16 w) := opRow w 11 .imax16 (by decide) (by decide) rfl
theorem RoundTrip.fadd16 (w : Op16) : RoundTrip.Statement (.fadd16 w) := opRow w 12 .fadd16 (by decide) (by decide) rfl
theorem RoundTrip.fsub16 (w : Op16) : RoundTrip.Statement (.fsub16 w) := opRow w 13 .fsub16 (by decide) (by decide) rfl
theorem RoundTrip.fmul16 (w : Op16) : RoundTrip.Statement (.fmul16 w) := opRow w 14 .fmul16 (by decide) (by decide) rfl
theorem RoundTrip.fmax16 (w : Op16) : RoundTrip.Statement (.fmax16 w) := opRow w 15 .fmax16 (by decide) (by decide) rfl
theorem RoundTrip.nopC (w : CompN) : RoundTrip.Statement (.nopC w) :=
  row4 w.read.2.1 w.read.2.2.2 (by simp only [of32, w.read.2.2.1, if_true, w.read.1])
theorem RoundTrip.braC (w : CompJ) : RoundTrip.Statement (.braC w) := compJRow w 0x01 .braC (by decide) (by decide) rfl rfl rfl
theorem RoundTrip.brpC (w : CompJ) : RoundTrip.Statement (.brpC w) := compJRow w 0x02 .brpC (by decide) (by decide) rfl rfl rfl
theorem RoundTrip.movC (w : CompA) : RoundTrip.Statement (.movC w) := compARow w 0x03 .movC (by decide) (by decide) rfl
theorem RoundTrip.iaddC (w : CompA) : RoundTrip.Statement (.iaddC w) := compARow w 0x04 .iaddC (by decide) (by decide) rfl
theorem RoundTrip.isubC (w : CompA) : RoundTrip.Statement (.isubC w) := compARow w 0x05 .isubC (by decide) (by decide) rfl
theorem RoundTrip.imulC (w : CompA) : RoundTrip.Statement (.imulC w) := compARow w 0x06 .imulC (by decide) (by decide) rfl
theorem RoundTrip.iandC (w : CompA) : RoundTrip.Statement (.iandC w) := compARow w 0x07 .iandC (by decide) (by decide) rfl
theorem RoundTrip.iorC (w : CompA) : RoundTrip.Statement (.iorC w) := compARow w 0x08 .iorC (by decide) (by decide) rfl
theorem RoundTrip.ixorC (w : CompA) : RoundTrip.Statement (.ixorC w) := compARow w 0x09 .ixorC (by decide) (by decide) rfl
theorem RoundTrip.shlC (w : CompA) : RoundTrip.Statement (.shlC w) := compARow w 0x0a .shlC (by decide) (by decide) rfl
theorem RoundTrip.shrC (w : CompA) : RoundTrip.Statement (.shrC w) := compARow w 0x0b .shrC (by decide) (by decide) rfl
theorem RoundTrip.sarC (w : CompA) : RoundTrip.Statement (.sarC w) := compARow w 0x0c .sarC (by decide) (by decide) rfl
theorem RoundTrip.iminC (w : CompA) : RoundTrip.Statement (.iminC w) := compARow w 0x0d .iminC (by decide) (by decide) rfl
theorem RoundTrip.imaxC (w : CompA) : RoundTrip.Statement (.imaxC w) := compARow w 0x0e .imaxC (by decide) (by decide) rfl
theorem RoundTrip.iaddCi (w : CompI) : RoundTrip.Statement (.iaddCi w) := compIRow w 0x0f .iaddCi (by decide) (by decide) rfl rfl
theorem RoundTrip.shlCi (w : CompI) : RoundTrip.Statement (.shlCi w) := compIRow w 0x10 .shlCi (by decide) (by decide) rfl rfl
theorem RoundTrip.shrCi (w : CompI) : RoundTrip.Statement (.shrCi w) := compIRow w 0x11 .shrCi (by decide) (by decide) rfl rfl
theorem RoundTrip.sarCi (w : CompI) : RoundTrip.Statement (.sarCi w) := compIRow w 0x12 .sarCi (by decide) (by decide) rfl rfl
theorem RoundTrip.iandCi (w : CompI) : RoundTrip.Statement (.iandCi w) := compIRow w 0x13 .iandCi (by decide) (by decide) rfl rfl
theorem RoundTrip.moviC (w : CompI) : RoundTrip.Statement (.moviC w) := compIRow w 0x14 .moviC (by decide) (by decide) rfl rfl
theorem RoundTrip.faddC (w : CompA) : RoundTrip.Statement (.faddC w) := compARow w 0x15 .faddC (by decide) (by decide) rfl
theorem RoundTrip.fsubC (w : CompA) : RoundTrip.Statement (.fsubC w) := compARow w 0x16 .fsubC (by decide) (by decide) rfl
theorem RoundTrip.fmulC (w : CompA) : RoundTrip.Statement (.fmulC w) := compARow w 0x17 .fmulC (by decide) (by decide) rfl
theorem RoundTrip.fminC (w : CompA) : RoundTrip.Statement (.fminC w) := compARow w 0x18 .fminC (by decide) (by decide) rfl
theorem RoundTrip.fmaxC (w : CompA) : RoundTrip.Statement (.fmaxC w) := compARow w 0x19 .fmaxC (by decide) (by decide) rfl
theorem RoundTrip.ffmaC (w : CompA) : RoundTrip.Statement (.ffmaC w) := compARow w 0x1a .ffmaC (by decide) (by decide) rfl
theorem RoundTrip.addxC (w : CompA) : RoundTrip.Statement (.addxC w) := compARow w 0x1b .addxC (by decide) (by decide) rfl
theorem RoundTrip.mulxC (w : CompA) : RoundTrip.Statement (.mulxC w) := compARow w 0x1c .mulxC (by decide) (by decide) rfl
theorem RoundTrip.hadd2C (w : CompA) : RoundTrip.Statement (.hadd2C w) := compARow w 0x1d .hadd2C (by decide) (by decide) rfl
theorem RoundTrip.hmul2C (w : CompA) : RoundTrip.Statement (.hmul2C w) := compARow w 0x1e .hmul2C (by decide) (by decide) rfl
theorem RoundTrip.hfma2C (w : CompA) : RoundTrip.Statement (.hfma2C w) := compARow w 0x1f .hfma2C (by decide) (by decide) rfl
theorem RoundTrip.shflC (w : CompA) : RoundTrip.Statement (.shflC w) := compARow w 0x20 .shflC (by decide) (by decide) rfl
theorem RoundTrip.shflxC (w : CompA) : RoundTrip.Statement (.shflxC w) := compARow w 0x21 .shflxC (by decide) (by decide) rfl
theorem RoundTrip.ldlC (w : CompI) : RoundTrip.Statement (.ldlC w) := compIRow w 0x22 .ldlC (by decide) (by decide) rfl rfl
theorem RoundTrip.stlC (w : CompI) : RoundTrip.Statement (.stlC w) := compIRow w 0x23 .stlC (by decide) (by decide) rfl rfl
theorem RoundTrip.wmovC (w : CompA) : RoundTrip.Statement (.wmovC w) := compARow w 0x24 .wmovC (by decide) (by decide) rfl
theorem RoundTrip.iaddCw (w : CompW) : RoundTrip.Statement (.iaddCw w) := compWRow w 0x25 .iaddCw (by decide) (by decide) rfl rfl rfl rfl
theorem RoundTrip.isubCw (w : CompW) : RoundTrip.Statement (.isubCw w) := compWRow w 0x26 .isubCw (by decide) (by decide) rfl rfl rfl rfl
theorem RoundTrip.imulCw (w : CompW) : RoundTrip.Statement (.imulCw w) := compWRow w 0x27 .imulCw (by decide) (by decide) rfl rfl rfl rfl
theorem RoundTrip.iandCw (w : CompW) : RoundTrip.Statement (.iandCw w) := compWRow w 0x28 .iandCw (by decide) (by decide) rfl rfl rfl rfl
theorem RoundTrip.iorCw (w : CompW) : RoundTrip.Statement (.iorCw w) := compWRow w 0x29 .iorCw (by decide) (by decide) rfl rfl rfl rfl
theorem RoundTrip.shlCw (w : CompW) : RoundTrip.Statement (.shlCw w) := compWRow w 0x2a .shlCw (by decide) (by decide) rfl rfl rfl rfl
theorem RoundTrip.shrCw (w : CompW) : RoundTrip.Statement (.shrCw w) := compWRow w 0x2b .shrCw (by decide) (by decide) rfl rfl rfl rfl
theorem RoundTrip.sleepwExpiry (w : Nat) : RoundTrip.Statement (.sleepwExpiry w) := trivial
theorem RoundTrip.residencySweep (die h : Nat) : RoundTrip.Statement (.residencySweep die h) := trivial
theorem RoundTrip.undefinedOpcode (u : Undef) : RoundTrip.Statement (.undefinedOpcode u) := trivial
theorem RoundTrip.asyncTrap : RoundTrip.Statement .asyncTrap := trivial
theorem RoundTrip.waveRipens (w : Nat) : RoundTrip.Statement (.waveRipens w) := trivial
theorem RoundTrip.handlerDispatch (core slot : Nat) : RoundTrip.Statement (.handlerDispatch core slot) := trivial
theorem RoundTrip.runArbitration (core quad : Nat) : RoundTrip.Statement (.runArbitration core quad) := trivial
theorem RoundTrip.hangDetect (w : Nat) : RoundTrip.Statement (.hangDetect w) := trivial
theorem RoundTrip.registerLineFill (core w k : Nat) : RoundTrip.Statement (.registerLineFill core w k) := trivial
theorem RoundTrip.fetchFill (core ctx line : Nat) : RoundTrip.Statement (.fetchFill core ctx line) := trivial
theorem RoundTrip.translationProbeReturn (i : Nat) : RoundTrip.Statement (.translationProbeReturn i) := trivial
theorem RoundTrip.sideLogReplay (w : Nat) : RoundTrip.Statement (.sideLogReplay w) := trivial
theorem RoundTrip.l1WritebackTimeout (core sector : Nat) : RoundTrip.Statement (.l1WritebackTimeout core sector) := trivial
theorem RoundTrip.homeSliceRequest (square : Nat) : RoundTrip.Statement (.homeSliceRequest square) := trivial
theorem RoundTrip.squareTurn (square : Nat) : RoundTrip.Statement (.squareTurn square) := trivial
theorem RoundTrip.rdcFillArrival (die sector : Nat) : RoundTrip.Statement (.rdcFillArrival die sector) := trivial
theorem RoundTrip.rdcInvalidation (die sector : Nat) : RoundTrip.Statement (.rdcInvalidation die sector) := trivial
theorem RoundTrip.invalidationAck (die sector : Nat) : RoundTrip.Statement (.invalidationAck die sector) := trivial
theorem RoundTrip.tidalMigration (square : Nat) : RoundTrip.Statement (.tidalMigration square) := trivial
theorem RoundTrip.tidalReturn (square : Nat) : RoundTrip.Statement (.tidalReturn square) := trivial
theorem RoundTrip.lineOperationPerform (op : Nat) : RoundTrip.Statement (.lineOperationPerform op) := trivial
theorem RoundTrip.lineOperationRetire (op : Nat) : RoundTrip.Statement (.lineOperationRetire op) := trivial
theorem RoundTrip.swapOut (team : Nat) : RoundTrip.Statement (.swapOut team) := trivial
theorem RoundTrip.swapRequeue (team : Nat) : RoundTrip.Statement (.swapRequeue team) := trivial
theorem RoundTrip.matrixOpPerform (core : Nat) : RoundTrip.Statement (.matrixOpPerform core) := trivial
theorem RoundTrip.scanChunk (core : Nat) : RoundTrip.Statement (.scanChunk core) := trivial
theorem RoundTrip.tileDisplace (core : Nat) : RoundTrip.Statement (.tileDisplace core) := trivial
theorem RoundTrip.engineIdle (core : Nat) : RoundTrip.Statement (.engineIdle core) := trivial
theorem RoundTrip.engineStartStage (die : Nat) : RoundTrip.Statement (.engineStartStage die) := trivial
theorem RoundTrip.nmcmdSend (core : Nat) : RoundTrip.Statement (.nmcmdSend core) := trivial
theorem RoundTrip.nmuCommand (die stack : Nat) : RoundTrip.Statement (.nmuCommand die stack) := trivial
theorem RoundTrip.messageArrival (i : Nat) : RoundTrip.Statement (.messageArrival i) := trivial
theorem RoundTrip.quantumClose (w : Nat) : RoundTrip.Statement (.quantumClose w) := trivial
theorem RoundTrip.quantumCommit (grid : Nat) : RoundTrip.Statement (.quantumCommit grid) := trivial
theorem RoundTrip.collInstanceRetire (group inst : Nat) : RoundTrip.Statement (.collInstanceRetire group inst) := trivial
theorem RoundTrip.messageFlit (f : Flit) : RoundTrip.Statement (.messageFlit f) := trivial
theorem RoundTrip.contributionFlit (f : Flit) : RoundTrip.Statement (.contributionFlit f) := trivial
theorem RoundTrip.partialFlit (f : Flit) : RoundTrip.Statement (.partialFlit f) := trivial
theorem RoundTrip.retireFlit (f : Flit) : RoundTrip.Statement (.retireFlit f) := trivial
theorem RoundTrip.gangStartToken (f : Flit) : RoundTrip.Statement (.gangStartToken f) := trivial
theorem RoundTrip.gangStopToken (f : Flit) : RoundTrip.Statement (.gangStopToken f) := trivial
theorem RoundTrip.linkControlFlit (f : Flit) : RoundTrip.Statement (.linkControlFlit f) := trivial
theorem RoundTrip.queueTailDoorbell (ctx q : Nat) (v : BitVec 64) : RoundTrip.Statement (.queueTailDoorbell ctx q v) := trivial
theorem RoundTrip.launch (ctx q : Nat) : RoundTrip.Statement (.launch ctx q) := trivial
theorem RoundTrip.launchDispatch : RoundTrip.Statement .launchDispatch := trivial
theorem RoundTrip.setxtTable (ctx q : Nat) : RoundTrip.Statement (.setxtTable ctx q) := trivial
theorem RoundTrip.setxtFaultQueue (ctx q : Nat) : RoundTrip.Statement (.setxtFaultQueue ctx q) := trivial
theorem RoundTrip.xinv (ctx q : Nat) : RoundTrip.Statement (.xinv ctx q) := trivial
theorem RoundTrip.preempt (ctx q : Nat) : RoundTrip.Statement (.preempt ctx q) := trivial
theorem RoundTrip.priorityPreemption : RoundTrip.Statement .priorityPreemption := trivial
theorem RoundTrip.localBlockSave (team : Nat) : RoundTrip.Statement (.localBlockSave team) := trivial
theorem RoundTrip.teamPlacement : RoundTrip.Statement .teamPlacement := trivial
theorem RoundTrip.restitch (grid : Nat) : RoundTrip.Statement (.restitch grid) := trivial
theorem RoundTrip.teamFree (team : Nat) : RoundTrip.Statement (.teamFree team) := trivial
theorem RoundTrip.gridCompletion (grid : Nat) : RoundTrip.Statement (.gridCompletion grid) := trivial
theorem RoundTrip.faultRetry (ctx : Nat) (seq : BitVec 32) : RoundTrip.Statement (.faultRetry ctx seq) := trivial
theorem RoundTrip.faultFail (ctx : Nat) (seq : BitVec 32) : RoundTrip.Statement (.faultFail ctx seq) := trivial
theorem RoundTrip.migrationDoorbell (ctx z : Nat) (v : BitVec 64) : RoundTrip.Statement (.migrationDoorbell ctx z v) := trivial
theorem RoundTrip.faultQueueConsumer (ctx : Nat) (v : BitVec 64) : RoundTrip.Statement (.faultQueueConsumer ctx v) := trivial
theorem RoundTrip.errorRingConsumer (ctx : Nat) (v : BitVec 64) : RoundTrip.Statement (.errorRingConsumer ctx v) := trivial
theorem RoundTrip.adminRingBaseWrite (v : BitVec 64) : RoundTrip.Statement (.adminRingBaseWrite v) := trivial
theorem RoundTrip.adminRingSizeWrite (v : BitVec 64) : RoundTrip.Statement (.adminRingSizeWrite v) := trivial
theorem RoundTrip.adminTailDoorbell (v : BitVec 64) : RoundTrip.Statement (.adminTailDoorbell v) := trivial
theorem RoundTrip.errorLogBaseWrite (v : BitVec 64) : RoundTrip.Statement (.errorLogBaseWrite v) := trivial
theorem RoundTrip.errorLogSizeWrite (v : BitVec 64) : RoundTrip.Statement (.errorLogSizeWrite v) := trivial
theorem RoundTrip.errorLogConsumer (v : BitVec 64) : RoundTrip.Statement (.errorLogConsumer v) := trivial
theorem RoundTrip.registerWriteOther (r : RegAccess) : RoundTrip.Statement (.registerWriteOther r) := trivial
theorem RoundTrip.ctxnew : RoundTrip.Statement .ctxnew := trivial
theorem RoundTrip.ctxdel : RoundTrip.Statement .ctxdel := trivial
theorem RoundTrip.qnew : RoundTrip.Statement .qnew := trivial
theorem RoundTrip.qdel : RoundTrip.Statement .qdel := trivial
theorem RoundTrip.route : RoundTrip.Statement .route := trivial
theorem RoundTrip.groupInstall : RoundTrip.Statement .groupInstall := trivial
theorem RoundTrip.groupRemove : RoundTrip.Statement .groupRemove := trivial
theorem RoundTrip.spare : RoundTrip.Statement .spare := trivial
theorem RoundTrip.spareSwap (die kind unit : Nat) : RoundTrip.Statement (.spareSwap die kind unit) := trivial
theorem RoundTrip.getVersion (r : SpdmReq) : RoundTrip.Statement (.getVersion r) := trivial
theorem RoundTrip.getCapabilities (r : SpdmReq) : RoundTrip.Statement (.getCapabilities r) := trivial
theorem RoundTrip.negotiateAlgorithms (r : SpdmReq) : RoundTrip.Statement (.negotiateAlgorithms r) := trivial
theorem RoundTrip.getDigests (r : SpdmReq) : RoundTrip.Statement (.getDigests r) := trivial
theorem RoundTrip.getCertificate (r : SpdmReq) : RoundTrip.Statement (.getCertificate r) := trivial
theorem RoundTrip.challenge (r : SpdmReq) : RoundTrip.Statement (.challenge r) := trivial
theorem RoundTrip.getMeasurements (r : SpdmReq) : RoundTrip.Statement (.getMeasurements r) := trivial
theorem RoundTrip.keyExchange (r : SpdmReq) : RoundTrip.Statement (.keyExchange r) := trivial
theorem RoundTrip.finish (r : SpdmReq) : RoundTrip.Statement (.finish r) := trivial
theorem RoundTrip.keyUpdate (r : SpdmReq) : RoundTrip.Statement (.keyUpdate r) := trivial
theorem RoundTrip.heartbeat (r : SpdmReq) : RoundTrip.Statement (.heartbeat r) := trivial
theorem RoundTrip.endSession (r : SpdmReq) : RoundTrip.Statement (.endSession r) := trivial
theorem RoundTrip.setkey (r : SpdmReq) : RoundTrip.Statement (.setkey r) := trivial
theorem RoundTrip.vfRequestDropped (fn : Nat) : RoundTrip.Statement (.vfRequestDropped fn) := trivial
theorem RoundTrip.reset (b : BootInput) : RoundTrip.Statement (.reset b) := trivial
theorem RoundTrip.correctedErrorReport (e : CorrErr) : RoundTrip.Statement (.correctedErrorReport e) := trivial
theorem RoundTrip.tdispInterfaceRequest (fn : Nat) (target : TdispState) : RoundTrip.Statement (.tdispInterfaceRequest fn target) := trivial
theorem RoundTrip.hostAccessToDeviceMemory (a : HostAccess) : RoundTrip.Statement (.hostAccessToDeviceMemory a) := trivial
theorem RoundTrip.pcieReadCompletion (i : Nat) : RoundTrip.Statement (.pcieReadCompletion i) := trivial
theorem RoundTrip.handleTableCopyUpdate (i : Nat) : RoundTrip.Statement (.handleTableCopyUpdate i) := trivial
theorem RoundTrip.pyrathaRunTranslation (die ctx : Nat) (pc : BitVec 48) : RoundTrip.Statement (.pyrathaRunTranslation die ctx pc) := trivial
theorem RoundTrip.idleFlit (f : Flit) : RoundTrip.Statement (.idleFlit f) := trivial
theorem RoundTrip.discardedFlitType (f : Flit) : RoundTrip.Statement (.discardedFlitType f) := trivial

end Sys2Proof.Laws
end

