-- ==== Sys2Proof/Tests/Slice0.lean ====
section
/-! SUPPORT. Tests: terms that are not well formed, words written out from the encoding tables, results worked out by hand
from the rules, and for each statement a state and operands that meet its hypotheses. -/

set_option Elab.async false

namespace Sys2Proof.Tests

open Sys2Proof.Machine Sys2Proof.Claim

/-- The header of an unguarded instruction that ends no run. -/
def h7 : Hd := ⟨false, 7, 0, false⟩
/-- No modifier. -/
def m0 : AluM := ⟨false, 0, 0, 0, false, false, 0⟩
/-- A memory modifier with a format field and a size. -/
def mm (ord fmt size : Nat) : MemM := ⟨false, 0, BitVec.ofNat 2 ord, 0, BitVec.ofNat 4 fmt, BitVec.ofNat 4 size⟩
/-! ### The memory cipher (26 R401): the example of FIPS 197, chapter 4.2, and the S-box entry of its chapter 5.1.1 -/

theorem test_aes_product : aesMul 0x57 0x83 = 0xc1 := by decide +kernel
theorem test_aes_substitution : aesSub 0x53 = 0xed := by decide +kernel

/-! ### Reserved values (10 R201): one ill-formed term for each check -/

theorem test_reserved_fields : ∀ i ∈ ([
    .nop ⟨h7, 0, 0, 0, 0, 1⟩, .nop ⟨h7, 0, 0, 0, 1, 0⟩, .nop ⟨h7, 0, 0, 1, 0, 0⟩, .nop ⟨h7, 0, 1, 0, 0, 0⟩, .nop ⟨h7, 1, 0, 0, 0, 0⟩,
    .nop ⟨⟨false, 7, 1, false⟩, 0, 0, 0, 0, 0⟩, .bra ⟨⟨false, 7, 1, false⟩, 4, 0, 0⟩, .bra ⟨h7, 4, 1, 0⟩, .bra ⟨h7, 4, 0, 1⟩,
    .call ⟨h7, 4, 0, 3⟩, .brx ⟨h7, 0, 0, 0, 3, 0⟩, .movi ⟨⟨false, 7, 1, false⟩, 4, 0, 0⟩,
    .loopw ⟨h7, 0, 0, 0, 0, 64⟩, .loopw ⟨⟨false, 1, 0, false⟩, 0, 0, 0, 0, 1⟩, .loopw ⟨⟨true, 7, 0, false⟩, 0, 0, 0, 0, 1⟩,
    .rejoin ⟨h7, 0, 0, 0, 2, 0⟩, .attach ⟨h7, 0, 0, 64, 0, 0⟩, .cvset ⟨h7, 0, 0, 0, 0, 8⟩, .htest ⟨h7, 0, 0, 0, 16, 0⟩,
    .tread ⟨h7, 0x10, 0, 0, 0, 4⟩, .mmd ⟨h7, 0, 0, 0, 0, 1⟩, .mmd ⟨h7, 0, 0, 8, 0, 0⟩, .mma ⟨h7, 0, 0, 4, 0, 0⟩,
    .tload ⟨h7, 0, 0, 2, 0, 0⟩, .tagwall ⟨h7, 0, 0, 0, 1, 0⟩, .nmcmd ⟨h7, 0, 0, 0, 4, 0⟩, .cpa ⟨h7, 0, 0, 16, 0, 0⟩,
    .icmp ⟨h7, m0, 10, 0, 0, 0⟩, .iaddc ⟨h7, m0, 8, 0, 0, 0⟩] : List Instr), i.wellFormed = false := by decide +kernel

theorem test_reserved_alu_modifiers : ∀ i ∈ ([
    .iadd ⟨⟨false, 7, 1, false⟩, m0, 0, 0, 0, 0⟩, .iadd ⟨h7, ⟨false, 0, 5, 0, false, false, 0⟩, 0, 0, 0, 0⟩,
    .iadd ⟨h7, ⟨false, 1, 0, 0, false, false, 0⟩, 0, 0, 0, 0⟩, .lea ⟨h7, ⟨false, 0, 1, 0, false, false, 0⟩, 0, 0, 0, 0⟩,
    .iadd ⟨h7, ⟨true, 0, 0, 0, false, false, 0⟩, 0, 64, 0, 0⟩, .iabs ⟨h7, ⟨true, 0, 0, 0, false, false, 0⟩, 0, 0, 0, 0⟩,
    .iadd ⟨h7, ⟨false, 0, 0, 0, false, false, 1⟩, 0, 0, 0, 0⟩, .iadd ⟨h7, ⟨false, 0, 0, 0, false, true, 0⟩, 0, 0, 0, 0⟩,
    .iadd ⟨h7, ⟨false, 0, 0, 0, true, false, 0⟩, 0, 0, 0, 0⟩, .fadd ⟨h7, ⟨false, 0, 0, 0, true, false, 1⟩, 0, 0, 0, 0⟩,
    .fadd ⟨h7, ⟨false, 0, 0, 3, false, false, 0⟩, 0, 0, 0, 0⟩, .hadd2 ⟨h7, m0, 0, 0, 0, 0⟩,
    .vote ⟨h7, m0, 2, 0, 0, 2⟩, .vote ⟨h7, m0, 0, 0, 0, 8⟩, .wscan ⟨h7, m0, 9, 0, 0, 0⟩,
    .wscan ⟨h7, ⟨false, 0, 0, 0, false, false, 1⟩, 0, 0, 0, 0⟩, .pmov ⟨h7, m0, 0, 0, 1, 0⟩, .pmov ⟨h7, m0, 1, 0, 0, 1⟩,
    .cvtfi ⟨h7, ⟨false, 0, 0, 0, false, false, 1⟩, 4, 0, 0, 0⟩, .pack ⟨h7, m0, 3, 0, 0, 0⟩, .pack ⟨h7, m0, 10, 0, 0, 0⟩,
    .pack ⟨h7, m0, 64, 0, 0, 0⟩, .unpack ⟨h7, ⟨false, 0, 0, 2, false, false, 0⟩, 64, 0, 0, 0⟩,
    .xadd ⟨h7, m0, 3, 0, 0, 0⟩, .xadd ⟨h7, m0, 64, 0, 0, 0⟩, .xadd ⟨h7, m0, 0, 0, 0, 1⟩, .xadd ⟨h7, m0, 4, 0, 2, 0⟩,
    .xadd ⟨h7, m0, 0x20, 2, 0, 0⟩, .xadd ⟨h7, ⟨true, 0, 0, 0, false, false, 0⟩, 0, 0, 0, 0⟩, .xren ⟨h7, m0, 16, 0, 0, 0⟩,
    .xcpr ⟨h7, m0, 48, 0, 0, 0⟩, .xcmp ⟨h7, m0, 0, 0, 1, 0⟩, .xsplit ⟨h7, m0, 4, 0, 0, 0⟩, .xtof ⟨h7, m0, 1, 0, 0, 0⟩,
    .xacc ⟨h7, m0, 3, 0, 0, 0⟩, .xacc ⟨h7, m0, 1, 0, 0, 2⟩] : List Instr), i.wellFormed = false := by decide +kernel

theorem test_reserved_own_modifiers : ∀ i ∈ ([
    .bararv ⟨h7, 0x0110, 0, 0, 0, 0⟩, .bararv ⟨h7, 0x0200, 0, 0, 0, 0⟩, .barwt ⟨h7, 0x0010, 0, 0, 0, 0⟩,
    .hwait ⟨h7, 0, 0, 0, 0, 1⟩, .hwait ⟨h7, 2, 0, 0, 0, 0⟩, .fence ⟨h7, 0x0000, 0, 0, 0, 0⟩, .fence ⟨h7, 0x0700, 0, 0, 0, 0⟩,
    .fence ⟨h7, 0x2100, 0, 0, 0, 0⟩, .fence ⟨h7, 0x0101, 0, 0, 0, 0⟩, .nmfence ⟨h7, 0x0900, 0, 0, 0, 0⟩,
    .nmfence ⟨h7, 0x0000, 0, 0, 0, 0⟩, .srr ⟨h7, 0x18, 0, 0, 0, 0⟩, .srr ⟨h7, 0x10b, 0, 0, 0, 0⟩, .srr ⟨h7, 0x20c, 0, 0, 0, 0⟩,
    .srw ⟨h7, 0x0a, 0, 0, 0, 0⟩, .eret ⟨h7, 4, 0, 0, 0, 0⟩, .eret ⟨h7, 3, 0, 0, 1, 0⟩, .eret ⟨h7, 0, 0, 0, 2, 0⟩,
    .emopr ⟨h7, 0x0d, 0, 0, 0, 0⟩, .emopr ⟨h7, 0x810, 0, 0, 0, 0⟩, .emopr ⟨h7, 0x101, 0, 0, 0, 0⟩, .emopw ⟨h7, 0x01, 0, 0, 0, 0⟩,
    .fmtw ⟨h7, 16, 0, 0, 0, 0⟩, .setprio ⟨h7, 12, 0, 0, 0, 0⟩, .cpa ⟨h7, 3, 0, 0, 0, 0⟩, .cpl ⟨h7, 3, 0, 0, 0, 0⟩,
    .cpl ⟨h7, 0x100, 0, 0, 0, 0⟩, .tbinit ⟨h7, 2, 0, 0, 0, 0⟩, .nmcmd ⟨h7, 1, 0, 0, 0, 0⟩, .mma ⟨h7, 0x100, 0, 0, 0, 0⟩,
    .mma ⟨h7, 0x420, 0, 0, 0, 0⟩, .mma ⟨h7, 0x202, 0, 0, 0, 0⟩, .tread ⟨h7, 0x30, 0, 0, 0, 0⟩, .tread ⟨h7, 8, 0, 0, 0, 0⟩,
    .tread ⟨h7, 0, 0, 0, 0, 2⟩, .tread ⟨h7, 0x40, 0, 0, 0, 0⟩] : List Instr), i.wellFormed = false := by decide +kernel

theorem test_reserved_memory_fields : ∀ i ∈ ([
    .ldb ⟨h7, mm 0 0 5, 0, 0, 0, 0⟩, .ldb ⟨h7, ⟨false, 0, 0, 7, 0, 2⟩, 0, 0, 0, 0⟩, .ldb ⟨h7, mm 2 0 2, 0, 0, 0, 0⟩,
    .stb ⟨h7, mm 1 0 2, 0, 0, 0, 0⟩, .stb ⟨⟨false, 7, 1, false⟩, mm 0 0 2, 0, 0, 0, 0⟩, .ldb ⟨h7, mm 0 0 3, 0, 0, 0, 1⟩,
    .ldl ⟨h7, mm 0 0 2, 0, 1, 0, 0⟩, .ldl ⟨h7, ⟨false, 1, 0, 0, 0, 2⟩, 0, 0, 0, 0⟩, .ldw ⟨h7, mm 0 0 2, 0, 0, 64, 0⟩,
    .ldw ⟨h7, mm 0 1 2, 0, 0, 0, 0⟩, .ldw ⟨h7, mm 0 0 2, 0, 0, 0, 64⟩, .ldw ⟨h7, mm 0 0 3, 0, 0, 0, 1⟩,
    .atb ⟨h7, mm 0 15 2, 0, 0, 0, 0⟩, .atb ⟨h7, mm 1 8 2, 0, 0, 0, 0⟩, .atl ⟨h7, mm 0 8 2, 0, 0, 0, 0⟩,
    .atbf ⟨h7, mm 0 6 2, 0, 0, 0, 0⟩, .atbf ⟨h7, mm 0 1 2, 0, 0, 0, 0⟩, .atbc ⟨h7, mm 0 2 3, 0, 0, 0, 0⟩,
    .casb ⟨h7, mm 0 1 2, 0, 0, 0, 0⟩, .casb ⟨h7, mm 0 0 2, 0, 0, 0, 1⟩, .ldsq ⟨h7, mm 0 3 2, 0, 0, 0, 0⟩,
    .pref ⟨h7, mm 1 0 2, 0, 0, 0, 0⟩, .cwb ⟨h7, mm 0 0 2, 0, 0, 0, 1⟩] : List Instr), i.wellFormed = false := by decide +kernel

theorem test_reserved_compact_fields : ∀ i ∈ ([
    .nopC ⟨false, 1⟩, .movC ⟨false, 1, 0, 0, 0⟩, .movC ⟨false, 0, 1, 0, 0⟩, .iaddC ⟨false, 1, 0, 0, 0⟩, .moviC ⟨false, 0, 1, 0⟩,
    .fminC ⟨false, 1, 0, 0, 0⟩, .addxC ⟨false, 0, 0, 0, 1⟩, .shflC ⟨false, 1, 0, 0, 0⟩, .wmovC ⟨false, 0, 0, 64, 0⟩,
    .iaddCw ⟨false, 1, 0, 0, 0⟩] : List Instr), i.wellFormed = false := by decide +kernel

theorem test_ill_formed_events : ∀ i ∈ ([
    .residencySweep 4 1, .residencySweep 0 0, .handlerDispatch 672 0, .handlerDispatch 0 4, .runArbitration 0 4,
    .registerLineFill 0 0 128, .fetchFill 0 1 (2 ^ 41), .rdcFillArrival 4 0,
    .undefinedOpcode ⟨.undefop, 3, 0, false⟩, .matrixOpPerform 672, .engineStartStage 4, .nmuCommand 0 3, .queueTailDoorbell 1 16 0,
    .launch 1 16, .migrationDoorbell 1 3 0, .spareSwap 0 2 0, .getVersion ⟨64, false, [], true⟩, .setkey ⟨64, true, [], true⟩, .vfRequestDropped 0,
    .correctedErrorReport ⟨4, .core, 0, 1, 0⟩, .tdispInterfaceRequest 0 .run, .hostAccessToDeviceMemory ⟨false, 2 ^ 40, [], 1⟩,
    .pyrathaRunTranslation 4 1 0, .idleFlit ⟨32, 0, 0, 0, 0, 0, 0, 0, 0, [], 0, 0⟩,
    .messageFlit ⟨0, 0, 0, 0, 1, 0, 0, 0, 0, [], 0, 0⟩] : List Instr), i.wellFormed = false := by decide +kernel
theorem test_decode_nop_to_fence : ∀ p ∈ ([
    (8, 0b0000000000000000_0000000_0000000_0000000_0000000_1_011_0000_000000000_1_11, .nop ⟨⟨true, 3, 0, true⟩, 0x0, 0, 0, 0, 0⟩),
    (8, 0b10001011101011011111000000001101_00000_0000000_1_011_0000_000000001_1_11, .bra ⟨⟨true, 3, 0, true⟩, 0x8badf00d, 0, 0⟩),
    (8, 0b10001011101011011111000000001101_00000_0000000_1_011_0000_000000010_1_11, .brp ⟨⟨true, 3, 0, true⟩, 0x8badf00d, 0, 0⟩),
    (8, 0b0000000000000000_0000000_0000000_1001010_0000000_1_011_0000_000000011_1_11, .brx ⟨⟨true, 3, 0, true⟩, 0x0, 0, 0, 74, 0⟩),
    (8, 0b10001011101011011111000000001101_00000_0100110_1_011_0000_000000100_1_11, .call ⟨⟨true, 3, 0, true⟩, 0x8badf00d, 0, 38⟩),
    (8, 0b0000000000000000_0000000_0000000_1001010_0100110_1_011_0000_000000101_1_11, .callx ⟨⟨true, 3, 0, true⟩, 0x0, 0, 0, 74, 38⟩),
    (8, 0b0000000000000000_0000000_0000000_1001010_0000000_1_011_0000_000000110_1_11, .ret ⟨⟨true, 3, 0, true⟩, 0x0, 0, 0, 74, 0⟩),
    (8, 0b1111111111111110_0000000_0000000_0000000_0100101_0_111_0000_000000111_1_11, .loopw ⟨⟨false, 7, 0, true⟩, 0xfffe, 0, 0, 0, 37⟩),
    (8, 0b1111111111110000_0000000_0000000_0000000_0100101_1_011_0000_000001000_1_11, .fspawn ⟨⟨true, 3, 0, true⟩, 0xfff0, 0, 0, 0, 37⟩),
    (8, 0b0000000000000000_0000000_0000000_0000000_0000000_1_011_0000_000001001_1_11, .fquit ⟨⟨true, 3, 0, true⟩, 0x0, 0, 0, 0, 0⟩),
    (8, 0b0000000000000000_0000000_0000000_1001000_0000000_1_011_0000_000001010_1_11, .rejoin ⟨⟨true, 3, 0, true⟩, 0x0, 0, 0, 72, 0⟩),
    (8, 0b0000000000000000_0000000_0000000_0000000_0000000_0_111_0000_000001011_1_11, .yield ⟨⟨false, 7, 0, true⟩, 0x0, 0, 0, 0, 0⟩),
    (8, 0b0000000000000000_0000000_0010101_0101010_0100101_1_011_0000_000001100_1_11, .attach ⟨⟨true, 3, 0, true⟩, 0x0, 0, 21, 42, 37⟩),
    (8, 0b0000000000000000_0000000_0000000_0000000_0000000_0_111_0000_000001101_1_11, .detach ⟨⟨false, 7, 0, true⟩, 0x0, 0, 0, 0, 0⟩),
    (8, 0b0000000100000101_0000000_0000000_0000000_0000000_0_111_0000_000001110_1_11, .bararv ⟨⟨false, 7, 0, true⟩, 0x105, 0, 0, 0, 0⟩),
    (8, 0b0000000000001011_0000000_0000000_0000000_0000000_0_111_0000_000001111_1_11, .barwt ⟨⟨false, 7, 0, true⟩, 0xb, 0, 0, 0, 0⟩),
    (8, 0b0000000011110011_0000000_0000000_0000000_0000000_0_111_0000_000010000_1_11, .barsyn ⟨⟨false, 7, 0, true⟩, 0xf3, 0, 0, 0, 0⟩),
    (8, 0b0000000000000000_0000000_0000000_0000000_0000000_0_111_0000_000010001_1_11, .gridbar ⟨⟨false, 7, 0, true⟩, 0x0, 0, 0, 0, 0⟩),
    (8, 0b0000000000000000_0000000_0000000_0101010_0000101_1_011_0000_000010010_1_11, .cvset ⟨⟨true, 3, 0, true⟩, 0x0, 0, 0, 42, 5⟩),
    (8, 0b0000000000000001_0000000_0000000_0000110_0100100_1_011_0000_000010011_1_11, .hwait ⟨⟨true, 3, 0, true⟩, 0x1, 0, 0, 6, 36⟩),
    (8, 0b0000000000000000_0000000_0000000_0000110_0000101_1_011_0000_000010100_1_11, .htest ⟨⟨true, 3, 0, true⟩, 0x0, 0, 0, 6, 5⟩),
    (8, 0b0000000000000000_0000000_0000000_0000110_0000000_1_011_0000_000010101_1_11, .hcancel ⟨⟨true, 3, 0, true⟩, 0x0, 0, 0, 6, 0⟩),
    (8, 0b0000000000000000_0000000_0000000_0000110_0001001_1_011_0000_000010110_1_11, .hmov ⟨⟨true, 3, 0, true⟩, 0x0, 0, 0, 6, 9⟩),
    (8, 0b0001110000000000_0000000_0000000_0000000_0000000_0_111_0000_000010111_1_11, .fence ⟨⟨false, 7, 0, true⟩, 0x1c00, 0, 0, 0, 0⟩)] : List (Nat × Nat × Instr)), decode 0 (leList p.1 p.2.1) = .instr p.2.2 p.1 := by decide +kernel

theorem test_decode_qsync_to_ior : ∀ p ∈ ([
    (8, 0b0000000000000000_0000000_0000000_0000000_0000000_0_111_0000_000011000_1_11, .qsync ⟨⟨false, 7, 0, true⟩, 0x0, 0, 0, 0, 0⟩),
    (8, 0b0000000000000000_0000000_0000000_0101010_0000000_0_111_0000_000011001_1_11, .sleepw ⟨⟨false, 7, 0, true⟩, 0x0, 0, 0, 42, 0⟩),
    (8, 0b0_1001_011_0000_0_0_00_0000000_0010101_1001010_0100101_1_011_0000_001000000_1_11, .iadd ⟨⟨true, 3, 0, true⟩, ⟨false, 9, 3, 0, false, false, 0⟩, 0, 21, 74, 37⟩),
    (8, 0b0_1001_011_0000_0_0_00_0000000_0010101_1001010_0100101_1_011_0000_001000001_1_11, .isub ⟨⟨true, 3, 0, true⟩, ⟨false, 9, 3, 0, false, false, 0⟩, 0, 21, 74, 37⟩),
    (8, 0b0_1001_011_0000_0_0_00_0000010_0010101_1001010_0100101_1_011_0000_001000010_1_11, .iaddc ⟨⟨true, 3, 0, true⟩, ⟨false, 9, 3, 0, false, false, 0⟩, 2, 21, 74, 37⟩),
    (8, 0b0_1001_011_0000_0_0_00_0000010_0010101_1001010_0100101_1_011_0000_001000011_1_11, .isubb ⟨⟨true, 3, 0, true⟩, ⟨false, 9, 3, 0, false, false, 0⟩, 2, 21, 74, 37⟩),
    (8, 0b0_1001_011_0000_0_0_00_0000000_0010101_1001010_0100101_1_011_0000_001000100_1_11, .imul ⟨⟨true, 3, 0, true⟩, ⟨false, 9, 3, 0, false, false, 0⟩, 0, 21, 74, 37⟩),
    (8, 0b0_1001_011_0000_0_0_00_0000000_0010101_1001010_0100101_1_011_0000_001000101_1_11, .imulh ⟨⟨true, 3, 0, true⟩, ⟨false, 9, 3, 0, false, false, 0⟩, 0, 21, 74, 37⟩),
    (8, 0b0_1001_011_0000_0_0_00_0000000_0010101_1001010_0100101_1_011_0000_001000110_1_11, .imulhu ⟨⟨true, 3, 0, true⟩, ⟨false, 9, 3, 0, false, false, 0⟩, 0, 21, 74, 37⟩),
    (8, 0b0_1001_011_0000_0_0_00_1100010_0010101_1001010_0100101_1_011_0000_001000111_1_11, .imad ⟨⟨true, 3, 0, true⟩, ⟨false, 9, 3, 0, false, false, 0⟩, 98, 21, 74, 37⟩),
    (8, 0b0_0000_000_0000_0_0_00_0000000_0010110_1001010_0100110_1_011_0000_001001000_1_11, .iadd64 ⟨⟨true, 3, 0, true⟩, ⟨false, 0, 0, 0, false, false, 0⟩, 0, 22, 74, 38⟩),
    (8, 0b0_0000_000_0000_0_0_00_1100010_0010101_1001010_0100110_1_011_0000_001001001_1_11, .imad64 ⟨⟨true, 3, 0, true⟩, ⟨false, 0, 0, 0, false, false, 0⟩, 98, 21, 74, 38⟩),
    (8, 0b0_1001_011_0000_0_0_00_0000000_0010101_1001010_0100101_1_011_0000_001001010_1_11, .idiv ⟨⟨true, 3, 0, true⟩, ⟨false, 9, 3, 0, false, false, 0⟩, 0, 21, 74, 37⟩),
    (8, 0b0_1001_011_0000_0_0_00_0000000_0010101_1001010_0100101_1_011_0000_001001011_1_11, .idivu ⟨⟨true, 3, 0, true⟩, ⟨false, 9, 3, 0, false, false, 0⟩, 0, 21, 74, 37⟩),
    (8, 0b0_1001_011_0000_0_0_00_0000000_0010101_1001010_0100101_1_011_0000_001001100_1_11, .irem ⟨⟨true, 3, 0, true⟩, ⟨false, 9, 3, 0, false, false, 0⟩, 0, 21, 74, 37⟩),
    (8, 0b0_1001_011_0000_0_0_00_0000000_0010101_1001010_0100101_1_011_0000_001001101_1_11, .iremu ⟨⟨true, 3, 0, true⟩, ⟨false, 9, 3, 0, false, false, 0⟩, 0, 21, 74, 37⟩),
    (8, 0b0_1001_011_0000_0_0_00_0000000_0010101_1001010_0100101_1_011_0000_001001110_1_11, .imin ⟨⟨true, 3, 0, true⟩, ⟨false, 9, 3, 0, false, false, 0⟩, 0, 21, 74, 37⟩),
    (8, 0b0_1001_011_0000_0_0_00_0000000_0010101_1001010_0100101_1_011_0000_001001111_1_11, .imax ⟨⟨true, 3, 0, true⟩, ⟨false, 9, 3, 0, false, false, 0⟩, 0, 21, 74, 37⟩),
    (8, 0b0_1001_011_0000_0_0_00_0000000_0010101_1001010_0100101_1_011_0000_001010000_1_11, .iminu ⟨⟨true, 3, 0, true⟩, ⟨false, 9, 3, 0, false, false, 0⟩, 0, 21, 74, 37⟩),
    (8, 0b0_1001_011_0000_0_0_00_0000000_0010101_1001010_0100101_1_011_0000_001010001_1_11, .imaxu ⟨⟨true, 3, 0, true⟩, ⟨false, 9, 3, 0, false, false, 0⟩, 0, 21, 74, 37⟩),
    (8, 0b0_1001_011_0000_0_0_00_0000000_0000000_1001010_0100101_1_011_0000_001010010_1_11, .iabs ⟨⟨true, 3, 0, true⟩, ⟨false, 9, 3, 0, false, false, 0⟩, 0, 0, 74, 37⟩),
    (8, 0b0_1001_011_0000_0_0_00_0000000_0000000_1001010_0100101_1_011_0000_001010011_1_11, .ineg ⟨⟨true, 3, 0, true⟩, ⟨false, 9, 3, 0, false, false, 0⟩, 0, 0, 74, 37⟩),
    (8, 0b0_1001_011_0000_0_0_00_0000000_0010101_1001010_0100101_1_011_0000_001010100_1_11, .iand ⟨⟨true, 3, 0, true⟩, ⟨false, 9, 3, 0, false, false, 0⟩, 0, 21, 74, 37⟩),
    (8, 0b0_1001_011_0000_0_0_00_0000000_0010101_1001010_0100101_1_011_0000_001010101_1_11, .ior ⟨⟨true, 3, 0, true⟩, ⟨false, 9, 3, 0, false, false, 0⟩, 0, 21, 74, 37⟩)] : List (Nat × Nat × Instr)), decode 0 (leList p.1 p.2.1) = .instr p.2.2 p.1 := by decide +kernel

theorem test_decode_ixor_to_iadds : ∀ p ∈ ([
    (8, 0b0_1001_011_0000_0_0_00_0000000_0010101_1001010_0100101_1_011_0000_001010110_1_11, .ixor ⟨⟨true, 3, 0, true⟩, ⟨false, 9, 3, 0, false, false, 0⟩, 0, 21, 74, 37⟩),
    (8, 0b0_1001_011_0000_0_0_00_0000000_0000000_1001010_0100101_1_011_0000_001010111_1_11, .inot ⟨⟨true, 3, 0, true⟩, ⟨false, 9, 3, 0, false, false, 0⟩, 0, 0, 74, 37⟩),
    (8, 0b0_1001_011_0000_0_0_00_0000000_0010101_1001010_0100101_1_011_0000_001011000_1_11, .iandn ⟨⟨true, 3, 0, true⟩, ⟨false, 9, 3, 0, false, false, 0⟩, 0, 21, 74, 37⟩),
    (8, 0b0_1001_011_0000_0_0_00_0000000_0010101_1001010_0100101_1_011_0000_001011001_1_11, .shl ⟨⟨true, 3, 0, true⟩, ⟨false, 9, 3, 0, false, false, 0⟩, 0, 21, 74, 37⟩),
    (8, 0b0_1001_011_0000_0_0_00_0000000_0010101_1001010_0100101_1_011_0000_001011010_1_11, .shr ⟨⟨true, 3, 0, true⟩, ⟨false, 9, 3, 0, false, false, 0⟩, 0, 21, 74, 37⟩),
    (8, 0b0_1001_011_0000_0_0_00_0000000_0010101_1001010_0100101_1_011_0000_001011011_1_11, .sar ⟨⟨true, 3, 0, true⟩, ⟨false, 9, 3, 0, false, false, 0⟩, 0, 21, 74, 37⟩),
    (8, 0b0_1001_011_0000_0_0_00_0000000_0010101_1001010_0100101_1_011_0000_001011100_1_11, .rol ⟨⟨true, 3, 0, true⟩, ⟨false, 9, 3, 0, false, false, 0⟩, 0, 21, 74, 37⟩),
    (8, 0b0_1001_011_0000_0_0_00_0000000_0010101_1001010_0100101_1_011_0000_001011101_1_11, .ror ⟨⟨true, 3, 0, true⟩, ⟨false, 9, 3, 0, false, false, 0⟩, 0, 21, 74, 37⟩),
    (8, 0b0_0000_000_0000_0_0_00_0000000_0010101_1001010_0100110_1_011_0000_001011110_1_11, .shl64 ⟨⟨true, 3, 0, true⟩, ⟨false, 0, 0, 0, false, false, 0⟩, 0, 21, 74, 38⟩),
    (8, 0b0_0000_000_0000_0_0_00_0000000_0010101_1001010_0100110_1_011_0000_001011111_1_11, .shr64 ⟨⟨true, 3, 0, true⟩, ⟨false, 0, 0, 0, false, false, 0⟩, 0, 21, 74, 38⟩),
    (8, 0b0_1001_011_0000_0_0_00_0000000_0000000_1001010_0100101_1_011_0000_001100000_1_11, .popc ⟨⟨true, 3, 0, true⟩, ⟨false, 9, 3, 0, false, false, 0⟩, 0, 0, 74, 37⟩),
    (8, 0b0_1001_011_0000_0_0_00_0000000_0000000_1001010_0100101_1_011_0000_001100001_1_11, .clz ⟨⟨true, 3, 0, true⟩, ⟨false, 9, 3, 0, false, false, 0⟩, 0, 0, 74, 37⟩),
    (8, 0b0_1001_011_0000_0_0_00_0000000_0000000_1001010_0100101_1_011_0000_001100010_1_11, .ctz ⟨⟨true, 3, 0, true⟩, ⟨false, 9, 3, 0, false, false, 0⟩, 0, 0, 74, 37⟩),
    (8, 0b0_1001_011_0000_0_0_00_0000000_0000000_1001010_0100101_1_011_0000_001100011_1_11, .brev ⟨⟨true, 3, 0, true⟩, ⟨false, 9, 3, 0, false, false, 0⟩, 0, 0, 74, 37⟩),
    (8, 0b0_1001_011_0000_0_0_00_0000000_0010101_1001010_0100101_1_011_0000_001100100_1_11, .bfe ⟨⟨true, 3, 0, true⟩, ⟨false, 9, 3, 0, false, false, 0⟩, 0, 21, 74, 37⟩),
    (8, 0b0_1001_011_0000_0_0_00_1100010_0010101_1001010_0100101_1_011_0000_001100101_1_11, .bfi ⟨⟨true, 3, 0, true⟩, ⟨false, 9, 3, 0, false, false, 0⟩, 98, 21, 74, 37⟩),
    (8, 0b0_1001_011_0000_0_0_00_1100010_0010101_1001010_0100101_1_011_0000_001100110_1_11, .perm ⟨⟨true, 3, 0, true⟩, ⟨false, 9, 3, 0, false, false, 0⟩, 98, 21, 74, 37⟩),
    (8, 0b0_1001_011_0000_0_0_00_0000010_0010101_1001010_0100101_1_011_0000_001100111_1_11, .isel ⟨⟨true, 3, 0, true⟩, ⟨false, 9, 3, 0, false, false, 0⟩, 2, 21, 74, 37⟩),
    (8, 0b0_1001_011_0000_0_0_00_0001000_0010101_1001010_0000101_1_011_0000_001101000_1_11, .icmp ⟨⟨true, 3, 0, true⟩, ⟨false, 9, 3, 0, false, false, 0⟩, 8, 21, 74, 5⟩),
    (8, 0b0_1001_011_0000_0_0_00_0000000_0000000_1001010_0100101_1_011_0000_001101001_1_11, .mov ⟨⟨true, 3, 0, true⟩, ⟨false, 9, 3, 0, false, false, 0⟩, 0, 0, 74, 37⟩),
    (8, 0b10001011101011011111000000001101_00000_0100101_1_011_0000_001101010_1_11, .movi ⟨⟨true, 3, 0, true⟩, 0x8badf00d, 0, 37⟩),
    (8, 0b0_0000_000_0000_0_0_00_0000000_0000000_0101010_0100101_1_011_0000_001101011_1_11, .wmov ⟨⟨true, 3, 0, true⟩, ⟨false, 0, 0, 0, false, false, 0⟩, 0, 0, 42, 37⟩),
    (8, 0b0_0000_000_0000_0_0_00_0011110_0010101_1001010_0100110_1_011_0000_001101100_1_11, .lea ⟨⟨true, 3, 0, true⟩, ⟨false, 0, 0, 0, false, false, 0⟩, 30, 21, 74, 38⟩),
    (8, 0b0_1001_011_0000_0_0_00_0000000_0010101_1001010_0100101_1_011_0000_001101101_1_11, .iadds ⟨⟨true, 3, 0, true⟩, ⟨false, 9, 3, 0, false, false, 0⟩, 0, 21, 74, 37⟩)] : List (Nat × Nat × Instr)), decode 0 (leList p.1 p.2.1) = .instr p.2.2 p.1 := by decide +kernel

theorem test_decode_shfl_to_fmax : ∀ p ∈ ([
    (8, 0b0_0000_000_0000_0_0_00_0000000_0010101_1001010_0100101_1_011_0000_010000000_1_11, .shfl ⟨⟨true, 3, 0, true⟩, ⟨false, 0, 0, 0, false, false, 0⟩, 0, 21, 74, 37⟩),
    (8, 0b0_0000_000_0000_0_0_00_0000000_0010101_1001010_0100101_1_011_0000_010000001_1_11, .shflup ⟨⟨true, 3, 0, true⟩, ⟨false, 0, 0, 0, false, false, 0⟩, 0, 21, 74, 37⟩),
    (8, 0b0_0000_000_0000_0_0_00_0000000_0010101_1001010_0100101_1_011_0000_010000010_1_11, .shfldn ⟨⟨true, 3, 0, true⟩, ⟨false, 0, 0, 0, false, false, 0⟩, 0, 21, 74, 37⟩),
    (8, 0b0_0000_000_0000_0_0_00_0000000_0010101_1001010_0100101_1_011_0000_010000011_1_11, .shflx ⟨⟨true, 3, 0, true⟩, ⟨false, 0, 0, 0, false, false, 0⟩, 0, 21, 74, 37⟩),
    (8, 0b0_0000_000_0000_0_0_00_0000001_0000000_0000011_0000101_1_011_0000_010000100_1_11, .vote ⟨⟨true, 3, 0, true⟩, ⟨false, 0, 0, 0, false, false, 0⟩, 1, 0, 3, 5⟩),
    (8, 0b0_0000_000_0000_0_0_00_0000111_0000000_1001010_0100101_1_011_0000_010000101_1_11, .wredi ⟨⟨true, 3, 0, true⟩, ⟨false, 0, 0, 0, false, false, 0⟩, 7, 0, 74, 37⟩),
    (8, 0b0_0000_000_0010_0_0_11_0000010_0000000_1001010_0100101_1_011_0000_010000110_1_11, .wredf ⟨⟨true, 3, 0, true⟩, ⟨false, 0, 0, 2, false, false, 3⟩, 2, 0, 74, 37⟩),
    (8, 0b0_0000_000_0000_0_0_10_0011000_0000000_1001010_0100101_1_011_0000_010000111_1_11, .wscan ⟨⟨true, 3, 0, true⟩, ⟨false, 0, 0, 0, false, false, 2⟩, 24, 0, 74, 37⟩),
    (8, 0b0_0000_000_0000_0_0_00_0000101_0010101_1001010_0100110_1_011_0000_010001000_1_11, .wargx ⟨⟨true, 3, 0, true⟩, ⟨false, 0, 0, 0, false, false, 0⟩, 5, 21, 74, 38⟩),
    (8, 0b0_0000_000_0000_0_0_00_0001110_0000110_0000011_0000101_1_011_0000_010001001_1_11, .plop ⟨⟨true, 3, 0, true⟩, ⟨false, 0, 0, 0, false, false, 0⟩, 14, 6, 3, 5⟩),
    (8, 0b0_0000_000_0000_0_0_00_0000001_0000000_1001000_0000000_1_011_0000_010001010_1_11, .pmov ⟨⟨true, 3, 0, true⟩, ⟨false, 0, 0, 0, false, false, 0⟩, 1, 0, 72, 0⟩),
    (8, 0b0_1001_011_1111_0_1_11_0001110_0000000_1001010_0100101_1_011_0000_010001011_1_11, .cvtf ⟨⟨true, 3, 0, true⟩, ⟨false, 9, 3, 15, false, true, 3⟩, 14, 0, 74, 37⟩),
    (8, 0b0_1001_011_1111_0_0_11_0000011_0000000_1001010_0100101_1_011_0000_010001100_1_11, .cvtfi ⟨⟨true, 3, 0, true⟩, ⟨false, 9, 3, 15, false, false, 3⟩, 3, 0, 74, 37⟩),
    (8, 0b0_1001_011_1111_0_1_11_0000100_0000000_1001010_0100101_1_011_0000_010001101_1_11, .cvtif ⟨⟨true, 3, 0, true⟩, ⟨false, 9, 3, 15, false, true, 3⟩, 4, 0, 74, 37⟩),
    (8, 0b0_0000_000_1111_0_1_11_0001001_0010101_1001010_0100101_1_011_0000_010001110_1_11, .pack ⟨⟨true, 3, 0, true⟩, ⟨false, 0, 0, 15, false, true, 3⟩, 9, 21, 74, 37⟩),
    (8, 0b0_1001_011_0000_0_0_11_1001001_0000000_1001010_0100101_1_011_0000_010001111_1_11, .unpack ⟨⟨true, 3, 0, true⟩, ⟨false, 9, 3, 0, false, false, 3⟩, 73, 0, 74, 37⟩),
    (8, 0b0_0000_000_0000_0_0_00_0000000_0000000_0101010_0000000_1_011_0000_010010000_1_11, .srseed ⟨⟨true, 3, 0, true⟩, ⟨false, 0, 0, 0, false, false, 0⟩, 0, 0, 42, 0⟩),
    (8, 0b0_0000_000_0000_0_0_00_0000000_0000000_0000000_0100101_1_011_0000_010010001_1_11, .srdraw ⟨⟨true, 3, 0, true⟩, ⟨false, 0, 0, 0, false, false, 0⟩, 0, 0, 0, 37⟩),
    (8, 0b0_1001_011_0010_0_1_11_0000000_0010101_1001010_0100101_1_011_0000_011000000_1_11, .fadd ⟨⟨true, 3, 0, true⟩, ⟨false, 9, 3, 2, false, true, 3⟩, 0, 21, 74, 37⟩),
    (8, 0b0_1001_011_0010_0_1_11_0000000_0010101_1001010_0100101_1_011_0000_011000001_1_11, .fsub ⟨⟨true, 3, 0, true⟩, ⟨false, 9, 3, 2, false, true, 3⟩, 0, 21, 74, 37⟩),
    (8, 0b0_1001_011_0010_0_1_11_0000000_0010101_1001010_0100101_1_011_0000_011000010_1_11, .fmul ⟨⟨true, 3, 0, true⟩, ⟨false, 9, 3, 2, false, true, 3⟩, 0, 21, 74, 37⟩),
    (8, 0b0_1001_011_0010_0_1_11_1100010_0010101_1001010_0100101_1_011_0000_011000011_1_11, .ffma ⟨⟨true, 3, 0, true⟩, ⟨false, 9, 3, 2, false, true, 3⟩, 98, 21, 74, 37⟩),
    (8, 0b0_1001_011_0010_0_0_00_0000000_0010101_1001010_0100101_1_011_0000_011000100_1_11, .fmin ⟨⟨true, 3, 0, true⟩, ⟨false, 9, 3, 2, false, false, 0⟩, 0, 21, 74, 37⟩),
    (8, 0b0_1001_011_0010_0_0_00_0000000_0010101_1001010_0100101_1_011_0000_011000101_1_11, .fmax ⟨⟨true, 3, 0, true⟩, ⟨false, 9, 3, 2, false, false, 0⟩, 0, 21, 74, 37⟩)] : List (Nat × Nat × Instr)), decode 0 (leList p.1 p.2.1) = .instr p.2.2 p.1 := by decide +kernel

theorem test_decode_fcmp_to_xsub : ∀ p ∈ ([
    (8, 0b0_1001_011_0010_0_0_00_0000111_0010101_1001010_0000101_1_011_0000_011000110_1_11, .fcmp ⟨⟨true, 3, 0, true⟩, ⟨false, 9, 3, 2, false, false, 0⟩, 7, 21, 74, 5⟩),
    (8, 0b0_1001_011_0000_0_0_00_0000010_0010101_1001010_0100101_1_011_0000_011000111_1_11, .fsel ⟨⟨true, 3, 0, true⟩, ⟨false, 9, 3, 0, false, false, 0⟩, 2, 21, 74, 37⟩),
    (8, 0b0_1001_011_0010_0_1_11_0000000_0000000_1001010_0100101_1_011_0000_011001000_1_11, .frcp ⟨⟨true, 3, 0, true⟩, ⟨false, 9, 3, 2, false, true, 3⟩, 0, 0, 74, 37⟩),
    (8, 0b0_1001_011_0010_0_1_11_0000000_0000000_1001010_0100101_1_011_0000_011001001_1_11, .frsq ⟨⟨true, 3, 0, true⟩, ⟨false, 9, 3, 2, false, true, 3⟩, 0, 0, 74, 37⟩),
    (8, 0b0_1001_011_0010_0_1_11_0000000_0000000_1001010_0100101_1_011_0000_011001010_1_11, .fsqrt ⟨⟨true, 3, 0, true⟩, ⟨false, 9, 3, 2, false, true, 3⟩, 0, 0, 74, 37⟩),
    (8, 0b0_1001_011_0010_0_1_11_0000000_0010101_1001010_0100101_1_011_0000_011001011_1_11, .fdiv ⟨⟨true, 3, 0, true⟩, ⟨false, 9, 3, 2, false, true, 3⟩, 0, 21, 74, 37⟩),
    (8, 0b0_1001_011_0010_0_1_11_0000000_0000000_1001010_0100101_1_011_0000_011001100_1_11, .fexp2 ⟨⟨true, 3, 0, true⟩, ⟨false, 9, 3, 2, false, true, 3⟩, 0, 0, 74, 37⟩),
    (8, 0b0_1001_011_0010_0_1_11_0000000_0000000_1001010_0100101_1_011_0000_011001101_1_11, .flog2 ⟨⟨true, 3, 0, true⟩, ⟨false, 9, 3, 2, false, true, 3⟩, 0, 0, 74, 37⟩),
    (8, 0b0_1001_011_0010_0_1_11_0000000_0000000_1001010_0100101_1_011_0000_011001110_1_11, .fsinr ⟨⟨true, 3, 0, true⟩, ⟨false, 9, 3, 2, false, true, 3⟩, 0, 0, 74, 37⟩),
    (8, 0b0_1001_011_0010_0_1_11_0000000_0000000_1001010_0100101_1_011_0000_011001111_1_11, .fcosr ⟨⟨true, 3, 0, true⟩, ⟨false, 9, 3, 2, false, true, 3⟩, 0, 0, 74, 37⟩),
    (8, 0b0_1001_011_0010_0_1_11_0000000_0000000_1001010_0100101_1_011_0000_011010000_1_11, .ftanh ⟨⟨true, 3, 0, true⟩, ⟨false, 9, 3, 2, false, true, 3⟩, 0, 0, 74, 37⟩),
    (8, 0b0_1001_011_0010_0_0_00_0000000_0000000_1001010_0100101_1_011_0000_011010001_1_11, .fclass ⟨⟨true, 3, 0, true⟩, ⟨false, 9, 3, 2, false, false, 0⟩, 0, 0, 74, 37⟩),
    (8, 0b0_1001_011_0010_0_1_11_0000000_0010101_1001010_0100101_1_011_0000_011010010_1_11, .fscale ⟨⟨true, 3, 0, true⟩, ⟨false, 9, 3, 2, false, true, 3⟩, 0, 21, 74, 37⟩),
    (8, 0b0_1001_011_0010_0_0_11_0000000_0000000_1001010_0100101_1_011_0000_011010011_1_11, .frint ⟨⟨true, 3, 0, true⟩, ⟨false, 9, 3, 2, false, false, 3⟩, 0, 0, 74, 37⟩),
    (8, 0b0_1001_011_0010_0_1_11_0000000_0010101_1001010_0100101_1_011_0000_011010100_1_11, .hadd2 ⟨⟨true, 3, 0, true⟩, ⟨false, 9, 3, 2, false, true, 3⟩, 0, 21, 74, 37⟩),
    (8, 0b0_1001_011_0010_0_1_11_0000000_0010101_1001010_0100101_1_011_0000_011010101_1_11, .hmul2 ⟨⟨true, 3, 0, true⟩, ⟨false, 9, 3, 2, false, true, 3⟩, 0, 21, 74, 37⟩),
    (8, 0b0_1001_011_0010_0_1_11_1100010_0010101_1001010_0100101_1_011_0000_011010110_1_11, .hfma2 ⟨⟨true, 3, 0, true⟩, ⟨false, 9, 3, 2, false, true, 3⟩, 98, 21, 74, 37⟩),
    (8, 0b0_1001_011_0010_0_1_11_0000000_0010101_1001010_0100110_1_011_0000_011010111_1_11, .addx ⟨⟨true, 3, 0, true⟩, ⟨false, 9, 3, 2, false, true, 3⟩, 0, 21, 74, 38⟩),
    (8, 0b0_1001_011_0010_0_1_11_0000000_0010101_1001010_0100110_1_011_0000_011011000_1_11, .subx ⟨⟨true, 3, 0, true⟩, ⟨false, 9, 3, 2, false, true, 3⟩, 0, 21, 74, 38⟩),
    (8, 0b0_1001_011_0010_0_1_11_0000000_0010101_1001010_0100110_1_011_0000_011011001_1_11, .mulx ⟨⟨true, 3, 0, true⟩, ⟨false, 9, 3, 2, false, true, 3⟩, 0, 21, 74, 38⟩),
    (8, 0b0_1001_011_0010_0_1_11_1100010_0010101_1001010_0100100_1_011_0000_011011010_1_11, .fmae ⟨⟨true, 3, 0, true⟩, ⟨false, 9, 3, 2, false, true, 3⟩, 98, 21, 74, 36⟩),
    (8, 0b0_1001_011_0010_0_1_11_0000000_0010101_1001010_0100110_1_011_0000_011011011_1_11, .fastx ⟨⟨true, 3, 0, true⟩, ⟨false, 9, 3, 2, false, true, 3⟩, 0, 21, 74, 38⟩),
    (8, 0b0_0000_000_0010_0_0_00_0010000_0010100_1001010_0100110_1_011_0000_100000000_1_11, .xadd ⟨⟨true, 3, 0, true⟩, ⟨false, 0, 0, 2, false, false, 0⟩, 16, 20, 74, 38⟩),
    (8, 0b0_0000_000_0010_0_0_00_0010000_0010100_1001010_0100110_1_011_0000_100000001_1_11, .xsub ⟨⟨true, 3, 0, true⟩, ⟨false, 0, 0, 2, false, false, 0⟩, 16, 20, 74, 38⟩)] : List (Nat × Nat × Instr)), decode 0 (leList p.1 p.2.1) = .instr p.2.2 p.1 := by decide +kernel

theorem test_decode_xmul_to_rhnew : ∀ p ∈ ([
    (8, 0b0_0000_000_0010_0_0_00_0110010_0010101_1001010_0100100_1_011_0000_100000010_1_11, .xmul ⟨⟨true, 3, 0, true⟩, ⟨false, 0, 0, 2, false, false, 0⟩, 50, 21, 74, 36⟩),
    (8, 0b0_0000_000_0010_0_0_00_0001001_0010110_1001000_0100100_1_011_0000_100000011_1_11, .xfma ⟨⟨true, 3, 0, true⟩, ⟨false, 0, 0, 2, false, false, 0⟩, 9, 22, 72, 36⟩),
    (8, 0b0_0000_000_0010_0_0_00_0000110_0000000_1001000_0100100_1_011_0000_100000100_1_11, .xren ⟨⟨true, 3, 0, true⟩, ⟨false, 0, 0, 2, false, false, 0⟩, 6, 0, 72, 36⟩),
    (8, 0b0_0000_000_0010_0_0_00_0000110_0000000_1001000_0100100_1_011_0000_100000101_1_11, .xcpr ⟨⟨true, 3, 0, true⟩, ⟨false, 0, 0, 2, false, false, 0⟩, 6, 0, 72, 36⟩),
    (8, 0b0_0000_000_0010_0_0_00_0010100_0010110_1001000_0000101_1_011_0000_100000110_1_11, .xcmp ⟨⟨true, 3, 0, true⟩, ⟨false, 0, 0, 2, false, false, 0⟩, 20, 22, 72, 5⟩),
    (8, 0b0_0000_000_0010_0_0_00_0100001_0000000_1001010_0100100_1_011_0000_100000111_1_11, .xsplit ⟨⟨true, 3, 0, true⟩, ⟨false, 0, 0, 2, false, false, 0⟩, 33, 0, 74, 36⟩),
    (8, 0b0_0000_000_1111_0_1_11_0010100_0000000_1001000_0100101_1_011_0000_100001000_1_11, .xtof ⟨⟨true, 3, 0, true⟩, ⟨false, 0, 0, 15, false, true, 3⟩, 20, 0, 72, 37⟩),
    (8, 0b0_0000_000_0010_0_0_00_0000010_0010101_1001010_0100100_1_011_0000_100001001_1_11, .xacc ⟨⟨true, 3, 0, true⟩, ⟨false, 0, 0, 2, false, false, 0⟩, 2, 21, 74, 36⟩),
    (8, 0b1_10_01_101_0000_0100_1010100101_1101_1001010_0100100_1_011_0000_101000000_1_11, .ldb ⟨⟨true, 3, 0, true⟩, ⟨true, 2, 1, 5, 0, 4⟩, 0x2a5, 13, 74, 36⟩),
    (8, 0b1_10_10_101_0000_0100_1010100101_1101_1001010_0100100_1_011_0000_101000001_1_11, .stb ⟨⟨true, 3, 0, true⟩, ⟨true, 2, 2, 5, 0, 4⟩, 0x2a5, 13, 74, 36⟩),
    (8, 0b1_00_01_101_0000_0100_1010100101_0000_1001010_0100100_1_011_0000_101000010_1_11, .ldl ⟨⟨true, 3, 0, true⟩, ⟨true, 0, 1, 5, 0, 4⟩, 0x2a5, 0, 74, 36⟩),
    (8, 0b1_00_10_101_0000_0100_1010100101_0000_1001010_0100100_1_011_0000_101000011_1_11, .stl ⟨⟨true, 3, 0, true⟩, ⟨true, 0, 2, 5, 0, 4⟩, 0x2a5, 0, 74, 36⟩),
    (8, 0b1_10_01_101_0000_0011_1010100101_1101_0101010_0100110_1_011_0000_101000100_1_11, .ldw ⟨⟨true, 3, 0, true⟩, ⟨true, 2, 1, 5, 0, 3⟩, 0x2a5, 13, 42, 38⟩),
    (8, 0b1_10_10_101_1101_0011_1010100101_1101_1001010_0100100_1_011_0000_101000101_1_11, .atb ⟨⟨true, 3, 0, true⟩, ⟨true, 2, 2, 5, 13, 3⟩, 0x2a5, 13, 74, 36⟩),
    (8, 0b1_10_00_101_1010_0001_1010100101_1101_1001010_0100100_1_011_0000_101000110_1_11, .atbf ⟨⟨true, 3, 0, true⟩, ⟨true, 2, 0, 5, 10, 1⟩, 0x2a5, 13, 74, 36⟩),
    (8, 0b1_10_00_101_0001_0011_1010100101_1101_1001010_0100100_1_011_0000_101000111_1_11, .atbc ⟨⟨true, 3, 0, true⟩, ⟨true, 2, 0, 5, 1, 3⟩, 0x2a5, 13, 74, 36⟩),
    (8, 0b1_10_11_101_0000_0010_1010100101_1101_1001010_0101000_1_011_0000_101001000_1_11, .casb ⟨⟨true, 3, 0, true⟩, ⟨true, 2, 3, 5, 0, 2⟩, 0x2a5, 13, 74, 40⟩),
    (8, 0b1_00_11_101_0110_0011_1010100101_0000_1001010_0100100_1_011_0000_101001001_1_11, .atl ⟨⟨true, 3, 0, true⟩, ⟨true, 0, 3, 5, 6, 3⟩, 0x2a5, 0, 74, 36⟩),
    (8, 0b1_00_00_101_0000_0011_1010100101_0000_1001010_0101000_1_011_0000_101001010_1_11, .casl ⟨⟨true, 3, 0, true⟩, ⟨true, 0, 0, 5, 0, 3⟩, 0x2a5, 0, 74, 40⟩),
    (8, 0b1_10_01_101_0010_0100_1010100101_1101_1001010_0100100_1_011_0000_101001011_1_11, .ldsq ⟨⟨true, 3, 0, true⟩, ⟨true, 2, 1, 5, 2, 4⟩, 0x2a5, 13, 74, 36⟩),
    (8, 0b0_10_00_101_0000_0010_1010100101_1101_1001010_0000000_1_011_0000_101001100_1_11, .pref ⟨⟨true, 3, 0, true⟩, ⟨false, 2, 0, 5, 0, 2⟩, 0x2a5, 13, 74, 0⟩),
    (8, 0b1_00_00_101_0000_0010_1010100101_1101_1001010_0000000_1_011_0000_101001101_1_11, .cwb ⟨⟨true, 3, 0, true⟩, ⟨true, 0, 0, 5, 0, 2⟩, 0x2a5, 13, 74, 0⟩),
    (8, 0b1_00_00_101_0000_0010_1010100101_1101_1001010_0000000_1_011_0000_101001110_1_11, .cinv ⟨⟨true, 3, 0, true⟩, ⟨true, 0, 0, 5, 0, 2⟩, 0x2a5, 13, 74, 0⟩),
    (8, 0b0000000000000000_0100010_0010110_0101010_0100101_1_011_0000_101001111_1_11, .rhnew ⟨⟨true, 3, 0, true⟩, 0x0, 34, 22, 42, 37⟩)] : List (Nat × Nat × Instr)), decode 0 (leList p.1 p.2.1) = .instr p.2.2 p.1 := by decide +kernel

theorem test_decode_rhset_to_mmar : ∀ p ∈ ([
    (8, 0b0000000000000000_0000000_0010101_0101010_0001001_1_011_0000_101010000_1_11, .rhset ⟨⟨true, 3, 0, true⟩, 0x0, 0, 21, 42, 9⟩),
    (8, 0b0000000000000000_0000000_0000000_0101010_0001001_1_011_0000_101010001_1_11, .rhdemote ⟨⟨true, 3, 0, true⟩, 0x0, 0, 0, 42, 9⟩),
    (8, 0b0000000000000000_0000000_0000000_0101010_0001001_1_011_0000_101010010_1_11, .rhevict ⟨⟨true, 3, 0, true⟩, 0x0, 0, 0, 42, 9⟩),
    (8, 0b0000000000000000_0000000_0000000_0101010_0001001_1_011_0000_101010011_1_11, .rhfree ⟨⟨true, 3, 0, true⟩, 0x0, 0, 0, 42, 9⟩),
    (8, 0b0000000000000010_0100010_0001011_1001010_0100101_1_011_0000_110000000_1_11, .cpa ⟨⟨true, 3, 0, true⟩, 0x2, 34, 11, 74, 37⟩),
    (8, 0b0000000000000001_0100010_0001011_1001010_0100101_1_011_0000_110000001_1_11, .cps ⟨⟨true, 3, 0, true⟩, 0x1, 34, 11, 74, 37⟩),
    (8, 0b0000000010010001_0100010_0001011_1001010_0100101_1_011_0000_110000010_1_11, .cpl ⟨⟨true, 3, 0, true⟩, 0x91, 34, 11, 74, 37⟩),
    (8, 0b0000000000000000_0000000_0000000_0101010_0000000_1_011_0000_110000011_1_11, .tagwall ⟨⟨true, 3, 0, true⟩, 0x0, 0, 0, 42, 0⟩),
    (8, 0b0000000000000000_0000000_0000000_0101010_0000000_1_011_0000_110000100_1_11, .tagwany ⟨⟨true, 3, 0, true⟩, 0x0, 0, 0, 42, 0⟩),
    (8, 0b0000000000000000_0000000_0000000_0101010_0100101_1_011_0000_110000101_1_11, .tagffr ⟨⟨true, 3, 0, true⟩, 0x0, 0, 0, 42, 37⟩),
    (8, 0b0000000000000000_0000000_0000000_0101010_0000000_1_011_0000_110000110_1_11, .tagclr ⟨⟨true, 3, 0, true⟩, 0x0, 0, 0, 42, 0⟩),
    (8, 0b0000000000000001_0000000_0010101_0101010_0000000_1_011_0000_110000111_1_11, .tbinit ⟨⟨true, 3, 0, true⟩, 0x1, 0, 21, 42, 0⟩),
    (8, 0b0000000000000000_0000000_0010110_0101010_0000000_1_011_0000_110001000_1_11, .tbexp ⟨⟨true, 3, 0, true⟩, 0x0, 0, 22, 42, 0⟩),
    (8, 0b0000000000000000_0100010_0010101_0101010_0000000_1_011_0000_110001001_1_11, .tbarv ⟨⟨true, 3, 0, true⟩, 0x0, 34, 21, 42, 0⟩),
    (8, 0b0000000000000000_0000000_0010101_0101010_0000101_1_011_0000_110001010_1_11, .tbwait ⟨⟨true, 3, 0, true⟩, 0x0, 0, 21, 42, 5⟩),
    (8, 0b0000000000000000_0100010_0010101_0101010_0001001_1_011_0000_110001011_1_11, .msend ⟨⟨true, 3, 0, true⟩, 0x0, 34, 21, 42, 9⟩),
    (8, 0b0000000000000000_0100010_0010101_0101010_0001001_1_011_0000_110001100_1_11, .mpost ⟨⟨true, 3, 0, true⟩, 0x0, 34, 21, 42, 9⟩),
    (8, 0b0000000000000000_0000000_0010101_0101010_0100101_1_011_0000_110001101_1_11, .mprobe ⟨⟨true, 3, 0, true⟩, 0x0, 0, 21, 42, 37⟩),
    (8, 0b0000000000000000_0000000_0000000_0000110_0000000_1_011_0000_110001110_1_11, .mcancel ⟨⟨true, 3, 0, true⟩, 0x0, 0, 0, 6, 0⟩),
    (8, 0b1000000000000000_0000000_0000000_1001000_0001001_1_011_0000_110001111_1_11, .nmcmd ⟨⟨true, 3, 0, true⟩, 0x8000, 0, 0, 72, 9⟩),
    (8, 0b0000001100000000_0000000_0000000_0000000_0000000_0_111_0000_110010000_1_11, .nmfence ⟨⟨false, 7, 0, true⟩, 0x300, 0, 0, 0, 0⟩),
    (8, 0b0000000000000000_0000000_0000000_0101010_0001001_1_011_0000_110010001_1_11, .coll ⟨⟨true, 3, 0, true⟩, 0x0, 0, 0, 42, 9⟩),
    (8, 0b0001100000100101_0000101_0010000_1001010_0001001_1_011_0000_111000000_1_11, .mma ⟨⟨true, 3, 0, true⟩, 0x1825, 5, 16, 74, 9⟩),
    (8, 0b0000000010000001_0000101_0010000_1001010_0001001_1_011_0000_111000001_1_11, .mmar ⟨⟨true, 3, 0, true⟩, 0x81, 5, 16, 74, 9⟩)] : List (Nat × Nat × Instr)), decode 0 (leList p.1 p.2.1) = .instr p.2.2 p.1 := by decide +kernel

theorem test_decode_mmd_to_brk : ∀ p ∈ ([
    (8, 0b0010000000010101_0000101_0100000_1001010_0001010_1_011_0000_111000010_1_11, .mmd ⟨⟨true, 3, 0, true⟩, 0x2015, 5, 32, 74, 10⟩),
    (8, 0b0100000000110011_0000101_0100000_1001010_0001010_1_011_0000_111000011_1_11, .mmlr ⟨⟨true, 3, 0, true⟩, 0x4033, 5, 32, 74, 10⟩),
    (8, 0b0000000000000000_0000101_0000000_0000000_0001001_1_011_0000_111000100_1_11, .tzero ⟨⟨true, 3, 0, true⟩, 0x0, 5, 0, 0, 9⟩),
    (8, 0b0000000000000000_0000101_0010100_0000000_0001001_1_011_0000_111000101_1_11, .tload ⟨⟨true, 3, 0, true⟩, 0x0, 5, 20, 0, 9⟩),
    (8, 0b0000000000000000_0000101_0010100_0000000_0001001_1_011_0000_111000110_1_11, .tstore ⟨⟨true, 3, 0, true⟩, 0x0, 5, 20, 0, 9⟩),
    (8, 0b0000000000100001_0000000_0000000_0000110_0100100_1_011_0000_111000111_1_11, .tread ⟨⟨true, 3, 0, true⟩, 0x21, 0, 0, 6, 36⟩),
    (8, 0b0000000000000000_0000101_0010100_0000000_0001001_1_011_0000_111001000_1_11, .tnew ⟨⟨true, 3, 0, true⟩, 0x0, 5, 20, 0, 9⟩),
    (8, 0b0000000000000000_0000000_0000000_0000000_0001001_1_011_0000_111001001_1_11, .tfree ⟨⟨true, 3, 0, true⟩, 0x0, 0, 0, 0, 9⟩),
    (8, 0b0000000000000001_0000000_0000000_0000110_0100101_1_011_0000_111001010_1_11, .tstat ⟨⟨true, 3, 0, true⟩, 0x1, 0, 0, 6, 37⟩),
    (8, 0b0000000000000000_0000000_0000000_0101010_0100101_1_011_0000_111001011_1_11, .sscfg ⟨⟨true, 3, 0, true⟩, 0x0, 0, 0, 42, 37⟩),
    (8, 0b0000000000000000_0000101_0010101_0000000_0000000_1_011_0000_111001100_1_11, .scan ⟨⟨true, 3, 0, true⟩, 0x0, 5, 21, 0, 0⟩),
    (8, 0b0000000100001100_0000000_0000000_0000000_0100110_1_011_0000_111100000_1_11, .srr ⟨⟨true, 3, 0, true⟩, 0x10c, 0, 0, 0, 38⟩),
    (8, 0b0000000001000101_0000000_0000000_0101010_0000000_1_011_0000_111100001_1_11, .srw ⟨⟨true, 3, 0, true⟩, 0x45, 0, 0, 42, 0⟩),
    (8, 0b1011111011101111_0000000_0000000_0000000_0000000_1_011_0000_111100010_1_11, .trap ⟨⟨true, 3, 0, true⟩, 0xbeef, 0, 0, 0, 0⟩),
    (8, 0b0000000000000011_0000000_0000000_1001010_0000000_1_011_0000_111100011_1_11, .eret ⟨⟨true, 3, 0, true⟩, 0x3, 0, 0, 74, 0⟩),
    (8, 0b0000001100010001_0000000_0000000_1001000_0100101_1_011_0000_111100100_1_11, .emopr ⟨⟨true, 3, 0, true⟩, 0x311, 0, 0, 72, 37⟩),
    (8, 0b0000010000010000_0000000_0010101_1001000_0000000_1_011_0000_111100101_1_11, .emopw ⟨⟨true, 3, 0, true⟩, 0x410, 0, 21, 72, 0⟩),
    (8, 0b0000000000000000_0000000_0000000_0000000_0000000_1_011_0000_111100110_1_11, .emret ⟨⟨true, 3, 0, true⟩, 0x0, 0, 0, 0, 0⟩),
    (8, 0b0000010100000000_0100010_0010101_0000110_0000000_1_011_0000_111100111_1_11, .icinv ⟨⟨true, 3, 0, true⟩, 0x500, 34, 21, 6, 0⟩),
    (8, 0b0000001000000000_0100010_0010101_0000110_0000000_1_011_0000_111101000_1_11, .fetchb ⟨⟨true, 3, 0, true⟩, 0x200, 34, 21, 6, 0⟩),
    (8, 0b0000000000000111_0000000_0000000_0101010_0000000_1_011_0000_111101001_1_11, .fmtw ⟨⟨true, 3, 0, true⟩, 0x7, 0, 0, 42, 0⟩),
    (8, 0b0000000000001101_0000000_0000000_0000000_0100101_1_011_0000_111101010_1_11, .fmtr ⟨⟨true, 3, 0, true⟩, 0xd, 0, 0, 0, 37⟩),
    (8, 0b0000000000001001_0000000_0000000_0000000_0000000_1_011_0000_111101011_1_11, .setprio ⟨⟨true, 3, 0, true⟩, 0x9, 0, 0, 0, 0⟩),
    (8, 0b0001001000110100_0000000_0000000_0000000_0000000_1_011_0000_111101100_1_11, .brk ⟨⟨true, 3, 0, true⟩, 0x1234, 0, 0, 0, 0⟩)] : List (Nat × Nat × Instr)), decode 0 (leList p.1 p.2.1) = .instr p.2.2 p.1 := by decide +kernel

theorem test_decode_halt_to_halt : ∀ p ∈ ([
    (8, 0b1010101111001101_0000000_0000000_0000000_0000000_1_011_0000_111101101_1_11, .halt ⟨⟨true, 3, 0, true⟩, 0xabcd, 0, 0, 0, 0⟩)] : List (Nat × Nat × Instr)), decode 0 (leList p.1 p.2.1) = .instr p.2.2 p.1 := by decide +kernel

theorem test_decode_16_bit : ∀ p ∈ ([
    (2, 0b0_10101_01011_0000_0, .mov16 ⟨21, 11⟩),
    (2, 0b1_10101_01011_0000_0, .movi16 ⟨21, 11⟩),
    (2, 0b1_10101_01011_0001_0, .iadd16 ⟨true, 21, 11⟩),
    (2, 0b1_10101_01011_0010_0, .isub16 ⟨true, 21, 11⟩),
    (2, 0b1_10101_01011_0011_0, .imul16 ⟨true, 21, 11⟩),
    (2, 0b1_10101_01011_0100_0, .iand16 ⟨true, 21, 11⟩),
    (2, 0b1_10101_01011_0101_0, .ior16 ⟨true, 21, 11⟩),
    (2, 0b1_10101_01011_0110_0, .ixor16 ⟨true, 21, 11⟩),
    (2, 0b1_10101_01011_0111_0, .shl16 ⟨true, 21, 11⟩),
    (2, 0b1_10101_01011_1000_0, .shr16 ⟨true, 21, 11⟩),
    (2, 0b1_10101_01011_1001_0, .sar16 ⟨true, 21, 11⟩),
    (2, 0b1_10101_01011_1010_0, .imin16 ⟨true, 21, 11⟩),
    (2, 0b1_10101_01011_1011_0, .imax16 ⟨true, 21, 11⟩),
    (2, 0b1_10101_01011_1100_0, .fadd16 ⟨true, 21, 11⟩),
    (2, 0b1_10101_01011_1101_0, .fsub16 ⟨true, 21, 11⟩),
    (2, 0b1_10101_01011_1110_0, .fmul16 ⟨true, 21, 11⟩),
    (2, 0b1_10101_01011_1111_0, .fmax16 ⟨true, 21, 11⟩)] : List (Nat × Nat × Instr)), decode 0 (leList p.1 p.2.1) = .instr p.2.2 p.1 := by decide +kernel

theorem test_decode_compact : ∀ p ∈ ([
    (4, 0b00000000000000000000000_000000_1_01, .nopC ⟨true, 0⟩),
    (4, 0b1011010010110100101_1_101_000001_1_01, .braC ⟨true, 0x5a5a5, true, 5⟩),
    (4, 0b1011010010110100101_1_101_000010_1_01, .brpC ⟨true, 0x5a5a5, true, 5⟩),
    (4, 0b00_0000000_1001010_0100110_000011_1_01, .movC ⟨true, 0, 0, 74, 38⟩),
    (4, 0b00_1100010_1001010_0100110_000100_1_01, .iaddC ⟨true, 0, 98, 74, 38⟩),
    (4, 0b00_1100010_1001010_0100110_000101_1_01, .isubC ⟨true, 0, 98, 74, 38⟩),
    (4, 0b00_1100010_1001010_0100110_000110_1_01, .imulC ⟨true, 0, 98, 74, 38⟩),
    (4, 0b00_1100010_1001010_0100110_000111_1_01, .iandC ⟨true, 0, 98, 74, 38⟩),
    (4, 0b00_1100010_1001010_0100110_001000_1_01, .iorC ⟨true, 0, 98, 74, 38⟩),
    (4, 0b00_1100010_1001010_0100110_001001_1_01, .ixorC ⟨true, 0, 98, 74, 38⟩),
    (4, 0b00_1100010_1001010_0100110_001010_1_01, .shlC ⟨true, 0, 98, 74, 38⟩),
    (4, 0b00_1100010_1001010_0100110_001011_1_01, .shrC ⟨true, 0, 98, 74, 38⟩),
    (4, 0b00_1100010_1001010_0100110_001100_1_01, .sarC ⟨true, 0, 98, 74, 38⟩),
    (4, 0b00_1100010_1001010_0100110_001101_1_01, .iminC ⟨true, 0, 98, 74, 38⟩),
    (4, 0b00_1100010_1001010_0100110_001110_1_01, .imaxC ⟨true, 0, 98, 74, 38⟩),
    (4, 0b101010101_1001010_0100101_001111_1_01, .iaddCi ⟨true, 0x155, 74, 37⟩),
    (4, 0b101010101_1001010_0100101_010000_1_01, .shlCi ⟨true, 0x155, 74, 37⟩),
    (4, 0b101010101_1001010_0100101_010001_1_01, .shrCi ⟨true, 0x155, 74, 37⟩),
    (4, 0b101010101_1001010_0100101_010010_1_01, .sarCi ⟨true, 0x155, 74, 37⟩),
    (4, 0b101010101_1001010_0100101_010011_1_01, .iandCi ⟨true, 0x155, 74, 37⟩),
    (4, 0b101010101_0000000_0100101_010100_1_01, .moviC ⟨true, 0x155, 0, 37⟩),
    (4, 0b10_1100010_1001010_0100110_010101_1_01, .faddC ⟨true, 2, 98, 74, 38⟩)] : List (Nat × Nat × Instr)), decode 0 (leList p.1 p.2.1) = .instr p.2.2 p.1 := by decide +kernel

theorem test_decode_compact_more : ∀ p ∈ ([
    (4, 0b10_1100010_1001010_0100110_010110_1_01, .fsubC ⟨true, 2, 98, 74, 38⟩),
    (4, 0b10_1100010_1001010_0100110_010111_1_01, .fmulC ⟨true, 2, 98, 74, 38⟩),
    (4, 0b00_1100010_1001010_0100110_011000_1_01, .fminC ⟨true, 0, 98, 74, 38⟩),
    (4, 0b00_1100010_1001010_0100110_011001_1_01, .fmaxC ⟨true, 0, 98, 74, 38⟩),
    (4, 0b10_1100010_1001010_0100110_011010_1_01, .ffmaC ⟨true, 2, 98, 74, 38⟩),
    (4, 0b10_1100010_1001010_0100110_011011_1_01, .addxC ⟨true, 2, 98, 74, 38⟩),
    (4, 0b10_1100010_1001010_0100110_011100_1_01, .mulxC ⟨true, 2, 98, 74, 38⟩),
    (4, 0b10_1100010_1001010_0100110_011101_1_01, .hadd2C ⟨true, 2, 98, 74, 38⟩),
    (4, 0b10_1100010_1001010_0100110_011110_1_01, .hmul2C ⟨true, 2, 98, 74, 38⟩),
    (4, 0b10_1100010_1001010_0100110_011111_1_01, .hfma2C ⟨true, 2, 98, 74, 38⟩),
    (4, 0b00_1100010_1001010_0100110_100000_1_01, .shflC ⟨true, 0, 98, 74, 38⟩),
    (4, 0b00_1100010_1001010_0100110_100001_1_01, .shflxC ⟨true, 0, 98, 74, 38⟩),
    (4, 0b101010101_1001010_0100101_100010_1_01, .ldlC ⟨true, 0x155, 74, 37⟩),
    (4, 0b101010101_1001010_0100101_100011_1_01, .stlC ⟨true, 0x155, 74, 37⟩),
    (4, 0b00_0000000_0101010_0100110_100100_1_01, .wmovC ⟨true, 0, 0, 42, 38⟩),
    (4, 0b00000_101010_010101_110011_100101_1_01, .iaddCw ⟨true, 0, 42, 21, 51⟩),
    (4, 0b00000_101010_010101_110011_100110_1_01, .isubCw ⟨true, 0, 42, 21, 51⟩),
    (4, 0b00000_101010_010101_110011_100111_1_01, .imulCw ⟨true, 0, 42, 21, 51⟩),
    (4, 0b00000_101010_010101_110011_101000_1_01, .iandCw ⟨true, 0, 42, 21, 51⟩),
    (4, 0b00000_101010_010101_110011_101001_1_01, .iorCw ⟨true, 0, 42, 21, 51⟩),
    (4, 0b00000_101010_010101_110011_101010_1_01, .shlCw ⟨true, 0, 42, 21, 51⟩),
    (4, 0b00000_101010_010101_110011_101011_1_01, .shrCw ⟨true, 0, 42, 21, 51⟩)] : List (Nat × Nat × Instr)), decode 0 (leList p.1 p.2.1) = .instr p.2.2 p.1 := by decide +kernel
/-! ### A small machine: one wave of four fibres in the middle of a run -/

/-- A launch record: one team of one wave, budgets of 128, 64 tags, 1 KiB of local memory; flags at byte 45. -/
def rec_ (flags : Nat) : List Byte :=
  leBytes 8 0x1000 ++ leBytes 8 1 ++ leBytes 4 1 ++ leBytes 4 1 ++ leBytes 4 1 ++ [1, 4, 1, 0, 64, 64, 64, 0] ++
  leBytes 4 1024 ++ leBytes 4 0 ++ [5, BitVec.ofNat 8 flags, 1, 0] ++ leBytes 4 16 ++ List.replicate 52 0 ++
  leBytes 8 0x20000 ++ leBytes 8 0x30000 ++ List.replicate 136 0

/-- Registers of fibres 0, 1 and 3: V4 and V6 are sources, V8 a third, V10:V11 a pair. -/
def regs : List (Nat × Word) :=
  [(512, 0x80000005), (513, 7), (515, 0xfffffff9), (640, 1), (768, 3), (769, 0xfffffffe), (771, 2), (1024, 0x0804), (1025, 1), (1280, 0xfffffff0),
   (1281, 9), (1408, 1)]

/-- Fibres 0, 1 and 3 stand at 0x1040, fibre 2 elsewhere. -/
def wave0 : Wave :=
  { team := 2, idx := 0, role := 0, quad := 0
    fibs := [(0, { st := .ready, pc := 0x1040, preds := 0b0000101 }), (1, { st := .ready, pc := 0x1040, preds := 0b0000010 }),
      (2, { st := .ready, pc := 0x1080 }), (3, { st := .ready, pc := 0x1040 })]
    v := regs
    w := [(4, 100), (5, 1), (6, 7), (8, 0x40), (10, 3), (12, 0xb)], stamp := 1 }

def ctx0 : Ctx := { owner := 1, errSize := 16, errBase := 2 ^ 63, errStat := 2 ^ 63 + 1024, imgBase := 0, imgSize := 65536 }
def grid0 : Grid := { ctx := 1, queue := 0, seq := 0, id := 1, lrec := rec_ 0, recs := List.replicate 16 0, order := 1 }
def team0 : Team := { grid := 1, idx := 0, st := .resident, core := 0, prio := 5 }

/-- The machine while the wave w of the team m and the grid g issues at 0x1040. -/
def machine (w : Wave) (m : Team) (g : Grid) : State :=
  { State.reset with
    x := { ctxs := [(1, ctx0)], grids := [(1, g)], teams := [(2, m)], waves := [(3, w)], fresh := 10, tick := 100
           cur := some { wave := 3, pc := 0x1040, count := 0, fmts := [(1, 0x1234)], len := 8, raw := 0 } } }

def lane : State := machine wave0 team0 grid0
def iss0 : Iss := ⟨3, wave0, 0x1040, [0, 1, 3]⟩

/-- What an instruction leaves, if it completes. -/
def after (n : Instr) (s : State) : Option State := match exec n s with
  | .next t => some t
  | _ => none
/-- Register k of fibre f after an instruction. -/
def reg (n : Instr) (f k : Nat) : Option Word := (after n lane).map fun t => t.x.readV 3 f k
/-- V2 := V4 op V6, with V8 as the third source. -/
def abc : AluI := ⟨h7, m0, 8, 6, 4, 2⟩
def ab : AluI := ⟨h7, m0, 0, 6, 4, 2⟩
/-! ### Results of arithmetic instructions, by hand from the tables of 12 and 13

Fibre 0 holds a = 0x80000005, b = 3, c = 0x0804; fibre 1 holds a = 7, b = 0xfffffffe, c = 1; fibre 3 holds a = 0xfffffff9, b = 2. -/

theorem test_integer_sums : ∀ p ∈ ([(.iadd ab, 0x80000008), (.isub ab, 0x80000002), (.iaddc ab, 0x80000009), (.isubb ab, 0x80000001),
    (.imul ab, 0x8000000f), (.imulh ab, 0xfffffffe), (.imulhu ab, 1), (.imad abc, 0x80000813), (.iadds ab, 0x80000008),
    (.idiv ab, 0xd5555557), (.irem ab, 0), (.idivu ab, 0x2aaaaaac), (.iremu ab, 1), (.imin ab, 0x80000005), (.imax ab, 3),
    (.iminu ab, 3), (.imaxu ab, 0x80000005)] : List (Instr × Word)), reg p.1 0 2 = some p.2 := by decide +kernel

theorem test_integer_bits : ∀ p ∈ ([(.iand ab, 1), (.ior ab, 0x80000007), (.ixor ab, 0x80000006), (.iandn ab, 0x80000004),
    (.shl ab, 0x28), (.shr ab, 0x10000000), (.sar ab, 0xf0000000), (.rol ab, 0x2c), (.ror ab, 0xb0000000),
    (.bfi abc, 0x80000035), (.perm abc, 0x05000503), (.isel ⟨h7, m0, 1, 6, 4, 2⟩, 3), (.isel ab, 0x80000005),
    (.bfe ⟨h7, m0, 0, 8, 10, 2⟩, 0xff)] : List (Instr × Word)), reg p.1 0 2 = some p.2 := by decide +kernel

/-- V2 := op V4. -/
def one4 : AluI := ⟨h7, m0, 0, 0, 4, 2⟩
theorem test_integer_one_source : ∀ p ∈ ([(.iabs one4, 0x7ffffffb), (.ineg one4, 0x7ffffffb), (.inot one4, 0x7ffffffa), (.popc one4, 3),
    (.clz one4, 0), (.ctz one4, 0), (.brev one4, 0xa0000001), (.mov one4, 0x80000005), (.wmov one4, 100),
    (.movi ⟨h7, 0xdeadbeef, 0, 2⟩, 0xdeadbeef), (.mov ⟨h7, ⟨false, 1, 1, 0, false, false, 0⟩, 0, 0, 4, 2⟩, 7),
    (.mov ⟨h7, ⟨false, 9, 3, 0, false, false, 0⟩, 0, 0, 4, 2⟩, 0x80000005), (.mov ⟨h7, ⟨false, 2, 4, 0, false, false, 0⟩, 0, 0, 4, 2⟩, 0xfffffff9)] :
    List (Instr × Word)), reg p.1 0 2 = some p.2 := by decide +kernel

theorem test_integer_pairs : ∀ p ∈ ([(.iadd64 ⟨h7, m0, 0, 10, 4, 2⟩, 0x7ffffff5, 3), (.imad64 ⟨h7, m0, 10, 6, 4, 2⟩, 0x7fffffff, 3),
    (.shl64 ⟨h7, m0, 0, 6, 4, 2⟩, 0x28, 0xc), (.shr64 ⟨h7, m0, 0, 6, 4, 2⟩, 0x30000000, 0), (.lea ⟨h7, m0, 2, 6, 4, 2⟩, 0x80000011, 1)] :
    List (Instr × Word × Word)), reg p.1 0 2 = some p.2.1 ∧ reg p.1 0 3 = some p.2.2 := by decide +kernel

theorem test_integer_corners : reg (.idiv ⟨h7, m0, 0, 7, 4, 2⟩) 0 2 = some 0xffffffff ∧ reg (.irem ⟨h7, m0, 0, 7, 4, 2⟩) 0 2 = some 0x80000005 ∧
    reg (.shl ab) 1 2 = some 0 ∧ reg (.sar ab) 1 2 = some 0 ∧ reg (.clz ⟨h7, m0, 0, 0, 7, 2⟩) 0 2 = some 32 ∧
    reg (.iadds ab) 1 2 = some 5 ∧ reg (.iadd ab) 2 2 = some 0 := by decide +kernel

theorem test_short_integers : ∀ p ∈ ([(.iadd16 ⟨true, 17, 4⟩, 4, 0x80000016), (.isub16 ⟨false, 6, 4⟩, 4, 0x80000002), (.imul16 ⟨true, 3, 4⟩, 4, 0x8000000f),
    (.iand16 ⟨true, 5, 4⟩, 4, 5), (.ior16 ⟨true, 2, 4⟩, 4, 0x80000007), (.ixor16 ⟨true, 1, 4⟩, 4, 0x80000004), (.shl16 ⟨true, 3, 4⟩, 4, 0x28),
    (.shr16 ⟨true, 3, 4⟩, 4, 0x10000000), (.sar16 ⟨true, 3, 4⟩, 4, 0xf0000000), (.imin16 ⟨false, 6, 4⟩, 4, 0x80000005),
    (.imax16 ⟨false, 6, 4⟩, 4, 3), (.mov16 ⟨6, 2⟩, 2, 3), (.movi16 ⟨31, 2⟩, 2, 31), (.movC ⟨false, 0, 0, 4, 2⟩, 2, 0x80000005),
    (.iaddC ⟨false, 0, 6, 4, 2⟩, 2, 0x80000008), (.isubC ⟨false, 0, 6, 4, 2⟩, 2, 0x80000002), (.imulC ⟨false, 0, 6, 4, 2⟩, 2, 0x8000000f),
    (.iandC ⟨false, 0, 6, 4, 2⟩, 2, 1), (.iorC ⟨false, 0, 6, 4, 2⟩, 2, 0x80000007), (.ixorC ⟨false, 0, 6, 4, 2⟩, 2, 0x80000006),
    (.shlC ⟨false, 0, 6, 4, 2⟩, 2, 0x28), (.shrC ⟨false, 0, 6, 4, 2⟩, 2, 0x10000000), (.sarC ⟨false, 0, 6, 4, 2⟩, 2, 0xf0000000),
    (.iminC ⟨false, 0, 6, 4, 2⟩, 2, 0x80000005), (.imaxC ⟨false, 0, 6, 4, 2⟩, 2, 3), (.iaddCi ⟨false, 507, 4, 2⟩, 2, 0x80000000),
    (.shlCi ⟨false, 3, 4, 2⟩, 2, 0x28), (.shrCi ⟨false, 3, 4, 2⟩, 2, 0x10000000), (.sarCi ⟨false, 3, 4, 2⟩, 2, 0xf0000000),
    (.iandCi ⟨false, 510, 4, 2⟩, 2, 0x80000004), (.moviC ⟨false, 256, 0, 2⟩, 2, 0xffffff00), (.wmovC ⟨false, 0, 0, 4, 2⟩, 2, 100)] :
    List (Instr × Nat × Word)), reg p.1 0 p.2.1 = some p.2.2 := by decide +kernel

/-- W[k] after an instruction. -/
def wreg (n : Instr) (k : Nat) : Option Word := (after n lane).map fun t => t.x.readW 3 k
theorem test_compact_wave : ∀ p ∈ ([(.iaddCw ⟨false, 0, 6, 4, 2⟩, 107), (.isubCw ⟨false, 0, 6, 4, 2⟩, 93), (.imulCw ⟨false, 0, 6, 4, 2⟩, 700),
    (.iandCw ⟨false, 0, 6, 4, 2⟩, 4), (.iorCw ⟨false, 0, 6, 4, 2⟩, 103), (.shlCw ⟨false, 0, 6, 4, 2⟩, 12800), (.shrCw ⟨false, 0, 5, 4, 2⟩, 50)] :
    List (Instr × Word)), wreg p.1 2 = some p.2 := by decide +kernel

/-- Predicate k of fibre f after an instruction. -/
def flagOf (n : Instr) (f k : Nat) : Option Bool := (after n lane).map fun t => (t.x.fib 3 f).pred k
theorem test_predicates : ∀ p ∈ ([(.icmp ⟨h7, m0, 2, 6, 4, 6⟩, 0, 6, true), (.icmp ⟨h7, m0, 6, 6, 4, 6⟩, 0, 6, false),
    (.icmp ⟨h7, m0, 0, 6, 4, 6⟩, 1, 6, false), (.iaddc ⟨h7, m0, 1, 6, 4, 2⟩, 1, 1, true), (.isubb ⟨h7, m0, 1, 4, 6, 2⟩, 0, 1, true),
    (.plop ⟨h7, m0, 0b0100, 1, 0, 6⟩, 0, 6, true), (.plop ⟨h7, m0, 0b0100, 1, 0, 6⟩, 1, 6, false), (.pmov ⟨h7, m0, 1, 0, 6, 0⟩, 1, 6, true),
    (.pmov ⟨h7, m0, 1, 0, 6, 0⟩, 1, 0, false), (.vote ⟨h7, m0, 0, 0, 0, 6⟩, 0, 6, false), (.vote ⟨h7, m0, 1, 0, 0, 6⟩, 3, 6, true)] :
    List (Instr × Nat × Nat × Bool)), flagOf p.1 p.2.1 p.2.2.1 = some p.2.2.2 := by decide +kernel

theorem test_lanes : ∀ p ∈ ([(.shfl ab, 0, 0xfffffff9), (.shflx ab, 0, 0xfffffff9), (.shflup ab, 0, 0x80000005), (.shfldn ab, 0, 0xfffffff9),
    (.shfl ab, 1, 0), (.shflup ab, 3, 7), (.shflC ⟨false, 0, 6, 4, 2⟩, 0, 0xfffffff9), (.shflxC ⟨false, 0, 6, 4, 2⟩, 3, 7),
    (.wredi ⟨h7, m0, 0, 0, 4, 2⟩, 1, 0x80000005), (.wredi ⟨h7, m0, 2, 0, 4, 2⟩, 3, 7), (.wscan ⟨h7, m0, 0, 0, 4, 2⟩, 1, 0x8000000c),
    (.wscan ⟨h7, m0, 16, 0, 4, 2⟩, 1, 0x80000005), (.wscan ⟨h7, m0, 16, 0, 4, 2⟩, 0, 0), (.pmov ⟨h7, m0, 0, 0, 0, 2⟩, 0, 0x85),
    (.pack ⟨h7, m0, 9, 6, 4, 2⟩, 0, 0x80030005), (.unpack ⟨h7, m0, 77, 0, 4, 2⟩, 0, 0xffffff80), (.unpack ⟨h7, m0, 13, 0, 4, 2⟩, 0, 0x80)] :
    List (Instr × Nat × Word)), reg p.1 p.2.1 2 = some p.2.2 := by decide +kernel

theorem test_ballot : wreg (.vote ⟨h7, m0, 2, 0, 0, 8⟩) 8 = some 1 ∧ wreg (.vote ⟨h7, m0, 2, 0, 7, 8⟩) 8 = some 0b1011 := by decide +kernel
theorem test_arg_reduction : reg (.wargx ⟨h7, m0, 0, 6, 4, 2⟩) 3 2 = some 0x80000005 ∧ reg (.wargx ⟨h7, m0, 0, 6, 4, 2⟩) 3 3 = some 3 := by
  decide +kernel
theorem test_draw_counts : (after (.srdraw ⟨h7, m0, 0, 0, 0, 2⟩) lane).map (fun t => (t.x.fib 3 0).draws) = some 1 := by decide +kernel
theorem test_seed : (after (.srseed ⟨h7, m0, 0, 0, 4, 0⟩) lane).map (fun t => (t.x.wave? 3).map Wave.key) = some (some 0x100000064) := by
  decide +kernel

/-- Fibre 0 holds V4 = 1.5, V6 = 2.0, V8 = 0.5, V10 = 4.0; V12 and V13 hold pairs of FP16 (1.0, 2.0) and (3.0, 0.5). -/
def floats : State := machine { wave0 with v := [(512, 0x3fc00000), (768, 0x40000000), (896, 3), (1024, 0x3f000000), (1280, 0x40800000),
  (1536, 0x40003c00), (1664, 0x38004200), (1792, 0x3f800000), (1920, 0x30800000), (2048, 0x7fc00000)] } team0 grid0
/-- Register k of fibre 0 after an instruction. -/
def freg (n : Instr) (k : Nat) : Option Word := (after n floats).map fun t => t.x.readV 3 0 k

theorem test_float_results : ∀ p ∈ ([(.fadd ab, 0x40600000), (.fsub ab, 0xbf000000), (.fmul ab, 0x40400000), (.ffma abc, 0x40600000),
    (.fmin ab, 0x3fc00000), (.fmax ab, 0x40000000), (.fsel ab, 0x3fc00000), (.fdiv ab, 0x3f400000), (.fmin ⟨h7, m0, 0, 16, 4, 2⟩, 0x3fc00000),
    (.fadd ⟨h7, m0, 0, 15, 14, 2⟩, 0x3f800000), (.fadd ⟨h7, ⟨false, 0, 0, 0, false, false, 3⟩, 0, 15, 14, 2⟩, 0x3f800001),
    (.fscale ⟨h7, m0, 0, 7, 4, 2⟩, 0x41400000), (.frint one4, 0x40000000), (.fsqrt ⟨h7, m0, 0, 0, 10, 2⟩, 0x40000000),
    (.frcp ⟨h7, m0, 0, 0, 10, 2⟩, 0x3e800000), (.frsq ⟨h7, m0, 0, 0, 10, 2⟩, 0x3f000000), (.fexp2 ⟨h7, m0, 0, 0, 6, 2⟩, 0x40800000),
    (.flog2 ⟨h7, m0, 0, 0, 8, 2⟩, 0xbf800000), (.fsinr ⟨h7, m0, 0, 0, 0, 2⟩, 0), (.fcosr ⟨h7, m0, 0, 0, 0, 2⟩, 0x3f800000),
    (.ftanh ⟨h7, m0, 0, 0, 0, 2⟩, 0), (.hadd2 ⟨h7, ⟨false, 0, 0, 2, false, false, 0⟩, 0, 13, 12, 2⟩, 0x41004400),
    (.hmul2 ⟨h7, ⟨false, 0, 0, 2, false, false, 0⟩, 0, 13, 12, 2⟩, 0x3c004200),
    (.hfma2 ⟨h7, ⟨false, 0, 0, 2, false, false, 0⟩, 12, 13, 12, 2⟩, 0x42004400),
    (.cvtf ⟨h7, ⟨false, 0, 0, 2, false, false, 0⟩, 0, 0, 4, 2⟩, 0x3e00), (.cvtfi one4, 2), (.cvtif ⟨h7, m0, 0, 0, 7, 2⟩, 0x40400000),
    (.wredf one4, 0x3fc00000), (.fclass one4, 0x40)] : List (Instr × Word)), freg p.1 2 = some p.2 := by decide +kernel

theorem test_short_floats : ∀ p ∈ ([(.fadd16 ⟨false, 6, 4⟩, 4, 0x40600000), (.fsub16 ⟨true, 1, 4⟩, 4, 0x3f000000), (.fmul16 ⟨false, 6, 4⟩, 4, 0x40400000),
    (.fmax16 ⟨true, 31, 4⟩, 4, 0x41f80000), (.faddC ⟨false, 0, 6, 4, 2⟩, 2, 0x40600000), (.fsubC ⟨false, 0, 6, 4, 2⟩, 2, 0xbf000000),
    (.fmulC ⟨false, 0, 6, 4, 2⟩, 2, 0x40400000), (.fminC ⟨false, 0, 6, 4, 2⟩, 2, 0x3fc00000), (.fmaxC ⟨false, 0, 6, 4, 2⟩, 2, 0x40000000),
    (.ffmaC ⟨false, 0, 6, 4, 8⟩, 8, 0x40600000), (.faddC ⟨false, 3, 15, 14, 2⟩, 2, 0x3f800001), (.hadd2C ⟨false, 0, 13, 12, 2⟩, 2, 0x41004400),
    (.hmul2C ⟨false, 0, 13, 12, 2⟩, 2, 0x3c004200), (.hfma2C ⟨false, 0, 13, 12, 12⟩, 12, 0x42004400)] : List (Instr × Nat × Word)),
    freg p.1 p.2.1 = some p.2.2 := by decide +kernel

theorem test_error_free : ∀ p ∈ ([(.addx ⟨h7, m0, 0, 15, 14, 2⟩, 0x3f800000, 0x30800000), (.subx ⟨h7, m0, 0, 15, 14, 2⟩, 0x3f800000, 0xb0800000),
    (.mulx ab, 0x40400000, 0), (.fastx ⟨h7, m0, 0, 15, 14, 2⟩, 0x3f800000, 0x30800000), (.addxC ⟨false, 0, 15, 14, 2⟩, 0x3f800000, 0x30800000),
    (.mulxC ⟨false, 0, 6, 4, 2⟩, 0x40400000, 0), (.xadd ⟨h7, m0, 0b111100, 15, 14, 2⟩, 0x3f800000, 0x30800000),
    (.xsub ⟨h7, m0, 0b111100, 15, 14, 2⟩, 0x3f800000, 0xb0800000), (.xmul ⟨h7, m0, 0b111100, 6, 4, 2⟩, 0x40400000, 0),
    (.xfma ⟨h7, m0, 0b111100, 6, 4, 2⟩, 0x40400000, 0), (.xren ⟨h7, m0, 0b0000, 0, 14, 2⟩, 0x3f800000, 0x30800000),
    (.xcpr ⟨h7, m0, 0b0000, 0, 14, 2⟩, 0x3f800000, 0x30800000), (.xsplit ⟨h7, m0, 0, 0, 14, 2⟩, 0x3f800000, 0),
    (.xtof ⟨h7, m0, 0, 0, 14, 2⟩, 0x3f800000, 0), (.xacc ⟨h7, m0, 0, 15, 14, 2⟩, 0x30800000, 0)] : List (Instr × Word × Word)),
    freg p.1 2 = some p.2.1 ∧ freg p.1 3 = some p.2.2 := by decide +kernel
theorem test_fmae : freg (.fmae ⟨h7, m0, 15, 6, 4, 20⟩) 20 = some 0x40400000 ∧ freg (.fmae ⟨h7, m0, 15, 6, 4, 20⟩) 21 = some 0x30800000 ∧
    freg (.fmae ⟨h7, m0, 15, 6, 4, 20⟩) 22 = some 0 := by decide +kernel
/-- Predicate 6 of fibre 0 after an instruction. -/
def fflag (n : Instr) : Option Bool := (after n floats).map fun t => (t.x.fib 3 0).pred 6
theorem test_float_predicates : fflag (.fcmp ⟨h7, m0, 2, 6, 4, 6⟩) = some true ∧ fflag (.fcmp ⟨h7, m0, 2, 16, 4, 6⟩) = some false ∧
    fflag (.xcmp ⟨h7, m0, 0b101111, 6, 4, 6⟩) = some true := by decide +kernel
/-! ### The hypotheses of the statements are met

For each statement a concrete state and operands that meet the hypotheses of its clauses together. -/

theorem lane_issues : Issues lane iss0 := ⟨by decide +kernel, by decide +kernel, by decide +kernel, by decide +kernel⟩
def issF : Iss := ⟨3, (floats.x.wave? 3).getD wave0, 0x1040, [0, 1, 3]⟩
theorem floats_issues : Issues floats issF := ⟨by decide +kernel, by decide +kernel, by decide +kernel, by decide +kernel⟩
/-- V[k] of each fibre. -/
def col (s : State) (k : Nat) (f : Nat) : Word := s.x.readV 3 f k
/-- The pair V[k] and V[k + 1] of each fibre. -/
def cols (s : State) (k : Nat) (f : Nat) : BitVec 64 := col s (k + 1) f ++ col s k f
/-- The expansion of two words at V[k] of each fibre of `floats`. -/
def exps (s : State) (k : Nat) (f : Nat) : XR := (s.x.expOperand issF f fp32 (.v k) 2).getD (.zero false)
/-- A guard that fibre 0 alone meets. -/
def hP0 : Hd := ⟨false, 0, 0, false⟩
/-- Where the small machine's three kinds of sources are read. -/
abbrev Reads (s : State) (i : Iss) (w : AluI) (p q r : Nat) : Prop :=
  InBudget s i w.h ((opndsOf w).named ++ [w.s3.toNat] ++ List.range 40) ∧ Sources s i (opndsOf w) (col s p) (col s q) ∧
    Source s i (opndsOf w) (col s p) ∧ Register s i w.h w.s3.toNat (col s r)

theorem test_meets_IntegerTwoSources : Issues lane iss0 ∧ Reads lane iss0 ab 4 6 0 := ⟨lane_issues, by decide +kernel⟩
theorem test_meets_IntegerDivision : Issues lane iss0 ∧ Reads lane iss0 ab 4 6 0 := ⟨lane_issues, by decide +kernel⟩
theorem test_meets_IntegerOneSource : Issues lane iss0 ∧ Source lane iss0 (opndsOf one4) (col lane 4) ∧ InBudget lane iss0 h7 [2, 4] :=
  ⟨lane_issues, by decide +kernel⟩
theorem test_meets_IntegerWide : Issues lane iss0 ∧ Reads lane iss0 abc 4 6 8 ∧ Pair lane iss0 h7 4 (cols lane 4) ∧
    Pair lane iss0 h7 10 (cols lane 10) ∧ (∀ f ∈ iss0.served h7, lane.x.operand iss0 f (opndsOf ab).s2 = some (col lane 6 f).toNat) :=
  ⟨lane_issues, by decide +kernel⟩
theorem test_meets_IntegerCompare : Issues lane iss0 ∧ Reads lane iss0 ⟨h7, m0, 9, 6, 4, 5⟩ 4 6 9 ∧ (9 : BitVec 7).toNat ≤ 9 :=
  ⟨lane_issues, by decide +kernel⟩
theorem test_meets_ShortInteger : Issues lane iss0 ∧ InBudget lane iss0 hd0 (opndsOf16 ⟨false, 6, 4⟩ id).named ∧
    Sources lane iss0 (opndsOf16 ⟨false, 6, 4⟩ id) (col lane 4) (col lane 6) ∧ Sources lane iss0 (opndsOf16 ⟨true, 31, 4⟩ id) (col lane 4) (fun _ => 31) ∧
    InBudget lane iss0 hd0 (opndsOfA ⟨false, 0, 6, 4, 2⟩ 0 0).named ∧ Sources lane iss0 (opndsOfA ⟨false, 0, 6, 4, 2⟩ 0 0) (col lane 4) (col lane 6) ∧
    InBudget lane iss0 hd0 [2, 4] ∧ Register lane iss0 hd0 4 (col lane 4) ∧ iss0.grp ≠ [] := ⟨lane_issues, by decide +kernel⟩
theorem test_meets_CrossLane : Issues lane iss0 ∧ InBudget lane iss0 h7 (opndsOf ab).named ∧
    (∀ f ∈ iss0.served h7, lane.x.operand iss0 f (opndsOf ab).s2 = some (col lane 6 f).toNat) ∧
    (∀ f ∈ iss0.served h7, lane.x.crossRead iss0 ((col lane 6 f).toNat % 128) 4 = some (col lane 4 ((col lane 6 f).toNat % 128))) ∧
    Register lane iss0 hd0 6 (col lane 6) ∧ iss0.served h7 ≠ [] := ⟨lane_issues, by decide +kernel⟩
theorem test_meets_WaveReduce : Issues lane iss0 ∧ InBudget lane iss0 h7 [2, 4] ∧ Register lane iss0 h7 4 (col lane 4) ∧
    InBudget lane iss0 h7 (pairRegs 2 ++ [4] ++ [6]) ∧ Sources lane iss0 (opndsOf ab) (col lane 4) (col lane 6) ∧ iss0.served h7 = 0 :: [1, 3] :=
  ⟨lane_issues, by decide +kernel⟩
theorem test_meets_PredicatesAndDraws : Issues lane iss0 ∧ InBudget lane iss0 h7 [2] ∧ InBudget lane iss0 h7 [4] ∧
    Register lane iss0 h7 4 (col lane 4) ∧ iss0.served h7 ≠ [] ∧ iss0.inHandler = false := ⟨lane_issues, by decide +kernel⟩
theorem test_meets_FormatMoves : Issues lane iss0 ∧ Reads lane iss0 ab 4 6 0 ∧ lane.x.fmt? 2 = some (fixedFmt 2) ∧ lane.x.fmt? 0 = some fp32 ∧
    (fixedFmt 2).storage = 4 * 2 ^ 2 := ⟨lane_issues, by decide +kernel⟩
theorem test_meets_FloatArithmetic : Issues floats issF ∧ Reads floats issF abc 4 6 8 := ⟨floats_issues, by decide +kernel⟩
theorem test_meets_FloatFunctions : Issues floats issF ∧ Reads floats issF ab 4 6 0 := ⟨floats_issues, by decide +kernel⟩
theorem test_meets_FloatSelections : Issues floats issF ∧ Reads floats issF ab 4 6 0 := ⟨floats_issues, by decide +kernel⟩
theorem test_meets_FloatShort : Issues floats issF ∧ Reads floats issF abc 4 6 8 ∧
    InBudget floats issF hd0 (opndsOf16 ⟨false, 6, 4⟩ immFp32).named ∧ Sources floats issF (opndsOf16 ⟨false, 6, 4⟩ immFp32) (col floats 4) (col floats 6) ∧
    InBudget floats issF hd0 (opndsOfA ⟨false, 0, 6, 4, 2⟩ 0 0).named ∧ Sources floats issF (opndsOfA ⟨false, 0, 6, 4, 2⟩ 0 0) (col floats 4) (col floats 6) ∧
    Register floats issF hd0 2 (col floats 2) := ⟨floats_issues, by decide +kernel⟩
theorem test_meets_ErrorFreeTransforms : Issues floats issF ∧ Reads floats issF abc 4 6 8 ∧
    InBudget floats issF h7 ([3, 4, 8] ++ (opndsOf abc).named) := ⟨floats_issues, by decide +kernel⟩
theorem test_meets_Expansions : Issues floats issF ∧ InBudget floats issF h7 (expRegs 2 2 ++ Operand.expRegs (.v 14) 2 ++ Operand.expRegs (.v 4) 2) ∧
    (∀ f ∈ issF.served h7, floats.x.expOperand issF f fp32 (.v 14) 2 = some (exps floats 14 f)) ∧
    (∀ f ∈ issF.served h7, floats.x.expOperand issF f fp32 (.v 4) 2 = some (exps floats 4 f)) ∧
    (∀ f ∈ issF.served h7, floats.x.expOperand issF f fp32 (.v 2) 2 = some (exps floats 2 f)) ∧ Sources floats issF (opndsOf ab) (col floats 4) (col floats 6) :=
  ⟨floats_issues, by decide +kernel⟩
theorem test_meets_BranchesAndLoops : Issues lane iss0 ∧ InBudget lane iss0 h7 (pairRegs 4) ∧ Pair lane iss0 h7 4 (cols lane 4) :=
  ⟨lane_issues, by decide +kernel⟩

/-- No fibre of the small wave has an origin, an open window or a trap that waits. -/
theorem wave0_fibres (f : Nat) : (wave0.fib f).org = none ∧ (wave0.fib f).wins = [] ∧ (wave0.fib f).async = [] := by
  unfold Wave.fib SMap.get
  simp only [wave0, SMap.find?]
  split_ifs <;> exact ⟨rfl, rfl, rfl⟩

theorem test_meets_FibreSpawn : Issues lane iss0 ∧ iss0.inHandler = false ∧ (∀ f, (iss0.w.fib f).org = none) ∧ InBudget lane iss0 h7 [2] :=
  ⟨lane_issues, rfl, fun f => (wave0_fibres f).1, by decide +kernel⟩
theorem test_meets_FibreQuit : lane.x.issue? = some iss0 ∧ iss0.inHandler = false ∧ (∀ f, (iss0.w.fib f).wins = []) ∧
    (∀ p ∈ iss0.w.fibs, p.2.rejoin? = none) ∧ ∃ p ∈ iss0.w.fibs, p.1 ∉ iss0.served h7 ∧ p.2.st ≠ .free :=
  ⟨lane_issues.run, rfl, fun f => (wave0_fibres f).2.1, by decide +kernel⟩
theorem test_meets_FibreRejoin : lane.x.issue? = some iss0 ∧ InBudget lane iss0 hP0 [4, 5, 6, 7] ∧ (∀ f, (iss0.w.fib f).async = []) ∧
    (∀ f ∈ iss0.served hP0, ∃ a b c d : Word, lane.x.ownRead iss0 f 4 = some a ∧ lane.x.ownRead iss0 f 5 = some b ∧
      lane.x.ownRead iss0 f 6 = some c ∧ lane.x.ownRead iss0 f 7 = some d ∧
      0x300000001_80000005 = a.toNat + 2 ^ 32 * b.toNat + 2 ^ 64 * c.toNat + 2 ^ 96 * d.toNat) ∧
    (2 ∉ iss0.served hP0 ∧ (iss0.w.fib 2).st = .ready ∧ ∀ f ∈ iss0.served hP0, bitOf 0x300000001_80000005 2 = true) ∧
    (∀ f ∈ iss0.served hP0, ∃ a, lane.x.ownRead iss0 f 20 = some a ∧ a = 0) :=
  ⟨lane_issues.run, by decide +kernel, fun f => (wave0_fibres f).2.2,
    fun f h => ⟨0x80000005, 1, 3, 0, by revert f; decide +kernel⟩, by decide +kernel, fun f h => ⟨0, by revert f; decide +kernel⟩⟩
theorem test_meets_Registers : Uniform lane iss0 h7 0 ∧ Issues lane iss0 ∧ InBudget lane iss0 h7 (pairRegs 2) ∧ (iss0.w.fib 0).wins = [] ∧
    lane.x.teamOf iss0.w = some team0 ∧ lane.x.gridOf team0 = some grid0 ∧ (lane.x.readW 3 7 = 0) ∧ lane.x.readW 3 4 ≠ 0 ∧
    descOk (lane.x.readW 3 4).toNat = false ∧ (0x5f < 0x60 ∧ (0x17 : Nat) < 0x18) ∧ lane.x.ctxs.find? grid0.ctx = some ctx0 ∧
    ∀ f ∈ iss0.served h7, (iss0.w.fib f).org = none :=
  ⟨⟨lane_issues.run, by decide +kernel⟩, lane_issues, by decide +kernel, (wave0_fibres 0).2.1, by decide +kernel, by decide +kernel,
    by decide +kernel, by decide +kernel, by decide +kernel, by decide, by decide +kernel, fun f _ => (wave0_fibres f).1⟩

/-- The wave without the fibre that stands elsewhere. -/
def solo : Wave := { wave0 with fibs := [(0, { st := .ready, pc := 0x1040, preds := 0b0000101 }), (1, { st := .ready, pc := 0x1040, preds := 0b0000010 }),
  (3, { st := .ready, pc := 0x1040 })], handles := [(6, { ready := false, op := 5 })], arrGen := [(1, (0, 0))] }
def issS : Iss := ⟨3, solo, 0x1040, [0, 1, 3]⟩
def alone : State := machine solo team0 grid0
/-- The same in a deterministic grid, and in a cohort. -/
def strict : State := machine solo team0 { grid0 with lrec := rec_ 2 }
def cohort : State := machine solo team0 { grid0 with lrec := rec_ 1 }
theorem alone_issues : Issues alone issS := ⟨by decide +kernel, by decide +kernel, by decide +kernel, by decide +kernel⟩

theorem test_meets_HandleWaits : Issues alone issS ∧ (issS.w.handles.get {} 6).ready = false ∧ (issS.w.handles.get {} 5).ready = true ∧
    issS.served h7 ≠ [] ∧ InBudget alone issS h7 [2] := ⟨alone_issues, by decide +kernel⟩
theorem test_meets_TeamMembership : Uniform alone issS h7 0 ∧ issS.inHandler = false ∧ issS.w.log = [] ∧ alone.x.determ issS.w = false ∧ alone.x.teamOf issS.w = some team0 ∧
    alone.x.waveCount 2 < 16 ∧ alone.x.coreLoad 0 < 64 ∧ (alone.x.readW 3 0).toNat ≤ 1 ∧ (0x1040 / 2 ^ 32 * 2 ^ 32 + (alone.x.readW 3 8).toNat) % 8 = 0 ∧
    1 < (alone.x.readW 3 6).toNat ∧ team0.tbreg = [] ∧ team0.bars = [] ∧ alone.x.wave? alone.x.fresh = none ∧ issS.w.exited = false ∧
    (∀ p ∈ issS.w.fibs, p.2.st = .free ∨ p.1 ∈ issS.grp) ∧ lane.x.issue? = some iss0 ∧ ¬ (∀ p ∈ iss0.w.fibs, p.2.st = .free ∨ p.1 ∈ iss0.grp) :=
  ⟨⟨alone_issues.run, by decide +kernel⟩, by decide +kernel⟩
theorem test_meets_Barriers : alone.x.issue? = some issS ∧ issS.inHandler = false ∧ issS.w.log = [] ∧ issS.diverged = false ∧ alone.x.determ issS.w = false ∧
    alone.x.teamOf issS.w = some team0 ∧ 0 + 1 < 2 ∧ alone.x.waveCount 2 ≤ 0 + 1 ∧ (issS.w.arrGen.find? 1).map Prod.fst = some 0 ∧
    (issS.w.arrGen.find? 2).map Prod.fst ≠ some 0 ∧ cohort.x.issue? = some issS ∧ cohort.x.teamOf issS.w = some team0 ∧
    cohort.x.gridOf team0 = some { grid0 with lrec := rec_ 1 } ∧ ({ grid0 with lrec := rec_ 1 } : Grid).cohort = true ∧
    (issS.served h7).head? = some 0 ∧ (List.range 16).filter (bitOf ((alone.x.readW 3 5).toNat % 2 ^ 16) ·) = [0] ∧
    alone.x.wave? 3 = some solo ∧ solo.team = 2 ∧ solo.exited = false ∧ solo.handler = none ∧ solo.idx = 0 ∧
    (∀ q < 8, bitOf (team0.convs.get {} q).members 0 = false) ∧ (team0.convs.get {} 2).signed = 0 := by decide +kernel
theorem test_meets_FencesAndSleep : alone.x.issue? = some issS ∧ issS.w.log = [] ∧ issS.w.unset = [] ∧ solo.passing = none ∧ alone.x.determ issS.w = false ∧
    strict.x.issue? = some issS ∧ strict.x.determ issS.w = true ∧ (alone.x.readW 3 0).toNat = 0 ∧ (alone.x.readW 3 4).toNat ≠ 0 ∧
    ((machine { solo with hold := some .sleep } team0 grid0).x.wave? 3).map Wave.hold = some (some .sleep) := by decide +kernel
theorem test_meets_TrapEntry : lane.x.issue? = some iss0 ∧ (∀ f, (iss0.w.fib f).wins = []) ∧ undefFibres iss0 ⟨.undefop, 8, 0x853, false⟩ = [0] :=
  ⟨lane_issues.run, fun f => (wave0_fibres f).2.1, by decide +kernel⟩
/-- V6 is poisoned in every fibre. -/
def poisoned : State := machine { wave0 with vpois := [768, 769, 771] } team0 grid0
theorem test_meets_RefusedRegisters : (∀ f ∈ iss0.served h7, lane.x.pastBudget iss0 f [2, 4, 64] = true) ∧
    Issues poisoned ⟨3, { wave0 with vpois := [768, 769, 771] }, 0x1040, [0, 1, 3]⟩ ∧
    (∀ f ∈ iss0.served h7, poisoned.x.poisV 3 f 6 = true ∧ poisoned.x.pastBudget iss0 f [2, 4, 6] = false) ∧
    (let s := machine { wave0 with vpois := [768] } team0 grid0
     s.x.ab iss0 0 (opndsOf ab) = none ∧ s.x.ab iss0 1 (opndsOf ab) = some ((7 : BitVec 32).toNat, (0xfffffffe : BitVec 32).toNat)) :=
  ⟨by decide +kernel, ⟨by decide +kernel, by decide +kernel, by decide +kernel, by decide +kernel⟩, by decide +kernel⟩
/-! #### Local and global memory -/

/-- A page that reads, writes and updates atomically, at 0x50000 in device memory, of region class 1, accessed and dirty. -/
def page1 : Nat := 0xf + 2 ^ 8 + 5 * 2 ^ 16 + 2 ^ 58 + 2 ^ 59
/-- A record of type 1 or 2 over 4 KiB at 0x40000, with every right and scope `.team` or wider. -/
def record (type scope : Nat) : BitVec 128 :=
  BitVec.ofNat 128 (0x40000 + 4096 * 2 ^ 48 + 7 * 2 ^ 115 + scope * 2 ^ 120 + type * 2 ^ 124)
/-- Byte and element offsets 0, 4, 8 in V14; indexes 0, 1, 2 in V16. -/
def wave1 : Wave := { solo with
    v := [(769, 4), (771, 8), (1537, 1), (1539, 2), (1793, 4), (1795, 8), (2049, 1), (2051, 2)]
    w := solo.w ++ [(20, 0x40000), (22, 65536), (24, 0x4000), (28, 1), (32, 2), (40, 0x10003), (44, 0x1000000)] }
def grid1 : Grid := { grid0 with recs := [record 1 2, record 1 4, record 2 2] ++ List.replicate 13 0 }
def team1 : Team := { team0 with mem := [(0, 1), (4, 2), (5, 3)] }
def line0 : List Byte := (List.range 32).map fun k => BitVec.ofNat 8 k
def loc0 : Loc := State.locOf { State.reset with trust := { Trust.reset with keys := [(4, 1)] } } 1 0 page1 0x40000
def sector0 : Nat := loc0.sec
def cached0 : L1Sec :=
  { core := 0, loc := loc0, have_ := fullMask, dirty := 0, whole := false, pois := false, data := line0, lru := 0, keep := false, grids := [] }
/-- The small machine with a translation, a key, and its record's first sector in the core's L1. -/
def memory (cached : Bool) : State :=
  let s := machine wave1 team1 grid1
  { s with
    trust := { s.trust with keys := [(4, 1)] }
    mem := { s.mem with
      tlbs := [⟨0, 1, 0, 4, page1, 0⟩]
      l1 := if cached then [cached0] else [] } }
def issM : Iss := ⟨3, wave1, 0x1040, [0, 1, 3]⟩
theorem memory_issues (c : Bool) : Issues (memory c) issM := by
  cases c <;> exact ⟨by decide +kernel, by decide +kernel, by decide +kernel, by decide +kernel⟩
/-- V2 and on, at V16 or V14, through record n. -/
def acc (n size fmt : Nat) (s1 : BitVec 7) : MemI := ⟨h7, ⟨false, 0, 0, 0, BitVec.ofNat 4 fmt, BitVec.ofNat 4 size⟩, 0, BitVec.ofNat 4 n, s1, 4⟩
/-- Where the fibres' accesses go. -/
def vaOf (f : Nat) : Nat := if f = 1 then 0x40004 else if f = 3 then 0x40008 else 0x40000
def locAt (f : Nat) : Loc := (memory true).locOf 1 0 page1 (vaOf f)

theorem checks (n : Need) (t : State) :
    State.checkEntry t 1 0 page1 n = (if t.malformed 1 0 page1 then some cBADPTE else if badPa 0 page1 then some cBADPA else none) := by
  have a : decide (ePlc page1 = 3) = false := by decide
  have z : n.dropped page1 = false := by simp [Need.dropped, a]
  have b : eWrite page1 = true := by decide
  have c : eAtomic page1 = true := by decide
  have d : eExec page1 = true := by decide
  unfold State.checkEntry
  simp [a, b, c, d, z]

theorem reaches (c : Bool) (n : Need) (f : Nat) (hf : f ∈ issM.served h7) :
    Reaches (memory c) ⟨0, 1, 1⟩ n (vaOf f) (locAt f) := by
  have e : issM.served h7 = [0, 1, 3] := by decide +kernel
  rw [e] at hf
  simp only [List.mem_cons, List.mem_nil_iff, or_false] at hf
  rcases hf with rfl | rfl | rfl <;> cases c <;>
    exact ⟨by decide +kernel, by decide +kernel, ⟨0, 1, 0, 4, page1, 0⟩, by decide +kernel, by rw [checks]; decide +kernel,
      fun _ => by decide +kernel, by decide +kernel⟩
theorem test_meets_LocalLoads : Issues (memory true) issM ∧ (memory true).x.teamOf issM.w = some team1 ∧
    (memory true).x.memDesc (acc 0 2 0 14) = some 0 ∧ InBudget (memory true) issM h7 (14 :: (List.range (dataWords 0 4)).map (4 + ·)) ∧
    Register (memory true) issM h7 14 (col (memory true) 14) ∧ LocalOk (memory true) issM h7 (acc 0 2 0 14) (col (memory true) 14) team1 ∧
    (∀ f ∈ issM.served h7, localAt { acc 0 2 0 14 with imm := 511 } (col (memory true) 14) f + 4 > 1024) := by
  exact ⟨memory_issues true, by decide +kernel⟩
theorem test_meets_LocalWrites : Issues (memory true) issM ∧ (memory true).x.teamOf issM.w = some team1 ∧
    (memory true).x.memDesc (acc 0 2 0 14) = some 0 ∧ InBudget (memory true) issM h7 (14 :: (List.range 2).map (4 + ·)) ∧
    Register (memory true) issM h7 14 (col (memory true) 14) ∧ LocalOk (memory true) issM h7 (acc 0 2 0 14) (col (memory true) 14) team1 ∧
    (issM.w.log = [] ∧ team1.lunc = []) ∧ ∀ j < 2, Register (memory true) issM h7 (4 + j) (fun f => col (memory true) (4 + j) f) := by
  exact ⟨memory_issues true, by decide +kernel⟩

theorem globals : ∀ r ∈ [Right.read, .write, .atomic], ∀ f ∈ issM.served h7,
    GlobalAt (memory true) issM (acc 0 2 0 16) false r (col (memory true) 16 f) (vaOf f) ∧
    GlobalAt (memory false) issM (acc 1 2 0 16) false r (col (memory true) 16 f) (vaOf f) ∧
    GlobalAt (memory true) issM (acc 2 2 1 14) true r (col (memory true) 16 f) (vaOf f) := by decide +kernel
theorem cachedAt (f : Nat) (hf : f ∈ issM.served h7) : Cached (memory true) 0 (locAt f) line0 := by
  have e : issM.served h7 = [0, 1, 3] := by decide +kernel
  rw [e] at hf
  simp only [List.mem_cons, List.mem_nil_iff, or_false] at hf
  rcases hf with rfl | rfl | rfl <;> exact ⟨by decide +kernel, cached0, by decide +kernel, by decide +kernel, by decide +kernel, by decide +kernel⟩

theorem test_meets_GlobalLoads_cached : Issues (memory true) issM ∧ Clear issM.w ∧ scopeOf (memory true) issM (acc 0 2 0 16) < 4 ∧
    scopeOf (memory true) issM (acc 2 2 1 16) < 4 ∧
    InBudget (memory true) issM h7 (16 :: (List.range (dataWords 0 4)).map (4 + ·)) ∧ Register (memory true) issM h7 16 (col (memory true) 16) ∧
    (memory true).x.memDesc (acc 0 2 0 16) = some 0 ∧ (memory true).x.who issM.w = ⟨0, 1, 1⟩ ∧
    (∀ f ∈ issM.served h7, ∀ g ∈ issM.served h7, (locAt f).pa / 32 = (locAt g).pa / 32 → { locAt f with pa := 0, va := 0 } = { locAt g with pa := 0, va := 0 }) ∧
    (∀ f ∈ issM.served h7, GlobalAt (memory true) issM (acc 0 2 0 16) false .read (col (memory true) 16 f) (vaOf f) ∧
      Reaches (memory true) ⟨0, 1, 1⟩ {} (vaOf f) (locAt f) ∧ Cached (memory true) 0 (locAt f) line0) ∧
    (∀ f ∈ issM.served h7, GlobalAt (memory true) issM (acc 2 2 1 16) true .read (col (memory true) 16 f) (vaOf f) ∧
      Reaches (memory true) ⟨0, 1, 1⟩ { host := false } (vaOf f) (locAt f)) ∧
    (issM.served h7).head? = some 0 ∧ GlobalAt (memory true) issM (acc 0 2 0 16) false .read ((memory true).x.readW 3 16) (vaOf 0) := by
  refine ⟨memory_issues true, ?_, ?_, ?_, ?_, ?_, ?_, ?_,
    ?_, fun f h => ⟨(globals .read (by decide) f h).1, reaches true {} f h, cachedAt f h⟩,
    fun f h => ⟨(globals .read (by decide) f h).2.2, reaches true _ f h⟩, ?_, ?_⟩ <;> decide +kernel

/-- A record of type 2 whose elements are words along columns. -/
def gridC : Grid := { grid1 with recs := [BitVec.ofNat 128 (0x40000 + 4096 * 2 ^ 48 + 2 * 2 ^ 112 + 2 ^ 114 + 7 * 2 ^ 115 + 2 * 2 ^ 120 + 2 * 2 ^ 124)] }
def columns : State := { memory false with x := (machine wave1 team1 gridC).x }
def colI : MemI := { acc 0 2 2 16 with h := hP0 }
theorem test_meets_GlobalLoads_column : Issues columns issM ∧ Clear issM.w ∧ issM.served hP0 = [0] ∧
    (let r := columns.x.bufRec issM.w 0
     let e := max r.elem 1
     e ≤ 4 ∧ r.width ≠ 0 ∧ r.type = 2 ∧ r.read = true ∧ r.base % 1024 = 0 ∧ (32 * (4 / e - 1) + e : Nat) ≤ r.extent ∧ 4 / e ≤ 32 ∧
      r.base + swizzle 0 r.swz r.swzP = 0x40000) ∧ scopeOf columns issM colI < 4 ∧
    InBudget columns issM hP0 (16 :: (List.range 1).map (4 + ·)) ∧ columns.x.ownRead issM 0 16 = some 0 ∧
    Reaches columns ⟨0, 1, 1⟩ { host := false } 0x40000 (locAt 0) ∧ columns.mem.reqs = [] ∧ columns.mem.l1 = [] ∧ columns.mem.pois ++ columns.mem.unc = [] := by
  refine ⟨⟨?_, ?_, ?_, ?_⟩, ?_, ?_, ?_, ?_,
    ?_, ?_, ⟨by decide, ?_, ⟨0, 1, 0, 4, page1, 0⟩, ?_, by rw [checks]; decide +kernel,
      fun _ => by decide +kernel, ?_⟩, ?_⟩ <;> decide +kernel

theorem test_meets_CachedStores : Issues (memory true) issM ∧ Clear issM.w ∧ (memory true).x.determ issM.w = false ∧
    (memory true).x.memDesc (acc 0 2 0 16) = some 0 ∧ scopeOf (memory true) issM (acc 0 2 0 16) < 4 ∧ (acc 0 2 0 16).m.hint ≠ 2 ∧
    InBudget (memory true) issM h7 (16 :: (List.range (dataWords 0 4)).map (4 + ·)) ∧ Register (memory true) issM h7 16 (col (memory true) 16) ∧
    (∀ j < dataWords 0 4, Register (memory true) issM h7 (4 + j) (fun f => col (memory true) (4 + j) f)) ∧
    (∀ f ∈ issM.served h7, GlobalAt (memory true) issM (acc 0 2 0 16) false .write (col (memory true) 16 f) (vaOf f) ∧
      Reaches (memory true) ⟨0, 1, 1⟩ { write := true } (vaOf f / 32 * 32) (locAt 0) ∧ Cached (memory true) 0 (locAt 0) line0) ∧
    ∀ f ∈ issM.served h7, ∀ g ∈ issM.served h7, vaOf f / 32 = vaOf g / 32 := by
  refine ⟨memory_issues true, ?_, ?_, ?_, ?_, ?_, ?_, ?_,
    ?_, fun f h => ⟨(globals .write (by decide) f h).1, by
      have e : ∀ f ∈ issM.served h7, vaOf f / 32 * 32 = vaOf 0 := by decide +kernel
      rw [e f h]; exact reaches true _ 0 (by decide +kernel), cachedAt 0 (by decide +kernel)⟩, ?_⟩ <;> decide +kernel

theorem test_meets_HomeAtomics : Issues (memory false) issM ∧ Clear issM.w ∧ (memory false).x.determ issM.w = false ∧
    4 ≤ scopeOf (memory false) issM (acc 1 2 0 16) ∧ InBudget (memory false) issM h7 (16 :: (List.range 2).map (4 + ·)) ∧
    Register (memory false) issM h7 16 (col (memory false) 16) ∧ (∀ j < 2, Register (memory false) issM h7 (4 + j) (fun f => col (memory false) (4 + j) f)) ∧
    (∀ f ∈ issM.served h7, GlobalAt (memory false) issM (acc 1 2 0 16) false .atomic (col (memory false) 16 f) (vaOf f) ∧ (locAt f).key = 3 ∧
      (locAt f).home = dieOf 0) ∧
    (memory false).mem.reqs = [] ∧ (memory false).mem.l1 = [] ∧ (memory false).mem.pois = [] ∧ (memory false).mem.unc = [] ∧
    ∀ n, ∀ f ∈ issM.served h7, Reaches (memory false) ⟨0, 1, 1⟩ n (vaOf f) (locAt f) := by
  refine ⟨memory_issues false, ?_, ?_, ?_, ?_, ?_, ?_, ?_,
    ?_, ?_, ?_, ?_, fun n f h => reaches false n f h⟩ <;> decide +kernel

theorem test_meets_CacheControl : Issues (memory false) issM ∧ Clear issM.w ∧ (memory false).x.determ issM.w = false ∧
    InBudget (memory false) issM h7 [16] ∧ Register (memory false) issM h7 16 (col (memory false) 16) ∧
    scopeOf (memory false) issM (acc 0 2 0 16) < 4 ∧ 4 ≤ scopeOf (memory false) issM (acc 1 2 0 16) ∧
    ((acc 0 2 0 16).m.ord = 0 ∧ (acc 0 2 0 16).m.hint ≠ 2 ∧ 5 ≤ scopeOf (memory false) issM { acc 1 2 0 16 with m := ⟨false, 0, 0, 5, 0, 2⟩ } ∧
     (locAt 0).home = dieOf 0 ∧ (memory false).mem.l1 = [] ∧ (issM.served h7).length ≤ (memory false).mem.l1Ways 0) ∧
    (let c := { cached0 with dirty := 3 }
     c ∈ [c] ∧ c.dirty ≠ 0 ∧ c.key ≠ 0 ∧ c.data.length = 32 ∧ (∀ f ∈ issM.served h7, (locAt 0).sec = c.sec) ∧ (memory false).mem.reqs = []) ∧
    ∀ n, ∀ f ∈ issM.served h7, Reaches (memory false) ⟨0, 1, 1⟩ n (vaOf f / 32 * 32) (locAt 0) := by
  refine ⟨memory_issues false, ?_, ?_, ?_, ?_, ?_, ?_, ?_, ?_, fun n f h => by
    have e : ∀ f ∈ issM.served h7, vaOf f / 32 * 32 = vaOf 0 := by decide +kernel
    rw [e f h]; exact reaches false n 0 (by decide +kernel)⟩ <;> decide +kernel

/-- A handler wave of one fibre whose origin is fibre 0 of wave 3. -/
def handlerWave : Wave :=
  { team := 2, idx := 16, role := 0, quad := 0, handler := some ⟨1, false, [3]⟩
    fibs := [(0, { st := .ready, pc := 0x1040, org := some (3, 0) }), (1, { st := .ready, pc := 0x1080, org := some (3, 1) })] }
def origin : Wave := { wave0 with fibs := [(0, { st := .masked, pc := 0x2000, trap := some { cause := 0x30, len := 8, pc := 0x2000 } }),
  (1, { st := .masked, pc := 0x2000, trap := some { cause := 0x20, len := 8, pc := 0x2000 } })] }
def handling : State :=
  let s := machine origin team0 grid0
  { s with x := { s.x with waves := [(3, origin), (4, handlerWave)], cur := some { wave := 4, pc := 0x1040, count := 0, fmts := [], len := 8, raw := 0 } } }
def issH : Iss := ⟨4, handlerWave, 0x1040, [0]⟩
theorem handling_issues : Issues handling issH := ⟨by decide +kernel, by decide +kernel, by decide +kernel, by decide +kernel⟩
theorem test_meets_HandlerReturns : lane.x.issue? = some iss0 ∧ iss0.inHandler = false ∧ handling.x.issue? = some issH ∧ issH.inHandler = true ∧
    issH.w.log = [] ∧ issH.served h7 = [0] ∧ (issH.w.fib 0).org = some (3, 0) ∧ (issH.w.fib 0).wins = [] ∧ handling.x.wave? 3 = some origin ∧
    ((origin.fib 0).trap.map Trap.cause) = some 0x30 ∧ (origin.fib 0).st = .masked ∧ (origin.fib 0).async = [] ∧
    (∀ p ∈ origin.fibs, p.2.rejoin? = none) ∧ (∀ p ∈ issH.w.fibs, p.2.rejoin? = none) ∧ (issH.w.fib 1).st ≠ .free ∧
    issH.w.handler.map HandlerInfo.orgs = some [3] ∧ (origin.fib 1).st ≠ .free ∧ InBudget handling issH h7 (pairRegs 4) := by decide +kernel
theorem test_meets_OriginAccess : Issues handling issH ∧ issH.inHandler = true ∧ (∀ f ∈ issH.served h7, (issH.w.fib f).org = some (3, 0)) ∧
    InBudget handling issH h7 [2] ∧ InBudget handling issH h7 [22] ∧ Register handling issH h7 22 (fun _ => 0) ∧
    ((handling.x.fib 3 0).trap.map Trap.pc) = some 0x2000 ∧ handling.x.ownRead issH 0 (0 + 4) = some 0x80000005 ∧ 0 + 4 < min 128 (handling.x.budget 4 0) ∧
    issH.served h7 = [0] ∧ (handling.x.wave? 3).isSome = true ∧ handling.x.pastBudget issH 0 [6] = false ∧ handling.x.ownRead issH 0 6 = some 3 :=
  ⟨handling_issues, by decide +kernel⟩
theorem test_meets_GridHalt : Uniform lane iss0 h7 0 ∧ lane.x.teamOf iss0.w = some team0 ∧ lane.x.gridOf team0 = some grid0 ∧ grid0.determ = false ∧
    ({ grid0 with lrec := rec_ 2 } : Grid).determ = true ∧ strict.x.teamOf issS.w = some team0 :=
  ⟨⟨lane_issues.run, by decide +kernel⟩, by decide +kernel⟩
/-! #### Residency, copies, tags and barrier objects -/

def own (m d s1 s2 s3 : Nat) : OwnI := ⟨h7, BitVec.ofNat 16 m, BitVec.ofNat 7 s3, BitVec.ofNat 7 s2, BitVec.ofNat 7 s1, BitVec.ofNat 7 d⟩
def sq0 : Sq :=
  { id := 5, key := 3, holder := 0, orient := false, width := 0, turn := 0, turning := false, sharers := 0, hold := false, valid := 1
    dirty := 0, lru := 0, tidal := false, tcol := false, twid := 0, ctx := 1, pa := 0x50000, va := 0x40000, cinv := false }
/-- The machine with a handle of the context's, an update and a sweep under way, and a square. -/
def handles : State :=
  let s := memory false
  { s with mem := { s.mem with resh := [(handleKey 0 1, ⟨1, 0, false⟩)], resupd := [⟨20, 0, 1, 0, 3, 19⟩, ⟨21, 0, 1, 3, 0, 18⟩], sqs := [(5, sq0)] } }

theorem test_meets_Residency : Uniform (memory false) issM h7 0 ∧ Clear issM.w ∧ (memory false).x.determ issM.w = false ∧
    (memory false).mem.resh = [] ∧ ((memory false).x.readW 3 20).toNat + 2 ^ 32 * (((memory false).x.readW 3 21).toNat % 2 ^ 16) = 0x40000 ∧
    ((memory false).x.readW 3 22).toNat = 65536 ∧ ((memory false).x.readW 3 26).toNat ≤ 7 ∧
    Reaches (memory false) ⟨0, 1, 1⟩ {} 0x40000 (locAt 0) ∧ (∀ d < 4, (memory false).mem.resmap.get 0 (frameKey d (frameOf (locAt 0).pa)) = 0) ∧
    Uniform handles issM h7 0 ∧ handles.x.determ issM.w = false ∧ handles.mem.resh.find? (handleKey (dieOf (handles.x.coreOf issM.w)) (handles.x.readW 3 5).toNat) = some ⟨1, 0, false⟩ ∧
    (handles.x.readW 3 5).toNat ≤ 4095 ∧ (∀ q ∈ handles.mem.resupd, q.id ≠ 20 → q.op ≠ 19) ∧
    handles.x.ctxOf issM.w = 1 ∧ (handles.x.readW 3 6).toNat ≤ 7 ∧
    handles.mem.resupd.find? (fun r => decide (r.id = 20)) = some ⟨20, 0, 1, 0, 3, 19⟩ ∧
    handles.mem.resupd.find? (fun r => decide (r.kind = 3 ∧ r.die = 0 ∧ r.h = 1)) = some ⟨21, 0, 1, 3, 0, 18⟩ ∧
    (∀ p ∈ handles.mem.sqs, p.2.hold = false) ∧ (∀ p ∈ handles.mem.sqs, p.1 = p.2.id) ∧ ∀ q ∈ handles.mem.reqs, q.sq / 2 ^ 28 ≠ 0 := by
  refine ⟨⟨?_, ?_⟩, ?_, ?_, ?_, ?_, ?_,
    ?_, reaches false {} 0 (?_), ?_, ⟨?_, ?_⟩, ?_⟩ <;> decide +kernel

/-- Where a copy's elements lie in memory and in the allocation, by kind. -/
def offOf (f : Nat) : Nat := vaOf f - 0x40000
theorem copy_elements : ∀ f ∈ issM.served h7,
    (let r := (memory false).x.bufRec issM.w 0
     let off := (col (memory false) 16 f).toNat * (if r.stride = 0 then 4 else r.stride)
     r.type ≠ 0 ∧ r.has .read = true ∧ r.has .write = true ∧ off + 4 ≤ r.extent ∧ 4 ∣ off ∧ vaOf f = r.base + swizzle off r.swz r.swzP) ∧
    (col (memory false) 14 f).toNat + 4 ≤ (memory false).x.localSize issM.w.team ∧ 4 ∣ (col (memory false) 14 f).toNat ∧
    offOf f = (col (memory false) 14 f).toNat := by decide +kernel
def copyOp : LineOp := { inst := 11, core := 0, team := 2, wave := 3, kind := 0, size := 4, elems := [⟨0x40000, 8, false, 0⟩], pc := 0x1000, held := none, performed := false }
/-- The machine with a copy whose line operation may run, and one whose line operation is done. -/
def copying : State :=
  let s := memory false
  { s with x := { s.x with copies := [(12, copyOp), (13, { copyOp with performed := true })], insts := [(11, ⟨2, some 0, none, false, []⟩)] } }
theorem test_meets_CopiesAndTags : Issues (memory false) issM ∧ issM.served h7 ≠ [] ∧ (memory false).x.determ issM.w = false ∧
    (memory false).x.teamOf issM.w = some team1 ∧ ((memory false).x.readW 3 24).toNat = 0x4000 ∧ 0 < (memory false).x.tagCount team1 ∧
    InBudget (memory false) issM h7 [14, 16] ∧ Register (memory false) issM h7 14 (col (memory false) 14) ∧
    Register (memory false) issM h7 16 (col (memory false) 16) ∧
    (∀ n, ∀ f ∈ issM.served h7, Reaches (memory false) ⟨0, 1, 1⟩ n (vaOf f) (locAt f)) ∧
    (dedup ((issM.served h7).map fun f => (vaOf f / 128, offOf f / 128))).length ≤ 1024 ∧ (memory false).x.inFlight 0 = 0 ∧
    (memory false).x.copyQueue 0 = [] ∧
    copying.x.copies.find? 12 = some copyOp ∧ copying.x.teams.find? 2 = some team1 ∧ copying.x.opWho copyOp = ⟨0, 1, 1⟩ ∧
    Reaches copying ⟨0, 1, 1⟩ { host := false } 0x40000 (locAt 0) ∧ (locAt 0).home = dieOf 0 ∧ (locAt 0).pa % 32 + 4 ≤ 32 ∧
    copying.mem.reqs = [] ∧ copying.mem.l1 = [] ∧ (locAt 0).sec ∉ copying.mem.pois ++ copying.mem.unc ∧
    copying.x.copies.find? 13 = some { copyOp with performed := true } ∧ copying.x.insts.find? 11 = some ⟨2, some 0, none, false, []⟩ ∧
    Uniform (memory false) issM h7 0 ∧ ((memory false).x.readW 3 28).toNat = 1 ∧ bitOf team1.tdone 0 = false ∧
    team1.st = .resident ∧ team1.lunc = [] ∧ wave1.log = [] ∧ issM.w.resumed = false := by
  refine ⟨memory_issues false, ?_, ?_, ?_, ?_, ?_, ?_,
    ?_, ?_, fun n f h => reaches false n f h, ?_, ?_, ?_, ?_,
    ?_, ?_,
    ⟨?_, ?_, ⟨0, 1, 0, 4, page1, 0⟩, ?_, by rw [checks]; decide +kernel, fun _ => by decide +kernel, ?_⟩,
    ?_, ?_, ?_, ?_, ?_, ?_, ?_,
    ⟨?_, ?_⟩, ?_⟩ <;> decide +kernel

/-- The object at 64 waits for five arrivals in phase 0. -/
def team2 : Team := team0.setTb 0x40 ⟨0, false, false, 0, 0, 5, 5, 0⟩
def object : State := machine solo team2 grid0
theorem test_meets_BarrierObjects : Uniform object issS h7 0 ∧ issS.w.log = [] ∧ object.x.determ issS.w = false ∧ issS.diverged = false ∧ object.x.teamOf issS.w = some team2 ∧
    (object.x.readW 3 8).toNat + 16 ≤ object.x.localSize issS.w.team ∧ (object.x.readW 3 8).toNat % 16 = 0 ∧ (object.x.readW 3 6).toNat ≤ 65535 ∧
    team2.tbreg.length < 8 ∧ (team2.tb (object.x.readW 3 8).toNat).rsv = 0 ∧ (object.x.readW 3 7).toNat < 2 ^ 23 ∧
    1 ≤ (object.x.readW 3 10).toNat ∧ (object.x.readW 3 10).toNat ≤ (team2.tb (object.x.readW 3 8).toNat).pending ∧
    team2.phaseAt 0x40 = (object.x.readW 3 0).toNat % 16 ∧ team2.phaseAt 0x40 ≠ (object.x.readW 3 6).toNat % 16 :=
  ⟨⟨by decide +kernel, by decide +kernel⟩, by decide +kernel⟩
/-- TBARV of the last three and TBEXP leave the phase and the counts that R105 and R106 give. -/
theorem test_barrier_object : ((after (.tbarv ⟨h7, 0, 0, 10, 8, 0⟩) object).bind fun t => (t.x.teams.find? 2).map fun m => ((m.tb 0x40).pending, (m.tb 0x40).phase)) =
    some (2, 0) := by decide +kernel
/-! #### Messages, near-memory commands and collectives -/

def msg0 : Msg := { id := 30, local_ := false, rank := 0, team := 0, grid := 1, dteam := 0, tag := 0, data := List.replicate 16 7, pois := 0, total := 16 }
def post0 : Post := { op := 5, wave := 3, rank := 0, team := 0, tag := 0, cap := 1, off := 0x80 }
/-- The machine with a team of this receive or of this arrival, and a message on its way. -/
def mail (posts : List Post) (unmat : List Msg) : State :=
  let s := machine wave1 { team1 with posts := posts, unmat := unmat } grid1
  { s with x := { s.x with msgs := [{ msg0 with local_ := true }] } }
theorem mail_uniform (p : List Post) (u : List Msg) : Uniform (mail p u) issM h7 0 := ⟨rfl, by decide +kernel⟩
theorem test_meets_Messages : issM.w.log = [] ∧ (mail [] []).x.determ issM.w = false ∧ (mail [] []).x.teamOf issM.w = some team1 ∧
    (mail [] []).x.gridOf team1 = some grid1 ∧ ((mail [] []).x.readW 3 0).toNat = (mail [] []).x.rank ∧
    ((mail [] []).x.readW 3 1).toNat < grid1.word 16 4 * grid1.word 20 4 * grid1.word 24 4 ∧ ((mail [] []).x.readW 3 40).toNat = 0x10003 ∧
    ((mail [] []).x.readW 3 8).toNat = 0x40 ∧ 0x40 + 16 * 3 ≤ (mail [] []).x.localSize issM.w.team ∧ team1.lpois = [] ∧
    bitsOf ((mail [] []).x.readW 3 44).toNat 24 8 = 1 ∧ team1.unmat = [] ∧ team1.posts.length < 64 ∧
    (mail [] [msg0]).x.teamOf issM.w = some { team1 with unmat := [msg0] } ∧
    [msg0].find? ({ op := 10, wave := 3, rank := 0, team := 0, tag := 0, cap := 1, off := 0x40 } : Post).takes = some msg0 ∧
    (issM.w.handle 6).ready = false ∧ [post0].find? (fun p => decide (p.op = (issM.w.handle 6).op)) = some post0 ∧
    (∀ p ∈ [[], [post0]], (mail p []).x.msgs.find? (fun m => decide (m.id = 30)) = some { msg0 with local_ := true } ∧
      (mail p []).x.teamAt 1 0 = some (2, { team1 with posts := p }) ∧ (mail p []).x.teams.find? 2 = some { team1 with posts := p } ∧
      (mail p []).x.overflowOf 0 < 256) ∧ team1.st = .resident ∧ [post0].find? (fun p => p.takes { msg0 with local_ := true }) = some post0 := by
  decide +kernel

/-- The word pair's high page of class 1 at 0x50000, the low page of class 2 at 0x140000. -/
def page2 : Nat := 0xf + 2 * 2 ^ 8 + 20 * 2 ^ 16 + 2 ^ 58 + 2 ^ 59
/-- AXPY of two FP32 elements, with its operand at 0x40100. -/
def cmd : List Word := [0x1001, 0, 0, 0x40, 2, 0x3f800000, 0, 0]
def wave3 : Wave := { solo with v := (List.range 8).map fun j => (2560 + 128 * j, cmd.getD j 0) }
def gridN : Grid := { grid0 with recs := [BitVec.ofNat 128 (0x40000 + 4096 * 2 ^ 48 + 15 * 2 ^ 115 + 2 ^ 121 + 2 ^ 124),
  BitVec.ofNat 128 (0x50000 + 4096 * 2 ^ 48 + 15 * 2 ^ 115 + 2 ^ 121 + 2 ^ 124)] ++ List.replicate 14 0 }
def near : State :=
  let s := machine wave3 team0 gridN
  { s with
    trust := { s.trust with keys := [(4, 1)] }
    mem := { s.mem with tlbs := [⟨0, 1, 0, 4, page1, 0⟩, ⟨0, 1, 0, 5, page2, 16⟩] } }
def issN : Iss := ⟨3, wave3, 0x1040, [0, 1, 3]⟩
def nearLoc (k : Nat) : Loc := if k = 1 then near.locOf 1 0 page2 0x50000 else near.locOf 1 0 page1 (if k = 0 then 0x40000 else 0x40100)
theorem near_reaches (j : Nat) (hj : j < 3) (n : Need) :
    Reaches near ⟨0, 1, 1⟩ n (if j = 0 then 0x40000 else if j = 1 then 0x50000 else 0x40100) (nearLoc j) := by
  have c2 : State.checkEntry near 1 0 page2 n = (if near.malformed 1 0 page2 then some cBADPTE else if badPa 0 page2 then some cBADPA else none) := by
    have a : decide (ePlc page2 = 3) = false := by decide
    have b : eWrite page2 = true := by decide
    have c : eAtomic page2 = true := by decide
    have d : eExec page2 = true := by decide
    have z : n.dropped page2 = false := by simp [Need.dropped, a]
    unfold State.checkEntry
    simp [a, b, c, d, z]
  have e : j = 0 ∨ j = 1 ∨ j = 2 := by omega
  rcases e with rfl | rfl | rfl
  · exact ⟨by decide, by decide +kernel, ⟨0, 1, 0, 4, page1, 0⟩, by decide +kernel, by rw [checks]; decide +kernel, fun _ => by decide +kernel, by decide +kernel⟩
  · exact ⟨by decide, by decide +kernel, ⟨0, 1, 0, 5, page2, 16⟩, by decide +kernel, by rw [c2]; decide +kernel, fun _ => by decide +kernel, by decide +kernel⟩
  · exact ⟨by decide, by decide +kernel, ⟨0, 1, 0, 4, page1, 0⟩, by decide +kernel, by rw [checks]; decide +kernel, fun _ => by decide +kernel, by decide +kernel⟩

def nmCmd : NmCmd :=
  { op := 11, core := 0, wave := 3, slot := 0, team := 2, words := cmd.map BitVec.toNat
    spans := [(0x40000, 0x50000, 12), (0x50000, 0x140000, 12), (0x40100, 0x50100, 12)], nmu := 2, sent := false, held := none, older := 0, pc := 0x1000 }
/-- The same with a command of the wave's under way. -/
def sending (c : NmCmd) : State := { near with x := { near.x with nms := [(12, c)], nmg := [(11, ⟨1, []⟩)] } }
theorem test_meets_NearMemory : Issues near issN ∧ issN.served hP0 = [0] ∧ near.x.determ issN.w = false ∧ near.x.nmLoad (near.x.coreOf issN.w) < 256 ∧
    near.x.nmQueue (near.x.coreOf issN.w) = [] ∧ near.x.nmg.find? near.x.fresh = none ∧
    InBudget near issN hP0 ((List.range 8).map (20 + ·)) ∧ cmd.length = 8 ∧ (∀ j < 8, near.x.ownRead issN 0 (20 + j) = cmd[j]?) ∧
    near.x.nmCheck issN.w (cmd.map BitVec.toNat) = none ∧ near.x.who issN.w = ⟨0, 1, 1⟩ ∧
    (near.x.nmSpans issN.w (cmd.map BitVec.toNat)).map NmSpan.va = [0x40000, 0x50000, 0x40100] ∧
    (∀ n, Reaches near ⟨0, 1, 1⟩ n 0x40000 (nearLoc 0) ∧ Reaches near ⟨0, 1, 1⟩ n 0x50000 (nearLoc 1) ∧ Reaches near ⟨0, 1, 1⟩ n 0x40100 (nearLoc 2)) ∧
    (nearLoc 0).cls = 1 ∧ (nearLoc 1).cls = 2 ∧ nmuOf (nearLoc 1) = nmuOf (nearLoc 0) ∧ nmuOf (nearLoc 2) = nmuOf (nearLoc 0) ∧
    near.x.issue? = some issN ∧ near.x.nms = [] ∧ (sending nmCmd).x.issue? = some issN ∧ (∃ p ∈ (sending nmCmd).x.nms, p.2.wave = issN.u) ∧
    (sending nmCmd).x.teams.find? nmCmd.team = some team0 ∧ near.x.gridOf team0 = some gridN ∧ gridN.determ = false ∧
    (let bad : List Word := 0x1005 :: cmd.drop 1
     near.x.nmCheck issN.w (bad.map BitVec.toNat) = some (2, 0) ∧ near.x.nmLoad (near.x.coreOf issN.w) ≤ 256) ∧
    (let c : NmCmd := { nmCmd with sent := true }
     let s := sending c
     s.mem.uncw = [] ∧ s.x.nmg.find? c.op = some ⟨1, []⟩ ∧ nmOp c.words ≠ 4 ∧
     s.x.nmuQueue (3 * 0 + 2) = [(12, c)] ∧ c.locs.length = 3 ∧ nmUsesG c.words = true ∧ s.mem.claims = [] ∧ s.mem.pois = [] ∧ s.mem.unc = [] ∧
      s.mem.reqs = [] ∧ (∀ l ∈ c.locs, l.sa % 32 = 0 ∧ l.key ≠ 0) ∧ (c.locs.map NmLoc.sa).Nodup ∧ 0 < nmN c.words ∧
      nmWidth (nmPf c.words) * nmN c.words ≤ 32 ∧ nmWidth (nmGf c.words) * nmN c.words ≤ 32) := by
  refine ⟨⟨?_, ?_, ?_, ?_⟩, ?_, ?_, ?_, ?_,
    ?_, ?_, ?_, ?_, ?_, ?_, ?_,
    fun n => ⟨near_reaches 0 (by decide) n, near_reaches 1 (by decide) n, near_reaches 2 (by decide) n⟩, ?_⟩ <;> decide +kernel

/-- An ALLREDUCE sum of two words through records 0 and 0, of group 7. -/
def desc : List Nat := [0x300, 2, 0, 8, 0, 7, 0, 0]
def team4 : Team := team1.store 0x40 (desc.flatMap (leBytes 4))
def group7 : CollGroup := ⟨[0, 5], 0, 4⟩
def collecting : State :=
  let s := machine wave1 team4 grid1
  { s with x := { s.x with groups := [(7, group7)], collIn := [⟨7, 3, 0, [], [], none, 0, true⟩, ⟨7, 3, 5, [], [], none, 0, true⟩] } }
theorem test_meets_Collectives : Uniform collecting issM h7 0 ∧ collecting.x.determ issM.w = false ∧ issM.w.log = [] ∧ collecting.x.teamOf issM.w = some team4 ∧
    (collecting.x.readW 3 8).toNat = 0x40 ∧ ((List.range 8).map fun k => leNat (team4.bytes (0x40 + 4 * k) 4)) = desc ∧
    0x40 + 32 ≤ collecting.x.localSize issM.w.team ∧ team4.lpois = [] ∧ collecting.x.groups.find? 7 = some group7 ∧
    collecting.x.rank ∈ group7.members ∧ collBad desc (some group7) collecting.x.rank = false ∧
    (collecting.x.bufRec issM.w 0).refusal false false .read = none ∧ (collecting.x.bufRec issM.w 0).refusal false false .write = none ∧
    8 * 4 + 2 * 4 * 2 ≤ (collecting.x.bufRec issM.w 0).extent ∧ collReads (bitsOf (word desc 0) 0 4) 2 2 true ≤ 4 ∧
    collWrites (bitsOf (word desc 0) 0 4) 2 2 true ≤ 4 ∧
    (let a := collecting.x.collAsk issM 0 collecting.x.fresh 0 desc
     let h := collecting.collHost (collecting.x.who issM.w) [] false a.part.src a.reads
     h.2.1 = false ∧ h.2.2 = [] ∧ (h.1.collHost (collecting.x.who issM.w) [] true a.part.dst a.writes).2.1 = false) ∧ group7.members.head? = some collecting.x.rank ∧
    ∀ r ∈ group7.members, (collecting.x.collInOf 7 3 r).fin = true := ⟨⟨rfl, by decide +kernel⟩, by decide +kernel⟩
/-! #### Matrix operations, tiles and scans -/

theorem solo_fibres (f : Nat) : (solo.fib f).wins = [] := by
  unfold Wave.fib SMap.get
  simp only [solo, SMap.find?]
  split_ifs <;> rfl
theorem handler_fibres (f : Nat) : (handlerWave.fib f).wins = [] := by
  unfold Wave.fib SMap.get
  simp only [handlerWave, SMap.find?]
  split_ifs <;> rfl
/-- TZERO and MMA of all-zero operands. -/
def plain : OwnI := ⟨h7, 0, 14, 20, 4, 3⟩
def bitsTz : Nat := 0x1c4 + 2 ^ 9 * 3 + 2 ^ 16 * 4 + 2 ^ 23 * 20 + 2 ^ 30 * 14
/-- The wave is a member of frieze 2 beside rank 1; who has signed, and what. -/
def teamF (signed : Nat) (g : Option Sig) : Team := { team0 with convs := [(2, { members := 3, signed := signed, seq := 255, sig := g })] }
def friezed (w : Wave) (signed : Nat) (g : Option Sig) : State := machine w (teamF signed g) grid0
def sig0 (words : List Nat) : Sig := ⟨bitsTz, words, [0, 1], 9, [], (0, 0)⟩
theorem test_meets_MatrixInstructions : ((∃ r, alone.x.signChecks issS 0x1c4 plain [0] (team0.arms.find? (8 + 3)) [] = .ok r) ∧
      (∃ c, alone.x.signChecks issS 0x1c0 plain [0] none [0, 0, 0, 0, 0, 0, 0, 1] = .error c) ∧
      (∃ r, (friezed solo 0 none).x.signChecks issS 0x1c4 plain ((List.range 16).filter (bitOf 3)) none [] = .ok r) ∧
      ∃ r, (friezed solo 2 (some (sig0 []))).x.signChecks issS 0x1c4 plain (sig0 []).ranks none [] = .ok r) ∧
    (∀ f, (iss0.w.fib f).wins = []) ∧ (∀ f, (issS.w.fib f).wins = []) ∧ (∀ f, (issH.w.fib f).wins = []) ∧
    (alone.x.issue? = some issS ∧ issS.inHandler = false ∧ issS.w.log = [] ∧ iss0.w.resumed = false ∧ alone.x.determ issS.w = false ∧
      alone.x.teams.find? issS.w.team = some team0 ∧ alone.x.mxRoom (alone.x.coreOf issS.w) = true ∧ team0.friezeOf issS.w.idx = none) ∧
    (∀ p ∈ [(0, none), (2, some (sig0 [])), (0, some (sig0 [4]))], (friezed solo p.1 p.2).x.issue? = some issS ∧
      (friezed solo p.1 p.2).x.teams.find? issS.w.team = some (teamF p.1 p.2) ∧ (teamF p.1 p.2).friezeOf issS.w.idx = some 2 ∧
      bitOf ((teamF p.1 p.2).conv 2).signed issS.w.idx = false) ∧
    (issS.diverged = false ∧ bitSet 0 0 true ≠ ((teamF 0 none).conv 2).members ∧ bitSet 2 0 true = ((teamF 2 (some (sig0 []))).conv 2).members ∧
      (sig0 []).bits = 0x1c4 + 2 ^ 9 * plain.d.toNat + 2 ^ 16 * plain.s1.toNat + 2 ^ 23 * plain.s2.toNat + 2 ^ 30 * plain.s3.toNat + 2 ^ 37 * plain.m.toNat ∧
      (sig0 [4]).words ≠ []) ∧
    (friezed wave0 0 none).x.issue? = some iss0 ∧ iss0.diverged = true ∧
    handling.x.issue? = some issH ∧ issH.inHandler = true ∧ handling.x.teams.find? issH.w.team = some team0 :=
  ⟨⟨⟨_, rfl⟩, ⟨_, rfl⟩, ⟨_, rfl⟩, _, rfl⟩, fun f => (wave0_fibres f).2.1, solo_fibres, handler_fibres, by decide +kernel⟩

def mxOp (major : Nat) (words : List Nat) (begun : Bool) : MxOp :=
  { id := 5, team := 2, wave := 3, core := 0, major := major, m := 0, d := 3, words := words, a := [], specs := (0, 0), det := false, begun := begun
    held := [], sc := 0, bad := false, order := 0, blk := [] }
/-- A state-space block of one step, one channel and one state value at 0x80, and its arrays from 0x100. -/
def block : List Byte := leBytes 4 1 ++ leBytes 4 0x010101 ++ leBytes 4 0x100 ++ leBytes 4 0x110 ++ leBytes 4 0x120 ++ leBytes 4 0x130 ++
  leBytes 4 0x140 ++ leBytes 4 0x150 ++ List.replicate 64 0 ++ leBytes 4 0 ++ leBytes 4 1 ++ leBytes 4 1 ++ leBytes 4 (0x010102 + 0x7f0) ++ List.replicate 16 0
def tile0 : Tile := { bound := true, phys := true, lru := 4 }
def teamX : Team := { team0.store 0x80 block with tiles := [(3, tile0)] }
/-- The machine whose first engine has an operation at its head. -/
def engine (o : MxOp) : State :=
  let s := machine { solo with w := [(8, 0x80), (10, 0x180)] } teamX grid0
  { s with x := { s.x with mxs := [o], cores := [(0, { idle := false }), (7, { waitS := some 9 })] } }
theorem none_to_start (o : MxOp) : NoneToStart (engine o) := by
  intro p hp k
  have h : p = (2, teamX) := by simpa [engine, machine] using hp
  rw [h]
  rfl
theorem test_meets_MatrixWork : (∀ o, NoneToStart (engine o)) ∧ (∀ p ∈ [(0x1c4, []), (0x1c9, []), (0x1c6, [0, 0x200, 0, 0]), (0x1c0, [0, 0, 0, 0, 0, 0, 0, 0]), (0x1cc, [0x80])],
      (engine (mxOp p.1 p.2 false)).x.mxHead 0 = some (mxOp p.1 p.2 false) ∧ ((engine (mxOp p.1 p.2 false)).x.cores.get {} 0).idle = false ∧
      (engine (mxOp p.1 p.2 false)).x.teams.find? 2 = some teamX) ∧ (mxOp 0x1c0 [0, 0, 0, 0, 0, 0, 0, 0] false).held = [] ∧
    (teamX.st = .resident ∧ tile0.imaged = false ∧ teamX.tile 3 = tile0 ∧ tile0.phys = true ∧ tile0.at_ = 0) ∧ bitOf (word [0, 0x200, 0, 0] 0) 4 = false ∧ specBits (mxOp 0x1c0 [] false).specs.1 ≤ 16 ∧
    (ScanBlk.ofBytes (teamX.bytes 0x200 128)).runs 1024 = false ∧
    (let o := { mxOp 0x1cc [0x80] true with blk := block }
     let k := ScanBlk.ofBytes o.blk
     (engine o).x.mxHead 0 = some o ∧ k.lc = 1 ∧ 0 < k.len ∧ k.z = false ∧ 0 < k.p ∧ 0 < k.ss ∧ k.off 4 + 4 * k.p ≤ k.off 5 ∧ 0x80 + 100 ≤ k.off 4 ∧ 0x80 + 100 ≤ k.off 5) ∧
    (engine (mxOp 0x1cc [0x200] false)).x.mxHead 0 = some (mxOp 0x1cc [0x200] false) := ⟨none_to_start, by decide +kernel⟩
def issX : Iss := ⟨3, { solo with w := [(8, 0x80), (10, 0x180)] }, 0x1040, [0, 1, 3]⟩
theorem test_meets_TilesAndEngine : Issues (engine (mxOp 0x1c4 [] false)) issX ∧
    (let s := engine (mxOp 0x1c4 [] false)
     s.x.teamOf issX.w = some teamX ∧ s.x.tileBusy 2 4 = false ∧ (teamX.tile 4).pois = [] ∧ InBudget s issX h7 ((List.range 8).map (2 + ·)) ∧
     (issX.served h7).head? = some 0 ∧ issX.inHandler = false ∧ (s.x.readW 3 8).toNat = 0x80 ∧ (s.x.readW 3 10).toNat = 0x180 ∧
     (ScanBlk.ofBytes (teamX.bytes 0x80 128)).code (s.x.localSize 2) = 0 ∧ (ScanBlk.ofBytes (teamX.bytes 0x180 128)).code (s.x.localSize 2) ≠ 0 ∧
     0x180 + 128 ≤ s.x.localSize 2 ∧ teamX.lpois = [] ∧ (issX.w.handles.get {} 5).ready = true ∧
     (issX.w.handles.get {} 6) = { ready := false, op := 5 } ∧ s.x.mxs.find? (fun o => decide (o.id = 5)) = some (mxOp 0x1c4 [] false) ∧ s.x.nms = [] ∧
     s.x.colls.find? 5 = none ∧ s.x.mxHead 7 = none ∧ (s.x.cores.filter fun p => decide (dieOf p.1 = 0) && p.2.waitS.isSome).map (·.1) = [7] ∧ (s.x.cores.map (·.1)).Nodup ∧
     (mxOp 0x1c4 [] false).held = [] ∧ (mxOp 0x1c4 [] false).begun = false) ∧
    (let s := machine solo teamX grid0
     s.x.physTiles 0 = [(2, 3, tile0)] ∧ s.x.tileBusy 2 3 = false ∧ s.x.cores = [] ∧ teamX.tile 3 = tile0 ∧ s.mem.reqs = [] ∧ tile0.mark = none ∧
     (let u : State := { s with x := { s.x with ctxs := [(1, { ctx0 with imgSize := 3539072 })] } }
      (u.tileAt teamX 3).length = 2 ∧ ((u.tileAt teamX 3).map Loc.sec).Nodup)) ∧
    (let t := { tile0 with mark := some 3 }
     (machine solo { teamX with tiles := [(3, t)] } grid0).x.physTiles 0 = [(2, 3, t)]) :=
  ⟨⟨by decide +kernel, by decide +kernel, by decide +kernel, by decide +kernel⟩, by decide +kernel⟩
/-! #### Caches, waves, rounds and the fabric -/

/-- The machine whose wave waits for the line of code at 0x40000. -/
def fetching : State :=
  let s := memory false
  { s with x := { s.x with waves := [(3, { wave1 with hold := some (.retry rvFetch), holdPc := 0x40000 })] } }
def line1 : L1Sec := { cached0 with dirty := 3 }
def loc5 : Loc := ⟨false, 161 * 32, 0, 3, false, 1, 0x40000, false⟩
def req0 : Req := { id := 40, loc := loc5, mask := 0xf, data := List.replicate 32 9, die := 0, atoll := 0, tok := 4, ctx := 1, pois := none, src := .store }
def rdc0 : RdcSec := { die := 1, loc := loc5, valid := true, drop := false, pois := false, data := List.replicate 32 0, lru := 0 }
/-- The machine with dirty data, a request, an invalidation and its acknowledgement, and a square that may migrate. -/
def caches : State :=
  let s := memory false
  { s with mem := { s.mem with
      l1 := [line1], reqs := [req0], rdc := [rdc0], invals := [⟨1, 161, 4, false⟩, ⟨2, 161, 4, true⟩]
      sqs := [(5, sq0), (6, { sq0 with id := 6, turning := true, tcol := true, twid := 1, holder := sliceOf 6 })]
      tracks := [⟨sliceOf 6, 6, some 20, 9, 0⟩] } }
theorem test_meets_CacheSteps : Uniform (memory false) issM h7 0 ∧
    (let s := memory false
     (s.x.bufRec issM.w 0).refusal false true .code = none ∧ (s.x.readW 3 0).toNat + (s.x.readW 3 8).toNat ≤ (s.x.bufRec issM.w 0).extent ∧
     (s.x.readW 3 8).toNat ≠ 0 ∧ issM.w.log = [] ∧ issM.w.staged = [] ∧ s.mem.iFind 1 0 1 (0x40000 / 128) = none ∧
     (0x40000 + 64 - 1) / 128 = 0x40000 / 128 ∧ (s.readLine 0 1 (0x40000 / 128)).2 = .got (List.replicate 128 0) 0) ∧
    (let s : State := { memory false with mem := { (memory false).mem with icache := [⟨2, 0, 1, 0x40000 / 128, List.replicate 128 7, 0, 0⟩] } }
     s.mem.iFind 1 0 1 (0x40000 / 128) = none ∧ s.mem.iFind 2 (0 / 8) 1 (0x40000 / 128) = some ⟨2, 0, 1, 0x40000 / 128, List.replicate 128 7, 0, 0⟩) ∧
    (∀ p ∈ fetching.x.fetchers 0 1 (0x40000 / 128), fetching.x.wave? p.1 = some p.2 ∧ p.2.passing = none) ∧
    fetching.x.fetchers 0 1 (0x40000 / 128) ≠ [] ∧ (fetching.readLine 0 1 (0x40000 / 128)).2 = .got (List.replicate 128 0) 0 ∧
    caches.mem.l1.filter (fun c => decide (c.core = 0) && decide (c.sec = sector0)) = [line1] ∧ line1.dirty ≠ 0 ∧ (∀ r ∈ caches.mem.reqs, r.sq ≠ 6) ∧
    caches.mem.reqs.find? (fun r => decide (r.sq = 5)) = some req0 ∧ req0.loc.key ≠ 0 ∧ req0.data.length = 32 ∧
    (∀ n ∈ [5, 6], (caches.mem.sqs.find? n).map Sq.turning = some (decide (n = 6))) ∧
    (∀ v ∈ [Inval.mk 1 161 4 false, ⟨2, 161, 4, true⟩], v ∈ caches.mem.invals) ∧ caches.mem.sqs.find? (161 / 32) = some sq0 ∧
    (∀ p ∈ caches.mem.sqs, p.2.id = p.1) ∧
    (let q : Sq := { sq0 with id := 6, holder := sliceOf 6 }
     let s : State := { caches with mem := { caches.mem with sqs := [(6, q)] } }
     (∀ r ∈ s.mem.reqs, r.sq ≠ 6) ∧ s.mem.tracks.find? (fun k => decide (k.slice = sliceOf 6 ∧ k.sq = 6)) = some ⟨sliceOf 6, 6, some 20, 9, 0⟩ ∧ s.nearSlice 20 ≠ sliceOf 6 ∧
      s.mem.cways = [] ∧ (s.mem.sqs.filter fun p => decide (p.2.holder = s.nearSlice 20)).length < 16 ∧ q.turning = false ∧ q.hold = false) ∧
    (let s : State := { caches with mem := { caches.mem with reqs := [], sqs := [(5, sq0)] } }
     sq0.holder ≠ sliceOf 5 ∧ (s.mem.sqs.filter fun p => decide (p.2.holder = sliceOf 5)).length < 16) :=
  ⟨⟨rfl, by decide +kernel⟩, by decide +kernel⟩

def late : Trap := { cause := 8, len := 8, pc := 0x1000, ipc := 0x1000 }
/-- The wave with a trap of fibre 1 that waits; at rest; ripe; and long without an instruction. -/
def waveA : Wave := { solo with fibs := [(0, { st := .ready, pc := 0x1040 }), (1, { st := .ready, pc := 0x1040, async := [late] })] }
def waveR : Wave := { solo with fibs := [(0, { st := .masked, pc := 0x1040, trap := some late })] }
def waveH : Wave := { wave0 with hang := 2 ^ 20 }
def waveFill : Wave := { wave0 with lines := [(3, 5)], imaged := [(5, ([], []))] }
def idle (w : Wave) : State :=
  let s := machine w team0 grid0
  { s with x := { s.x with cur := none } }
theorem waveA_fibres (g : Nat) : ((idle waveA).x.fib 3 g).wins = [] := by
  show (waveA.fib g).wins = []
  unfold Wave.fib SMap.get
  simp only [waveA, SMap.find?]
  split_ifs <;> rfl
theorem test_meets_WavesAndHandlers : (∀ g, ((idle waveA).x.fib 3 g).wins = []) ∧
    ((idle waveFill).x.wave? 3 = some waveFill ∧ (3, waveFill) ∈ (idle waveFill).x.waves ∧ (idle waveFill).x.coreOf waveFill = 0 ∧
      (3, 5) ∈ waveFill.lines ∧ (3, 6) ∉ waveFill.lines ∧ (waveFill.imaged.find? 5).isSome = true ∧ waveFill.imaged.find? 6 = none ∧ (idle waveFill).x.lineElsewhere 0 (3, 5) = [] ∧
      ((idle waveFill).x.regLines 0).length < 2048 ∧ (idle waveFill).mem.reqs = [] ∧ (idle waveFill).mem.rdc = []) ∧
    ((idle waveA).x.waves.flatMap fun p => p.2.asyncNow.map fun q => (p.1, q)) = [(3, 1, late)] ∧ ((idle waveA).x.fib 3 1).async.head? = some late ∧
    waveR.isRipe = true ∧ wave0.isRipe = false ∧ (∀ w ∈ [waveR, wave0], (idle w).x.wave? 3 = some w ∧ (idle w).x.freeHandler ((idle w).x.coreOf w) = some 0) ∧
    (∀ p ∈ (idle waveR).x.waves, (idle waveR).x.eligible p.2 = false) ∧ wave0.hang < 2 ^ 20 ∧
    (idle waveH).x.wave? 3 = some waveH ∧ 2 ^ 20 ≤ waveH.hang ∧
    (idle waveR).x.handlersOn 0 = [] ∧ (idle waveR).x.gather 0 = some (2, 0, false, [(3, 0)]) ∧
    (idle waveR).x.teams.find? 2 = some team0 ∧ (idle waveR).x.gridOf team0 = some grid0 ∧ (idle waveR).x.wave? (idle waveR).x.fresh = none := by
  refine ⟨waveA_fibres, by decide +kernel, by decide +kernel, ?_⟩
  decide +kernel
/-- The waiting wave's core with every line of its budget. -/
def lined : State :=
  let s := idle wave0
  { s with x := { s.x with cores := [(0, { regs := (List.range 64).map fun k => ⟨3, k, 0, none⟩ })] } }
theorem test_meets_WavesAndHandlers_run : lined.x.cur = none ∧ (3, wave0) ∈ lined.x.waves ∧ lined.x.eligible wave0 = true ∧
    lined.x.quadOf wave0 = 4 * 0 + 0 ∧ wave0.resumed = false ∧ (∀ p ∈ lined.x.waves, (lined.x.teamOf p.2).elim 0 Team.prio ≤ 11 ∧
      p.2.stamp < 2 ^ 64 ∧ p = (3, wave0)) ∧ ∀ l ∈ lined.x.linesOf 3 wave0 (List.range 256), lined.x.hasLine 0 l = true := by decide +kernel

/-- A deterministic grid whose wave has closed, or whose count has reached the length; and one that holds a HALT. -/
def gridD (n : Nat) : Grid := { grid0 with lrec := rec_ 2, haltAt := if n = 0 then none else some (0, 0, 0, n) }
def waveQ (closed : Bool) : Wave :=
  { team := 2, idx := 0, role := 0, quad := 0, fibs := solo.fibs, hold := if closed then some .commit else none, closed := closed, qcount := 5000, quanta := 1 }
def quanta (closed : Bool) (n : Nat) : State :=
  let s := machine (waveQ closed) team0 (gridD n)
  { s with x := { s.x with cur := none } }
theorem test_meets_Quanta : (quanta false 0).x.wave? 3 = some (waveQ false) ∧ (quanta false 0).x.teamOf (waveQ false) = some team0 ∧
    (quanta false 0).x.gridOf team0 = some (gridD 0) ∧ (gridD 0).determ = true ∧ (waveQ false).closed = false ∧ (waveQ false).handler = none ∧
    (∀ n ∈ [0, 7], (quanta true n).x.grids.find? 1 = some (gridD n) ∧ (gridD n).st = .running ∧ (quanta true n).x.roundOver 1 (gridD n) = true ∧
      (3, waveQ true) ∈ (quanta true n).x.gridWaves 1) ∧
    (quanta true 0).mem.reqs = [] ∧ (waveQ true).staged = [] ∧ (waveQ true).atGridbar = false ∧ (waveQ true).hold = some .commit ∧
    (waveQ true).passing = none ∧ (∃ p ∈ (waveQ true).fibs, p.2.isReady = true) ∧ (quanta true 0).x.gridWaves 1 ≠ [] := by decide +kernel


/-- A flit on port 0 with a header and bytes, in sequence or not, whole or not. -/
def flit (type dst : Nat) (hdr : BitVec 128) (payload : List Byte) (ok : Bool) : Flit :=
  let f := (⟨0, 0, BitVec.ofNat 8 type, 0, payload.length, 0, dst, 5, hdr, payload, 0, 8⟩ : Flit)
  { f with check := if ok then crc64 f.bytes else ~~~ crc64 f.bytes }
theorem not_whole (f : Flit) : Flit.ok { f with check := ~~~ crc64 f.bytes } = false := by
  refine Bool.eq_false_iff.2 fun h => ?_
  have k := (Flit.ok_check f _).1 h
  generalize crc64 f.bytes = c at k
  have z := congrArg (fun c : BitVec 64 => c.getLsbD 0) k
  simp at z
def bytes24 : List Byte := leBytes 4 5 ++ leBytes 4 2 ++ List.replicate 8 0 ++ List.replicate 8 9
def linkDown : State := { State.reset with x := { (State.reset.x) with ports := [(0, { down := true })] } }
def grouped : State := { State.reset with x := { (State.reset.x) with groups := [(7, group7), (8, ⟨[5, 0], 0, 0⟩)] } }
theorem test_meets_FabricFlits : ((flit 1 5 0 [] false).ok = false ∧ (flit 1 5 0 [] true).ok = true) ∧ (linkDown.x.port (flit 1 5 0 [] true).port).down = true ∧
    (let s := State.reset
     let q := s.x.port 0
     q.down = false ∧ q.replay = [] ∧ s.x.txq = [] ∧ (flit 1 5 0 [] true).seq.toNat = q.rxSeq ∧ (flit 1 5 0 [] true).dst ≠ s.x.rank ∧
      (flit 1 5 0 [] true).type.toNat ∈ [1, 2, 3, 4, 5] ∧ s.x.routes.get 255 5 = 255 ∧ (flit 1 0 0 [] true).dst = s.x.rank ∧ s.x.msgs = [] ∧
      s.x.colls = [] ∧ s.x.collIn = [] ∧ s.x.teams = []) ∧
    (∀ n ∈ [24, 40], (let h : BitVec 128 := BitVec.ofNat 128 (n * 2 ^ 96)
      bitsOf h.toNat 64 32 = 0 ∧ (((flit 1 0 h bytes24 true).payload.take (flit 1 0 h bytes24 true).len).length < bitsOf h.toNat 96 32 ↔ n = 40))) ∧
    bitsOf (7 + 3 * 2 ^ 32 : BitVec 128).toNat 64 64 = 0 ∧
    (let s : State := { State.reset with x := { (State.reset.x) with routes := [(5, 1)], ports := [(0, { rxSeq := 4, replay := [(9, flit 1 5 0 [] true)] })] } }
     s.x.routes.get 255 5 = 1 ∧ s.portUp 1 = true ∧ (s.x.port 1).replay.length < 256 ∧ (flit 1 5 0 [] true).seq.toNat ≠ (s.x.port 0).rxSeq ∧
      ∀ r ∈ (s.x.port 0).replay, s.x.outs.find? r.1 = none) ∧
    ((grouped.x.groups.find? (bitsOf (7 : BitVec 128).toNat 0 32)).elim [] CollGroup.members).head? = some grouped.x.rank ∧
    ((grouped.x.groups.find? (bitsOf (8 : BitVec 128).toNat 0 32)).elim [] CollGroup.members).head? ≠ some grouped.x.rank ∧
    (let g : Grid := { grid0 with lrec := (leBytes 4 0 ++ leBytes 4 0 ++ leBytes 4 0 ++ (rec_ 4).drop 12).take 60 ++ leBytes 4 7 ++ (rec_ 4).drop 64 }
     lane.x.teams.find? 2 = some team0 ∧ team0.st = .resident ∧ bitOf (g.byte 45) 2 = true ∧ g.word 60 4 = 7) :=
  ⟨⟨not_whole _, Flit.sealed_ok _⟩, by decide +kernel⟩
/-! #### Paging, submission and teams -/

def frec : FaultRec :=
  { id := 15, seq := 3, posted := true, granule := 4, write := false, kind := 0, va := 0x40000, core := 0, slot := 0 }
def access (host : Option Nat) : PendAcc :=
  { slot := 1, va := 0x40000, size := 4, kind := 0, sub := 0, d := 2, fmt := 0, args := (0, 0, 0), scope := 1, hint := 0, ord := 0, frec := 15, host := host
    pc := 0x1038, wdst := false, len := 8, look := 0, raw := 0 }
/-- One table of 64 KiB pages, of 256 slots a way, in host memory's place of device memory at 0. -/
def tables : SMap Nat := [(0, 8)]
def ctxF : Ctx := { ctx0 with tables := tables, fqBase := some (2 ^ 63 + 0x8000), fqSize := 16, faults := [frec] }
def waveP (host : Option Nat) : Wave := { solo with hold := some (.fault (if host.isSome then [0] else [15])), pend := [access host] }
def walker : Walker := { id := 50, die := 0, core := 0, ctx := 1, granule := 4, write := false, descs := tables, recs := [15] }
/-- The machine with a pending fault of a load of fibre 1, with walkers and with page entries. -/
def faulting (host : Option Nat) (walks : List Walker) (dev : SMap Byte) : State :=
  let s := machine (waveP host) team0 grid0
  { s with
    mem := { s.mem with walks := walks, dev := dev }
    x := { s.x with ctxs := [(1, ctxF)], hostq := [(60, 3, 0, 0)] } }
/-- The slot that translates granule 4 of context 1, in its first way. -/
def slot4 : Nat := (probeSlots 0 8 1 0x40000).headD 0
def entry4 : SMap Byte := putBytes [] (storageAt 0 slot4) (leBytes 4 4 ++ leBytes 2 0 ++ leBytes 2 1 ++ leBytes 8 page1)
def logged : LogEnt :=
  { va := 0x40004, mask := 0xf0, data := List.replicate 32 9, op := 8, args := [], scope := 1, ord := 0, fibs := [0], pc := 0x1038, kind := 0 }
def waveL : Wave := { wave1 with log := [logged] }
def logging : State := { memory true with x := { (memory true).x with waves := [(3, waveL)] } }
/-- A wave at rest instead of the one that waits. -/
def probing (walks : List Walker) (dev : SMap Byte) : State :=
  let s := faulting none walks dev
  { s with x := { s.x with waves := [(3, solo)] } }
/-- Eight older walkers of the core. -/
def crowd : List Walker := (List.range 8).map fun k => { walker with id := k, granule := 100 + k }
/-- A table that grows from 2^8 to 2^9 slots a way. -/
def growing : Nat := 8 + 9 * 2 ^ 64 + 2 ^ 160
theorem calm_faulting (host : Option Nat) (walks : List Walker) (dev : SMap Byte) : Calm (faulting host walks dev) ∧ Calm (probing walks dev) := by
  have e : ∀ w : Wave, w.log = [] → w.staged = [] → ∀ p ∈ ([(3, w)] : SMap Wave), p.2.log = [] ∧ p.2.staged = [] := by
    intro w h1 h2 p hp
    rw [List.mem_singleton.1 hp]
    exact ⟨h1, h2⟩
  exact ⟨⟨rfl, rfl, rfl, rfl, e _ rfl rfl⟩, ⟨rfl, rfl, rfl, rfl, e _ rfl rfl⟩⟩
theorem logging_reaches : Reaches logging ⟨0, 1, 1⟩ { write := true } 0x40004 (locAt 1) :=
  ⟨by decide +kernel, by decide +kernel, ⟨0, 1, 0, 4, page1, 0⟩, by decide +kernel, by rw [checks]; decide +kernel, fun _ => by decide +kernel, by decide +kernel⟩
theorem test_meets_FaultsAndPaging :
    (let s := faulting none [] []
     s.x.recordOf 1 9 = none ∧ s.x.recordOf 1 3 = some frec ∧ s.x.ctxs.find? 1 = some ctxF ∧ Calm s ∧ s.x.wave? 3 = some (waveP none) ∧
      (waveP none).passing = none ∧ (waveP none).pend = [access none] ∧ (access none).frec = frec.id ∧ (access none).kind = 0 ∧ (waveP none).hold = some (.fault [15]) ∧
      (s.x.fib 3 1).wins = [] ∧ ∀ p ∈ s.x.waves, p.1 = 3) ∧
    (let s := faulting none [walker] []
     s.mem.walks = [walker] ∧ walker.die = dieOf frec.core ∧ walker.ctx = 1 ∧ walker.granule = frec.granule) ∧
    (let s := probing (crowd ++ [walker]) []
     s.mem.walks.find? (fun w => decide (w.id = 50)) = some walker ∧ s.x.ctxs.find? 1 = some ctxF ∧ s.mem.granted walker = false) ∧
    (let s := probing [walker] entry4
     s.mem.granted walker = true ∧ s.probe 1 (65536 * 4) tables = .hit 0 slot4 (4 + 2 ^ 48 + page1 * 2 ^ 64) ∧ Calm s ∧ ∀ p ∈ s.x.waves, p.2.pend = []) ∧
    (let s := probing [walker] []
     s.probe 1 (65536 * 4) tables = .absent ∧ ctxF.tables = walker.descs ∧ walker.recs = [frec.id] ∧
      ctxF.faults.filter (fun q => decide (q.id = frec.id)) = [frec] ∧ (∀ q ∈ ctxF.faults, q.posted = true) ∧
      (ctxF.fqSeq + 2 ^ 32 - ctxF.fqCons) % 2 ^ 32 < ctxF.fqSize) :=
  ⟨⟨by decide +kernel, by decide +kernel, by decide +kernel, (calm_faulting _ _ _).1, by decide +kernel⟩, by decide +kernel, by decide +kernel,
    ⟨by decide +kernel, by decide +kernel, (calm_faulting none _ _).2, by decide +kernel⟩, by decide +kernel⟩
theorem test_meets_FaultsAndPaging_events : logging.x.wave? 3 = some waveL ∧ waveL.log = [logged] ∧ logged.held = none ∧ logged.kind = 0 ∧ logged.scope < 4 ∧
    logging.x.who waveL = ⟨0, 1, 1⟩ ∧ Reaches logging ⟨0, 1, 1⟩ { write := true } 0x40004 (locAt 1) ∧ Cached logging 0 (locAt 1) line0 ∧
    (let s := faulting (some 0x100) [] []
     let a := access (some 0x100)
     s.x.hostq.find? (fun h => decide (h.1 = 60)) = some (60, 3, 0, 0) ∧ s.x.wave? 3 = some (waveP (some 0x100)) ∧ (waveP (some 0x100)).passing = none ∧ (waveP (some 0x100)).pend = [a] ∧
      (waveP (some 0x100)).staged = [] ∧ a.scope < 4 ∧ 0x100 % 32 ≤ 28 ∧ (waveP (some 0x100)).hold = some (.fault [0]) ∧
      (s.x.wave? (s.x.window 3 a.slot).1).isSome = true ∧ s.x.ctxs.find? 1 = some ctxF ∧ ctxF.tables.find? 0 = some 8) ∧
    dResizing growing = true ∧ dMig growing < 5 ∧ 5 ≤ 2 ^ dLog growing ∧ dResizing 8 = false := by
  refine ⟨?_, ?_, ?_, ?_, ?_, ?_, logging_reaches,
    ⟨?_, cached0, ?_, ?_, ?_, ?_⟩, ?_⟩ <;> decide +kernel

/-- A queue whose only entry is b, in host memory. -/
def queueH : Queue := { ceil := 5, size := 16, base := 2 ^ 63 + 0x1000, head := 2 ^ 63 + 0x3000, hidx := 2, tail := 3, bells := [(3, 1)] }
def submit (b : List Byte) : State :=
  let s := machine solo team0 grid0
  { s with
    mem := { s.mem with host := putBytes [] 0x1080 b }
    x := { s.x with ctxs := [(1, { ctx0 with queues := [(0, queueH)] })] } }
def entry (l : List (Nat × Nat)) : List Byte :=
  let b := l.flatMap fun p => leBytes p.1 p.2
  b ++ List.replicate (64 - b.length) 0
def setTable (d : Nat) : List Byte := entry [(8, 2), (8, 0), (8, 0), (8, 0), (32, d)]
/-- A table of 2^8 slots a way, and one too small. -/
def table8 : Nat := 8 + 8 * 2 ^ 64
def table7 : Nat := 7 + 8 * 2 ^ 64
theorem entry_of (b : List Byte) (h : b = (submit b).mem.readPhys (2 ^ 63 + 0x1080) 64) (f : cmdOk b = true) (p : fieldAt b 1 1 = 0) :
    Entry (submit b) 1 0 queueH b := ⟨rfl, rfl, rfl, h, f, p⟩
theorem test_meets_SubmissionAndLaunch_commands : (submit []).x.queue? 1 0 = some queueH ∧ queueH.tail - queueH.hidx + 15 ≤ queueH.size ∧
    queueH.size < queueH.tail - queueH.hidx + 16 ∧ queueH.hidx < queueH.tail ∧
    (∀ b ∈ [setTable table8, setTable table7, entry [(8, 2), (8, 3), (16, 0), (8, 2 ^ 63 + 0x8000), (8, 16), (8, 2 ^ 63 + 0x9000)],
        entry [(8, 3), (8, 0), (8, 0x40000), (8, 65536)], entry [(8, 1), (8, 0x40000)], entry [(8, 4), (8, 1)]],
      b = (submit b).mem.readPhys (2 ^ 63 + 0x1080) 64 ∧ cmdOk b = true ∧ fieldAt b 1 1 = 0) ∧
    descriptorOk (fieldAt (setTable table8) 32 32) = true ∧ descriptorOk (fieldAt (setTable table7) 32 32) = false ∧ ctx0.faults = [] ∧
    (submit []).mem.reqs = [] ∧ (submit []).mem.invals = [] ∧ (submit []).mem.sqs = [] ∧ (submit []).xinvWaits 1 0x40000 65536 = false ∧ (submit []).x.teams.find? 2 = some team0 ∧ team0.st = .resident ∧ grid0.ctx = 1 ∧ grid0.id = 1 := by decide +kernel

/-- A record of 2 by 1 by 1 teams whose table lies at 0x40100, in a page of host memory; one with a wrong team size. -/
def launchRec (waves : Nat) : List Byte :=
  leBytes 8 0x1000 ++ leBytes 8 0 ++ leBytes 4 2 ++ leBytes 4 1 ++ leBytes 4 1 ++ [BitVec.ofNat 8 waves, 4, 1, 0, 64, 64, 64, 0] ++
  leBytes 4 1024 ++ leBytes 4 0 ++ [5, 0, 15, 0] ++ leBytes 4 64 ++ List.replicate 28 0 ++ leBytes 8 0x40100 ++ List.replicate 16 0 ++
  leBytes 8 0x20000 ++ leBytes 8 0x30000 ++ List.replicate 136 0
def pageH : Nat := 0x3f + 6 * 2 ^ 16 + 2 ^ 58 + 2 ^ 59
def launchCmd : Cmd := { op := 1, bytes := entry [(8, 1), (8, 0x40000)], index := 2, order := 1, flagO := false }
def offered (waves : Nat) : State :=
  { State.reset with
    mem := { State.reset.mem with host := putBytes [] 0x60000 (launchRec waves), tlbs := [⟨0, 1, 0, 4, pageH, 0⟩] }
    x := { State.reset.x with ctxs := [(1, { ctx0 with queues := [(0, { queueH with hidx := 3, wait := [launchCmd] })] })], fresh := 10 } }
theorem test_meets_SubmissionAndLaunch : ∀ n ∈ [0, 1],
    (let s := offered n
     s.x.ctxs = [(1, { ctx0 with queues := [(0, { queueH with hidx := 3, wait := [launchCmd] })] })] ∧
      (s.devRead 1 (fieldAt launchCmd.bytes 8 8) 256).2 = some (launchRec n) ∧ (∀ k < 4, fieldAt (launchRec n) (128 + 16 * k) 8 = 0) ∧
      (let kept := (s.devRead 1 0x40000 256).1.modX fun x => x.modQueue 1 0 fun k =>
        { k with wait := k.wait.map fun v => if v.index = launchCmd.index then { v with record := some (some (launchRec n)) } else v }
       let taken := kept.modX fun x => ((x.modCtx 1 fun k => { k with launch := 1 }).modQueue 1 0 fun k =>
        { k with wait := k.wait.filter fun v => !decide (v.index = launchCmd.index) }).post 1 .launchDispatch
       (taken.refusal (launchRec n) 5 = 0 ↔ n = 1) ∧ (taken.devRead 1 (fieldAt (launchRec n) 80 8) 256).2 = some (List.replicate 256 0)) ∧
      fieldAt (launchRec n) 96 4 = 0 ∧ fieldAt (launchRec n) 88 8 % 16 = 0 ∧ fieldAt (launchRec n) 80 8 % 16 = 0 ∧ s.x.teams = [] ∧
      fieldAt (launchRec n) 192 8 = 0 ∧ fieldAt (launchRec n) 208 8 = 0) := by decide +kernel

/-- The machine with these teams of these grids, no wave, and one core. -/
def placing (teams : SMap Team) (grids : SMap Grid) : State :=
  { State.reset with
    trust := { State.reset.trust with coreMap := [(0, 0)], manifest := { Config.manifest with cores := [] } }
    x := { State.reset.x with ctxs := [(1, ctx0)], grids := grids, teams := teams, fresh := 10, ptr := 5 } }
def teamQ : Team := { team0 with st := .queued false }
/-- A record of 128 KiB of local memory at a priority, of a stitched region. -/
def gridL (prio stitch : Nat) : Grid :=
  { grid0 with
    lrec := leBytes 8 0x1000 ++ leBytes 8 1 ++ leBytes 4 1 ++ leBytes 4 1 ++ leBytes 4 1 ++ [1, 4, 1, 0, 64, 64, 64, 0] ++
      leBytes 4 131072 ++ leBytes 4 0 ++ [BitVec.ofNat 8 prio, 0, 1, 0] ++ leBytes 4 64 ++ leBytes 4 7 ++ [BitVec.ofNat 8 stitch, 4, 0, 0] ++
      List.replicate 44 0 ++ leBytes 8 0x20000 ++ leBytes 8 0x30000 ++ List.replicate 88 0 ++ leBytes 8 0x40000 ++ List.replicate 40 0 }
def done1 : State := { memory false with x := (placing [] [(1, { gridL 5 0 with st := .halted 7 })]).x }
theorem done1_reaches : Reaches done1 ⟨0, 1, 0⟩ { write := true } 0x40000 (locAt 0) :=
  ⟨by decide +kernel, by decide +kernel, ⟨0, 1, 0, 4, page1, 0⟩, by decide +kernel, by rw [checks]; decide +kernel, fun _ => by decide +kernel, by decide +kernel⟩
/-- Position 0 alone has a core. -/
theorem placing_core (teams : SMap Team) (grids : SMap Grid) (p : Nat) (h : p ≠ 0) : (placing teams grids).coreAt p = none := by
  have k : ¬ (160 * (p % 4) + p / 4 = 0) := by omega
  have f : (List.range 168).filter (bitOf 0) = [] := by decide +kernel
  have n : SMap.find? (α := Nat) [(0, 0)] (160 * (p % 4) + p / 4) = none := by simp only [SMap.find?, if_neg k]
  have c : (placing teams grids).trust.coreMap = [(0, 0)] := rfl
  have m : ((placing teams grids).trust.manifest.cores.getD (p % 4) 0).toNat = 0 := rfl
  unfold State.coreAt State.physCore
  rw [c, n, m]
  show (((List.range 168).filter (bitOf 0))[p / 4]?).map _ = none
  rw [f]
  rfl
/-- A list made from the core of position 0 alone. -/
theorem placing_all {α : Type} (g : Nat → Option α) (h : ∀ p, p ≠ 0 → g p = none) :
    (((List.range 640).map fun i => (5 + i) % 640).filterMap g) = (g 0).toList := by
  have z : ∀ l : List Nat, l.filterMap g = ((l.filter (decide <| · = 0)).map g).filterMap id := by
    intro l
    induction l with
    | nil => rfl
    | cons p r ih =>
      by_cases e : p = 0
      · subst e; cases hg : g 0 <;> simp [hg, ih]
      · simp [e, h p e, ih]
  have f : (((List.range 640).map fun i => (5 + i) % 640).filter (decide <| · = 0)) = [0] := by decide +kernel
  rw [z, f]
  cases hg : g 0 <;> simp [hg]
/-- The victims that make room for one team on a module of that core alone. -/
theorem core0_victims (s : State) (q : s.x.ptr = 5) (e : s.coreAt 0 = some 0) (h : ∀ p, p ≠ 0 → s.coreAt p = none) (t : Nat) (m : Team) :
    s.victimsFor [(t, m)] = if (s.x.lrecOf m).allows 0 = true then s.victimsNeeded t m 0 else none := by
  have c : s.chooseVictims t m = if (s.x.lrecOf m).allows 0 = true then (s.victimsNeeded t m 0).map fun v => (0, 0, v) else none := by
    have z := placing_all (fun p => (s.coreAt p).bind fun c => if (s.x.lrecOf m).allows c then (s.victimsNeeded t m c).map fun v => (p, c, v) else none)
      (fun p n => by simp only [h p n, Option.bind_none])
    simp only [e, Option.bind_some] at z
    simp only [State.chooseVictims, Exec.positions, q, z]
    split_ifs
    · cases s.victimsNeeded t m 0 <;> rfl
    · rfl
  simp only [State.victimsFor, List.foldl_cons, List.foldl_nil, Option.bind_some, c]
  split_ifs
  · cases s.victimsNeeded t m 0 <;> rfl
  · rfl
/-- A resident team of grid 2 below one that waits, whose priority is higher or the same. -/
def lowTeam : Team := { team0 with grid := 2, core := 0 }
def crowded (p : Nat) : State := placing [(2, lowTeam), (3, teamQ)] [(1, gridL p 0), (2, gridL 5 0)]
theorem crowded_victims : (crowded 9).victimsFor [(3, teamQ)] = some [(2, lowTeam)] := by
  rw [core0_victims (crowded 9) rfl rfl (placing_core _ _)]; decide +kernel
theorem crowded_none : (crowded 5).victimsFor [(3, teamQ)] = none := by
  rw [core0_victims (crowded 5) rfl rfl (placing_core _ _)]; decide +kernel
theorem test_meets_TeamsPlacedAndStopped : Reaches done1 ⟨0, 1, 0⟩ { write := true } 0x40000 (locAt 0) ∧
    (crowded 9).victimsFor [(3, teamQ)] = some [(2, lowTeam)] ∧ (crowded 5).victimsFor [(3, teamQ)] = none ∧
    (let s := placing [(2, teamQ)] [(1, grid0)]
     (s.modX Exec.resetPtr).x.queueHead = some (2, teamQ) ∧ s.x.teams.find? 2 = some teamQ ∧ s.x.gridOf teamQ = some grid0 ∧ teamQ.st = .queued false ∧
      fieldAt grid0.lrec 56 1 = 0 ∧ bitOf (fieldAt grid0.lrec 45 1) 0 = false ∧ (s.modX Exec.resetPtr).findCore 2 teamQ = some (0, 0)) ∧
    (let s := placing [(2, team0)] [(1, grid0), (2, gridL 5 1)]
     (∀ p ∈ s.x.teams, p.2.st = .resident) ∧ s.x.grids.find? 2 = some (gridL 5 1) ∧ fieldAt (gridL 5 1).lrec 56 1 ≠ 0 ∧
      LRec.allows (gridL 5 1).lrec team0.core = true ∧ (s.x.lrecOf team0).stitch.1 ≠ fieldAt (gridL 5 1).lrec 56 1 ∧ s.x.teamFreeable 2 team0 = true ∧
      s.x.queueHead = none) ∧ lane.x.teamFreeable 2 team0 = false ∧ lane.x.gridBusy 1 = true ∧ lane.x.grids.find? 1 = some grid0 ∧
    done1.x.grids.find? 1 = some { gridL 5 0 with st := .halted 7 } ∧ ({ gridL 5 0 with st := .halted 7 } : Grid).st ≠ .done ∧ ({ gridL 5 0 with st := .done } : Grid).st = .done ∧
    ({ team0 with saving := [0] } : Team).saving.head? = some 0 ∧ (gridL 5 1).lrec.length = 256 ∧ fieldAt (gridL 5 1).lrec 57 1 ≤ 21 ∧ done1.x.gridBusy 1 = false ∧ fieldAt (gridL 5 0).lrec 192 8 = 0 ∧
    fieldAt (gridL 5 0).lrec 208 8 = 0x40000 ∧ (locAt 0).pa % 32 = 0 ∧ (locAt 0).key ≠ 0 ∧
    done1.mem.l1 = [] ∧ done1.mem.reqs = [] ∧ done1.mem.unc = [] ∧
    (crowded 9).x.queueHead = some (3, teamQ) ∧ ((crowded 9).x.lrecOf teamQ).cohort = false ∧ (crowded 9).x.teams.find? 2 = some lowTeam ∧
    ((crowded 9).x.lrecOf lowTeam).cohort = false ∧
    (crowded 5).x.queueHead = some (3, teamQ) ∧
    (machine { solo with hold := some (.tags 1 true) } team0 (gridL 5 0)).x.parkClock 2 team0 = true ∧
    (∀ p ∈ (machine { solo with hold := some (.tags 1 true) } team0 (gridL 5 0)).x.waves, p.2.hold ≠ some (.retry rvMatrix) ∧ p.2.hold ≠ some (.retry rvCopy)) ∧ lane.x.parkClock 2 team0 = false := by
  refine ⟨done1_reaches, crowded_victims, crowded_none, ?_, ?_, ?_, ?_⟩ <;> decide +kernel
/-! #### Registers, admin commands, the root of trust, the host -/

/-- A ring whose only unread entry is b, on a module with these contexts and grids. -/
def ring (b : List Byte) (ctxs : SMap Ctx) (grids : SMap Grid) : State :=
  { State.reset with
    trust := { Trust.reset with ring := 0x8000000000001000, ringSize := 16, ringHead := 4, ringTail := 5 }
    mem := { State.reset.mem with host := putBytes (putBytes [] 0x1100 b) 0x5000 [0, 0, 0, 0, 5, 0, 0, 0, 9, 0, 0, 0] }
    x := { State.reset.x with ctxs := ctxs, grids := grids } }
theorem test_meets_ModuleRegisters : State.reset.trust.ringHead = State.reset.trust.ringTail ∧ State.reset.trust.logIdx = State.reset.trust.logCons ∧
    State.reset.trust.status ≠ 3 ∧ (0x8000000000001000 : BitVec 64).toNat / 2 ^ 56 % 128 = 0 ∧ (0x8000000000001000 : BitVec 64).toNat % 64 = 0 ∧
    (∃ k, (64 : BitVec 64).toNat = 2 ^ k ∧ 16 ≤ 2 ^ k ∧ 64 ≤ 2 ^ k ∧ 2 ^ k ≤ 4096) ∧ (ring [] [] []).trust.ringHead ≠ (ring [] [] []).trust.ringTail ∧
    (bootTrust { manifest := Config.manifest, digests := [], fail := some (5, 2, 7) }).status = 3 ∧
    ({ bootTrust { manifest := Config.manifest, digests := [], fail := some (5, 2, 7) } with logBase := 64 } : Trust).failPosted = false ∧
    (ring [] [] []).trust.ring ≠ 0 ∧ (ring [] [] []).trust.ringSize ≠ 0 ∧ (ring [] [] []).trust.status = 1 ∧
    (let t := (ring [] [] []).trust
     t.ringTail - t.ringHead + (20 + 2 ^ 32 - t.ringTail % 2 ^ 32) % 2 ^ 32 ≤ t.ringSize ∧
      t.ringSize < t.ringTail - t.ringHead + (21 + 2 ^ 32 - t.ringTail % 2 ^ 32) % 2 ^ 32 ∧ t.ringHead < t.ringTail) ∧
    lane.x.ctxs.find? 1 = some ctx0 ∧ ctx0.owner = 1 :=
  ⟨by decide +kernel, by decide +kernel, by decide +kernel, by decide +kernel, by decide +kernel, ⟨6, by decide +kernel⟩, by decide +kernel⟩

def deleting : Ctx := { ctx0 with deleting := true, queues := [(0, queueH)] }
def area (op lo : Nat) : List Byte :=
  entry [(8, op), (4, lo), (4, 16), (8, 2 ^ 63 + 0x100000), (8, 2 ^ 63 + 0x200000), (8, if op = 16 then 2 * 65536 else 0), (8, if op = 16 then 65536 else 0)]
theorem test_meets_AdminCommands :
    (∀ b ∈ [area 16 (2 + 2 ^ 16), entry [(8, 17), (8, 2)], entry [(8, 17), (8, 1)], area 18 (1 + 2 ^ 16 + 5 * 2 ^ 24), entry [(8, 19), (8, 1)],
        entry [(8, 20), (4, 4), (4, 3), (8, 2 ^ 63 + 0x5000), (4, 7), (4, 0)], entry [(8, 20), (4, 4), (4, 3), (8, 2 ^ 63 + 0x5000), (4, 7), (4, 1)],
        entry [(8, 21), (4, 6), (4, 0), (4, 3), (4, 0), (8, 2 ^ 63 + 0x5000)], entry [(8, 21), (4, 6), (4, 1)], entry [(8, 22), (4, 3 * 2 ^ 16)]],
      b = (ring b [] []).mem.readPhys (2 ^ 63 + 0x1100) 64 ∧ adminOk b = true ∧ b.length = 64) ∧
    (let s := ring [] [] []
     s.trust.status = 1 ∧ s.trust.ringTail = s.trust.ringHead + 1 ∧ s.trust.ring.toNat + 64 * (s.trust.ringHead % s.trust.ringSize) = 2 ^ 63 + 0x1100 ∧
      s.x.ctxs.find? 2 = none ∧ s.x.queue? 2 0 = none ∧ s.x.overlaps 2 (2 ^ 63 + 0x100000) 1024 = false ∧ s.x.txq = [] ∧ s.x.ports = [] ∧
      s.mem.readPhys (2 ^ 63 + 0x5000) 3 = [0, 0, 0] ∧ s.x.groups = [] ∧
      ((List.range 3).map fun j => fieldAt (s.mem.readPhys (2 ^ 63 + 0x5000) 12) (4 * j) 4) = [0, 5, 9] ∧
      s.trust.manifest.policy.getLsbD 0 = true ∧ s.trust.spareCount < s.trust.manifest.policy.toNat / 256 % 16 ∧ s.trust.spares = [] ∧
      s.trust.manifest.policy.getLsbD 2 = true ∧ s.x.coreHeld (s.unitOf 0 0 3) = false ∧ s.spareUnits 0 0 ≠ []) ∧
    (∀ g ∈ [[], [(1, grid0)]], (ring [] [(1, deleting)] g).x.ctxs.find? 1 = some deleting ∧ deleting.deleting = true ∧
      (ring [] [(1, deleting)] g).x.queue? 1 0 ≠ none ∧ ∀ p ∈ g, p.2.ctx = 1) ∧
    lane.x.coreHeld (State.unitOf lane 0 0 0) = true ∧ lane.trust.corr.get (0, 0) 3 = (0, 0) ∧ corrKey ⟨0, .stack, 3, 1, 0⟩ = 3 ∧
    ({ lane.trust with corr := [(3, 200, 1)] } : Trust).corr.get (0, 0) 3 = (200, 1) ∧ lane.x.tick = 100 := by decide +kernel

/-- Sessions at each stage. -/
def sessions : Trust := { Trust.reset with
    spdm := [(0, {}), (1, { version := true }), (2, { version := true, caps := true }), (3, { version := true, caps := true, algs := true }),
      (4, { version := true, caps := true, algs := true, pending := true }), (5, { version := true, caps := true, algs := true, session := true })]
    tdisp := [(5, .run)] }
def setkey_ (slot status : Nat) : List Byte := leBytes 1 1 ++ leBytes 1 slot ++ leBytes 2 status ++ leBytes 4 0 ++ leBytes 32 1 ++ leBytes 32 2
theorem test_meets_RootOfTrust : (sessions.spdm.get {} 1).version = true ∧ (sessions.spdm.get {} 2).caps = true ∧ (sessions.spdm.get {} 3).algs = true ∧
    (sessions.spdm.get {} 4).pending = true ∧ (sessions.spdm.get {} 5).session = true ∧ sessions.status = 1 ∧ sessions.failStep = 0 ∧
    sessions.digests.length = 5 ∧
    (let t := bootTrust { manifest := Config.manifest, digests := [], fail := some (2, 255, 65535) }
     t.status = 2 ∧ t.failStep ≠ 0 ∧ t.digests = []) ∧
    (let b := setkey_ 3 1
     let s : State := { lane with trust := sessions, x := { lane.x with ctxs := [(1, { ctx0 with owner := 5 })] } }
     b.length = 72 ∧ fieldAt b 0 1 = 1 ∧ fieldAt b 4 4 = 0 ∧ fieldAt b 1 1 = 3 ∧ fieldAt b 2 2 = 1 ∧ fieldAt b 8 32 ≠ fieldAt b 40 32 ∧
      sessions.tdisp.find? 5 = some .run ∧ s.x.ctxs.find? 1 = some { ctx0 with owner := 5 } ∧ s.trust.keys.find? 7 = none ∧ ctx0.owner ≠ 5 ∧
      sessions.tdisp.find? 4 = none ∧ (⟨5, true, b, true⟩ : SpdmReq).vendor = true ∧ (⟨5, true, b, false⟩ : SpdmReq).vendor = false ∧ (memory true).trust.keys.find? 4 ≠ none) := by decide +kernel
theorem test_meets_HostAccess : 0x1000 + 8 ≤ 2 ^ 40 ∧ 0x1000 % 2 ^ 38 + 8 ≤ 0x3000000000 ∧ ¬ (0x3000000000 % 2 ^ 38 + 1 ≤ 0x3000000000) ∧
    lane.x.inImage 0x1000 8 = true ∧ lane.x.inImage 0x10000 8 = false ∧ Trust.reset.tdisp.get .configUnlocked 3 = .configUnlocked ∧ sessions.tdisp.get .configUnlocked 5 = .run ∧
    sessions.status ≠ 2 ∧ (bootTrust { manifest := Config.manifest, digests := [], fail := some (2, 255, 65535) }).status = 2 := by decide +kernel
theorem test_meets_ResetLeaves : manifestValid Config.manifest = true ∧ manifestValid { Config.manifest with part := 0 } = false := by decide +kernel

/-! #### Encodings and the step -/

theorem test_meets_RoundTrip : encode (.nop ⟨h7, 0, 0, 0, 0, 0⟩) = some (0x70003, 8) ∧ (Instr.nop ⟨h7, 0, 0, 0, 0, 0⟩).wellFormed = true ∧
    (0 : BitVec 512).getLsbD (Instr.nop ⟨h7, 0, 0, 0, 0, 0⟩).major = false := by decide +kernel
/-- V2 := V4 − V6 placed as the first instruction after reset, and an agenda with one step that is due. -/
def placed : State := State.reset.withFetchWord 64 0b0_0000_000_0000_0_0_00_0000000_0000110_0000100_0000010_0_111_0000_001000001_0_11
def due : State := { State.reset with x := { State.reset.x with agenda := [(1, .launchDispatch)] } }
theorem test_meets_StepRunsDecoded : ∃ c w l bad i, placed.x.cur = some c ∧ placed.x.wave? c.wave = some w ∧ w.asyncNow = [] ∧ w.groupAt c.pc ≠ [] ∧
    ((placed.modX fun x => { x with tick := x.tick + 1 }).fetchAt c.wave (placed.x.coreOf w) w.quad (placed.x.ctxOf w) c.pc).2 = .bytes l bad ∧
    decode State.reset.trust.manifest.disabled l = .instr i 8 ∧ i.major = 0x41 ∧ c.pc % 4 = 0 ∧ (∀ b ∈ bad.take 8, b = false) ∧
    (placed.x.teamOf w).bind placed.x.gridOf ≠ none ∧ (due.x.cur = none ∧ due.x.waves = [] ∧ due.x.agenda = [(1, .launchDispatch)] ∧ 1 ≤ due.x.tick + 1) :=
  ⟨{ wave := 3, pc := 0, count := 0, fmts := [], len := 0, raw := 0 },
    { team := 2, idx := 0, role := 0, quad := 0, fibs := [(0, { st := .ready, pc := 0 })], stamp := 1 },
    leList 8 0b0_0000_000_0000_0_0_00_0000000_0000110_0000100_0000010_0_111_0000_001000001_0_11, List.replicate 8 false,
    .isub ⟨h7, m0, 0, 6, 4, 2⟩, by decide +kernel⟩
theorem reset_sound : Sound State.reset.trust :=
  ⟨by decide, by decide, by decide, by decide, by decide, .inl rfl, by decide, .inl rfl, by decide, by decide, by decide⟩
theorem test_meets_SoundStep : Sound placed.trust ∧ (match step placed with
    | .next _ => true
    | _ => false) = true := ⟨reset_sound, by decide +kernel⟩
/-- A step of the placed machine runs the instruction: V2 of its one fibre is V4 − V6, and its PC is past it. -/
theorem test_step_runs : (match step { placed with x := { placed.x with waves := placed.x.waves.modify 3 fun w => { w with v := [(512, 9), (768, 4)] } } } with
    | .next t => (t.x.readV 3 0 2, (t.x.fib 3 0).pc)
    | _ => (0, 0)) = (5, 8) := by decide +kernel

end Sys2Proof.Tests
end

section
/-! PROOFS. Host accesses to device memory and the interface of a VF (01 R11, 03 R62, 26 R395, R401, R404). -/

namespace Sys2Proof.Machine

/-! ### Bytes of a sector -/

theorem bitOf_eq_testBit (x i : Nat) : bitOf x i = x.testBit i := by
  simp [bitOf, Nat.testBit_eq_decide_div_mod_eq]

theorem bitOf_maskAt (off n k : Nat) : bitOf (maskAt off n) k = decide (off ≤ k ∧ k < off + n) := by
  rw [bitOf_eq_testBit, maskAt, Nat.testBit_mul_two_pow, Nat.testBit_two_pow_sub_one, Bool.eq_iff_iff]
  simp only [Bool.and_eq_true, decide_eq_true_eq]
  omega

theorem length_placeAt (off : Nat) (b : List Byte) (h : off + b.length ≤ 32) : (placeAt off b).length = 32 := by
  simp only [placeAt, List.length_append, List.length_replicate]
  omega

theorem getD_placeAt (off k : Nat) (b : List Byte) (ho : off ≤ k) (hk : k < off + b.length) :
    (placeAt off b).getD k 0 = b.getD (k - off) 0 := by
  have h : k < (List.replicate off (0 : Byte) ++ b).length := by simpa using hk
  rw [placeAt, List.getD_append _ _ _ _ h, List.getD_append_right _ _ _ _ (by simpa using ho), List.length_replicate]

theorem length_mergeBytes (mask : Nat) (old new : List Byte) :
    (mergeBytes mask old new).length = min old.length new.length := by
  simp [mergeBytes]

theorem getD_mergeBytes (mask k : Nat) (old new : List Byte) (ho : k < old.length) (hn : k < new.length) :
    (mergeBytes mask old new).getD k 0 = if bitOf mask k then new.getD k 0 else old.getD k 0 := by
  simp [mergeBytes, List.getD_eq_getElem?_getD, ho, hn]

/-! ### What the host sees -/

/-- The host sees the bytes as they were written, or the ciphertext of the unit that a key sealed (R401). -/
theorem MemSys.hostView_eq (m : MemSys) (a : Nat) : m.hostView a =
    if m.sealed.get 0 (a / 32) ≤ 1 then m.dev.get 0 a
    else (xtsUnit true (keyBits (m.sealed.get 0 (a / 32))) (32 * (a / 32)) ((List.range 32).map fun i =>
      m.dev.get 0 (32 * (a / 32) + i))).getD (a % 32) 0 := by
  by_cases h : m.sealOf (a / 32) ≤ 1
  · rw [MemSys.hostView, if_pos h]
    exact (if_pos h).symm
  · rw [MemSys.hostView, if_neg h, MemSys.stored, if_neg h]
    exact (if_neg h).symm

/-- What the host sees of a sector depends on its bytes and on how it was written last. -/
theorem MemSys.hostView_congr {m n : MemSys} {a : Nat} (hs : n.sealOf (a / 32) = m.sealOf (a / 32))
    (hd : ∀ b, b / 32 = a / 32 → n.dev.get 0 b = m.dev.get 0 b) : n.hostView a = m.hostView a := by
  have hu : n.unit (a / 32) = m.unit (a / 32) :=
    List.map_congr_left fun k hk => hd _ (by have := List.mem_range.1 hk; omega)
  simp only [MemSys.hostView, MemSys.stored, hs, hu, hd a rfl]

theorem MemSys.hostSector_host (m : MemSys) (sec off : Nat) (b : List Byte) : (m.hostSector sec off b).host = m.host := by
  unfold MemSys.hostSector
  dsimp only
  split <;> rfl

theorem MemSys.hostSector_dev (m : MemSys) (sec off : Nat) (b : List Byte) : (m.hostSector sec off b).dev =
    putBytes m.dev (32 * sec) (mergeBytes (maskAt off b.length)
      ((List.range 32).map fun i => m.hostView (32 * sec + i)) (placeAt off b)) := by
  unfold MemSys.hostSector
  dsimp only
  split <;> rfl

theorem MemSys.hostSector_sealOf (m : MemSys) (sec off a : Nat) (b : List Byte) :
    (m.hostSector sec off b).sealOf a = if a = sec then 1 else m.sealOf a := by
  have h : (m.hostSector sec off b).sealed = m.sealed.put 0 sec 1 := by
    unfold MemSys.hostSector
    dsimp only
    split <;> rfl
  rw [MemSys.sealOf, h, SMap.get_put]
  rfl

/-- A host write of one sector is seen there as written, and nowhere else (R401). -/
theorem MemSys.hostView_hostSector (m : MemSys) (sec off a : Nat) (b : List Byte) (hb : off + b.length ≤ 32) :
    (m.hostSector sec off b).hostView a =
      if 32 * sec + off ≤ a ∧ a < 32 * sec + off + b.length then b.getD (a - (32 * sec + off)) 0 else m.hostView a := by
  have hl : (mergeBytes (maskAt off b.length) ((List.range 32).map fun i => m.hostView (32 * sec + i))
      (placeAt off b)).length = 32 := by
    simp [length_mergeBytes, length_placeAt off b hb]
  by_cases hs : a / 32 = sec
  · have hk : a - 32 * sec < 32 := by omega
    rw [MemSys.hostView, hostSector_sealOf, if_pos hs, if_pos (Nat.le_refl 1), hostSector_dev, get_putBytes, hl,
      if_pos (by omega), getD_mergeBytes _ _ _ _ (by simpa using hk) (by rw [length_placeAt off b hb]; exact hk), bitOf_maskAt]
    by_cases hin : off ≤ a - 32 * sec ∧ a - 32 * sec < off + b.length
    · rw [if_pos (decide_eq_true hin), if_pos (by omega), getD_placeAt _ _ _ hin.1 hin.2, Nat.sub_sub]
    · rw [if_neg (by simpa using hin), if_neg (by omega)]
      have e : 32 * sec + (a - 32 * sec) = a := by omega
      simp [List.getD_eq_getElem?_getD, hk, e]
  · rw [if_neg (by omega)]
    apply MemSys.hostView_congr
    · rw [hostSector_sealOf, if_neg hs]
    · intro c hc
      rw [hostSector_dev, get_putBytes, hl, if_neg (by omega)]

/-- The part of a host write that falls into one sector. -/
def MemSys.hostPart (m : MemSys) (sa : Nat) (b : List Byte) (sec : Nat) : MemSys :=
  let lo := max sa (32 * sec)
  let hi := min (sa + b.length) (32 * sec + 32)
  m.hostSector sec (lo - 32 * sec) ((b.drop (lo - sa)).take (hi - lo))

theorem MemSys.hostWrite_eq (m : MemSys) (sa : Nat) (b : List Byte) : m.hostWrite sa b =
    ((List.range ((sa + b.length + 31) / 32 - sa / 32)).map (sa / 32 + ·)).foldl (fun m sec => m.hostPart sa b sec) m := rfl

theorem MemSys.hostView_hostPart (m : MemSys) (sa a sec : Nat) (b : List Byte) (hs : sa / 32 ≤ sec)
    (he : sec < (sa + b.length + 31) / 32) : (m.hostPart sa b sec).hostView a =
      if a / 32 = sec ∧ sa ≤ a ∧ a < sa + b.length then b.getD (a - sa) 0 else m.hostView a := by
  have hlen : ((b.drop (max sa (32 * sec) - sa)).take (min (sa + b.length) (32 * sec + 32) - max sa (32 * sec))).length =
      min (sa + b.length) (32 * sec + 32) - max sa (32 * sec) := by
    rw [List.length_take, List.length_drop]
    omega
  rw [MemSys.hostPart, hostView_hostSector _ _ _ _ _ (by rw [hlen]; omega), hlen]
  by_cases h : a / 32 = sec ∧ sa ≤ a ∧ a < sa + b.length
  · rw [if_pos h, if_pos (by omega)]
    have e1 : a - (32 * sec + (max sa (32 * sec) - 32 * sec)) < min (sa + b.length) (32 * sec + 32) - max sa (32 * sec) := by omega
    have e2 : max sa (32 * sec) - sa + (a - (32 * sec + (max sa (32 * sec) - 32 * sec))) = a - sa := by omega
    simp only [List.getD_eq_getElem?_getD, List.getElem?_take_of_lt e1, List.getElem?_drop, e2]
  · rw [if_neg h, if_neg (by omega)]

theorem MemSys.hostView_hostParts (sa a : Nat) (b : List Byte) (l : List Nat) (m : MemSys)
    (hl : ∀ sec ∈ l, sa / 32 ≤ sec ∧ sec < (sa + b.length + 31) / 32) :
    (l.foldl (fun m sec => m.hostPart sa b sec) m).hostView a =
      if a / 32 ∈ l ∧ sa ≤ a ∧ a < sa + b.length then b.getD (a - sa) 0 else m.hostView a := by
  induction l generalizing m with
  | nil => simp
  | cons sec r ih =>
    obtain ⟨hs, he⟩ := hl sec (List.mem_cons_self ..)
    rw [List.foldl_cons, ih _ fun k hk => hl k (List.mem_cons_of_mem _ hk), hostView_hostPart _ _ _ _ _ hs he]
    by_cases hr : a / 32 ∈ r ∧ sa ≤ a ∧ a < sa + b.length
    · rw [if_pos hr, if_pos ⟨List.mem_cons_of_mem _ hr.1, hr.2⟩]
    · rw [if_neg hr]
      by_cases hc : a / 32 = sec ∧ sa ≤ a ∧ a < sa + b.length
      · rw [if_pos hc, if_pos ⟨hc.1 ▸ List.mem_cons_self .., hc.2⟩]
      · rw [if_neg hc, if_neg]
        rintro ⟨hm, hin⟩
        rcases List.mem_cons.1 hm with h | h
        · exact hc ⟨h, hin⟩
        · exact hr ⟨h, hin⟩

/-- A host write is seen as written, and nowhere else (R401). -/
theorem MemSys.hostView_hostWrite (m : MemSys) (sa a : Nat) (b : List Byte) : (m.hostWrite sa b).hostView a =
    if sa ≤ a ∧ a < sa + b.length then b.getD (a - sa) 0 else m.hostView a := by
  have hmem : ∀ sec, sec ∈ (List.range ((sa + b.length + 31) / 32 - sa / 32)).map (sa / 32 + ·) ↔
      sa / 32 ≤ sec ∧ sec < (sa + b.length + 31) / 32 := by
    intro sec
    simp only [List.mem_map, List.mem_range]
    exact ⟨fun ⟨k, hk, e⟩ => by omega, fun h => ⟨sec - sa / 32, by omega, by omega⟩⟩
  rw [hostWrite_eq, hostView_hostParts _ _ _ _ _ fun sec h => (hmem sec).1 h]
  simp only [hmem]
  by_cases h : sa ≤ a ∧ a < sa + b.length
  · rw [if_pos ⟨by omega, h⟩, if_pos h]
  · rw [if_neg fun k => h k.2, if_neg h]

theorem MemSys.hostWrite_host (m : MemSys) (sa : Nat) (b : List Byte) : (m.hostWrite sa b).host = m.host := by
  rw [hostWrite_eq]
  generalize (List.range ((sa + b.length + 31) / 32 - sa / 32)).map (sa / 32 + ·) = l
  induction l generalizing m with
  | nil => rfl
  | cons sec r ih => exact (ih _).trans (m.hostSector_host ..)

/-! ### Host accesses -/

theorem exec_hostAccess (a : HostAccess) (s : State) :
    exec (.hostAccessToDeviceMemory a) s = execHostAccessToDeviceMemory a s := rfl
theorem exec_tdispInterfaceRequest (fn : Nat) (b : TdispState) (s : State) :
    exec (.tdispInterfaceRequest fn b) s = execTdispInterfaceRequest fn b s := rfl

theorem stored_iff (pa n : Nat) : stored pa n = true ↔ pa + n ≤ 2 ^ 40 ∧ pa % 2 ^ 38 + n ≤ 0x3000000000 := by
  simp only [stored, Bool.and_eq_true, decide_eq_true_eq]
  exact Iff.rfl

/-- A device physical address is its own storage address: the home of a host access is the die of its window. -/
theorem storageAt_self (pa : Nat) (h : pa < 2 ^ 40) : storageAt (pa / 2 ^ 38 % 4) pa = pa := by
  unfold storageAt
  omega

theorem execHostAccess_unstored (a : HostAccess) (s : State) (h : stored a.pa (if a.write then a.bytes.length else a.count) ≠ true) :
    execHostAccessToDeviceMemory a s = .fault (.noStorage a.pa) := by
  simp [execHostAccessToDeviceMemory, h]

theorem execHostRead (s : State) (pa n : Nat) (b : List Byte) (h : stored pa n = true) (hi : s.x.inImage pa n = false) :
    execHostAccessToDeviceMemory ⟨false, pa, b, n⟩ s =
      .next { s with trust := { s.trust with hostRead := (List.range n).map fun j => s.mem.hostView (pa + j) } } := by
  have e : ((List.range n).map fun j => s.mem.hostView (storageAt (pa / 2 ^ 38 % 4) pa + j)) =
      (List.range n).map fun j => s.mem.hostView (pa + j) :=
    List.map_congr_left fun j hj => by
      rw [storageAt_self pa (by have := ((stored_iff pa n).1 h).1; have := List.mem_range.1 hj; omega)]
  simp only [execHostAccessToDeviceMemory, Bool.false_eq_true, if_false, h, hi, Bool.not_true, e]
  rfl

theorem execHostWrite (s : State) (pa n : Nat) (b : List Byte) (h : stored pa b.length = true) (hi : s.x.inImage pa b.length = false) :
    execHostAccessToDeviceMemory ⟨true, pa, b, n⟩ s =
      .next { s with mem := s.mem.hostWrite (storageAt (pa / 2 ^ 38 % 4) pa) b } := by
  simp only [execHostAccessToDeviceMemory, if_true, h, hi, Bool.not_true, Bool.false_eq_true, if_false]
  rfl

theorem execHostRead_image (s : State) (pa n : Nat) (b : List Byte) (h : stored pa n = true) (hi : s.x.inImage pa n = true) :
    execHostAccessToDeviceMemory ⟨false, pa, b, n⟩ s = .next { s with
      trust := { s.trust with hostRead := (List.range n).map fun i => Config.freeByte (2 ^ 40 * (s.x.free + 1) + i) }
      x := { s.x with free := s.x.free + 1 } } := by
  simp only [execHostAccessToDeviceMemory, if_true, h, hi, Bool.not_true, Bool.false_eq_true, if_false]
  rfl

theorem execHostWrite_image (s : State) (pa n : Nat) (b : List Byte) (h : stored pa b.length = true)
    (hi : s.x.inImage pa b.length = true) : execHostAccessToDeviceMemory ⟨true, pa, b, n⟩ s = .next s := by
  simp only [execHostAccessToDeviceMemory, if_true, h, hi, Bool.not_true, Bool.false_eq_true, if_false]

/-- A host write is seen by its device physical address. An empty one, which may lie past every window, is seen nowhere. -/
theorem hostView_execHostWrite (m : MemSys) (pa a : Nat) (b : List Byte) (h : stored pa b.length = true) :
    (m.hostWrite (storageAt (pa / 2 ^ 38 % 4) pa) b).hostView a =
      if pa ≤ a ∧ a < pa + b.length then b.getD (a - pa) 0 else m.hostView a := by
  rw [MemSys.hostView_hostWrite]
  by_cases hb : b.length = 0
  · rw [if_neg (by omega), if_neg (by omega)]
  · rw [storageAt_self pa (by have := ((stored_iff pa b.length).1 h).1; omega)]

/-! ### The device interface of a VF -/

theorem tdispMay_iff (a b : TdispState) : tdispMay a b = true ↔
    b = .configUnlocked ∨ (a = .configUnlocked ∧ b = .configLocked) ∨ (a = .configLocked ∧ (b = .run ∨ b = .error)) ∨
      (a = .run ∧ b = .error) := by
  cases a <;> cases b <;> decide

theorem execTdisp_eq (fn : Nat) (b : TdispState) (s : State) : execTdispInterfaceRequest fn b s =
    if s.trust.status ≠ 2 ∧ 1 ≤ fn ∧ fn ≤ 63 ∧ tdispMay (s.trust.tdisp.get .configUnlocked fn) b = true then
      .next { s with trust := { s.trust with tdisp := s.trust.tdisp.put .configUnlocked fn b } } else .next s := by
  simp only [execTdispInterfaceRequest, State.onT]
  split <;> rfl

theorem execVfRequestDropped_eq (fn : Nat) (s : State) : execVfRequestDropped fn s =
    if s.trust.tdisp.find? fn = some .run then .next { s with x := s.x.err { type := 9, detail := fn } } else .next s := by
  simp only [execVfRequestDropped, State.onX]
  split <;> rfl

end Sys2Proof.Machine

namespace Sys2Proof.Proofs
open Sys2Proof.Machine Sys2Proof.Claim

/-- Settles O54: host accesses by what the host sees of a sector, the interface of a VF by its transition table. -/
theorem hostAccess : Obligations.HostAccess := by
  unfold Obligations.HostAccess
  simp only [exec_hostAccess, exec_tdispInterfaceRequest]
  refine ⟨fun s pa n b => ⟨fun hn hi => ?_, fun hb hi => ?_, fun hn hi => ?_, fun hb hi => ?_, fun hn => ?_, fun hb => ?_⟩,
    fun s fn a b ha h1 h63 => ⟨fun h2 => ?_, fun h2 hm => ?_, fun hm => ?_⟩, fun s fn => ⟨fun hr => ?_, fun hr => ?_⟩⟩
  · simp only [← MemSys.hostView_eq]
    exact execHostRead s pa n b ((stored_iff pa n).2 hn) hi
  · have hs := (stored_iff pa b.length).2 hb
    refine ⟨_, execHostWrite s pa n b hs hi, rfl, rfl, s.mem.hostWrite_host _ b, fun j hj => ?_, fun a ha => ?_⟩
    · rw [hostView_execHostWrite _ _ _ _ hs, if_pos (by omega), Nat.add_sub_cancel_left]
      simp [hj]
    · rw [hostView_execHostWrite _ _ _ _ hs, if_neg (by omega)]
  · exact ⟨_, by simp, execHostRead_image s pa n b ((stored_iff pa n).2 hn) hi⟩
  · exact execHostWrite_image s pa n b ((stored_iff pa b.length).2 hb) hi
  · exact execHostAccess_unstored ⟨false, pa, b, n⟩ s fun h => hn ((stored_iff pa n).1 h)
  · exact execHostAccess_unstored ⟨true, pa, b, n⟩ s fun h => hb ((stored_iff pa b.length).1 h)
  · exact (execTdisp_eq fn b s).trans (if_neg fun h => h.1 h2)
  · exact (execTdisp_eq fn b s).trans (if_pos ⟨h2, h1, h63, by rw [ha]; exact (tdispMay_iff a b).2 hm⟩)
  · exact (execTdisp_eq fn b s).trans (if_neg fun h => hm ((tdispMay_iff a b).1 (by rw [← ha]; exact h.2.2.2)))
  · exact ⟨_, (execVfRequestDropped_eq fn s).trans (if_pos hr), rfl, rfl, rfl⟩
  · exact (execVfRequestDropped_eq fn s).trans (if_neg hr)

end Sys2Proof.Proofs
end

section
/-! PROOFS. Local memory: what a fibre's access reads, and local loads (01 R24, 14 R274, R275). -/

namespace Sys2Proof.Machine

/-! ### Numbers and bytes -/

theorem leNat_drop (b : List Byte) (k : Nat) : leNat (b.drop k) = leNat b / 256 ^ k := by
  induction b generalizing k with
  | nil => simp [leNat]
  | cons x r ih =>
    cases k with
    | zero => simp
    | succ k =>
      have hx := x.isLt
      rw [List.drop_succ_cons, ih, leNat, Nat.pow_succ', ← Nat.div_div_eq_div_mul]
      congr 1
      omega

theorem leNat_take (b : List Byte) (k : Nat) : leNat (b.take k) = leNat b % 256 ^ k := by
  induction b generalizing k with
  | nil => simp [leNat]
  | cons x r ih =>
    cases k with
    | zero => simp [leNat, Nat.mod_one]
    | succ k =>
      have hx := x.isLt
      rw [List.take_succ_cons, leNat, leNat, ih, Nat.pow_succ', Nat.mod_mul]
      have h1 : (x.toNat + 256 * leNat r) % 256 = x.toNat := by omega
      have h2 : (x.toNat + 256 * leNat r) / 256 = leNat r := by omega
      rw [h1, h2]

theorem leNat_append (b c : List Byte) : leNat (b ++ c) = leNat b + 256 ^ b.length * leNat c := by
  induction b with
  | nil => simp [leNat]
  | cons x r ih =>
    rw [List.cons_append, leNat, ih, leNat, List.length_cons, Nat.pow_succ', Nat.mul_add, Nat.mul_assoc, Nat.add_assoc]

theorem leNat_map_range (g : Nat → Byte) (n : Nat) :
    leNat ((List.range n).map g) = ((List.range n).map fun k => (g k).toNat * 256 ^ k).sum := by
  induction n with
  | zero => rfl
  | succ n ih => simp [List.range_succ, leNat_append, ih, leNat, Nat.mul_comm]

/-- The bytes of a span of a team's allocation, as the number that they hold. -/
theorem leNat_bytes (m : Team) (o n : Nat) : leNat (m.bytes o n) = Claim.number (m.mem.get 0) o n :=
  leNat_map_range (fun k => m.mem.get 0 (o + k)) n

/-! ### Results of loads -/

theorem ofNat_bytesWord (b : List Byte) (j : Nat) :
    BitVec.ofNat 32 (leNat ((b.drop (4 * j)).take 4)) = BitVec.ofNat 32 (leNat b / 2 ^ (32 * j)) := by
  have e : 256 ^ (4 * j) = 2 ^ (32 * j) := by rw [show (256 : Nat) = 2 ^ 8 from rfl, ← Nat.pow_mul]; congr 1; omega
  apply BitVec.eq_of_toNat_eq
  simp only [leNat_take, leNat_drop, e, BitVec.toNat_ofNat, Nat.reducePow, Nat.mod_mod]

/-- Numbers 0 to n − 1 paired with their places are themselves twice. -/
theorem zipIdx_map_range {α : Type} (g : Nat → α) (n : Nat) :
    ((List.range n).map g).zipIdx = (List.range n).map fun j => (g j, j) := by
  apply List.ext_getElem <;> simp

/-- An access writes what its bytes hold: words, or its elements in FP32 (R274, R275). -/
theorem PendAcc.result_eq_loaded (a : PendAcc) (b : List Byte) : a.result b = Claim.loaded a.d a.fmt a.size (leNat b) := by
  unfold PendAcc.result Claim.loaded Claim.dataWords
  by_cases h : a.fmt = 0
  · simp only [h, if_true, bytesWords, zipIdx_map_range, List.map_map, Function.comp_def, ofNat_bytesWord]
  · simp only [h, if_false, narrowLoad, zipIdx_map_range, List.map_map, Function.comp_def]

/-! ### The address of a local access (R24) -/

theorem localAddr_eq (size : Nat) (w : MemI) (a : Nat → Word) (f : Nat) :
    localAddr size w.imm.toInt (memSize w) (a f).toNat = localOffset size (Claim.localAt w a f) (memSize w) := rfl

theorem localOffset_ok {size s : Nat} {o : Int} (h0 : 0 ≤ o) (h1 : o + s ≤ size) (h2 : (s : Int) ∣ o) :
    localOffset size o s = .ok o.toNat := by
  rw [localOffset, if_neg (by omega), if_neg (by simpa using Int.emod_eq_zero_of_dvd h2)]

theorem localOffset_oob {size s : Nat} {o : Int} (h : o < 0 ∨ (size : Int) < o + s) : localOffset size o s = .oob := by
  rw [localOffset, if_pos h]

/-! ### Poison in local memory -/

theorem poisonHit_eq_false (l : List Nat) (o n : Nat) :
    poisonHit l o n = false ↔ ∀ k ∈ l, o + n ≤ 32 * k ∨ 32 * k + 32 ≤ o := by
  simp only [poisonHit, List.any_eq_false, Bool.and_eq_true, decide_eq_true_eq]
  constructor <;> intro h k hk <;> have := h k hk <;> omega

/-- A span without sectors that prove uncorrectable detects nothing. -/
theorem Exec.detectLocal_eq_self {x : Exec} {t o n : Nat} {m : Team} (hm : x.teams.find? t = some m)
    (h : poisonHit m.lunc o n = false) : x.detectLocal t o n = x := by
  have hf : m.lunc.filter (fun k => poisonHit [k] o n) = [] := by
    refine List.filter_eq_nil_iff.2 fun k hk => ?_
    rw [(poisonHit_eq_false [k] o n).2 fun j hj => (poisonHit_eq_false ..).1 h j (by rwa [List.mem_singleton.1 hj])]
    exact Bool.false_ne_true
  simp [Exec.detectLocal, hm, hf]

/-- What the hypothesis of a local access says of one fibre: its offset is good, and its bytes are sound. -/
theorem localOk_fibre {s : State} {i : Iss} {h : Hd} {w : MemI} {a : Nat → Word} {m : Team} (hok : Claim.LocalOk s i h w a m)
    {f : Nat} (hf : f ∈ i.served h) :
    localOffset (s.x.localSize i.w.team) (Claim.localAt w a f) (memSize w) = .ok (Claim.localAt w a f).toNat ∧
    poisonHit (m.lpois ++ m.lunc) (Claim.localAt w a f).toNat (memSize w) = false := by
  obtain ⟨h0, hsize, halign, hclean⟩ := hok f hf
  have hs : ((memSize w : Nat) : Int) = 2 ^ w.m.size.toNat := by simp [memSize]
  exact ⟨localOffset_ok h0 (by rw [hs]; exact hsize) (by rw [hs]; exact halign), (poisonHit_eq_false ..).2 hclean⟩

/-- A span that meets none of a list of sectors meets none of fewer. -/
theorem poisonHit_subset {l k : List Nat} {o n : Nat} (hk : k ⊆ l) (h : poisonHit l o n = false) : poisonHit k o n = false :=
  (poisonHit_eq_false ..).2 fun j hj => (poisonHit_eq_false ..).1 h j (hk hj)

/-! ### One fibre's local access -/

/-- An access within the allocation that meets no poison makes its store, then its result. -/
theorem Exec.localAcc_ok {x : Exec} {i : Iss} {m : Team} (la len f : Nat) (oobt : Bool) (zeros : List (Nat × Word)) {o n : Nat}
    {reads : Bool} (eff : List Byte → Res × Option (List Byte)) (hm : x.teams.find? i.w.team = some m)
    (hp : reads = true → poisonHit (m.lpois ++ m.lunc) o n = false) :
    x.localAcc i la len f oobt zeros (.ok o) n reads eff =
      ((eff (m.bytes o n)).2.elim x fun b => x.modTeam i.w.team fun m => m.store o b).applyRes i la len f (eff (m.bytes o n)).1 := by
  cases reads with
  | false =>
    simp only [Exec.localAcc, hm, Bool.false_and, Bool.false_eq_true, if_false]
    cases (eff (m.bytes o n)).2 <;> rfl
  | true =>
    have hall := (poisonHit_eq_false ..).1 (hp rfl)
    have hl : poisonHit m.lpois o n = false := (poisonHit_eq_false ..).2 fun k hk => hall k (List.mem_append_left _ hk)
    have hu : poisonHit m.lunc o n = false := (poisonHit_eq_false ..).2 fun k hk => hall k (List.mem_append_right _ hk)
    simp only [Exec.localAcc, if_true, Exec.detectLocal_eq_self hm hu, hm, hl, Bool.and_false, Bool.false_eq_true, if_false]
    cases (eff (m.bytes o n)).2 <;> rfl

/-- An access outside the allocation writes zero and raises OOB (R21). -/
theorem Exec.localAcc_oob (x : Exec) (i : Iss) (la len f : Nat) (zeros : List (Nat × Word)) (n : Nat) (reads : Bool)
    (eff : List Byte → Res × Option (List Byte)) :
    x.localAcc i la len f false zeros .oob n reads eff = x.applyRes i la len f { v := zeros, oob := true } := rfl

/-! ### What a result leaves of teams and grids -/

theorem Exec.teams_place (x : Exec) (u f la : Nat) (l : List (Nat × Word)) : (x.place u f la l).teams = x.teams := by
  have h := congrArg Exec.teams (x.rest_place u f la l)
  exact h
theorem Exec.grids_place (x : Exec) (u f la : Nat) (l : List (Nat × Word)) : (x.place u f la l).grids = x.grids := by
  have h := congrArg Exec.grids (x.rest_place u f la l)
  exact h
theorem Exec.teams_addDraws (x : Exec) (u f n : Nat) : (x.addDraws u f n).teams = x.teams := by
  have h := congrArg Exec.teams (x.rest_addDraws u f n)
  exact h
theorem Exec.grids_addDraws (x : Exec) (u f n : Nat) : (x.addDraws u f n).grids = x.grids := by
  have h := congrArg Exec.grids (x.rest_addDraws u f n)
  exact h
theorem Exec.grids_setStatusIf (x : Exec) (c : Bool) (t bit : Nat) : (x.setStatusIf c t bit).grids = x.grids := by
  cases c <;> rfl

theorem Exec.teams_applyRes (x : Exec) (i : Iss) (la len f : Nat) (r : Res) (ht : r.trap = none) (k : Nat) :
    (x.applyRes i la len f r).teams.find? k = (x.teams.find? k).map fun m =>
      if k = i.w.team then { m with status := m.status ||| r.raised } else m := by
  rw [x.applyRes_stages i la len f r ht]
  simp only [Exec.teams_setStatusIf, Exec.teams_addDraws, Exec.modFib, Exec.modWave_teams, Exec.teams_place]
  cases x.teams.find? k with
  | none => rfl
  | some m => by_cases e : k = i.w.team <;> simp [e, Res.raised, BitVec.or_assoc, stOOB]

theorem Exec.grids_applyRes (x : Exec) (i : Iss) (la len f : Nat) (r : Res) (ht : r.trap = none) :
    (x.applyRes i la len f r).grids = x.grids := by
  rw [x.applyRes_stages i la len f r ht]
  simp only [Exec.grids_setStatusIf, Exec.grids_addDraws, Exec.modFib, Exec.modWave_grids, Exec.grids_place]

/-! ### The local memory that the fibres of a group find -/

/-- A team's allocation while the fibres of a group access it: `bytes` is what it holds, and no sector of it has become poisoned
or uncorrectable. -/
structure LocalMem (x y : Exec) (t : Nat) (m : Team) (bytes : Nat → Byte) : Prop where
  grids : y.grids = x.grids
  team  : ∃ n : Team, y.teams.find? t = some n ∧ n.grid = m.grid ∧ n.mem.get 0 = bytes ∧
    n.lpois ++ n.lunc ⊆ m.lpois ++ m.lunc

theorem LocalMem.start {x : Exec} {t : Nat} {m : Team} (hm : x.teams.find? t = some m) : LocalMem x x t m (m.mem.get 0) :=
  ⟨rfl, m, hm, rfl, rfl, List.Subset.refl _⟩

theorem LocalMem.localSize {x y : Exec} {t : Nat} {m : Team} {bytes : Nat → Byte} (h : LocalMem x y t m bytes)
    (hm : x.teams.find? t = some m) : y.localSize t = x.localSize t := by
  obtain ⟨hg, n, hn, hng, -⟩ := h
  simp only [Exec.localSize, hm, hn, Exec.gridOf, hng, hg]

theorem LocalMem.applyRes {x y : Exec} {i : Iss} {m : Team} {bytes : Nat → Byte} (h : LocalMem x y i.w.team m bytes)
    (la len f : Nat) (r : Res) (ht : r.trap = none) : LocalMem x (y.applyRes i la len f r) i.w.team m bytes := by
  obtain ⟨hg, n, hn, hrest⟩ := h
  refine ⟨(y.grids_applyRes i la len f r ht).trans hg, { n with status := n.status ||| r.raised }, ?_, hrest⟩
  rw [y.teams_applyRes i la len f r ht, hn]
  simp

/-! ### The driver of local instructions -/

/-- A local instruction whose registers can be read acts for its fibres in increasing order (R55, R117). -/
theorem Exec.perLocal_eq {x : Exec} {i : Iss} (len : Nat) (h : Hd) (stores : Bool) (ord : Nat) (named srcs : List Nat) (s1 : Nat)
    (g : Iss → Nat → Nat → List Nat → Exec → Exec) {a : Nat → Word} {l : Nat → List Nat} (hi : x.issue? = some i)
    (ho : i.w.log = [] ∨ ord < 2) (hb : ∀ f ∈ i.served h, x.pastBudget i f named = false)
    (ha : ∀ f ∈ i.served h, x.ownRead i f s1 = some (a f))
    (hl : ∀ f ∈ i.served h, (srcs.mapM fun k => (x.ownRead i f k).map BitVec.toNat) = some (l f)) :
    x.perLocal len h stores ord named srcs s1 g =
      (if stores then ((i.served h).foldl (fun y f => g i f (a f).toNat (l f) y) x).wakeTeam i.w.team
        else (i.served h).foldl (fun y f => g i f (a f).toNat (l f) y) x).advance i len := by
  have hlog : (decide (2 ≤ ord) && !i.w.log.isEmpty) = false := by
    rcases ho with h | h
    · simp [h]
    · simp [show ¬ 2 ≤ ord by omega]
  simp only [Exec.perLocal, hi, hlog, Bool.false_eq_true, if_false, List.foldl_map]
  rw [List.foldl_ext _ _ _ fun y f hf => by simp only [hb f hf, ha f hf, hl f hf, Bool.false_eq_true, if_false]; rfl]

/-- A per-fibre instruction that names no registers makes its results in order, then moves its group on. -/
theorem Exec.perFibre_nil {x : Exec} {i : Iss} (len : Nat) (h : Hd) (g : Iss → Nat → Res) (hi : x.issue? = some i) :
    x.perFibre len h [] g =
      ((i.served h).foldl (fun y f => y.applyRes i h.la.toNat len f (g i f)) x).advance i len := by
  simp only [Exec.perFibre, hi, Exec.pastBudget, List.any_nil, Bool.false_eq_true, if_false, List.foldl_map]

/-- While each fibre's access only makes a result, the allocation stays as it was, and the group makes its results. -/
theorem LocalMem.foldl_applyRes {x : Exec} {i : Iss} {m : Team} {bytes : Nat → Byte} {la len : Nat} {g : Exec → Nat → Exec}
    {r : Nat → Res} {l : List Nat} (ht : ∀ f, (r f).trap = none)
    (hg : ∀ f ∈ l, ∀ y, LocalMem x y i.w.team m bytes → g y f = y.applyRes i la len f (r f)) {y : Exec}
    (hy : LocalMem x y i.w.team m bytes) : l.foldl g y = l.foldl (fun y f => y.applyRes i la len f (r f)) y := by
  induction l generalizing y with
  | nil => rfl
  | cons f l ih =>
    rw [List.foldl_cons, List.foldl_cons, hg f (List.mem_cons_self ..) y hy]
    exact ih (fun k hk => hg k (List.mem_cons_of_mem _ hk)) (hy.applyRes la len f (r f) (ht f))

/-- One fibre's local load at an address. -/
def Exec.fibreLoad (x : Exec) (i : Iss) (len : Nat) (h : Hd) (w : MemI) (c f : Nat) (o : AddrRes) : Exec :=
  let a : PendAcc := { baseAcc x i f w akLoad 2 with fmt := c }
  x.localAcc i h.la.toNat len f w.m.oobt a.zeros o (memSize w) true fun b => (a.result b, none)

theorem Exec.fibreLoad_ok {x : Exec} {i : Iss} {n : Team} (len : Nat) (h : Hd) (w : MemI) (c f : Nat) {o : Nat}
    (hn : x.teams.find? i.w.team = some n) (hp : poisonHit (n.lpois ++ n.lunc) o (memSize w) = false) :
    x.fibreLoad i len h w c f (.ok o) = x.applyRes i h.la.toNat len f
      (Claim.loaded w.d.toNat c (memSize w) (Claim.number (n.mem.get 0) o (memSize w))) := by
  rw [Exec.fibreLoad, Exec.localAcc_ok _ _ _ _ _ _ hn fun _ => hp]
  simp only [Option.elim_none, PendAcc.result_eq_loaded, leNat_bytes]
  rfl

theorem Exec.fibreLoad_oob (x : Exec) (i : Iss) (len : Nat) (h : Hd) (w : MemI) (c f : Nat) (ht : w.m.oobt = false) :
    x.fibreLoad i len h w c f .oob = x.applyRes i h.la.toNat len f
      { v := (List.range (Claim.dataWords c (memSize w))).map fun j => (w.d.toNat + j, 0), oob := true } := by
  rw [Exec.fibreLoad, ht, Exec.localAcc_oob]
  rfl

/-- A local load does what a per-fibre instruction does, with the results its fibres' accesses make (R24, R274). -/
theorem Exec.localLoad_ran {s : State} {i : Iss} {m : Team} {w : MemI} {a : Nat → Word} {c : Nat} (len : Nat) (h : Hd)
    (r : Nat → Res) (hi : Claim.Issues s i) (hm : s.x.teamOf i.w = some m) (hc : s.x.memDesc w = some c)
    (hb : Claim.InBudget s i h (w.s1.toNat :: regsFrom w.d.toNat (dataCount c (memSize w))))
    (ha : Claim.Register s i h w.s1.toNat a) (ht : ∀ f, (r f).trap = none)
    (hr : ∀ f ∈ i.served h, ∀ y, LocalMem s.x y i.w.team m (m.mem.get 0) →
      y.fibreLoad i len h w c f (localOffset (s.x.localSize i.w.team) (Claim.localAt w a f) (memSize w)) =
        y.applyRes i h.la.toNat len f (r f)) :
    Ran s { s with x := s.x.localLoad len h w } i len h r := by
  have e : s.x.localLoad len h w = s.x.perFibre len h [] fun _ => r := by
    rw [Exec.perFibre_nil len h _ hi.run]
    simp only [Exec.localLoad, hc]
    rw [Exec.perLocal_eq len h false 0 _ _ _ _ hi.run (.inr (by decide)) hb ha (l := fun _ => []) (fun _ _ => rfl),
      if_neg Bool.false_ne_true]
    congr 1
    refine LocalMem.foldl_applyRes ht (fun f hf y hy => ?_) (.start hm)
    rw [hy.localSize hm]
    exact hr f hf y hy
  rw [e]
  exact Exec.perFibre_ran s i len h [] (fun _ => r) hi.run hi.wins (fun _ _ => rfl) fun f _ => ht f

/-- A load within the allocation that meets no poison: its bytes, whole or as elements (R24, R274, R275). -/
theorem Exec.localLoad_loaded {s : State} {i : Iss} {m : Team} {w : MemI} {a : Nat → Word} {c : Nat} (len : Nat) (h : Hd)
    (hi : Claim.Issues s i) (hm : s.x.teamOf i.w = some m) (hc : s.x.memDesc w = some c)
    (hb : Claim.InBudget s i h (w.s1.toNat :: regsFrom w.d.toNat (dataCount c (memSize w))))
    (ha : Claim.Register s i h w.s1.toNat a) (hok : Claim.LocalOk s i h w a m) :
    Ran s { s with x := s.x.localLoad len h w } i len h fun f =>
      Claim.loaded w.d.toNat c (memSize w) (Claim.number (m.mem.get 0) (Claim.localAt w a f).toNat (memSize w)) := by
  refine Exec.localLoad_ran len h _ hi hm hc hb ha (fun _ => rfl) fun f hf y hy => ?_
  obtain ⟨hoff, hclean⟩ := localOk_fibre hok hf
  obtain ⟨-, n, hn, -, hbytes, hsub⟩ := hy
  rw [hoff, Exec.fibreLoad_ok len h w c f hn (poisonHit_subset hsub hclean), hbytes]

/-- A load outside the allocation: zero in every register it names, and OOB (R21, R24). -/
theorem Exec.localLoad_oob {s : State} {i : Iss} {m : Team} {w : MemI} {a : Nat → Word} {c : Nat} (len : Nat) (h : Hd)
    (hi : Claim.Issues s i) (hm : s.x.teamOf i.w = some m) (hc : s.x.memDesc w = some c)
    (hb : Claim.InBudget s i h (w.s1.toNat :: regsFrom w.d.toNat (dataCount c (memSize w))))
    (ha : Claim.Register s i h w.s1.toNat a)
    (hout : ∀ f ∈ i.served h, Claim.localAt w a f < 0 ∨ (s.x.localSize i.w.team : Int) < Claim.localAt w a f + memSize w)
    (htrap : w.m.oobt = false) :
    Ran s { s with x := s.x.localLoad len h w } i len h fun _ =>
      { v := (List.range (Claim.dataWords c (memSize w))).map fun j => (w.d.toNat + j, 0), oob := true } := by
  refine Exec.localLoad_ran len h _ hi hm hc hb ha (fun _ => rfl) fun f hf y _ => ?_
  rw [localOffset_oob (hout f hf), y.fibreLoad_oob i len h w c f htrap]

/-- The registers that a compact load or store names (R189). -/
theorem compMem_named (v : CompI) : (compMem v).s1.toNat :: regsFrom (compMem v).d.toNat (dataCount 0 (memSize (compMem v))) =
    [v.va.toNat, v.vd.toNat] := by
  simp [compMem, memSize, dataCount, regsFrom]

end Sys2Proof.Machine

namespace Sys2Proof.Proofs
open Sys2Proof.Machine Sys2Proof.Claim

/-- Settles O29: no fibre's load changes the allocation, so each finds it as the instruction did. -/
theorem localLoads : Obligations.LocalLoads := by
  intro s i w a m c hi hm hc hsize z res zero
  refine ⟨fun hb ha => ⟨fun hok => ⟨_, rfl, Exec.localLoad_loaded 8 w.h hi hm hc hb ha hok⟩, fun hout htrap =>
    ⟨_, rfl, Exec.localLoad_oob 8 w.h hi hm hc hb ha hout htrap⟩⟩, ?_⟩
  rintro v rfl hb ha hok
  obtain rfl : c = 0 := by simpa [Exec.memDesc] using hc.symm
  exact ⟨_, rfl, Exec.localLoad_loaded 4 hd0 hi hm hc (by rw [← compMem_named] at hb; exact hb) ha hok⟩

end Sys2Proof.Proofs
end

section
/-! PROOFS. Local stores, atomics and compare-and-swaps where each wave is listed once (01 R24, 03 R55, R61, 06 R117,
14 R274, R277, R279). -/

namespace Sys2Proof.Machine

/-! ### Words, bytes and numbers -/

theorem length_leBytes (n x : Nat) : (leBytes n x).length = n := by
  induction n generalizing x with
  | zero => rfl
  | succ n ih => rw [leBytes, List.length_cons, ih]

theorem getD_leBytes (n x k : Nat) (h : k < n) : (leBytes n x).getD k 0 = BitVec.ofNat 8 (x / 256 ^ k) := by
  induction n generalizing x k with
  | zero => omega
  | succ n ih =>
    cases k with
    | zero => simp [leBytes]
    | succ k => rw [leBytes, List.getD_cons_succ, ih _ _ (by omega), Nat.div_div_eq_div_mul, Nat.pow_succ']

theorem take_leBytes (n m x : Nat) (h : n ≤ m) : (leBytes m x).take n = leBytes n x := by
  induction n generalizing m x with
  | zero => rfl
  | succ n ih =>
    obtain ⟨m, rfl⟩ : ∃ k, m = k + 1 := ⟨m - 1, by omega⟩
    rw [leBytes, List.take_succ_cons, ih _ _ (by omega), leBytes]

theorem leNat_leBytes (n x : Nat) : leNat (leBytes n x) = x % 256 ^ n := by
  induction n generalizing x with
  | zero => simp [leBytes, leNat, Nat.mod_one]
  | succ n ih => rw [leBytes, leNat, ih, Nat.pow_succ', Nat.mod_mul, BitVec.toNat_ofNat]

theorem leBytes_add (n k x : Nat) : leBytes (n + k) x = leBytes n x ++ leBytes k (x / 256 ^ n) := by
  induction n generalizing x with
  | zero => simp [leBytes]
  | succ n ih =>
    rw [Nat.add_right_comm, leBytes, ih, leBytes, List.cons_append, Nat.div_div_eq_div_mul, Nat.pow_succ']

theorem leBytes_mod (n x : Nat) : leBytes n (x % 256 ^ n) = leBytes n x := by
  induction n generalizing x with
  | zero => rfl
  | succ n ih =>
    have h1 : BitVec.ofNat 8 (x % 256 ^ (n + 1)) = BitVec.ofNat 8 x := by
      apply BitVec.eq_of_toNat_eq
      rw [BitVec.toNat_ofNat, BitVec.toNat_ofNat, Nat.pow_succ', Nat.mod_mul_right_mod]
    have h2 : x % 256 ^ (n + 1) / 256 = x / 256 % 256 ^ n := by rw [Nat.pow_succ', Nat.mod_mul_right_div_self]
    rw [leBytes, leBytes, h1, h2, ih]

/-- A byte of a number that bytes hold. -/
theorem ofNat_leNat_div (l : List Byte) (k : Nat) (h : k < l.length) : BitVec.ofNat 8 (leNat l / 256 ^ k) = l.getD k 0 := by
  induction l generalizing k with
  | nil => simp at h
  | cons x r ih =>
    have hx := x.isLt
    cases k with
    | zero =>
      apply BitVec.eq_of_toNat_eq
      simp only [leNat, Nat.pow_zero, Nat.div_one, BitVec.toNat_ofNat, List.getD_cons_zero]
      omega
    | succ k =>
      rw [leNat, Nat.pow_succ', ← Nat.div_div_eq_div_mul, show (x.toNat + 256 * leNat r) / 256 = leNat r by omega,
        List.getD_cons_succ, ih _ (by simpa using h)]

/-- Words from the lowest on, as the number that they hold. -/
theorem stored_cons (w : Word) (l : List Word) : Claim.stored 0 (w :: l) = w.toNat + 2 ^ 32 * Claim.stored 0 l := by
  have h : (l.zipIdx 1).map (fun p => p.1.toNat * 2 ^ (32 * p.2)) = l.zipIdx.map fun p => 2 ^ 32 * (p.1.toNat * 2 ^ (32 * p.2)) := by
    rw [List.zipIdx_succ, List.map_map]
    refine List.map_congr_left fun p _ => ?_
    simp only [Function.comp_apply, Nat.mul_add, Nat.pow_add, Nat.mul_one]
    ac_rfl
  simp only [Claim.stored, if_true, List.zipIdx_cons, List.map_cons, List.sum_cons, Nat.zero_add, h, List.sum_map_mul_left]
  simp

theorem stored_lt (l : List Word) : Claim.stored 0 l < 256 ^ (4 * l.length) := by
  induction l with
  | nil => decide
  | cons w l ih =>
    have hw := w.isLt
    rw [stored_cons, List.length_cons, Nat.mul_succ, Nat.pow_add]
    omega

/-- The bytes of words are the bytes of the number that the words hold. -/
theorem flatten_leBytes (l : List Word) :
    ((l.map BitVec.toNat).map (leBytes 4)).flatten = leBytes (4 * l.length) (Claim.stored 0 l) := by
  induction l with
  | nil => rfl
  | cons w l ih =>
    have hw := w.isLt
    rw [List.map_cons, List.map_cons, List.flatten_cons, ih, List.length_cons, Nat.mul_succ, Nat.add_comm, leBytes_add, stored_cons,
      show (w.toNat + 2 ^ 32 * Claim.stored 0 l) / 256 ^ 4 = Claim.stored 0 l by omega,
      ← leBytes_mod 4 (w.toNat + 2 ^ 32 * Claim.stored 0 l), show (w.toNat + 2 ^ 32 * Claim.stored 0 l) % 256 ^ 4 = w.toNat by omega]

theorem leNat_flatten (l : List Word) : leNat ((l.map BitVec.toNat).map (leBytes 4)).flatten = Claim.stored 0 l := by
  rw [flatten_leBytes, leNat_leBytes, Nat.mod_eq_of_lt (stored_lt l)]

/-- What a store stores of its data words, whole or as elements (R274, R275). -/
theorem storeBytes_eq (c z : Nat) (l : List Word) (h : l.length = dataCount c z) :
    storeBytes c z (l.map BitVec.toNat) = leBytes z (Claim.stored c l) := by
  unfold storeBytes
  by_cases hc : c = 0
  · subst hc
    rw [if_pos rfl, flatten_leBytes, take_leBytes]
    rw [h, dataCount, if_pos rfl]
    omega
  · rw [if_neg hc, Claim.stored, if_neg hc, narrowStore, List.zipIdx_map, List.map_map]
    rfl

/-! ### Bytes of an allocation -/

theorem patch_number (m : Nat → Byte) (a z : Nat) : Claim.patch m a z (Claim.number m a z) = m := by
  have hn : Claim.number m a z = leNat ((List.range z).map fun k => m (a + k)) := (leNat_map_range _ z).symm
  funext b
  unfold Claim.patch
  split
  next h =>
    rw [hn, ofNat_leNat_div _ _ (by simp; omega)]
    have e : a + (b - a) = b := by omega
    simp [List.getD_eq_getElem?_getD, show b - a < z by omega, e]
  next => rfl

theorem get_putBytes_leBytes (m : SMap Byte) (o z n : Nat) :
    (putBytes m o (leBytes z n)).get 0 = Claim.patch (m.get 0) o z n := by
  funext b
  rw [get_putBytes, length_leBytes, Claim.patch]
  split
  next h => exact getD_leBytes _ _ _ (by omega)
  next => rfl

/-! ### Values of local atomics -/

theorem toInt_ofNat_eq_signed (n x : Nat) (hn : 0 < n) : (BitVec.ofNat n x).toInt = signed n x := by
  have h2 : 2 ^ n = 2 * 2 ^ (n - 1) := by rw [← Nat.pow_succ', Nat.succ_eq_add_one, Nat.sub_add_cancel hn]
  rw [BitVec.toInt_eq_toNat_cond, BitVec.toNat_ofNat, signed]
  split <;> split <;> omega

/-- The atomics of the model are those of R277 on words of n bits. -/
theorem atbNew_eq (op n old x : Nat) (hop : op < 8) (hn : 0 < n) (ho : old < 2 ^ n) (hx : x < 2 ^ n) :
    atbNew op n old x = (Claim.atomicOp op (BitVec.ofNat n old) (BitVec.ofNat n x)).toNat := by
  have ho' : (BitVec.ofNat n old).toNat = old := by rw [BitVec.toNat_ofNat, Nat.mod_eq_of_lt ho]
  have hx' : (BitVec.ofNat n x).toNat = x := by rw [BitVec.toNat_ofNat, Nat.mod_eq_of_lt hx]
  match op, hop with
  | 0, _ => simp only [atbNew, Claim.atomicOp, List.getD_cons_zero, BitVec.toNat_add, ho', hx']
  | 1, _ => simp only [atbNew, Claim.atomicOp, List.getD_cons_zero, List.getD_cons_succ, BitVec.toNat_and, ho', hx']; rfl
  | 2, _ => simp only [atbNew, Claim.atomicOp, List.getD_cons_zero, List.getD_cons_succ, BitVec.toNat_or, ho', hx']; rfl
  | 3, _ => simp only [atbNew, Claim.atomicOp, List.getD_cons_zero, List.getD_cons_succ, BitVec.toNat_xor, ho', hx']; rfl
  | 4, _ =>
    simp only [atbNew, Claim.atomicOp, List.getD_cons_zero, List.getD_cons_succ, BitVec.slt, toInt_ofNat_eq_signed _ _ hn,
      decide_eq_true_eq]
    split <;> simp only [ho', hx']
  | 5, _ =>
    simp only [atbNew, Claim.atomicOp, List.getD_cons_zero, List.getD_cons_succ, BitVec.slt, toInt_ofNat_eq_signed _ _ hn,
      decide_eq_true_eq]
    split <;> simp only [ho', hx']
  | 6, _ =>
    simp only [atbNew, Claim.atomicOp, List.getD_cons_zero, List.getD_cons_succ, BitVec.ult, ho', hx', decide_eq_true_eq]
    split <;> simp only [ho', hx'] <;> omega
  | 7, _ => simp only [atbNew, Claim.atomicOp, List.getD_cons_succ, List.getD_nil, hx']

/-! ### A result acts on waves alone, whatever the teams hold -/

/-- Two states that list the same waves, and number what is new alike. -/
structure SameWaves (x y : Exec) : Prop where
  waves : y.waves = x.waves
  fresh : y.fresh = x.fresh

theorem SameWaves.modWave {x y : Exec} (h : SameWaves x y) (u : Nat) (f : Wave → Wave) :
    SameWaves (x.modWave u f) (y.modWave u f) := ⟨by rw [Exec.modWave_waves, Exec.modWave_waves, h.waves], h.fresh⟩

theorem SameWaves.window {x y : Exec} (h : SameWaves x y) (u f : Nat) : y.window u f = x.window u f :=
  Exec.window_congr (fun _ _ => by rw [Exec.fib_congr h.waves]) u f

theorem SameWaves.writeVs {x y : Exec} (h : SameWaves x y) (u f : Nat) (l : List (Nat × Word)) :
    SameWaves (x.writeVs u f l) (y.writeVs u f l) := by
  induction l generalizing x y with
  | nil => exact h
  | cons p r ih =>
    refine ih (x := x.writeV u f p.1 p.2) (y := y.writeV u f p.1 p.2) ?_
    unfold Exec.writeV
    rw [h.window]
    exact h.modWave _ _

theorem SameWaves.place {x y : Exec} (h : SameWaves x y) (u f la : Nat) (l : List (Nat × Word)) :
    SameWaves (x.place u f la l) (y.place u f la l) := by
  unfold Exec.place
  split
  · exact h.writeVs u f l
  · rw [h.fresh]
    have k := (h.modWave u fun w => w.modFib f fun b => { b with wins := b.wins ++ [⟨x.fresh, la, l, []⟩] }).waves
    exact ⟨k, rfl⟩

theorem SameWaves.addDraws {x y : Exec} (h : SameWaves x y) (u f n : Nat) : SameWaves (x.addDraws u f n) (y.addDraws u f n) := by
  unfold Exec.addDraws
  rw [h.window]
  split
  · exact h
  · exact h.modWave _ _

theorem SameWaves.setStatusIf {x y : Exec} (h : SameWaves x y) (c : Bool) (t bit : Nat) :
    SameWaves (x.setStatusIf c t bit) (y.setStatusIf c t bit) :=
  ⟨by rw [Exec.waves_setStatusIf, Exec.waves_setStatusIf, h.waves], by rw [Exec.fresh_setStatusIf, Exec.fresh_setStatusIf, h.fresh]⟩

theorem SameWaves.trans {x y z : Exec} (h : SameWaves x y) (k : SameWaves y z) : SameWaves x z :=
  ⟨k.waves.trans h.waves, k.fresh.trans h.fresh⟩

theorem SameWaves.applyRes {x y : Exec} (h : SameWaves x y) (i : Iss) (la len f : Nat) (r : Res) (ht : r.trap = none) :
    SameWaves (x.applyRes i la len f r) (y.applyRes i la len f r) := by
  rw [x.applyRes_stages i la len f r ht, y.applyRes_stages i la len f r ht]
  exact (((((h.setStatusIf ..).place ..).modWave ..).addDraws ..).setStatusIf ..).setStatusIf ..

theorem SameWaves.foldl_applyRes {x y : Exec} (h : SameWaves x y) (i : Iss) (la len : Nat) (r : Nat → Res)
    (ht : ∀ f, (r f).trap = none) (l : List Nat) : SameWaves (l.foldl (fun y f => y.applyRes i la len f (r f)) x)
      (l.foldl (fun y f => y.applyRes i la len f (r f)) y) := by
  induction l generalizing x y with
  | nil => exact h
  | cons f l ih => exact ih (h.applyRes i la len f (r f) (ht f))

/-- The numbers under which waves are listed. -/
def Exec.waveKeys (x : Exec) : List Nat := x.waves.map (·.1)

theorem Exec.waveKeys_modWave (x : Exec) (u : Nat) (f : Wave → Wave) : (x.modWave u f).waveKeys = x.waveKeys := by
  simp only [Exec.waveKeys, Exec.modWave_waves, SMap.modify, List.map_map]
  refine List.map_congr_left fun p _ => ?_
  simp only [Function.comp_apply]
  split <;> rfl

theorem Exec.waveKeys_congr {x y : Exec} (h : y.waves = x.waves) : y.waveKeys = x.waveKeys := by rw [Exec.waveKeys, Exec.waveKeys, h]

theorem Exec.waveKeys_place (x : Exec) (u f la : Nat) (l : List (Nat × Word)) : (x.place u f la l).waveKeys = x.waveKeys := by
  unfold Exec.place
  split
  · induction l generalizing x with
    | nil => rfl
    | cons p r ih => exact (ih (x.writeV u f p.1 p.2)).trans (x.waveKeys_modWave ..)
  · have k := x.waveKeys_modWave u fun w => w.modFib f fun b => { b with wins := b.wins ++ [⟨x.fresh, la, l, []⟩] }
    exact k

theorem Exec.waveKeys_addDraws (x : Exec) (u f n : Nat) : (x.addDraws u f n).waveKeys = x.waveKeys := by
  unfold Exec.addDraws
  split
  · rfl
  · exact x.waveKeys_modWave ..

theorem Exec.waveKeys_applyRes (x : Exec) (i : Iss) (la len f : Nat) (r : Res) (ht : r.trap = none) :
    (x.applyRes i la len f r).waveKeys = x.waveKeys := by
  have hs : ∀ (y : Exec) c t bit, (y.setStatusIf c t bit).waveKeys = y.waveKeys := fun y c t bit =>
    Exec.waveKeys_congr (y.waves_setStatusIf c t bit)
  rw [x.applyRes_stages i la len f r ht]
  simp only [hs, Exec.waveKeys_addDraws, Exec.modFib, Exec.waveKeys_modWave, Exec.waveKeys_place]

/-! ### Ending the holds that a store meets -/

/-- A wave is held at an instruction that has still to write its registers (R43, R350). -/
def Exec.heldLate (x : Exec) (u : Nat) : Bool := (x.wave? u).elim false fun w => w.hold.elim false Hold.late

/-- Ending holds leaves teams, registers and fibres, and makes no wave wait for a write. -/
structure Woken (x y : Exec) : Prop where
  teams : y.teams = x.teams
  regs  : ∀ u a k, y.slotReg u a k = x.slotReg u a k
  fibs  : ∀ u f, y.fib u f = x.fib u f
  late  : ∀ u, x.heldLate u = false → y.heldLate u = false

theorem Woken.refl (x : Exec) : Woken x x := ⟨rfl, fun _ _ _ => rfl, fun _ _ => rfl, fun _ h => h⟩

theorem Woken.trans {x y z : Exec} (h : Woken x y) (k : Woken y z) : Woken x z :=
  ⟨k.teams.trans h.teams, fun u a j => (k.regs u a j).trans (h.regs u a j), fun u f => (k.fibs u f).trans (h.fibs u f),
    fun u e => k.late u (h.late u e)⟩

theorem Exec.waves_post (x : Exec) (d : Nat) (e : Ev) : (x.post d e).waves = x.waves := by
  unfold Exec.post; split <;> rfl
theorem Exec.teams_post (x : Exec) (d : Nat) (e : Ev) : (x.post d e).teams = x.teams := by
  unfold Exec.post; split <;> rfl

/-- A wave whose hold ends, unless its instruction has still to write: nothing but its hold and its place among waves changes. -/
theorem Exec.unhold_woken (x : Exec) (u : Nat) (h : x.heldLate u = false) : Woken x (x.unhold u) := by
  have hpass : ((x.wave? u).filter fun w => w.hold.elim false Hold.late).bind Wave.passing = none := by
    unfold Exec.heldLate at h
    cases hw : x.wave? u with
    | none => rfl
    | some w =>
      rw [hw] at h
      rw [Option.filter_some, if_neg (by simpa using h)]
      rfl
  have hwaves : (x.unhold u).waves = x.waves.modify u fun w =>
      { w with hold := none, stamp := x.fresh, resumed := (w.hold.map Hold.reissues).getD false, passing := none } := by
    simp only [Exec.unhold, hpass]
    split
    · exact Exec.waves_post ..
    · rfl
  have hteams : (x.unhold u).teams = x.teams := by
    simp only [Exec.unhold, hpass]
    split
    · exact Exec.teams_post ..
    · rfl
  have hwave : ∀ v, (x.unhold u).wave? v = if v = u then (x.wave? v).map fun w =>
      { w with hold := none, stamp := x.fresh, resumed := (w.hold.map Hold.reissues).getD false, passing := none }
      else x.wave? v := fun v => by unfold Exec.wave?; rw [hwaves, SMap.find?_modify]
  refine ⟨hteams, fun v a k => ?_, fun v f => ?_, fun v e => ?_⟩
  · unfold Exec.slotReg
    rw [hwave]
    split
    · cases x.wave? v <;> rfl
    · rfl
  · unfold Exec.fib
    rw [hwave]
    split
    · cases x.wave? v <;> rfl
    · rfl
  · unfold Exec.heldLate at e ⊢
    rw [hwave]
    split
    · cases x.wave? v <;> rfl
    · exact e

theorem Exec.foldl_unhold_woken (l : List Nat) (x : Exec) (h : ∀ u ∈ l, x.heldLate u = false) : Woken x (l.foldl Exec.unhold x) := by
  induction l generalizing x with
  | nil => exact .refl x
  | cons u r ih =>
    have hu := x.unhold_woken u (h u (List.mem_cons_self ..))
    exact hu.trans (ih _ fun v hv => hu.late v (h v (List.mem_cons_of_mem _ hv)))

theorem Exec.late_of_holdMet {x : Exec} {m : Team} {w : Wave} (h : x.holdMet m w = true) : w.hold.elim false Hold.late = false := by
  unfold Exec.holdMet at h
  cases hw : w.hold with
  | none => rfl
  | some d => cases d <;> simp_all [Hold.late]

theorem SMap.find?_of_mem {α : Type} {m : SMap α} {k : Nat} {v : α} (hn : (m.map (·.1)).Nodup) (h : (k, v) ∈ m) :
    m.find? k = some v := by
  induction m with
  | nil => cases h
  | cons p r ih =>
    obtain ⟨j, y⟩ := p
    rw [List.map_cons, List.nodup_cons] at hn
    rcases List.mem_cons.1 h with e | e
    · cases e
      simp [SMap.find?]
    · have hj : k ≠ j := fun c => hn.1 (c ▸ List.mem_map_of_mem (f := (·.1)) e)
      rw [SMap.find?, if_neg hj]
      exact ih hn.2 e

/-- Where each wave is listed once, a store ends only holds whose instructions have nothing left to write. -/
theorem Exec.wakeTeam_woken (x : Exec) (t : Nat) (hn : x.waveKeys.Nodup) : Woken x (x.wakeTeam t) := by
  unfold Exec.wakeTeam
  cases ht : x.teams.find? t with
  | none => exact .refl x
  | some m =>
    refine x.foldl_unhold_woken _ fun u hu => ?_
    obtain ⟨⟨v, w⟩, hp, rfl⟩ := List.mem_map.1 hu
    obtain ⟨hmem, hmet⟩ := List.mem_filter.1 hp
    have hw : x.wave? v = some w := SMap.find?_of_mem hn hmem
    rw [Exec.heldLate, hw]
    exact Exec.late_of_holdMet ((Bool.and_eq_true ..).mp hmet).2


/-! ### The stores of a group -/

theorem LocalMem.modTeam_store {x y : Exec} {t : Nat} {m : Team} {bytes : Nat → Byte} (h : LocalMem x y t m bytes) (o z n : Nat) :
    LocalMem x (y.modTeam t fun m => m.store o (leBytes z n)) t m (Claim.patch bytes o z n) := by
  obtain ⟨hg, k, hk, hkg, hb, hsub⟩ := h
  refine ⟨hg, k.store o (leBytes z n), ?_, hkg, ?_, fun j hj => hsub ?_⟩
  · rw [Exec.modTeam_teams, SMap.find?_modify, if_pos rfl, hk]
    rfl
  · rw [← hb]
    exact get_putBytes_leBytes ..
  · have hj : j ∈ poisonStore k.lpois o (leBytes z n).length ++ poisonStore k.lunc o (leBytes z n).length := hj
    rw [poisonStore, poisonStore, ← List.filter_append] at hj
    exact (List.mem_filter.1 hj).1

/-- One fibre's access writes the z bytes of a number at an offset of the allocation, and touches no wave and no other team. -/
structure Stores (x y y' : Exec) (t : Nat) (m : Team) (bytes : Nat → Byte) (o z n : Nat) : Prop where
  mem   : LocalMem x y' t m (Claim.patch bytes o z n)
  same  : SameWaves y y'
  other : ∀ k, k ≠ t → y'.teams.find? k = y.teams.find? k

theorem LocalMem.stores {x y : Exec} {t : Nat} {m : Team} {bytes : Nat → Byte} (h : LocalMem x y t m bytes) (o z n : Nat) :
    Stores x y (y.modTeam t fun m => m.store o (leBytes z n)) t m bytes o z n :=
  ⟨h.modTeam_store o z n, ⟨rfl, rfl⟩, fun k hk => by rw [Exec.modTeam_teams, SMap.find?_modify, if_neg hk]⟩

/-- An access that leaves what it finds stores that very number. -/
theorem LocalMem.stores_number {x y : Exec} {t : Nat} {m : Team} {bytes : Nat → Byte} (h : LocalMem x y t m bytes) (o z : Nat) :
    Stores x y y t m bytes o z (Claim.number bytes o z) :=
  ⟨by rw [patch_number]; exact h, ⟨rfl, rfl⟩, fun _ _ => rfl⟩

/-- The number that fibre f of a list finds at its place. -/
def found (bytes : Nat → Byte) (at_ : Nat → Nat) (z : Nat) (new : Nat → Nat → Nat) (l : List Nat) (f : Nat) : Nat :=
  Claim.number (Claim.before bytes at_ z new l f) (at_ f) z

theorem found_cons (bytes : Nat → Byte) (at_ : Nat → Nat) (z : Nat) (new : Nat → Nat → Nat) (l : List Nat) (f g : Nat) :
    found bytes at_ z new (f :: l) g = if f = g then Claim.number bytes (at_ g) z
      else found (Claim.patch bytes (at_ f) z (new f (Claim.number bytes (at_ f) z))) at_ z new l g := by
  unfold found Claim.before
  by_cases h : f = g
  · simp [h, Claim.patched]
  · rw [List.takeWhile_cons, if_neg h, if_pos (by simpa using h)]
    rfl

/-- What the accesses of a list of fibres leave: the patched allocation, the waves that their results alone would leave, and the
other teams as they were. -/
structure AllStored (x y z : Exec) (i : Iss) (la len : Nat) (m : Team) (bytes : Nat → Byte) (r : Nat → Res) (l : List Nat) : Prop where
  mem   : LocalMem x z i.w.team m bytes
  same  : SameWaves (l.foldl (fun y f => y.applyRes i la len f (r f)) y) z
  other : ∀ k, k ≠ i.w.team → z.teams.find? k = y.teams.find? k

/-- Fibres in their order, each writing `new f` of the number it finds, with the result `res f` of it (R55, R117). -/
theorem LocalMem.foldl_stored {x : Exec} {i : Iss} {m : Team} {la len n : Nat} {at_ : Nat → Nat} {new : Nat → Nat → Nat}
    {res : Nat → Nat → Res} {g : Exec → Nat → Exec} (ht : ∀ f k, (res f k).trap = none) (l : List Nat) (hn : l.Nodup)
    (hg : ∀ f ∈ l, ∀ y bytes, LocalMem x y i.w.team m bytes → ∃ y',
      Stores x y y' i.w.team m bytes (at_ f) n (new f (Claim.number bytes (at_ f) n)) ∧
      g y f = y'.applyRes i la len f (res f (Claim.number bytes (at_ f) n)))
    {y : Exec} {bytes : Nat → Byte} (hy : LocalMem x y i.w.team m bytes) :
    AllStored x y (l.foldl g y) i la len m (Claim.patched bytes at_ n new l) (fun f => res f (found bytes at_ n new l f)) l := by
  induction l generalizing y bytes with
  | nil => exact ⟨hy, ⟨rfl, rfl⟩, fun _ _ => rfl⟩
  | cons f l ih =>
    obtain ⟨hf, hn⟩ := List.nodup_cons.1 hn
    obtain ⟨y', hst, hgf⟩ := hg f (List.mem_cons_self ..) y bytes hy
    have htf := ht f (Claim.number bytes (at_ f) n)
    have hrest := ih hn (fun k hk => hg k (List.mem_cons_of_mem _ hk)) (hst.mem.applyRes la len f _ htf)
    rw [List.foldl_cons, hgf]
    refine ⟨hrest.mem, ?_, fun k hk => ?_⟩
    · have hfirst := (hst.same.applyRes i la len f _ htf).foldl_applyRes i la len
        (fun k => res k (found bytes at_ n new (f :: l) k)) (fun k => ht k _) l
      rw [List.foldl_cons, found_cons, if_pos rfl]
      refine hfirst.trans ?_
      have htail : ∀ k ∈ l, found bytes at_ n new (f :: l) k =
          found (Claim.patch bytes (at_ f) n (new f (Claim.number bytes (at_ f) n))) at_ n new l k := fun k hk => by
        rw [found_cons, if_neg fun e => hf (by rw [e]; exact hk)]
      rw [List.foldl_ext _ _ _ fun z k hk => by rw [htail k hk]]
      exact hrest.same
    · rw [hrest.other k hk, y'.teams_applyRes i la len f _ htf, hst.other k hk]
      cases y.teams.find? k with
      | none => rfl
      | some m => simp [hk]

theorem Exec.waveKeys_foldl_applyRes (i : Iss) (la len : Nat) (r : Nat → Res) (ht : ∀ f, (r f).trap = none) (l : List Nat) (x : Exec) :
    (l.foldl (fun y f => y.applyRes i la len f (r f)) x).waveKeys = x.waveKeys := by
  induction l generalizing x with
  | nil => rfl
  | cons f l ih => exact (ih _).trans (x.waveKeys_applyRes i la len f (r f) (ht f))

/-- What is left once the holds that the stores meet have ended and the group has moved on. -/
theorem AllStored.wrote {s : State} {z : Exec} {i : Iss} {m : Team} {len : Nat} {h : Hd} {bytes : Nat → Byte} {r : Nat → Res}
    (hall : AllStored s.x s.x z i h.la.toNat len m bytes r (i.served h)) (hi : Claim.Issues s i) (hkeys : s.x.waveKeys.Nodup)
    (hr : ∀ f, (r f).trap = none ∧ (r f).p = []) :
    Claim.Wrote s { s with x := (z.wakeTeam i.w.team).advance i len } i len h r bytes := by
  have sub : ∀ f ∈ i.served h, f ∈ i.grp := fun f hf => (List.mem_filter.1 hf).1
  have hdone := Exec.applyAll_done i h.la.toNat len r (i.served h) s.x ((Iss.grp_nodup hi.run).filter _) (fun f _ => (hr f).1)
    (by rw [(Exec.issue?_spec hi.run).2.1]; rfl) (fun f hf j hj => hi.wins.apart f (sub f hf) j (sub j hj))
    (fun f hf => hi.wins.held f (sub f hf)) (fun f hf => hi.wins.slot f (sub f hf))
  have hk := Exec.waveKeys_foldl_applyRes i h.la.toNat len r (fun f => (hr f).1) (i.served h) s.x
  obtain ⟨⟨-, m', hm', -, hbytes, -⟩, hsame, hother⟩ := hall
  have hwoke := z.wakeTeam_woken i.w.team (by rw [Exec.waveKeys_congr hsame.waves, hk]; exact hkeys)
  have hla : h.la.toNat = 0 ↔ h.la = 0 := ⟨fun e => BitVec.eq_of_toNat_eq e, fun e => by rw [e]; rfl⟩
  have hfib : ∀ u f, (z.wakeTeam i.w.team).fib u f = fibRess s.x i h.la.toNat (i.served h) r u f := fun u f => by
    rw [hwoke.fibs, Exec.fib_congr hsame.waves, hdone.fibs]
  refine ⟨rfl, rfl, fun b => ?_, fun j hj => ?_, fun u c j hc => ?_, fun u f => ?_, fun u f => ?_⟩
  · rw [Exec.advance_teams, hwoke.teams, hm', Option.map_some, hbytes]
  · rw [Exec.advance_teams, hwoke.teams, hother j hj]
  · rw [Exec.slotReg_advance, hwoke.regs, Exec.slotReg_congr hsame.waves, hdone.regs u c j hc]
    simp only [hla]
  · rw [Exec.fib_advance _ _ _ (Iss.grp_nodup hi.run), hfib]
    by_cases c : u = i.u ∧ f ∈ i.grp
    · obtain ⟨rfl, hf⟩ := c
      obtain ⟨-, hst, hpc⟩ := (Iss.mem_grp hi.run f).1 hf
      rw [if_pos ⟨rfl, hf, hst, hpc⟩, if_pos ⟨rfl, hf⟩]
    · rw [if_neg fun e => c ⟨e.1, e.2.1⟩, if_neg c]
      rfl
  · rw [Exec.fib_advance _ _ _ (Iss.grp_nodup hi.run), hfib]
    split <;> simp [fibRess, (hr f).2]

/-- A local instruction that stores, where each wave is listed once (R24, R55, R117). -/
theorem Exec.perLocal_wrote {s : State} {i : Iss} {m : Team} {len ord n : Nat} {h : Hd} {la : BitVec 4} {named srcs : List Nat} {s1 : Nat}
    {g : Iss → Nat → Nat → List Nat → Exec → Exec} {a : Nat → Word} {d : Nat → List Nat} {at_ : Nat → Nat}
    {new : Nat → Nat → Nat} {res : Nat → Nat → Res} (hi : Claim.Issues s i) (hkeys : s.x.waveKeys.Nodup)
    (hm : s.x.teamOf i.w = some m) (ho : i.w.log = [] ∨ ord < 2) (hb : Claim.InBudget s i h named)
    (ha : Claim.Register s i h s1 a)
    (hd : ∀ f ∈ i.served h, (srcs.mapM fun j => (s.x.ownRead i f j).map BitVec.toNat) = some (d f))
    (hres : ∀ f j, (res f j).trap = none ∧ (res f j).p = [])
    (hg : ∀ f ∈ i.served h, ∀ y bytes, LocalMem s.x y i.w.team m bytes → ∃ y',
      Stores s.x y y' i.w.team m bytes (at_ f) n (new f (Claim.number bytes (at_ f) n)) ∧
      g i f (a f).toNat (d f) y = y'.applyRes i la.toNat len f (res f (Claim.number bytes (at_ f) n))) :
    Claim.Wrote s { s with x := s.x.perLocal len h true ord named srcs s1 g } i len { h with la := la }
      (fun f => res f (found (m.mem.get 0) at_ n new (i.served h) f)) (Claim.patched (m.mem.get 0) at_ n new (i.served h)) := by
  rw [Exec.perLocal_eq len h true ord named srcs s1 g hi.run ho hb ha hd, if_pos rfl]
  exact AllStored.wrote (h := { h with la := la })
    (LocalMem.foldl_stored (fun f j => (hres f j).1) _ ((Iss.grp_nodup hi.run).filter _) hg (.start hm)) hi hkeys fun f => hres f _

/-! ### One fibre's store -/

/-- An access that stores the z bytes of a number. -/
theorem LocalMem.localAcc_stores {x y : Exec} {i : Iss} {m : Team} {bytes : Nat → Byte} (h : LocalMem x y i.w.team m bytes)
    (la len f : Nat) (oobt : Bool) (zeros : List (Nat × Word)) {o z n : Nat} {r : Res} {reads : Bool}
    {eff : List Byte → Res × Option (List Byte)} (hp : reads = true → poisonHit (m.lpois ++ m.lunc) o z = false)
    (heff : ∀ b : List Byte, b.length = z → leNat b = Claim.number bytes o z →
      (eff b).1 = r ∧ ((eff b).2 = some (leBytes z n) ∨ (eff b).2 = none ∧ n = Claim.number bytes o z)) :
    ∃ y', Stores x y y' i.w.team m bytes o z n ∧ y.localAcc i la len f oobt zeros (.ok o) z reads eff = y'.applyRes i la len f r := by
  obtain ⟨k, hk, -, hb, hsub⟩ := h.team
  obtain ⟨hr, hst⟩ := heff (k.bytes o z) (by simp [Team.bytes]) (by rw [leNat_bytes, hb])
  rw [Exec.localAcc_ok la len f oobt zeros eff hk fun e => poisonHit_subset hsub (hp e), hr]
  rcases hst with e | ⟨e, rfl⟩
  · rw [e]
    exact ⟨_, h.stores o z n, rfl⟩
  · rw [e]
    exact ⟨y, h.stores_number o z, rfl⟩

/-- The data words of a fibre, as the driver reads them. -/
theorem Exec.mapM_ownRead {x : Exec} {i : Iss} {f k n : Nat} {D : Nat → Word} (h : ∀ j < n, x.ownRead i f (k + j) = some (D j)) :
    ((regsFrom k n).mapM fun j => (x.ownRead i f j).map BitVec.toNat) = some (((List.range n).map D).map BitVec.toNat) := by
  have hl : ∀ l : List Nat, (∀ j ∈ l, j < n) →
      ((l.map (k + ·)).mapM fun j => (x.ownRead i f j).map BitVec.toNat) = some ((l.map D).map BitVec.toNat) := by
    intro l
    induction l with
    | nil => intro; rfl
    | cons j l ih =>
      intro hj
      rw [List.map_cons, List.mapM_cons, h j (hj j (List.mem_cons_self ..)), ih fun q hq => hj q (List.mem_cons_of_mem _ hq)]
      rfl
  exact hl _ fun j hj => List.mem_range.1 hj

theorem leNat_lt (b : List Byte) : leNat b < 256 ^ b.length := by
  induction b with
  | nil => decide
  | cons x r ih =>
    have hx := x.isLt
    rw [leNat, List.length_cons, Nat.pow_succ']
    omega

/-- One word or two, as an atomic takes its operand. -/
theorem word_add_word (l : List Word) (h : l.length = 1 ∨ l.length = 2) :
    word (l.map BitVec.toNat) 0 + 2 ^ 32 * word (l.map BitVec.toNat) 1 = Claim.stored 0 l := by
  have h0 : Claim.stored 0 [] = 0 := rfl
  match l, h with
  | [u], _ => rw [stored_cons, h0]; rfl
  | [u, v], _ => rw [stored_cons, stored_cons, h0, Nat.mul_zero, Nat.add_zero]; rfl

theorem baseAcc_result (x : Exec) (i : Iss) (f : Nat) (w : MemI) (kind scope : Nat) (b : List Byte) :
    (baseAcc x i f w kind scope).result b = Claim.loaded w.d.toNat 0 (memSize w) (leNat b) := PendAcc.result_eq_loaded ..

/-! ### The instructions that store -/

variable {s : State} {i : Iss} {m : Team} {w : MemI} {a : Nat → Word} {D : Nat → Nat → Word}

/-- STL and STL_C (R24, R61, R274, R275). -/
theorem Exec.localStore_wrote {c : Nat} (len : Nat) (h : Hd) (hi : Claim.Issues s i) (hkeys : s.x.waveKeys.Nodup)
    (hm : s.x.teamOf i.w = some m) (hc : s.x.memDesc w = some c) (ho : i.w.log = [] ∨ w.m.ord.toNat < 2)
    (hb : Claim.InBudget s i h (w.s1.toNat :: regsFrom w.d.toNat (dataCount c (memSize w)))) (ha : Claim.Register s i h w.s1.toNat a)
    (hd : ∀ j < dataCount c (memSize w), Claim.Register s i h (w.d.toNat + j) (D · j))
    (hok : Claim.LocalOk s i h w a { m with lpois := [], lunc := [] }) :
    Claim.Wrote s { s with x := s.x.localStore len h w } i len { h with la := 0 } (fun _ => {})
      (Claim.patched (m.mem.get 0) (fun f => (Claim.localAt w a f).toNat) (memSize w)
        (fun f _ => Claim.stored c ((List.range (dataCount c (memSize w))).map (D f))) (i.served h)) := by
  simp only [Exec.localStore, hc]
  refine Exec.perLocal_wrote (la := 0) (res := fun _ _ => {}) hi hkeys hm ho hb ha
    (fun f hf => Exec.mapM_ownRead fun j hj => hd j hj f hf) (fun _ _ => ⟨rfl, rfl⟩) fun f hf y bytes hy => ?_
  rw [hy.localSize hm, localAddr_eq, (localOk_fibre hok hf).1]
  refine hy.localAcc_stores _ _ _ _ _ (fun e => nomatch e) fun b _ _ => ⟨rfl, .inl ?_⟩
  rw [storeBytes_eq _ _ _ (by simp)]

/-- ATL and CASL: `st` gives what a fibre stores, of its data words and of the bytes it finds. -/
def Exec.localAtomic (x : Exec) (w : MemI) (kind n : Nat) (st : List Nat → List Byte → Option (List Byte)) : Exec :=
  x.perLocal 8 w.h true w.m.ord.toNat (w.s1.toNat :: regsFrom w.d.toNat n) (regsFrom w.d.toNat n) w.s1.toNat fun i f v l x =>
    x.localAcc i w.h.la.toNat 8 f w.m.oobt (baseAcc x i f w kind 2).zeros
      (localAddr (x.localSize i.w.team) w.imm.toInt (memSize w) v) (memSize w) true
      fun b => ((baseAcc x i f w kind 2).result b, st l b)

/-- What ATL stores (R277), and what CASL does (R279). -/
def atlStore (w : MemI) (l : List Nat) (b : List Byte) : Option (List Byte) :=
  some (leBytes (memSize w) (atbNew (w.m.fmt.toNat % 8) (8 * memSize w) (leNat b) (word l 0 + 2 ^ 32 * word l 1)))
def caslStore (w : MemI) (l : List Nat) (b : List Byte) : Option (List Byte) :=
  if leNat b = leNat ((l.take (memSize w / 4)).map (leBytes 4)).flatten then
    some (leBytes (memSize w) (leNat ((l.drop (memSize w / 4)).map (leBytes 4)).flatten)) else none

theorem execAtl_eq (w : MemI) (s : State) :
    execAtl w s = .next { s with x := s.x.localAtomic w akAtb (memSize w / 4) (atlStore w) } := rfl
theorem execCasl_eq (w : MemI) (s : State) :
    execCasl w s = .next { s with x := s.x.localAtomic w akCas (2 * (memSize w / 4)) (caslStore w) } := rfl

/-- A local atomic: each fibre's result is what it finds, and it stores `new` of that, or leaves it where that is the same. -/
theorem Exec.localAtomic_wrote (kind n : Nat) (hi : Claim.Issues s i) (hkeys : s.x.waveKeys.Nodup) (hm : s.x.teamOf i.w = some m)
    (ho : i.w.log = [] ∨ w.m.ord.toNat < 2) (hb : Claim.InBudget s i w.h (w.s1.toNat :: regsFrom w.d.toNat n))
    (ha : Claim.Register s i w.h w.s1.toNat a) (hd : ∀ j < n, Claim.Register s i w.h (w.d.toNat + j) (D · j))
    (hok : Claim.LocalOk s i w.h w a m) {new : Nat → Nat → Nat} {st : List Nat → List Byte → Option (List Byte)}
    (hst : ∀ f b, b.length = memSize w →
      st (((List.range n).map (D f)).map BitVec.toNat) b = some (leBytes (memSize w) (new f (leNat b))) ∨
      st (((List.range n).map (D f)).map BitVec.toNat) b = none ∧ new f (leNat b) = leNat b) :
    Claim.Wrote s { s with x := s.x.localAtomic w kind n st } i 8 w.h
      (fun f => Claim.loaded w.d.toNat 0 (memSize w)
        (found (m.mem.get 0) (fun f => (Claim.localAt w a f).toNat) (memSize w) new (i.served w.h) f))
      (Claim.patched (m.mem.get 0) (fun f => (Claim.localAt w a f).toNat) (memSize w) new (i.served w.h)) := by
  refine Exec.perLocal_wrote (la := w.h.la) (res := fun _ old => Claim.loaded w.d.toNat 0 (memSize w) old) hi hkeys hm ho hb ha
    (fun f hf => Exec.mapM_ownRead fun j hj => hd j hj f hf) (fun _ _ => ⟨rfl, rfl⟩) fun f hf y bytes hy => ?_
  obtain ⟨hoff, hclean⟩ := localOk_fibre hok hf
  rw [hy.localSize hm, localAddr_eq, hoff]
  refine hy.localAcc_stores _ _ _ _ _ (fun _ => hclean) fun b hbl hbn => ⟨?_, ?_⟩
  · rw [baseAcc_result, hbn]
  · rw [← hbn]
    exact hst f b hbl

/-- ATL (R277). -/
theorem execAtl_wrote (hi : Claim.Issues s i) (hkeys : s.x.waveKeys.Nodup) (hm : s.x.teamOf i.w = some m)
    (hz : memSize w = 4 ∨ memSize w = 8) (ho : i.w.log = [] ∨ w.m.ord.toNat < 2)
    (hb : Claim.InBudget s i w.h (w.s1.toNat :: regsFrom w.d.toNat (memSize w / 4))) (ha : Claim.Register s i w.h w.s1.toNat a)
    (hd : ∀ j < memSize w / 4, Claim.Register s i w.h (w.d.toNat + j) (D · j)) (hok : Claim.LocalOk s i w.h w a m)
    {new : Nat → Nat → Nat} (hnew : ∀ f old, new f old = (Claim.atomicOp (w.m.fmt.toNat % 8) (BitVec.ofNat (8 * memSize w) old)
      (BitVec.ofNat (8 * memSize w) (Claim.stored 0 ((List.range (memSize w / 4)).map (D f))))).toNat) :
    ∃ t, execAtl w s = .next t ∧ Claim.Wrote s t i 8 w.h (fun f => Claim.loaded w.d.toNat 0 (memSize w)
        (found (m.mem.get 0) (fun f => (Claim.localAt w a f).toNat) (memSize w) new (i.served w.h) f))
      (Claim.patched (m.mem.get 0) (fun f => (Claim.localAt w a f).toNat) (memSize w) new (i.served w.h)) := by
  refine ⟨_, execAtl_eq w s, Exec.localAtomic_wrote _ _ hi hkeys hm ho hb ha hd hok fun f b hbl => .inl ?_⟩
  have hlen : ((List.range (memSize w / 4)).map (D f)).length = memSize w / 4 := by simp
  have hpow : 256 ^ memSize w = 2 ^ (8 * memSize w) := by rw [show 256 = 2 ^ 8 from rfl, ← Nat.pow_mul]
  have hx := stored_lt ((List.range (memSize w / 4)).map (D f))
  have hold := leNat_lt b
  rw [hlen, show 4 * (memSize w / 4) = memSize w by omega, hpow] at hx
  rw [hbl, hpow] at hold
  rw [atlStore, word_add_word _ (by rw [hlen]; omega), atbNew_eq _ _ _ _ (Nat.mod_lt _ (by decide)) (by omega) hold hx, hnew]

/-- CASL (R279). -/
theorem execCasl_wrote (hi : Claim.Issues s i) (hkeys : s.x.waveKeys.Nodup) (hm : s.x.teamOf i.w = some m)
    (ho : i.w.log = [] ∨ w.m.ord.toNat < 2)
    (hb : Claim.InBudget s i w.h (w.s1.toNat :: regsFrom w.d.toNat (2 * (memSize w / 4)))) (ha : Claim.Register s i w.h w.s1.toNat a)
    (hd : ∀ j < 2 * (memSize w / 4), Claim.Register s i w.h (w.d.toNat + j) (D · j)) (hok : Claim.LocalOk s i w.h w a m)
    {new : Nat → Nat → Nat} (hnew : ∀ f old, new f old = if old = Claim.stored 0 ((List.range (memSize w / 4)).map (D f))
      then Claim.stored 0 ((List.range (memSize w / 4)).map fun j => D f (memSize w / 4 + j)) else old) :
    ∃ t, execCasl w s = .next t ∧ Claim.Wrote s t i 8 w.h (fun f => Claim.loaded w.d.toNat 0 (memSize w)
        (found (m.mem.get 0) (fun f => (Claim.localAt w a f).toNat) (memSize w) new (i.served w.h) f))
      (Claim.patched (m.mem.get 0) (fun f => (Claim.localAt w a f).toNat) (memSize w) new (i.served w.h)) := by
  refine ⟨_, execCasl_eq w s, Exec.localAtomic_wrote _ _ hi hkeys hm ho hb ha hd hok fun f b _ => ?_⟩
  have htake : (List.range (2 * (memSize w / 4))).take (memSize w / 4) = List.range (memSize w / 4) := by
    rw [List.take_range, Nat.min_eq_left (by omega)]
  have hdrop : (List.range (2 * (memSize w / 4))).drop (memSize w / 4) = (List.range (memSize w / 4)).map (memSize w / 4 + ·) := by
    rw [Nat.two_mul, List.range_add, List.drop_left' (by simp)]
  have hcmp : leNat (((((List.range (2 * (memSize w / 4))).map (D f)).map BitVec.toNat).take (memSize w / 4)).map (leBytes 4)).flatten =
      Claim.stored 0 ((List.range (memSize w / 4)).map (D f)) := by
    rw [← List.map_take, ← List.map_take, htake, leNat_flatten]
  have hswap : leNat (((((List.range (2 * (memSize w / 4))).map (D f)).map BitVec.toNat).drop (memSize w / 4)).map (leBytes 4)).flatten =
      Claim.stored 0 ((List.range (memSize w / 4)).map fun j => D f (memSize w / 4 + j)) := by
    rw [← List.map_drop, ← List.map_drop, hdrop, List.map_map (f := (memSize w / 4 + ·)), leNat_flatten]
    rfl
  rw [caslStore, hcmp, hswap, hnew]
  by_cases h : leNat b = Claim.stored 0 ((List.range (memSize w / 4)).map (D f))
  · rw [if_pos h, if_pos h]
    exact .inl rfl
  · rw [if_neg h, if_neg h]
    exact .inr ⟨rfl, rfl⟩

end Sys2Proof.Machine
end

section
/-! PROOFS. Why the statement on local stores fails as it stands: nothing in it says that each wave is listed once. -/

namespace Sys2Proof.Proofs

open Sys2Proof.Machine Sys2Proof.Claim

/-- A wave held at an instruction that has still to write, under a lookahead window: V3 of its fibre 0 is to become 5 (R198). -/
def lateWave : Wave :=
  { team := 0, idx := 1, role := 0, quad := 0, fibs := [(0, { wins := [⟨0, 1, [(3, 5)], []⟩] })],
    hold := some .commit, passing := some (false, [(0, [0])]) }
/-- A wave held on a barrier whose generation has moved on (R220). -/
def metWave : Wave := { team := 0, idx := 1, role := 0, quad := 0, fibs := [], hold := some (.barrier 0 1) }
/-- The wave that issues, and its group of one fibre. -/
def issuingWave : Wave := { team := 0, idx := 0, role := 0, quad := 0, fibs := [(0, { st := .ready })] }
def issuing : Iss := ⟨0, issuingWave, 0, [0]⟩
/-- The one team, of a grid whose launch record is all ones: its allocation has 0x01010101 bytes. -/
def soleTeam : Team := { grid := 0, idx := 0, st := .resident }
/-- A machine that lists wave 1 twice: the entry that a read finds is late, the one behind it is on the barrier. -/
def listedTwice : State := { State.reset with x := {
  grids := [(0, { ctx := 0, queue := 0, seq := 0, id := 0, lrec := List.replicate 128 1, recs := [] })]
  teams := [(0, soleTeam)]
  waves := [(0, issuingWave), (1, lateWave), (1, metWave)]
  cur := some { wave := 0, pc := 0, count := 0, fmts := [], len := 0, raw := 0 } } }
/-- STL of one byte, from V0 to the offset in V0. -/
def storeByte : MemI := ⟨⟨false, 7, 0, false⟩, ⟨false, 0, 0, 2, 0, 0⟩, 0, 0, 0, 0⟩

theorem listedTwice_issues : Issues listedTwice issuing :=
  ⟨by decide +kernel, by decide +kernel, by decide +kernel, by decide +kernel⟩

/-- The store closes the late entry's window: V3 of wave 1, which does not issue, becomes 5. -/
theorem listedTwice_stl {t : State} (h : exec (.stl storeByte) listedTwice = .next t) : t.x.slotReg 1 0 3 = 5 := by
  have e : (match exec (.stl storeByte) listedTwice with
    | .next t => t.x.slotReg 1 0 3
    | _ => 0) = 5 := by decide +kernel
  rw [h] at e
  exact e

/-- Refutes O30: the statement does not ask that each wave be listed once. In `listedTwice` the barrier entry of wave 1 is met,
so the store ends the hold of wave 1; the entry found under that number is the late one, and its window closes, which writes a
register of a wave that does not issue. Where each wave is listed once the clauses do hold: `Exec.localStore_wrote` (STL and
STL_C), `execAtl_wrote` and `execCasl_wrote`. -/
theorem not_localWrites : ¬ Obligations.LocalWrites := by
  intro h
  obtain ⟨hstl, -, -⟩ := h listedTwice issuing storeByte (fun _ => 0) soleTeam 0 (fun _ _ => 0)
    listedTwice_issues (by decide +kernel) (by decide +kernel) (by decide) (.inl rfl)
  obtain ⟨t, ht, hw⟩ := hstl (by decide +kernel) (by decide +kernel)
  have hreg := hw.regs 1 0 3 (by decide)
  rw [listedTwice_stl ht] at hreg
  exact absurd hreg (by decide +kernel)

end Sys2Proof.Proofs
end

section
/-! PROOFS. A response of retry, and why the statement on verdicts fails as it stands: a walker keeps the records that it
translates for in rising order, not in the order in which they joined it (02 R42, R50). -/

namespace Sys2Proof.Machine

theorem exec_faultRetry (c : Nat) (seq : BitVec 32) (s : State) : exec (.faultRetry c seq) s = execFaultRetry c seq s := rfl

/-- A retry walks for the record that its sequence number names (R42). -/
theorem execFaultRetry_walk {s : State} {c : Nat} {seq : BitVec 32} {r : FaultRec} (hr : s.x.recordOf c seq.toNat = some r) :
    execFaultRetry c seq s =
      .next { (s.walk c r).modX fun x => x.post 1 .launchDispatch with trust := s.trust } := by
  simp only [execFaultRetry, State.onMem, hr]

/-- A record of a granule that a walker of its die walks joins that walker, in the order of the records' numbers (R50). -/
theorem State.walk_joins {s : State} {c : Nat} {r : FaultRec} {w : Walker}
    (hw : s.mem.walks.find? (fun w => decide (w.die = dieOf r.core ∧ w.ctx = c ∧ w.granule = r.granule)) = some w) :
    s.walk c r = s.modM fun m => { m with walks := m.walks.map fun v =>
      if v.id = w.id then { v with recs := setAdd v.recs r.id } else v } := by
  simp only [State.walk, hw]

/-- The walkers after a retry whose record joins one of them. -/
theorem walks_of_faultRetry {s t : State} {c : Nat} {seq : BitVec 32} {r : FaultRec} {w : Walker}
    (hr : s.x.recordOf c seq.toNat = some r)
    (hw : s.mem.walks.find? (fun w => decide (w.die = dieOf r.core ∧ w.ctx = c ∧ w.granule = r.granule)) = some w)
    (ht : exec (.faultRetry c seq) s = .next t) :
    t.mem.walks = s.mem.walks.map fun v => if v.id = w.id then { v with recs := setAdd v.recs r.id } else v := by
  rw [exec_faultRetry, execFaultRetry_walk hr, State.walk_joins hw] at ht
  cases ht
  rfl

end Sys2Proof.Machine

namespace Sys2Proof.Proofs

open Sys2Proof.Machine Sys2Proof.Claim

/-- A load and a store have met the same granule, which no page maps: each posted its record (R41). -/
def loadFault : FaultRec :=
  { id := 5, seq := 0, posted := true, granule := 4, write := false, kind := 0, va := 0x40000, core := 0, slot := 0 }
def storeFault : FaultRec := { loadFault with id := 7, seq := 1, write := true, kind := 1 }
def faultingCtx : Ctx :=
  { owner := 1, errSize := 16, errBase := 2 ^ 63, errStat := 2 ^ 63 + 1024, imgBase := 0, imgSize := 65536, fqSeq := 2,
    faults := [loadFault, storeFault] }
/-- The walker of the store's record, which was answered with retry first. -/
def storeWalker : Walker :=
  { id := 9, die := 0, core := 0, ctx := 1, granule := 4, write := true, descs := [], recs := [7] }
def storeRetried : State :=
  { State.reset with mem := { walks := [storeWalker] }, x := { ctxs := [(1, faultingCtx)], fresh := 10 } }

/-- Refutes O48: the statement puts a record that joins a walker behind the walker's other records, but a walker keeps them in
rising order of their numbers. In `storeRetried` the page manager answers the later record of a granule first: the retry of the
earlier one, number 5, leaves the walker the records 5 and 7, where the statement asks for 7 and 5. `walks_of_faultRetry` is what
holds of every such retry. -/
theorem not_faultsAndPaging : ¬ Obligations.FaultsAndPaging := by
  rintro ⟨⟨hverdicts, -⟩, -⟩
  obtain ⟨-, hretry⟩ := hverdicts storeRetried 1 0
  have hrec : storeRetried.x.recordOf 1 (0 : BitVec 32).toNat = some loadFault := by decide
  obtain ⟨-, hjoin, -⟩ := hretry loadFault faultingCtx hrec rfl
  have honly : ∀ v ∈ storeRetried.mem.walks, v = storeWalker := fun v hv => List.mem_singleton.1 hv
  obtain ⟨t, ht, -, -, -, hmem⟩ := hjoin storeWalker (List.mem_singleton.2 rfl)
    (fun v hv => ⟨fun _ => honly v hv, fun e => e ▸ by decide⟩) fun v hv _ => honly v hv
  have hwalks := walks_of_faultRetry hrec (w := storeWalker) (by decide) ht
  rw [hmem] at hwalks
  exact absurd hwalks (by decide)

end Sys2Proof.Proofs
end

section
/-! PROOFS. Why the statement on queue commands fails as it stands: a team that PREEMPT stops leaves its places in its core's
matrix queue, and a wave that waits for one goes on (15 R312, R314, 16 R331, 17 R343). -/

namespace Sys2Proof.Proofs

open Sys2Proof.Machine Sys2Proof.Claim

/-- The PREEMPT entry that names launch 1 of its context (R320). -/
def preemptEntry : List Byte := leBytes 8 4 ++ leBytes 8 1 ++ List.replicate 48 0
/-- A queue in host memory whose only unread entry is its first. -/
def preemptQueue : Queue := { ceil := 5, size := 16, base := 2 ^ 63, head := 2 ^ 63 + 0x3000, tail := 1 }
def preemptCtx : Ctx :=
  { owner := 1, errSize := 16, errBase := 2 ^ 63 + 0x4000, errStat := 2 ^ 63 + 0x5000, imgBase := 0, imgSize := 65536,
    queues := [(0, preemptQueue)] }
/-- Launches 1 and 2 of the context, each with one team on core 0. -/
def launched (id : Nat) : Grid := { ctx := 1, queue := 0, seq := 0, id := id, lrec := List.replicate 256 0, recs := [] }
def residentOf (g : Nat) : Team := { grid := g, idx := 0, st := .resident }
/-- One of the operations of team 1 that fill its core's queue. -/
def startedOp (k : Nat) : MxOp :=
  { id := 10 + k, team := 1, wave := 3, core := 0, major := mjTZERO, m := 0, d := 0, words := [], a := [], specs := (0, 0),
    det := false, begun := false, held := [], sc := 0, bad := false, order := k, blk := [] }
/-- The wave of team 2, held at a start that found the queue full (R312). -/
def waitingWave : Wave := { team := 2, idx := 0, role := 0, quad := 0, fibs := [(0, { st := .ready })], hold := some (.retry rvMatrix) }
def queueFull : State := { State.reset with
  mem := { host := putBytes [] 0 preemptEntry }
  x := { ctxs := [(1, preemptCtx)], grids := [(1, launched 1), (2, launched 2)], teams := [(1, residentOf 1), (2, residentOf 2)],
         waves := [(4, waitingWave)], mxs := (List.range 32).map startedOp, fresh := 50 } }

theorem queueFull_entry : Entry queueFull 1 0 preemptQueue preemptEntry :=
  ⟨by decide +kernel, rfl, rfl, by decide +kernel, by decide +kernel, by decide +kernel⟩

/-- Team 2's wave waits for a place and goes on when PREEMPT has stopped team 1. -/
theorem queueFull_preempt {t : State} (h : exec (.preempt 1 0) queueFull = .next t) : t.x.waves ≠ queueFull.x.waves := by
  have e : (match exec (.preempt 1 0) queueFull with
    | .next t => (t.x.wave? 4).map Wave.hold
    | _ => none) = some none := by decide +kernel
  rw [h] at e
  intro hw
  simp only [Exec.wave?, hw] at e
  exact absurd e (by decide)

/-- Refutes O49: the statement asks of every queue command that it leaves the waves as they are, but PREEMPT frees what the teams
it stops held. In `queueFull` the operations of the pre-empted team fill its core's matrix queue and a wave of another launch is
held for a place: PREEMPT stops the team, and that wave is held no more. -/
theorem not_submissionAndLaunch : ¬ Obligations.SubmissionAndLaunch := by
  rintro ⟨⟨-, hcommands⟩, -⟩
  obtain ⟨-, -, -, -, -, hpreempt⟩ := hcommands queueFull 1 0 preemptQueue preemptEntry preemptCtx queueFull_entry rfl
  obtain ⟨t, ht, -, hwaves, -⟩ := hpreempt (by decide +kernel)
  exact queueFull_preempt ht hwaves

end Sys2Proof.Proofs
end

section
/-! PROOFS. Why the statement on global loads fails as it stands: nothing in its column clause says that the record's swizzle
mode is one that a record may have (01 R15, R20, 14 R280). -/

namespace Sys2Proof.Proofs

open Sys2Proof.Machine Sys2Proof.Claim

/-- A record of type 2 over 4 KiB at 0, of 4-byte elements, with the right to read, scope `.team` and the swizzle mode 5, which
R15 does not allow. -/
def mode5Record : BitVec 128 :=
  BitVec.ofNat 128 (4096 * 2 ^ 48 + 5 * 2 ^ 104 + 3 * 2 ^ 112 + 2 ^ 115 + 2 * 2 ^ 120 + 2 * 2 ^ 124)
/-- A valid page entry of the granule at 0, and where byte 256 of it lies. -/
def readPage : Nat := 1
def byte256 : Loc := ⟨false, 256, 0, keyNumber 1, false, 0, 256, false⟩
/-- A machine whose one wave has a translation for that granule, and whose memory is zero but for byte 272. -/
def mode5State : State :=
  { trust := { Trust.reset with keys := [(4, 1)] }
    mem := { dev := [(272, 7)], tlbs := [⟨0, 1, 0, 0, readPage, 0⟩] }
    x := {
      grids := [(0, { ctx := 1, queue := 0, seq := 0, id := 0, lrec := List.replicate 128 1, recs := [mode5Record] })]
      teams := [(0, soleTeam)]
      waves := [(0, issuingWave)]
      cur := some { wave := 0, pc := 0, count := 0, fmts := [], len := 0, raw := 0 } } }
/-- LDSQ along columns of one element, at the element V0 + 64: offset 256. -/
def columnElement : MemI := ⟨⟨false, 7, 0, false⟩, ⟨false, 0, 0, 0, 2, 2⟩, 64, 0, 0, 0⟩

theorem mode5State_issues : Issues mode5State issuing :=
  ⟨by decide +kernel, by decide +kernel, by decide +kernel, by decide +kernel⟩

theorem mode5State_reaches : Reaches mode5State ⟨0, 1, 0⟩ { host := false } 256 byte256 :=
  ⟨by decide, rfl, ⟨0, 1, 0, 0, readPage, 0⟩, by decide +kernel, by decide +kernel, fun h => absurd h (by decide),
    by decide +kernel⟩

/-- The load takes the mode to be 1, and reads byte 272. -/
theorem mode5State_ldsq {t : State} (h : exec (.ldsq columnElement) mode5State = .next t) : t.x.slotReg 0 0 0 = 7 := by
  have e : (match exec (.ldsq columnElement) mode5State with
    | .next t => t.x.slotReg 0 0 0
    | _ => 0) = 7 := by decide +kernel
  rw [h] at e
  exact e

/-- Refutes O31: the clause on column loads does not ask that the record is one that R15 loads. The record of `mode5State` has
swizzle mode 5: the address that it checks is then not swizzled, and the statement asks for the word at 256, but an access keeps
two bits of the mode, reads its element as mode 1 places it, and finds the word at 272. -/
theorem not_globalLoads : ¬ Obligations.GlobalLoads := by
  rintro ⟨-, hcolumn⟩
  obtain ⟨t, ht, -, -, hserved⟩ := hcolumn mode5State issuing columnElement 0 0 byte256 mode5State_issues (by decide +kernel) rfl
    (by decide +kernel) (by decide) (by decide) (by decide +kernel) (by decide +kernel) (by decide +kernel) (.inl rfl)
    (by decide +kernel) (by decide +kernel) (by decide +kernel) (by decide +kernel) (by decide +kernel) (by decide +kernel)
    (by decide +kernel) (by decide +kernel) (by decide +kernel) mode5State_reaches (by decide +kernel) (by decide +kernel)
    (by decide +kernel)
  have hreg := hserved.regs 0 0 0 (by decide)
  rw [mode5State_ldsq ht] at hreg
  exact absurd hreg (by decide +kernel)

end Sys2Proof.Proofs
end

section
/-! PROOFS. What the path of a sector leaves alone: no step of it touches a wave, and the L2 and its directory touch no byte, no
L1 and no request (03 R69 to R74, 04 R77 to R87). -/

namespace Sys2Proof.Machine

/-- A fold whose steps keep something keeps it. -/
theorem foldl_keeps {α β γ : Type} (g : β → γ) {f : β → α → β} (h : ∀ b a, g (f b a) = g b) (l : List α) (b : β) :
    g (l.foldl f b) = g b := by
  induction l generalizing b with
  | nil => rfl
  | cons a l ih => rw [List.foldl_cons, ih, h]

@[simp] theorem Exec.waves_count (x : Exec) (ctx die idx n : Nat) : (x.count ctx die idx n).waves = x.waves := by
  unfold Exec.count
  split <;> rfl
@[simp] theorem Exec.waves_countReq (x : Exec) (o : Who) (l : Loc) : (x.countReq o l).waves = x.waves := x.waves_count ..

/-! ### The L2 and its directory -/

/-- The memory system without the squares of the L2 and what is kept with them: the remote-data caches, causeways, hints, tidal
trackers and residency handles. -/
def MemSys.offL2 (m : MemSys) : MemSys := { m with sqs := [], rdc := [], cways := [], hints := [], tracks := [], resh := [] }

/-- What a step within the L2 leaves alone: the rest of the memory system, and the waves. -/
def State.besideL2 (s : State) : MemSys × SMap Wave := (s.mem.offL2, s.x.waves)

theorem State.besideL2_modM {s : State} {f : MemSys → MemSys} (h : (f s.mem).offL2 = s.mem.offL2) :
    (s.modM f).besideL2 = s.besideL2 := Prod.ext h rfl
theorem State.besideL2_modX {s : State} {f : Exec → Exec} (h : (f s.x).waves = s.x.waves) :
    (s.modX f).besideL2 = s.besideL2 := Prod.ext rfl h

theorem State.besideL2_ite {c : Prop} [Decidable c] {s t u : State} (ht : t.besideL2 = s.besideL2)
    (hu : u.besideL2 = s.besideL2) : (if c then t else u).besideL2 = s.besideL2 := by
  split
  · exact ht
  · exact hu

section
variable {s t : State} (h : t.besideL2 = s.besideL2)
include h

theorem State.dev_of_besideL2 : t.mem.dev = s.mem.dev := congrArg (fun p => p.1.dev) h
theorem State.host_of_besideL2 : t.mem.host = s.mem.host := congrArg (fun p => p.1.host) h
theorem State.sealed_of_besideL2 : t.mem.sealed = s.mem.sealed := congrArg (fun p => p.1.sealed) h
theorem State.pois_of_besideL2 : t.mem.pois = s.mem.pois := congrArg (fun p => p.1.pois) h
theorem State.unc_of_besideL2 : t.mem.unc = s.mem.unc := congrArg (fun p => p.1.unc) h
theorem State.l1_of_besideL2 : t.mem.l1 = s.mem.l1 := congrArg (fun p => p.1.l1) h
theorem State.reqs_of_besideL2 : t.mem.reqs = s.mem.reqs := congrArg (fun p => p.1.reqs) h
theorem State.waves_of_besideL2 : t.x.waves = s.x.waves := congrArg Prod.snd h

end

@[simp] theorem MemSys.offL2_modSq (m : MemSys) (sq : Nat) (f : Sq → Sq) : (m.modSq sq f).offL2 = m.offL2 := rfl

@[simp] theorem MemSys.offL2_dropSharers (m : MemSys) (sq : Nat) : (m.dropSharers sq).offL2 = m.offL2 := by
  unfold dropSharers
  split
  · rfl
  · rw [offL2_modSq]
    exact foldl_keeps MemSys.offL2 (f := fun m d => m.rdcDropSq d sq) (fun _ _ => rfl) _ m

@[simp] theorem State.besideL2_evictSq (s : State) (q : Sq) : (s.evictSq q).besideL2 = s.besideL2 := by
  have hdrop : (s.modM fun m =>
      let m := m.dropSharers q.id
      { m with sqs := m.sqs.erase q.id
               cways := m.cways.filter fun c => !decide (c.sq = q.id)
               hints := m.hints.filter fun c => !decide (c.sq = q.id) }).besideL2 = s.besideL2 :=
    State.besideL2_modM (s.mem.offL2_dropSharers q.id)
  unfold State.evictSq
  dsimp only
  split
  · exact hdrop
  · split
    · exact hdrop
    · refine (State.besideL2_modX (Exec.waves_count ..)).trans (Eq.trans ?_ hdrop)
      exact State.besideL2_modM rfl

@[simp] theorem State.besideL2_sqRoomGo (n : Nat) (s : State) (slice id : Nat) :
    (State.sqRoomGo n s slice id).besideL2 = s.besideL2 := by
  induction n generalizing s slice id with
  | zero => rfl
  | succ n ih =>
    unfold State.sqRoomGo
    split
    · rfl
    split
    · rfl
    · dsimp only
      split
      · exact s.besideL2_evictSq _
      · split
        · exact (State.besideL2_modM rfl).trans (ih ..)
        · exact (State.besideL2_evictSq ..).trans (ih ..)

@[simp] theorem State.besideL2_sqRoom (s : State) (slice id : Nat) : (s.sqRoom slice id).besideL2 = s.besideL2 :=
  State.besideL2_sqRoomGo ..

@[simp] theorem State.besideL2_tidalCount (s : State) (sq core : Nat) : (s.tidalCount sq core).besideL2 = s.besideL2 := by
  unfold State.tidalCount
  split
  · rfl
  · refine State.besideL2_ite rfl ?_
    dsimp only
    split
    · exact State.besideL2_ite ((State.besideL2_modX (Exec.waves_post ..)).trans rfl) rfl
    · rfl

@[simp] theorem State.besideL2_sqAlloc (s : State) (ctx : Nat) (l : Loc) (col : Bool) (width : Nat) :
    (s.sqAlloc ctx l col width).besideL2 = s.besideL2 := by
  have hevict : (match s.mem.sqs.find? (l.sec / 32) with
      | some q => s.evictSq q
      | none => s).besideL2 = s.besideL2 := by
    split
    · exact s.besideL2_evictSq _
    · rfl
  have hroom := (State.besideL2_sqRoom _ (sliceOf (l.sec / 32)) (l.sec / 32)).trans hevict
  unfold State.sqAlloc
  exact State.besideL2_ite ((State.besideL2_modM rfl).trans hroom) hroom

@[simp] theorem State.besideL2_sqTouch (s : State) (core ctx : Nat) (l : Loc) (req col : Bool) (width : Nat) (need wr : BitVec 32) :
    (s.sqTouch core ctx l req col width need wr).besideL2 = s.besideL2 := by
  have halloc : (if (s.mem.sqs.find? (l.sec / 32)).any fun q => decide (q.key = l.key) then s
      else s.sqAlloc ctx l col width).besideL2 = s.besideL2 := State.besideL2_ite rfl (s.besideL2_sqAlloc ..)
  unfold State.sqTouch
  dsimp only
  generalize (if (s.mem.sqs.find? (l.sec / 32)).any fun q => decide (q.key = l.key) then s
    else s.sqAlloc ctx l col width) = a at halloc ⊢
  split
  · exact halloc
  next q _ =>
    have hmod := (State.besideL2_modM (s := a.stamp.2) (f := fun m => m.modSq (l.sec / 32) fun _ => q) rfl).trans halloc
    have hturn {c : Bool} {t : State} (ht : t.besideL2 = s.besideL2) :
        (if c then t.modX fun x => x.post 16 (.squareTurn (l.sec / 32)) else t).besideL2 = s.besideL2 :=
      State.besideL2_ite ((State.besideL2_modX (Exec.waves_post ..)).trans ht) ht
    have hcount {p : Prop} [Decidable p] {t : State} (ht : t.besideL2 = s.besideL2) :
        (if p then t.modX fun x => x.count ctx (l.sec / 32 / 2 ^ 28) 5 1 else t).besideL2 = s.besideL2 :=
      State.besideL2_ite ((State.besideL2_modX (Exec.waves_count ..)).trans ht) ht
    have htidal {t : State} (ht : t.besideL2 = s.besideL2) :
        (if req then t.tidalCount (l.sec / 32) core else t).besideL2 = s.besideL2 :=
      State.besideL2_ite ((t.besideL2_tidalCount ..).trans ht) ht
    exact htidal (hcount (hturn hmod))

end Sys2Proof.Machine
end

section
/-! PROOFS. Requests, write-backs and invalidations: what each step of them leaves alone, and what it does to the waves, which is
nothing (03 R57 to R59, R73, R74, 04 R80 to R82). -/

namespace Sys2Proof.Machine

/-! ### The waves, step by step -/

@[simp] theorem State.waves_sqTouch (s : State) (core ctx : Nat) (l : Loc) (req col : Bool) (width : Nat) (need wr : BitVec 32) :
    (s.sqTouch core ctx l req col width need wr).x.waves = s.x.waves := State.waves_of_besideL2 (s.besideL2_sqTouch ..)

@[simp] theorem State.waves_detect (s : State) (sec pa ctx : Nat) : (s.detect sec pa ctx).x.waves = s.x.waves := by
  unfold State.detect
  split <;> rfl

@[simp] theorem State.waves_sendInvals (s : State) (sec die tok : Nat) : (s.sendInvals sec die tok).x.waves = s.x.waves := by
  unfold State.sendInvals
  split
  · rfl
  · exact foldl_keeps (fun t : State => t.x.waves) (fun t d => Exec.waves_post ..) _ s

@[simp] theorem State.waves_performReq (s : State) (r : Req) : (s.performReq r).x.waves = s.x.waves := by
  unfold State.performReq
  dsimp only
  rw [waves_sendInvals, modM_x, waves_sqTouch]
  split
  · rfl
  · exact s.waves_detect ..

@[simp] theorem State.waves_drainSq (s : State) (sq : Nat) : (s.drainSq sq).x.waves = s.x.waves :=
  foldl_keeps (fun t : State => t.x.waves) State.waves_performReq _ s

@[simp] theorem State.waves_send (s : State) (core ctx : Nat) (l : Loc) (mask : Nat) (data : List Byte) (pois : Option Bool)
    (src : ReqSrc) : (s.send core ctx l mask data pois src).x.waves = s.x.waves := by
  unfold State.send
  split
  · rfl
  · dsimp only
    rw [Exec.waves_post]
    split <;> rfl

@[simp] theorem State.waves_invalArrive (s : State) (die sec : Nat) : (s.invalArrive die sec).x.waves = s.x.waves := by
  unfold State.invalArrive
  split
  · exact Exec.waves_post ..
  · rfl

@[simp] theorem State.waves_invalAck (s : State) (die sec : Nat) : (s.invalAck die sec).x.waves = s.x.waves := by
  unfold State.invalAck
  split <;> rfl

@[simp] theorem State.waves_drainInvals (s : State) (p : Inval → Bool) : (s.drainInvals p).x.waves = s.x.waves :=
  foldl_keeps (fun t : State => t.x.waves) (fun t k => by rw [waves_invalAck, waves_invalArrive]) _ s

@[simp] theorem State.waves_drainCore (s : State) (core : Nat) : (s.drainCore core).x.waves = s.x.waves := by
  unfold State.drainCore
  rw [waves_drainInvals]
  exact foldl_keeps (fun t : State => t.x.waves) State.waves_drainSq _ s

@[simp] theorem State.waves_writeBack (s : State) (c : L1Sec) (src : ReqSrc) : (s.writeBack c src).x.waves = s.x.waves := by
  unfold State.writeBack
  split
  · rfl
  · exact s.waves_send ..

@[simp] theorem State.waves_writeBackIf (s : State) (core : Nat) (p : L1Sec → Bool) (src : ReqSrc) :
    (s.writeBackIf core p src).x.waves = s.x.waves :=
  foldl_keeps (fun t : State => t.x.waves) (fun t c => t.waves_writeBack c src) _ s

@[simp] theorem State.waves_release (s : State) (core : Nat) : (s.release core).x.waves = s.x.waves := by
  unfold State.release State.l1Flush
  rw [waves_drainCore, waves_writeBackIf]

@[simp] theorem State.waves_fetch (s : State) (core ctx hint : Nat) (l : Loc) (req rdc : Bool) :
    (s.fetch core ctx hint l req rdc).1.x.waves = s.x.waves := by
  have hhome (t : State) : (((t.drainSq (l.sec / 32)).detect l.sec l.pa ctx).sqTouch core ctx l req false 0 (rowBit l.sec) 0).x.waves =
      t.x.waves := by rw [waves_sqTouch, waves_detect, waves_drainSq]
  unfold State.fetch
  dsimp only
  split
  · exact hhome s
  · cases hr : s.mem.rdcFind (dieOf core) l.sec l.key with
    | none =>
      simp only [hr]
      split
      · exact hhome s
      · exact (Exec.waves_post ..).trans ((Exec.waves_count ..).trans (hhome s))
    | some r =>
      have hfill : (if r.valid = true then s else s.modM fun m => m.rdcArrive (dieOf core) l.sec).x.waves = s.x.waves := by
        split <;> rfl
      simp only
      generalize (if r.valid = true then s else s.modM fun m => m.rdcArrive (dieOf core) l.sec) = a at hfill ⊢
      split
      · exact (Exec.waves_count ..).trans hfill
      · split
        · exact (hhome a).trans hfill
        · exact (Exec.waves_post ..).trans ((Exec.waves_count ..).trans ((hhome a).trans hfill))

/-! ### Translation -/

@[simp] theorem State.waves_badProbe (s : State) (core c slot : Nat) : (s.badProbe core c slot).x.waves = s.x.waves := by
  unfold State.badProbe
  dsimp only
  split
  · exact s.waves_detect ..
  · rfl

@[simp] theorem State.waves_tlbUse (s : State) (c va : Nat) (n : Need) (t : Tlb) : (s.tlbUse c va n t).1.x.waves = s.x.waves := by
  unfold State.tlbUse
  split
  · rfl
  · split
    · dsimp only
      split <;> rfl
    · rfl

@[simp] theorem State.waves_translateOnce (s : State) (core c va : Nat) (n : Need) :
    (s.translateOnce core c va n).1.x.waves = s.x.waves := by
  unfold State.translateOnce
  split
  · exact s.waves_tlbUse ..
  · split
    · exact State.waves_tlbUse ..
    · rfl

@[simp] theorem State.waves_translateWalk (s : State) (core c va : Nat) (n : Need) (descs : SMap Nat) :
    (s.translateWalk core c va n descs).1.x.waves = s.x.waves := by
  unfold State.translateWalk
  split
  · rfl
  · split
    · exact s.waves_badProbe ..
    · rfl
    · dsimp only
      split
      · rfl
      · split
        · rfl
        · dsimp only
          split <;> rfl

@[simp] theorem State.waves_translate (s : State) (core c va : Nat) (n : Need) : (s.translate core c va n).1.x.waves = s.x.waves := by
  unfold State.translate
  split
  · rfl
  · dsimp only
    split
    · exact s.waves_translateOnce ..
    · rw [waves_translateWalk, waves_translateOnce]

/-! ### Lines of code -/

@[simp] theorem State.waves_readLine (s : State) (core ctx line : Nat) (wait : Bool) :
    (s.readLine core ctx line wait).1.x.waves = s.x.waves := by
  unfold State.readLine
  dsimp only
  split
  · exact s.waves_translate ..
  · exact s.waves_translate ..
  next l _ =>
    refine (foldl_keeps (fun r : State × List Byte × Nat => r.1.x.waves) (fun r k => ?_) _ _).trans (s.waves_translate ..)
    split
    · rfl
    · dsimp only
      split
      · exact State.waves_fetch ..
      · exact State.waves_fetch ..

@[simp] theorem State.waves_iFill (s : State) (us : List Nat) (core ctx line : Nat) (data : List Byte) (bad : Nat) :
    (s.iFill us core ctx line data bad).x.waves = s.x.waves := rfl

@[simp] theorem State.waves_fetchAhead (s : State) (core ctx va len : Nat) : (s.fetchAhead core ctx va len).x.waves = s.x.waves := by
  refine foldl_keeps (fun q : State × List Nat => q.1.x.waves) (fun q k => ?_) _ (s, [])
  dsimp only
  split
  · rfl
  · split
    · rfl
    · split
      · rfl
      · split
        · exact q.1.waves_readLine ..
        · exact q.1.waves_readLine ..
        · exact q.1.waves_readLine ..

end Sys2Proof.Machine
end

section
/-! PROOFS. What a write-back, a request at the home slice and a write of a sector leave (03 R59, R62, R73, R74, 26 R401). -/

namespace Sys2Proof.Machine

/-! ### A sector written under a key -/

theorem MemSys.length_sector (m : MemSys) (key sec : Nat) : (m.sector key sec).length = 32 := by simp [sector]

/-- What an access reads depends on the bytes and on how they were written last. -/
theorem MemSys.byteAt_congr {m n : MemSys} (hd : n.dev = m.dev) (hs : n.sealed = m.sealed) : n.byteAt = m.byteAt := by
  have hseal : n.sealOf = m.sealOf := by funext sec; rw [sealOf, hs, sealOf]
  have hstored : n.stored = m.stored := by
    funext sec
    simp only [stored, unit, hseal, hd]
  funext key sa
  simp only [byteAt, hseal, hstored, hd]

theorem MemSys.sector_congr {m n : MemSys} (h : n.byteAt = m.byteAt) : n.sector = m.sector := by
  funext key sec
  simp only [sector, h]

theorem MemSys.dev_putSector (m : MemSys) (key sec mask : Nat) (data : List Byte) (p : Option Bool) :
    (m.putSector key sec mask data p).dev = putBytes m.dev (32 * sec) (mergeBytes mask (m.sector key sec) data) := by
  unfold putSector
  dsimp only
  split <;> rfl

theorem MemSys.sealOf_putSector {m : MemSys} {key : Nat} (hk : key ≠ 0) (sec mask a : Nat) (data : List Byte) (p : Option Bool) :
    (m.putSector key sec mask data p).sealOf a = if a = sec then key else m.sealOf a := by
  have h : (m.putSector key sec mask data p).sealed = m.sealed.put 0 sec key := by
    unfold putSector
    simp only [hk, if_false]
    split <;> rfl
  rw [sealOf, h, SMap.get_put]
  rfl

/-- A write of a sector writes no byte of another. -/
theorem MemSys.get_dev_putSector (m : MemSys) (key sec mask : Nat) (data : List Byte) (p : Option Bool) {a : Nat}
    (ha : a / 32 ≠ sec) : (m.putSector key sec mask data p).dev.get 0 a = m.dev.get 0 a := by
  rw [dev_putSector, get_putBytes, length_mergeBytes, length_sector, if_neg (by omega)]

/-- What a write of a sector leaves for an access under the same key, here and elsewhere. -/
theorem MemSys.byteAt_putSector {m : MemSys} {key sec mask : Nat} {data : List Byte} {p : Option Bool} (hk : key ≠ 0)
    (hd : data.length = 32) (a : Nat) : (m.putSector key sec mask data p).byteAt key a =
      if a / 32 = sec then (if bitOf mask (a % 32) then data.getD (a % 32) 0 else m.byteAt key a) else m.byteAt key a := by
  have hlen := m.length_sector key sec
  unfold byteAt
  simp only [sealOf_putSector hk]
  by_cases ha : a / 32 = sec
  · have hold : (m.sector key sec).getD (a % 32) 0 = m.byteAt key a := by
      rw [sector, List.getD_eq_getElem?_getD, List.getElem?_map, List.getElem?_range (by omega)]
      exact congrArg (m.byteAt key) (by omega)
    rw [if_pos ha, if_pos (.inr rfl), if_pos ha, dev_putSector, get_putBytes, length_mergeBytes, hlen, hd, if_pos (by omega),
      show a - 32 * sec = a % 32 by omega, getD_mergeBytes _ _ _ _ (by omega) (by omega), hold]
    rfl
  · have hunit : (m.putSector key sec mask data p).unit (a / 32) = m.unit (a / 32) :=
      List.map_congr_left fun k hk => get_dev_putSector _ _ _ _ _ _ (by have := List.mem_range.1 hk; omega)
    simp only [if_neg ha, stored, sealOf_putSector hk, hunit, get_dev_putSector _ _ _ _ _ _ ha]

theorem MemSys.sector_putSector {m : MemSys} {key sec mask : Nat} {data : List Byte} {p : Option Bool} (hk : key ≠ 0)
    (hd : data.length = 32) : (m.putSector key sec mask data p).sector key sec = mergeBytes mask (m.sector key sec) data := by
  apply List.ext_getElem
  · rw [length_sector, length_mergeBytes, length_sector, hd]
    rfl
  · intro k hk1 hk2
    rw [length_sector] at hk1
    have hold : (m.sector key sec).getD k 0 = m.byteAt key (32 * sec + k) := by
      simp [sector, List.getD_eq_getElem?_getD, hk1]
    rw [← List.getD_eq_getElem (d := 0), ← List.getD_eq_getElem (d := 0), getD_mergeBytes _ _ _ _ (by rw [length_sector]; exact hk1)
      (by omega), hold]
    simp only [sector, List.getD_eq_getElem?_getD, List.getElem?_map, List.getElem?_range hk1, Option.map_some, Option.getD_some,
      byteAt_putSector hk hd]
    rw [if_pos (by omega), show (32 * sec + k) % 32 = k by omega]

/-! ### Requests -/

theorem State.mem_detect (s : State) (sec pa ctx : Nat) :
    { (s.detect sec pa ctx).mem with pois := s.mem.pois, unc := s.mem.unc } = s.mem := by
  unfold State.detect
  split <;> rfl

/-- A sector that is not uncorrectable is read as it stands. -/
theorem State.detect_eq_self {s : State} {sec : Nat} (h : sec ∉ s.mem.unc) (pa ctx : Nat) : s.detect sec pa ctx = s := by
  rw [State.detect, if_neg (by simpa using h)]

theorem State.mem_sendInvals (s : State) (sec die tok : Nat) :
    { (s.sendInvals sec die tok).mem with invals := s.mem.invals } = s.mem := by
  unfold State.sendInvals
  split
  · rfl
  · refine foldl_keeps (fun t : State => { t.mem with invals := s.mem.invals }) ?_ _ s
    intro _ _
    rfl

/-- The state in which a request's bytes are written (R73). -/
def State.beforeReq (s : State) (r : Req) : State :=
  (if r.pois = some false ∧ !(decide (r.src = .engine) && s.mem.unc.contains r.loc.sec) then s
    else s.detect r.loc.sec r.loc.pa r.ctx).sqTouch (8 * r.atoll) r.ctx r.loc (!decide (r.src = .back)) false 0 0 (rowBit r.loc.sec)

theorem State.beforeReq_mem (s : State) (r : Req) :
    (s.beforeReq r).mem.dev = s.mem.dev ∧ (s.beforeReq r).mem.sealed = s.mem.sealed ∧ (s.beforeReq r).mem.reqs = s.mem.reqs := by
  have hb : (s.beforeReq r).besideL2 = _ := State.besideL2_sqTouch ..
  rw [State.dev_of_besideL2 hb, State.sealed_of_besideL2 hb, State.reqs_of_besideL2 hb]
  have hd := s.mem_detect r.loc.sec r.loc.pa r.ctx
  split
  · exact ⟨rfl, rfl, rfl⟩
  · exact ⟨by have h := congrArg MemSys.dev hd; exact h, by have h := congrArg MemSys.sealed hd; exact h,
      by have h := congrArg MemSys.reqs hd; exact h⟩

/-- The bytes and requests that a performed request leaves (R73, R74). -/
theorem State.performReq_mem (s : State) (r : Req) : ∃ p,
    (s.performReq r).mem.dev = ((s.beforeReq r).mem.putSector r.loc.key r.loc.sec r.mask r.data p).dev ∧
    (s.performReq r).mem.sealed = ((s.beforeReq r).mem.putSector r.loc.key r.loc.sec r.mask r.data p).sealed ∧
    (s.performReq r).mem.reqs =
      ((s.beforeReq r).mem.putSector r.loc.key r.loc.sec r.mask r.data p).reqs.filter fun q => !decide (q.id = r.id) := by
  refine ⟨if decide (r.src = .engine) && s.mem.unc.contains r.loc.sec then some true else r.pois, ?_⟩
  have h := State.mem_sendInvals ((s.beforeReq r).modM fun m =>
    let m := m.putSector r.loc.key r.loc.sec r.mask r.data
      (if decide (r.src = .engine) && s.mem.unc.contains r.loc.sec then some true else r.pois)
    { m with reqs := m.reqs.filter fun q => !decide (q.id = r.id) }) r.loc.sec r.die r.tok
  have hd := congrArg MemSys.dev h
  have hs := congrArg MemSys.sealed h
  have hr := congrArg MemSys.reqs h
  exact ⟨hd, hs, hr⟩

theorem MemSys.reqs_putSector (m : MemSys) (key sec mask : Nat) (data : List Byte) (p : Option Bool) :
    (m.putSector key sec mask data p).reqs = m.reqs := by
  unfold putSector
  dsimp only
  split <;> rfl

section
variable (s : State) (r : Req)

theorem State.reqs_performReq : (s.performReq r).mem.reqs = s.mem.reqs.filter fun q => !decide (q.id = r.id) := by
  obtain ⟨p, -, -, hr⟩ := s.performReq_mem r
  rw [hr, MemSys.reqs_putSector, (s.beforeReq_mem r).2.2]

theorem State.sector_performReq (hk : r.loc.key ≠ 0) (hd : r.data.length = 32) : (s.performReq r).mem.sector r.loc.key r.loc.sec =
    mergeBytes r.mask (s.mem.sector r.loc.key r.loc.sec) r.data := by
  obtain ⟨p, hdev, hseal, -⟩ := s.performReq_mem r
  obtain ⟨bdev, bseal, -⟩ := s.beforeReq_mem r
  rw [MemSys.sector_congr (MemSys.byteAt_congr hdev hseal), MemSys.sector_putSector hk hd,
    MemSys.sector_congr (MemSys.byteAt_congr bdev bseal)]

theorem State.get_dev_performReq {a : Nat} (ha : a / 32 ≠ r.loc.sec) : (s.performReq r).mem.dev.get 0 a = s.mem.dev.get 0 a := by
  obtain ⟨p, hdev, -, -⟩ := s.performReq_mem r
  rw [hdev, MemSys.get_dev_putSector _ _ _ _ _ _ ha, (s.beforeReq_mem r).1]

end

/-- Where no request of a square waits, there is nothing to perform. -/
theorem State.drainSq_eq_self {s : State} {sq : Nat} (h : ∀ r ∈ s.mem.reqs, r.sq ≠ sq) : s.drainSq sq = s := by
  have hf : s.mem.reqs.filter (fun r => decide (r.sq = sq)) = [] := List.filter_eq_nil_iff.2 fun r hr => by simpa using h r hr
  rw [State.drainSq, hf, List.foldl_nil]

/-! ### Write-backs -/

/-- A sector of an L1 as a write-back of it leaves it (R59). -/
def L1Sec.cleaned (c d : L1Sec) : L1Sec :=
  if d.core = c.core ∧ d.sec = c.sec ∧ d.key = c.key then { d with dirty := 0, whole := false, grids := [] } else d

theorem State.writeBack_clean {s : State} {c : L1Sec} (h : c.dirty = 0) (src : ReqSrc) : s.writeBack c src = s := if_pos h

/-- A write-back of a dirty sector sends its bytes and cleans it (R59). -/
theorem State.writeBack_dirty {s : State} {c : L1Sec} (h : c.dirty ≠ 0) (src : ReqSrc) :
    (s.writeBack c src).mem.dev = s.mem.dev ∧ (s.writeBack c src).mem.l1 = s.mem.l1.map c.cleaned ∧
    ∃ r : Req, (s.writeBack c src).mem.reqs = s.mem.reqs ++ [r] ∧ r.loc = c.loc ∧ r.mask = c.dirty ∧ r.data = c.data ∧
      r.tok = c.core + 1 := by
  unfold State.writeBack State.send
  simp only [h, if_false]
  split <;> exact ⟨rfl, rfl, _, rfl, rfl, rfl, rfl, rfl⟩

theorem State.dev_writeBack (s : State) (c : L1Sec) (src : ReqSrc) : (s.writeBack c src).mem.dev = s.mem.dev := by
  by_cases h : c.dirty = 0
  · rw [State.writeBack_clean h]
  · exact (State.writeBack_dirty h src).1

theorem State.dev_writeBackIf (s : State) (core : Nat) (p : L1Sec → Bool) (src : ReqSrc) :
    (s.writeBackIf core p src).mem.dev = s.mem.dev :=
  foldl_keeps (fun t : State => t.mem.dev) (fun t c => t.dev_writeBack c src) _ s

/-- What is still dirty after some write-backs was dirty before, and none of them was its own. -/
theorem State.dirty_of_writeBacks {src : ReqSrc} {d : L1Sec} (hd : d.dirty ≠ 0) (l : List L1Sec) (s : State)
    (h : d ∈ (l.foldl (fun s c => s.writeBack c src) s).mem.l1) : d ∈ s.mem.l1 ∧ d ∉ l := by
  induction l generalizing s with
  | nil => exact ⟨h, List.not_mem_nil⟩
  | cons c l ih =>
    obtain ⟨hmem, hl⟩ := ih (s.writeBack c src) h
    by_cases hc : c.dirty = 0
    · rw [State.writeBack_clean hc] at hmem
      exact ⟨hmem, fun k => (List.mem_cons.1 k).elim (fun e => hd (e ▸ hc)) hl⟩
    · rw [(State.writeBack_dirty hc src).2.1] at hmem
      obtain ⟨e, he, rfl⟩ := List.mem_map.1 hmem
      unfold L1Sec.cleaned at hd hl ⊢
      split at hd
      · exact absurd rfl hd
      next hne =>
        rw [if_neg hne] at hl ⊢
        exact ⟨he, fun k => (List.mem_cons.1 k).elim (fun e => hne (e ▸ ⟨rfl, rfl, rfl⟩)) hl⟩

/-- A write-back leaves the sectors that it names clean. -/
theorem State.dirty_writeBackIf {s : State} {core : Nat} {p : L1Sec → Bool} {src : ReqSrc} {d : L1Sec}
    (h : d ∈ (s.writeBackIf core p src).mem.l1) (hc : d.core = core) (hp : p d = true) : d.dirty = 0 := by
  by_contra hd
  obtain ⟨hmem, hno⟩ := State.dirty_of_writeBacks hd _ s h
  exact hno (List.mem_filter.2 ⟨hmem, by simp [hc, hp]⟩)

end Sys2Proof.Machine
end

section
/-! PROOFS. Steps of the caches of data: write-back timeouts, requests, turns, remote-data caches and tidal squares (03 R59, R71,
R74, 04 R81, R82, R85, R87). -/

namespace Sys2Proof.Machine

/-! ### Write-back timeouts and requests -/

theorem exec_l1WritebackTimeout (core sec : Nat) (s : State) : exec (.l1WritebackTimeout core sec) s =
    .next { s.writeBackIf core (fun c => decide (c.sec = sec)) with trust := s.trust } := rfl
/-- A timeout of the only sector that it names, with nothing to write back or with one request to send (R59). -/
theorem State.writeBackIf_single {s : State} {core sec : Nat} {c : L1Sec} {src : ReqSrc}
    (h : s.mem.l1.filter (fun c => decide (c.core = core) && decide (c.sec = sec)) = [c]) :
    s.writeBackIf core (fun c => decide (c.sec = sec)) src = s.writeBack c src := by
  rw [State.writeBackIf, h]
  rfl

theorem execHomeSliceRequest_none {s : State} {sq : Nat} (h : ∀ r ∈ s.mem.reqs, r.sq ≠ sq) :
    execHomeSliceRequest sq s = .next s := by
  have hn : (s.mem.reqs.find? fun r => decide (r.sq = sq)) = none := List.find?_eq_none.2 fun r hr => by simpa using h r hr
  simp only [execHomeSliceRequest, State.onMem, hn]

/-- A performed request, and a step for the next of its square if there is one (R74). -/
theorem execHomeSliceRequest_some {s : State} {sq : Nat} {r : Req}
    (h : (s.mem.reqs.find? fun r => decide (r.sq = sq)) = some r) : ∃ t, execHomeSliceRequest sq s = .next t ∧
      t.trust = s.trust ∧ t.x.waves = s.x.waves ∧ t.mem = (s.performReq r).mem := by
  simp only [execHomeSliceRequest, State.onMem, h]
  refine ⟨_, rfl, rfl, ?_⟩
  split
  · exact ⟨(Exec.waves_post ..).trans (s.waves_performReq r), rfl⟩
  · exact ⟨s.waves_performReq r, rfl⟩

/-! ### Turns -/

theorem exec_squareTurn (n : Nat) (s : State) :
    exec (.squareTurn n) s = .next { s with mem := s.mem.modSq n Sq.turned } := rfl

theorem MemSys.find?_modSq (m : MemSys) (n k : Nat) (f : Sq → Sq) :
    (m.modSq n f).sqs.find? k = if k = n then (m.sqs.find? k).map f else m.sqs.find? k := SMap.find?_modify ..

/-! ### Remote-data caches -/

theorem exec_rdcFillArrival (die sec : Nat) (s : State) :
    exec (.rdcFillArrival die sec) s = .next { s with mem := s.mem.rdcArrive die sec } := rfl
theorem exec_rdcInvalidation (die sec : Nat) (s : State) :
    exec (.rdcInvalidation die sec) s = .next { s.invalArrive die sec with trust := s.trust } := rfl
theorem exec_invalidationAck (die sec : Nat) (s : State) :
    exec (.invalidationAck die sec) s = .next { s.invalAck die sec with trust := s.trust } := rfl

/-- What a remote-data cache holds after fill data arrive (R82). -/
theorem MemSys.mem_rdcArrive (m : MemSys) (die sec : Nat) (r : RdcSec) : r ∈ (m.rdcArrive die sec).rdc ↔
    ∃ q ∈ m.rdc, (¬ (q.die = die ∧ q.sec = sec) ∧ r = q) ∨
      (q.die = die ∧ q.sec = sec ∧ (q.valid = true ∨ q.drop = false) ∧ r = { q with valid := true }) := by
  simp only [rdcArrive, List.mem_map, List.mem_filter]
  refine exists_congr fun q => ?_
  by_cases h : q.die = die ∧ q.sec = sec
  · have hk : (!(!q.valid && q.drop)) = true ↔ q.valid = true ∨ q.drop = false := by cases q.valid <;> simp
    simp only [h, and_self, decide_true, Bool.true_and, if_true, hk, not_true_eq_false, false_and, false_or, true_and, and_assoc,
      eq_comm (a := r)]
  · simp only [h, if_false, decide_false, Bool.false_and, Bool.not_false, and_true, not_false_eq_true, true_and,
      eq_comm (a := q)]
    constructor
    · exact fun ⟨hm, e⟩ => ⟨hm, .inl e⟩
    · rintro ⟨hm, e | ⟨hd, hs, -⟩⟩
      · exact ⟨hm, e⟩
      · exact absurd ⟨hd, hs⟩ h

/-- No copy of a sector that an invalidation reaches stays Valid (R82). -/
theorem MemSys.lost_of_mem_rdcLose {m : MemSys} {die sec : Nat} {r : RdcSec} (h : r ∈ (m.rdcLose die sec).rdc) (hd : r.die = die)
    (hs : r.sec = sec) : r.valid = false ∧ r.drop = true := by
  simp only [rdcLose, List.mem_map, List.mem_filter] at h
  obtain ⟨q, ⟨-, hq⟩, rfl⟩ := h
  by_cases e : q.die = die ∧ q.sec = sec
  · rw [if_pos e]
    simp only [e, and_self, decide_true, Bool.true_and, Bool.not_eq_true'] at hq
    exact ⟨hq, rfl⟩
  · rw [if_neg e] at hd hs
    exact absurd ⟨hd, hs⟩ e

section
variable {s : State} {die sec : Nat} {v : Inval} (hv : v ∈ s.mem.invals) (hd : v.die = die) (hs : v.sec = sec)
include hv hd hs

/-- An invalidation that is on its way arrives, and is to be acknowledged (R82). -/
theorem State.invalArrive_eq (ha : v.ack = false) : s.invalArrive die sec = (s.modM fun m =>
    { m.rdcLose die sec with invals := m.invals.map fun i => if i.die = die ∧ i.sec = sec then { i with ack := true } else i }).modX
      fun x => x.post 1 (.invalidationAck die sec) := by
  rw [State.invalArrive, if_pos (List.any_eq_true.2 ⟨v, hv, decide_eq_true ⟨hd, hs, ha⟩⟩)]
  rfl

/-- An acknowledgement arrives (R81). -/
theorem State.invalAck_eq (ha : v.ack = true) : s.invalAck die sec = s.modM fun m =>
    let k := { m with invals := m.invals.filter fun i => !decide (i.die = die ∧ i.sec = sec ∧ i.ack = true) }
    if m.rdc.any fun r => decide (r.die = die ∧ r.sec / 32 = sec / 32) then k
    else k.modSq (sec / 32) fun q => { q with sharers := bitSet q.sharers (sharerBit (sec / 2 ^ 33) die) false } := by
  rw [State.invalAck, if_pos (List.any_eq_true.2 ⟨v, hv, decide_eq_true ⟨hd, hs, ha⟩⟩)]

theorem execRdcInvalidation_arrives (ha : v.ack = false) : ∃ t, exec (.rdcInvalidation die sec) s = .next t ∧ t.trust = s.trust ∧
    t.x = s.x.post 1 (.invalidationAck die sec) ∧
    (∀ r ∈ t.mem.rdc, r.die = die → r.sec = sec → r.valid = false ∧ r.drop = true) ∧
    ∀ k ∈ t.mem.invals, k.die = die → k.sec = sec → k.ack = true := by
  rw [exec_rdcInvalidation, State.invalArrive_eq hv hd hs ha]
  refine ⟨_, rfl, rfl, rfl, fun r hr => MemSys.lost_of_mem_rdcLose hr, fun k hk hkd hks => ?_⟩
  obtain ⟨j, -, rfl⟩ := List.mem_map.1 hk
  split at hkd
  next h => rw [if_pos h]
  next h =>
    rw [if_neg h] at hks
    exact absurd ⟨hkd, hks⟩ h

theorem execInvalidationAck_arrives (ha : v.ack = true) : ∃ t, exec (.invalidationAck die sec) s = .next t ∧ t.trust = s.trust ∧
    t.x = s.x ∧ t.mem.rdc = s.mem.rdc ∧ (∀ k ∈ t.mem.invals, ¬ (k.die = die ∧ k.sec = sec ∧ k.ack = true)) ∧
    ∀ q, s.mem.sqs.find? (sec / 32) = some q → t.mem.sqs.find? (sec / 32) = some { q with sharers :=
      (if (s.mem.rdc.any fun r => decide (r.die = die ∧ r.sec / 32 = sec / 32)) = true then q.sharers
        else bitSet q.sharers (sharerBit (sec / 2 ^ 33) die) false) } := by
  have hgone : ∀ k ∈ s.mem.invals.filter (fun i => !decide (i.die = die ∧ i.sec = sec ∧ i.ack = true)),
      ¬ (k.die = die ∧ k.sec = sec ∧ k.ack = true) := fun k hk =>
    of_decide_eq_false (by simpa only [Bool.not_eq_true'] using (List.mem_filter.1 hk).2)
  rw [exec_invalidationAck, State.invalAck_eq hv hd hs ha]
  refine ⟨_, rfl, rfl, rfl, ?_⟩
  dsimp only [State.modM]
  split
  · exact ⟨rfl, hgone, fun q hq => hq⟩
  · exact ⟨rfl, hgone, fun q hq => by rw [MemSys.find?_modSq, if_pos rfl, hq]; rfl⟩

end

/-! ### Tidal squares -/

theorem exec_tidalReturn (n : Nat) (s : State) : exec (.tidalReturn n) s = .next { s.tidalHome n with trust := s.trust } := rfl

/-- Where a slice holds fewer squares than a set has ways, each of its sets has one free. -/
theorem MemSys.sqFree_of_few {m : MemSys} {slice : Nat} (id : Nat)
    (h : (m.sqs.filter fun p => decide (p.2.holder = slice)).length < 16) : m.sqFree slice id = true := by
  rw [sqFree, decide_eq_true h, Bool.true_or]

theorem State.sqRoom_of_free {s : State} {slice id : Nat} (h : s.mem.sqFree slice id = true) : s.sqRoom slice id = s := by
  rw [State.sqRoom, State.sqRoomGo, if_pos h]

section
variable {s : State} {n : Nat} {q : Sq} (hq : s.mem.sqs.find? n = some q) (hr : ∀ r ∈ s.mem.reqs, r.sq ≠ n)
include hq hr

/-- A square at home does not return (R87). -/
theorem State.tidalHome_home (h : q.holder = sliceOf n) : s.tidalHome n = s := by
  simp [State.tidalHome, State.drainSq_eq_self hr, hq, Option.filter_some, h]

/-- A migrated square returns to its home slice, where that has room (R87). -/
theorem State.tidalHome_away (h : q.holder ≠ sliceOf n)
    (hfew : (s.mem.sqs.filter fun p => decide (p.2.holder = sliceOf n)).length < 16) :
    s.tidalHome n = s.modM fun m => m.sqHome n := by
  have hfree := MemSys.sqFree_of_few n hfew
  simp [State.tidalHome, State.drainSq_eq_self hr, hq, Option.filter_some, h, State.sqRoom_of_free hfree, hfree]

theorem execTidalReturn_away (h : q.holder ≠ sliceOf n)
    (hfew : (s.mem.sqs.filter fun p => decide (p.2.holder = sliceOf n)).length < 16) :
    ∃ t, exec (.tidalReturn n) s = .next t ∧ t.trust = s.trust ∧ t.x = s.x ∧ t.mem.dev = s.mem.dev ∧
      t.mem.sqs.find? n = some { q with holder := sliceOf n } ∧ (∀ c ∈ t.mem.cways, c.sq ≠ n) ∧
      (∀ c ∈ t.mem.hints, c.sq ≠ n) ∧ ∀ k ∈ t.mem.tracks, k.sq ≠ n := by
  rw [exec_tidalReturn, State.tidalHome_away hq hr h hfew]
  refine ⟨_, rfl, rfl, rfl, rfl, ?_, fun c hc => ?_, fun c hc => ?_, fun k hk => ?_⟩
  · exact (s.mem.find?_modSq n n fun q => { q with holder := sliceOf n }).trans (by rw [if_pos rfl, hq, Option.map_some])
  · simpa using (List.mem_filter.1 hc).2
  · simpa using (List.mem_filter.1 hc).2
  · simpa using (List.mem_filter.1 hk).2

/-- A square migrates to its candidate's near slice, where both slices have room for it (R85). -/
theorem execTidalMigration_moves {k : Track} {a : Nat}
    (hk : s.mem.tracks.find? (fun k => decide (k.slice = sliceOf n ∧ k.sq = n)) = some k) (ha : k.atoll = some a)
    (hhome : q.holder = sliceOf n) (hnear : s.nearSlice a ≠ sliceOf n) (hturn : q.turning = false) (hhold : q.hold = false)
    (hw : (s.mem.cways.filter fun c => decide (c.slice = sliceOf n)).length < 1024)
    (hw' : (s.mem.cways.filter fun c => decide (c.slice = s.nearSlice a)).length < 1024)
    (hfew : (s.mem.sqs.filter fun p => decide (p.2.holder = s.nearSlice a)).length < 16) :
    ∃ t, exec (.tidalMigration n) s = .next t ∧ t.trust = s.trust ∧ t.mem.dev = s.mem.dev ∧
      t.mem.sqs.find? n = some { q with holder := s.nearSlice a } ∧ (∃ c ∈ t.mem.cways, c = ⟨sliceOf n, n, s.nearSlice a⟩) ∧
      ∀ k ∈ t.mem.tracks, k.sq ≠ n := by
  have hfree := MemSys.sqFree_of_few n hfew
  have e : exec (.tidalMigration n) s = execTidalMigration n s := rfl
  rw [e]
  simp only [execTidalMigration, State.onMem, hq, hk, Option.bind_some, ha, hhome, hnear, hturn, hhold, hw, hw', hfree, ne_eq,
    not_true_eq_false, decide_true, decide_false, Bool.and_self, Bool.not_true, Bool.or_self, Bool.false_eq_true, if_false,
    State.drainSq_eq_self hr]
  refine ⟨_, rfl, rfl, rfl, ?_, ⟨_, List.mem_append_right _ (List.mem_singleton.2 rfl), rfl⟩, fun k hk => ?_⟩
  · exact (s.mem.find?_modSq n n fun q => { q with holder := s.nearSlice a }).trans
      (by rw [if_pos rfl, hq, Option.map_some, hturn, hhold])
  · simpa using (List.mem_filter.1 hk).2

end

end Sys2Proof.Machine

namespace Sys2Proof.Proofs

open Sys2Proof.Machine Sys2Proof.Claim

/-- The clauses of O44 on the caches of data. -/
theorem cacheEvents : CacheEvents := by
  refine ⟨fun s core sec => ⟨_, exec_l1WritebackTimeout core sec s, rfl, s.waves_writeBackIf .., s.dev_writeBackIf ..,
    fun c hc hcore hsec => State.dirty_writeBackIf hc hcore (decide_eq_true hsec), fun c hc => ?_⟩, fun s sq h =>
    execHomeSliceRequest_none h, fun s sq r hr hkey hlen => ?_, fun s n q hq => ?_, fun s die sec => ?_,
    fun s die sec v hv hd hs => ⟨execRdcInvalidation_arrives hv hd hs, execInvalidationAck_arrives hv hd hs⟩,
    fun s n q hq hr _ => ⟨execTidalReturn_away hq hr, fun h => ?_, fun k a hk ha h hn ht hh hw hw' hf =>
      execTidalMigration_moves hq hr hk ha h hn ht hh hw hw' hf⟩⟩
  · obtain ⟨hcore, hsec⟩ : c.core = core ∧ c.sec = sec := by
      have h : c ∈ s.mem.l1.filter fun c => decide (c.core = core) && decide (c.sec = sec) := hc ▸ List.mem_singleton.2 rfl
      simpa using (List.mem_filter.1 h).2
    simp only [State.writeBackIf_single hc]
    refine ⟨fun h => by rw [State.writeBack_clean h], fun h => ?_⟩
    obtain ⟨-, -, r, hreqs, hloc, hmask, hdata, htok⟩ := State.writeBack_dirty h .back
    refine ⟨r, hreqs, hloc, ?_, hmask, hdata, by rw [htok, hcore]⟩
    rw [Req.sq, hloc, ← hsec]
    rfl
  · obtain ⟨t, ht, htrust, hwaves, hmem⟩ := execHomeSliceRequest_some hr
    refine ⟨t, ht, htrust, hwaves, ?_⟩
    rw [hmem]
    exact ⟨s.reqs_performReq r, s.sector_performReq r hkey hlen, fun a ha => s.get_dev_performReq r ha⟩
  · refine ⟨_, exec_squareTurn n s, rfl, rfl, rfl, fun h => ?_, fun h => ?_, fun k hk => ?_⟩
    · rw [MemSys.find?_modSq, if_pos rfl, hq, Option.map_some, Sq.turned, if_pos h]
    · rw [MemSys.find?_modSq, if_pos rfl, hq, Option.map_some, Sq.turned, h]
      rfl
    · rw [MemSys.find?_modSq, if_neg hk]
  · exact ⟨_, exec_rdcFillArrival die sec s, rfl, rfl, rfl, fun r => s.mem.mem_rdcArrive die sec r⟩
  · rw [exec_tidalReturn, State.tidalHome_home hq hr h]

end Sys2Proof.Proofs
end

section
/-! PROOFS. Steps of the instruction caches and of Pyratha translations (11 R231, 19 R362, R363, R369, R370). -/

namespace Sys2Proof.Machine

/-! ### The group moves on -/

/-- A step that leaves the waves as they are, and then moves its group on. -/
theorem Exec.moved_advance {x y : Exec} {i : Iss} (len : Nat) (hi : x.issue? = some i) (hw : y.waves = x.waves) :
    Claim.Moved x (y.advance i len) i fun _ => (i.pc + len) % 2 ^ 48 := by
  refine ⟨fun u => ?_, fun u a k => ?_, fun u a k => ?_, fun u f => ?_⟩
  · rw [Exec.bare_advance, Exec.wave?_congr hw]
  · rw [Exec.slotReg_advance, Exec.slotReg_congr hw]
  · rw [Exec.slotPois_advance, Exec.slotPois_congr hw]
  · rw [Exec.fib_advance _ _ _ (Iss.grp_nodup hi), Exec.fib_congr hw]

theorem Iss.served_of_head? {i : Iss} {h : Hd} {f : Nat} (hf : (i.served h).head? = some f) : ∃ l, i.served h = f :: l := by
  cases hl : i.served h with
  | nil => rw [hl] at hf; cases hf
  | cons g l =>
    rw [hl] at hf
    cases hf
    exact ⟨l, rfl⟩

/-- A range that its record grants and holds (R231). -/
theorem Exec.codeRange_ok {x : Exec} {i : Iss} {w : OwnI}
    (hr : (x.bufRec i.w (w.s1.toNat % 16)).refusal false true .code = none)
    (hn : (x.readW i.u w.s2.toNat).toNat + (x.readW i.u w.s3.toNat).toNat ≤ (x.bufRec i.w (w.s1.toNat % 16)).extent) :
    x.codeRange i w = (.ok ((x.bufRec i.w (w.s1.toNat % 16)).base + (x.readW i.u w.s2.toNat).toNat),
      (x.readW i.u w.s3.toNat).toNat) := by
  simp only [Exec.codeRange, hr]
  rw [if_neg (by omega)]

/-! ### ICINV -/

section
variable {m : MemSys} {core ctx scope va n : Nat}

/-- A line outside the range, or of another context, stays (R231). -/
theorem MemSys.icinv_keeps {l : ILine} (hl : l ∈ m.icache)
    (h : ¬ (l.ctx = ctx ∧ va / 128 ≤ l.line ∧ l.line ≤ (va + n - 1) / 128)) : l ∈ (m.icinv core ctx scope va n).icache := by
  have h' : decide (l.ctx = ctx ∧ (rangeLines va n).1 ≤ l.line ∧ l.line ≤ (rangeLines va n).2) = false := decide_eq_false h
  refine List.mem_filter.2 ⟨hl, ?_⟩
  rw [h', Bool.and_false]
  rfl

/-- A line of the range that stays is one that the scope does not cover: none at `.mod`, and none of the core's atoll (R231). -/
theorem MemSys.icinv_covers {l : ILine} (hl : l ∈ (m.icinv core ctx scope va n).icache)
    (h : l.ctx = ctx ∧ va / 128 ≤ l.line ∧ l.line ≤ (va + n - 1) / 128) : scope < 5 ∧ l ∈ m.icache ∧
      ¬ (l.level = 1 ∧ l.unit / 8 = core / 8) ∧ ¬ (l.level = 0 ∧ l.unit / 32 = core / 8) ∧
      ¬ (l.level = 2 ∧ l.unit = core / 8) := by
  obtain ⟨hmem, hcov⟩ := List.mem_filter.1 hl
  have h' : decide (l.ctx = ctx ∧ (rangeLines va n).1 ≤ l.line ∧ l.line ≤ (rangeLines va n).2) = true := decide_eq_true h
  rw [h', Bool.and_true, Bool.not_eq_true'] at hcov
  simp only [Bool.or_eq_false_iff, Bool.and_eq_false_iff, decide_eq_false_iff_not, dieOf] at hcov
  obtain ⟨⟨hmod, hdie⟩, hatoll⟩ := hcov
  refine ⟨by omega, hmem, ?_, ?_, ?_⟩
  · rintro ⟨hlev, hu⟩
    simp [hlev] at hdie hatoll
    omega
  · rintro ⟨hlev, hu⟩
    simp [hlev] at hdie hatoll
    omega
  · rintro ⟨hlev, hu⟩
    simp [hlev] at hdie hatoll
    omega

theorem MemSys.mem_ptrans_icinv (q : PTrans) : q ∈ (m.icinv core ctx scope va n).ptrans ↔
    q ∈ m.ptrans ∧ ¬ ((q.ctx = ctx ∧ va < q.pc + q.len ∧ q.pc < va + n) ∧ (5 ≤ scope ∨ q.die = dieOf core)) := by
  simp only [icinv, PTrans.meets, List.mem_filter, Bool.not_eq_true', Bool.and_eq_false_iff, Bool.or_eq_false_iff,
    decide_eq_false_iff_not]
  tauto

end

/-- ICINV of a range within its record (R231). -/
theorem execIcinv_ok {s : State} {i : Iss} {w : OwnI} {f va n : Nat} (hu : Claim.Uniform s i w.h f)
    (hr : s.x.codeRange i w = (.ok va, n)) (hn : n ≠ 0) : exec (.icinv w) s = .next { s with
      mem := s.mem.icinv (s.x.coreOf i.w) (s.x.ctxOf i.w) (w.m.toNat / 256 % 8) va n, x := s.x.advance i 8 } := by
  obtain ⟨l, hl⟩ := Iss.served_of_head? hu.low
  have e : exec (.icinv w) s = execIcinv w s := rfl
  simp only [e, execIcinv, State.onMem, hu.run, hl, hr, hn, if_false]
  rfl

/-! ### Lines of the instruction caches -/

/-- A line that has just been installed is found. -/
theorem MemSys.iFind_iPut (m : MemSys) (l : ILine) : (m.iPut l).iFind l.level l.unit l.ctx l.line = some l := by
  unfold iFind iPut
  dsimp only
  rw [List.find?_append, List.find?_eq_none.2, Option.none_or]
  · simp
  · intro q hq
    have h := (List.mem_filter.1 hq).2
    rwa [Bool.not_eq_true', ← Bool.not_eq_true] at h

/-- Installing a line changes the instruction caches alone. -/
theorem MemSys.mem_iPut (m : MemSys) (l : ILine) : { m.iPut l with icache := m.icache } = m := by
  unfold iPut
  dsimp only
  split
  · rfl
  · split
    · rfl
    · split <;> rfl

theorem MemSys.iFind_spec {m : MemSys} {level unit ctx line : Nat} {l : ILine} (h : m.iFind level unit ctx line = some l) :
    l.level = level ∧ l.unit = unit ∧ l.ctx = ctx ∧ l.line = line := by
  have hp := List.find?_some h
  exact of_decide_eq_true hp

theorem State.iFind_iFill (s : State) (us : List Nat) (core ctx line : Nat) (d : List Byte) :
    ((s.iFill us core ctx line d 0).mem.iFind 1 core ctx line).map ILine.data = some d := by
  have h := MemSys.iFind_iPut (s.mem.iPut ⟨2, core / 8, ctx, line, d, 0, s.stamp.1⟩) ⟨1, core, ctx, line, d, 0, s.stamp.1⟩
  exact congrArg (Option.map ILine.data) h

/-! ### FETCHB -/

/-- FETCHB of a range within its record, when its wave has no write on its way (R231). -/
theorem execFetchb_ok {s : State} {i : Iss} {w : OwnI} {f va n : Nat} (hu : Claim.Uniform s i w.h f)
    (hr : s.x.codeRange i w = (.ok va, n)) (hn : n ≠ 0) (hlog : i.w.log = []) (hstaged : i.w.staged = []) :
    ∃ ctx, exec (.fetchb w) s = .next { (((if 4 ≤ w.m.toNat / 256 % 8 then s.release (s.x.coreOf i.w) else s).fetchAhead
        (s.x.coreOf i.w) ctx va n).modX fun x => x.advance i 8) with trust := s.trust } ∧
      (w.m.toNat / 256 % 8 < 4 → ctx = s.x.ctxOf i.w) := by
  obtain ⟨l, hl⟩ := Iss.served_of_head? hu.low
  have e : exec (.fetchb w) s = execFetchb w s := rfl
  simp only [e, execFetchb, State.onMem, hu.run, hl, hr, hn, hlog, hstaged, if_false, List.isEmpty_nil, List.any_nil,
    Bool.not_true, Bool.false_eq_true]
  exact ⟨_, rfl, fun h => by rw [if_neg (by omega)]⟩

theorem foldl_of_fixed {α β : Type} {f : β → α → β} {b : β} {l : List α} (h : ∀ a ∈ l, f b a = b) : l.foldl f b = b := by
  induction l with
  | nil => rfl
  | cons a l ih => rw [List.foldl_cons, h a (List.mem_cons_self ..), ih fun c hc => h c (List.mem_cons_of_mem _ hc)]

/-- Lines that the L1I holds are not asked for. -/
theorem State.fetchAhead_held {s : State} {core ctx va n : Nat}
    (h : ∀ l, va / 128 ≤ l → l ≤ (va + n - 1) / 128 → (s.mem.iFind 1 core ctx l).isSome = true) :
    s.fetchAhead core ctx va n = s := by
  unfold State.fetchAhead
  refine congrArg Prod.fst (foldl_of_fixed fun k hk => ?_)
  have hk := List.mem_range.1 hk
  dsimp only [rangeLines, lineBytes] at hk ⊢
  obtain ⟨l, hl⟩ := Option.isSome_iff_exists.1 (h (va / 128 + k) (by omega) (by omega))
  rw [hl]

section
variable {s : State} {core ctx va n : Nat} (hone : (va + n - 1) / 128 = va / 128)
  (hmiss : s.mem.iFind 1 core ctx (va / 128) = none)
include hone hmiss

/-- A line that the middle cache holds comes to the L1I from there, and nothing else of memory changes (R231, R363). -/
theorem State.fetchAhead_middle {l : ILine} (hl : s.mem.iFind 2 (core / 8) ctx (va / 128) = some l) :
    { (s.fetchAhead core ctx va n).mem with icache := s.mem.icache } = s.mem ∧
    ((s.fetchAhead core ctx va n).mem.iFind 1 core ctx (va / 128)).map ILine.data = some l.data := by
  have hlen : (rangeLines va n).2 + 1 - (rangeLines va n).1 = 1 := by dsimp only [rangeLines, lineBytes]; omega
  have e : (s.fetchAhead core ctx va n).mem =
      (s.mem.iPut { l with lru := s.stamp.1 }).iPut { l with level := 1, unit := core, lru := s.stamp.1 } := by
    unfold State.fetchAhead
    dsimp only
    rw [hlen, List.range_one, List.foldl_cons, List.foldl_nil]
    simp only [rangeLines, lineBytes, Nat.add_zero, hmiss, hl]
    rfl
  obtain ⟨-, -, hctx, hline⟩ := MemSys.iFind_spec hl
  rw [e]
  constructor
  · have h1 := (s.mem.iPut { l with lru := s.stamp.1 }).mem_iPut { l with level := 1, unit := core, lru := s.stamp.1 }
    have h2 := s.mem.mem_iPut { l with lru := s.stamp.1 }
    exact (congrArg (fun m : MemSys => { m with icache := s.mem.icache }) h1).trans h2
  · have h := (s.mem.iPut { l with lru := s.stamp.1 }).iFind_iPut { l with level := 1, unit := core, lru := s.stamp.1 }
    rw [← hctx, ← hline]
    exact congrArg (Option.map ILine.data) h

/-- A line that no cache of the atoll holds is translated and read (R231, R363). -/
theorem State.fetchAhead_read {d : List Byte} (hout : s.mem.iFind 2 (core / 8) ctx (va / 128) = none)
    (hread : (s.readLine core ctx (va / 128) false).2 = .got d 0) :
    ((s.fetchAhead core ctx va n).mem.iFind 1 core ctx (va / 128)).map ILine.data = some d := by
  have hlen : (rangeLines va n).2 + 1 - (rangeLines va n).1 = 1 := by dsimp only [rangeLines, lineBytes]; omega
  have e : s.fetchAhead core ctx va n = (s.readLine core ctx (va / 128) false).1.iFill [] core ctx (va / 128) d 0 := by
    unfold State.fetchAhead
    dsimp only
    rw [hlen, List.range_one, List.foldl_cons, List.foldl_nil]
    simp only [rangeLines, lineBytes, Nat.add_zero, hmiss, hout, List.contains_nil, Bool.false_eq_true, if_false] at hread ⊢
    rw [hread]
    rfl
  rw [e]
  exact State.iFind_iFill ..

end

/-! ### Fills -/

theorem Exec.wave?_unhold {x : Exec} {u : Nat} (h : x.heldLate u = false) (v : Nat) : (x.unhold u).wave? v =
    if v = u then (x.wave? v).map fun w =>
      { w with hold := none, stamp := x.fresh, resumed := (w.hold.map Hold.reissues).getD false, passing := none }
    else x.wave? v := by
  have hpass : ((x.wave? u).filter fun w => w.hold.elim false Hold.late).bind Wave.passing = none := by
    unfold Exec.heldLate at h
    cases hw : x.wave? u with
    | none => rfl
    | some w =>
      rw [hw] at h
      rw [Option.filter_some, if_neg (by simpa using h)]
      rfl
  have hwaves : (x.unhold u).waves = x.waves.modify u fun w =>
      { w with hold := none, stamp := x.fresh, resumed := (w.hold.map Hold.reissues).getD false, passing := none } := by
    simp only [Exec.unhold, hpass]
    split
    · exact Exec.waves_post ..
    · rfl
  rw [Exec.wave?, hwaves, SMap.find?_modify]
  rfl

/-- Waves whose holds end are held no more. -/
theorem Exec.hold_foldl_unhold {l : List Nat} {x : Exec} (h : ∀ u ∈ l, x.heldLate u = false) {v : Nat}
    (hv : v ∈ l ∧ (x.wave? v).isSome = true ∨ (x.wave? v).map Wave.hold = some none) :
    ((l.foldl Exec.unhold x).wave? v).map Wave.hold = some none := by
  induction l generalizing x with
  | nil => exact hv.elim (fun k => absurd k.1 List.not_mem_nil) id
  | cons u l ih =>
    have hu := h u (List.mem_cons_self ..)
    refine ih (fun w hw => (x.unhold_woken u hu).late w (h w (List.mem_cons_of_mem _ hw))) ?_
    rw [Exec.wave?_unhold hu]
    by_cases e : v = u
    · have hsome : (x.wave? v).isSome = true := hv.elim And.right fun k => by
        cases hw : x.wave? v with
        | none => rw [hw] at k; cases k
        | some w => rfl
      obtain ⟨w, hw⟩ := Option.isSome_iff_exists.1 hsome
      exact .inr (by rw [if_pos e, hw]; rfl)
    · rw [if_neg e]
      exact hv.imp_left fun k => ⟨(List.mem_cons.1 k.1).resolve_left e, k.2⟩

/-- A wave that waits for its code has nothing left to write. -/
theorem Exec.heldLate_of_fetchers {x : Exec} {core ctx line : Nat} {p : Nat × Wave} (hp : p ∈ x.fetchers core ctx line)
    (hw : x.wave? p.1 = some p.2) : x.heldLate p.1 = false := by
  have h := (List.mem_filter.1 hp).2
  simp only [Bool.and_eq_true, decide_eq_true_eq] at h
  rw [Exec.heldLate, hw, Option.elim_some, h.1.1.1.2]
  rfl

/-- A fill that arrives is in the L1I, and lets the waves that fetch it go on (R363). -/
theorem execFetchFill_got {s : State} {core ctx line : Nat} {d : List Byte} (hws : s.x.fetchers core ctx line ≠ [])
    (hp : ∀ p ∈ s.x.fetchers core ctx line, s.x.wave? p.1 = some p.2) (hread : (s.readLine core ctx line).2 = .got d 0) :
    ∃ t, exec (.fetchFill core ctx line) s = .next t ∧ t.trust = s.trust ∧
      (t.mem.iFind 1 core ctx line).map ILine.data = some d ∧
      (∀ p ∈ s.x.fetchers core ctx line, (t.x.wave? p.1).map Wave.hold = some none) ∧ ∀ u f, t.x.fib u f = s.x.fib u f := by
  have hws' : (s.x.fetchers core ctx line).isEmpty = false := by
    cases h : s.x.fetchers core ctx line with
    | nil => exact absurd h hws
    | cons => rfl
  have e : exec (.fetchFill core ctx line) s = execFetchFill core ctx line s := rfl
  simp only [e, execFetchFill, State.onMem, State.fetchFill, hws', hread, Bool.false_eq_true, if_false]
  have hwaves : ((s.readLine core ctx line).1.iFill ((s.x.fetchers core ctx line).map (·.1)) core ctx line d 0).x.waves =
      s.x.waves := by rw [State.waves_iFill, State.waves_readLine]
  have hmem := State.iFind_iFill (s.readLine core ctx line).1 ((s.x.fetchers core ctx line).map (·.1)) core ctx line d
  generalize (s.readLine core ctx line).1.iFill ((s.x.fetchers core ctx line).map (·.1)) core ctx line d 0 = a at hwaves hmem ⊢
  have hfold : (s.x.fetchers core ctx line).foldl (fun x p => x.unhold p.1) a.x =
      ((s.x.fetchers core ctx line).map (·.1)).foldl Exec.unhold a.x := by rw [List.foldl_map]
  have hlate : ∀ u ∈ (s.x.fetchers core ctx line).map (·.1), a.x.heldLate u = false := by
    intro u hu
    obtain ⟨p, hmem, rfl⟩ := List.mem_map.1 hu
    have h := Exec.heldLate_of_fetchers hmem (hp p hmem)
    unfold Exec.heldLate at h ⊢
    rw [Exec.wave?_congr hwaves]
    exact h
  refine ⟨_, rfl, rfl, hmem, fun p hpm => ?_, fun u f => ?_⟩
  · dsimp only [State.modX]
    rw [hfold]
    refine Exec.hold_foldl_unhold hlate (.inl ⟨List.mem_map_of_mem hpm, ?_⟩)
    rw [Exec.wave?_congr hwaves, hp p hpm]
    rfl
  · dsimp only [State.modX]
    rw [hfold, (Exec.foldl_unhold_woken _ _ hlate).fibs, Exec.fib_congr hwaves]

/-! ### Pyratha translations -/

theorem leastBy_mem {α : Type} {f : α → Nat} {l : List α} {v : α} (h : leastBy f l = some v) : v ∈ l := by
  induction l with
  | nil => cases h
  | cons x r ih =>
    rw [leastBy] at h
    split at h
    · cases h
      exact List.mem_cons_self ..
    next y hy =>
      split at h
      · cases h
        exact List.mem_cons_of_mem _ (ih hy)
      · cases h
        exact List.mem_cons_self ..

theorem leastBy_eq_none {α : Type} {f : α → Nat} {l : List α} (h : leastBy f l = none) : l = [] := by
  cases l with
  | nil => rfl
  | cons x r =>
    rw [leastBy] at h
    split at h
    · cases h
    · split at h <;> cases h

/-- The translations that a die keeps of a context, and the bytes that they take. -/
def ptransOf (die ctx : Nat) (l : List PTrans) : List PTrans := l.filter fun q => decide (q.die = die ∧ q.ctx = ctx)
def ptransSize (die ctx : Nat) (l : List PTrans) : Nat := ((ptransOf die ctx l).map PTrans.len).sum

theorem mem_ptransOf {die ctx : Nat} {l : List PTrans} {q : PTrans} :
    q ∈ ptransOf die ctx l ↔ q ∈ l ∧ q.die = die ∧ q.ctx = ctx := by simp [ptransOf]

theorem sum_filter_ne_add_le {v : PTrans} {l : List PTrans} (h : v ∈ l) :
    ((l.filter fun t => !decide (t = v)).map PTrans.len).sum + v.len ≤ (l.map PTrans.len).sum := by
  induction l with
  | nil => cases h
  | cons x r ih =>
    by_cases e : x = v
    · subst e
      have hsub := ((List.filter_sublist (p := fun t => !decide (t = x)) (l := r)).map PTrans.len).sum_le_sum fun _ _ => Nat.zero_le _
      simp only [List.filter_cons, decide_true, Bool.not_true, Bool.false_eq_true, if_false, List.map_cons, List.sum_cons]
      omega
    · have := ih ((List.mem_cons.1 h).resolve_left (Ne.symm e))
      simp only [List.filter_cons, e, decide_false, Bool.not_false, if_true, List.map_cons, List.sum_cons]
      omega

/-- A translation that gives way makes room for its bytes. -/
theorem ptransSize_drop {die ctx : Nat} {v : PTrans} {l : List PTrans} (h : v ∈ ptransOf die ctx l) :
    ptransSize die ctx (l.filter fun t => !decide (t = v)) + v.len ≤ ptransSize die ctx l := by
  have e : ptransOf die ctx (l.filter fun t => !decide (t = v)) = (ptransOf die ctx l).filter fun t => !decide (t = v) := by
    simp only [ptransOf, List.filter_filter]
    exact List.filter_congr fun _ _ => Bool.and_comm ..
  rw [ptransSize, e]
  exact sum_filter_ne_add_le h

theorem ptransTrim_of_fits {die ctx : Nat} {l : List PTrans} (n : Nat) (h : ptransSize die ctx l ≤ 2 ^ 24) :
    ptransTrim n l die ctx = l := by
  cases n with
  | zero => rfl
  | succ n =>
    rw [ptransTrim]
    exact if_pos h

theorem ptransTrim_sublist (n : Nat) (l : List PTrans) (die ctx : Nat) : (ptransTrim n l die ctx).Sublist l := by
  induction n generalizing l with
  | zero => exact .refl l
  | succ n ih =>
    rw [ptransTrim]
    split
    · exact .refl l
    · split
      · exact (ih _).trans List.filter_sublist
      · exact .refl l

/-- Only the die's translations of the context give way. -/
theorem mem_ptransTrim_of_other {die ctx : Nat} {q : PTrans} (hq : ¬ (q.die = die ∧ q.ctx = ctx)) (n : Nat) {l : List PTrans}
    (h : q ∈ l) : q ∈ ptransTrim n l die ctx := by
  induction n generalizing l with
  | zero => exact h
  | succ n ih =>
    rw [ptransTrim]
    split
    · exact h
    · split
      next v hv =>
        refine ih (List.mem_filter.2 ⟨h, ?_⟩)
        have hne : q ≠ v := fun e => hq (e ▸ (mem_ptransOf.1 (leastBy_mem hv)).2)
        simpa using hne
      · exact h

/-- Where each translation takes 8 bytes at least, n of them that give way make room for 8 n bytes. -/
theorem ptransSize_trim {die ctx : Nat} (n : Nat) {l : List PTrans} (hl : ∀ q ∈ l, 8 ≤ q.len)
    (h : ptransSize die ctx l ≤ 2 ^ 24 + 8 * n) : ptransSize die ctx (ptransTrim n l die ctx) ≤ 2 ^ 24 := by
  induction n generalizing l with
  | zero => exact h
  | succ n ih =>
    rw [ptransTrim]
    split
    next hfit => exact hfit
    next hbig =>
      split
      next v hv =>
        have hmem : v ∈ ptransOf die ctx l := leastBy_mem hv
        have hdrop := ptransSize_drop hmem
        have hlen := hl v (mem_ptransOf.1 hmem).1
        exact ih (fun q hq => hl q (List.mem_filter.1 hq).1) (by omega)
      next hnone =>
        have hnil := leastBy_eq_none hnone
        rw [hnil] at hbig
        exact absurd (Nat.zero_le _) hbig

theorem MemSys.pyrBytes_le (n : Nat) (m : MemSys) (die ctx pc : Nat) : MemSys.pyrBytes n m die ctx pc ≤ 8 * n := by
  induction n generalizing pc with
  | zero => exact Nat.zero_le _
  | succ n ih =>
    have h := ih ((pc + 8) % 2 ^ 48)
    rw [MemSys.pyrBytes]
    split
    · omega
    · split <;> omega

theorem ptransSize_append (die ctx : Nat) (l : List PTrans) (e : PTrans) :
    ptransSize die ctx (l ++ [e]) ≤ ptransSize die ctx l + e.len := by
  rw [ptransSize, ptransOf, List.filter_append, List.map_append, List.sum_append]
  refine Nat.add_le_add_left ?_ _
  rw [List.filter_singleton]
  cases decide (e.die = die ∧ e.ctx = ctx) <;> simp

theorem ptransSize_filter (die ctx : Nat) (l : List PTrans) (p : PTrans → Bool) :
    ptransSize die ctx (l.filter p) ≤ ptransSize die ctx l :=
  ((List.filter_sublist.filter _).map PTrans.len).sum_le_sum fun _ _ => Nat.zero_le _

/-- The translation of a run is kept by its die, within 16 MiB of its context's (R369, log entry 58). -/
theorem execPyrathaRunTranslation_kept (s : State) (die ctx : Nat) (pc : BitVec 48) :
    ∃ t e, exec (.pyrathaRunTranslation die ctx pc) s = .next t ∧
      t.trust = s.trust ∧ t.x = { s.x with fresh := s.x.fresh + 1 } ∧ { t.mem with ptrans := s.mem.ptrans } = s.mem ∧
      e.die = die ∧ e.ctx = ctx ∧ e.pc = pc.toNat ∧ 8 ≤ e.len ∧ e.len ≤ 192 ∧
      (∀ q ∈ t.mem.ptrans, q ∈ s.mem.ptrans ∨ q = e) ∧
      (∀ q ∈ s.mem.ptrans, ¬ (q.die = die ∧ q.ctx = ctx) → q ∈ t.mem.ptrans) ∧
      (ptransSize die ctx s.mem.ptrans ≤ 2 ^ 24 → (∀ q ∈ s.mem.ptrans, 8 ≤ q.len) →
        ptransSize die ctx t.mem.ptrans ≤ 2 ^ 24) ∧
      (ptransSize die ctx s.mem.ptrans + 192 ≤ 2 ^ 24 → e ∈ t.mem.ptrans ∧
        ∀ q ∈ s.mem.ptrans, ¬ (q.die = die ∧ q.ctx = ctx ∧ q.pc = pc.toNat) → q ∈ t.mem.ptrans) := by
  have hlen := s.mem.pyrBytes_le 24 die ctx pc.toNat
  have hlow := Nat.le_max_left 8 (s.mem.pyrBytes 24 die ctx pc.toNat)
  have hhigh : max 8 (s.mem.pyrBytes 24 die ctx pc.toNat) ≤ 192 := by omega
  refine ⟨_, ⟨die, ctx, pc.toNat, max 8 (s.mem.pyrBytes 24 die ctx pc.toNat), s.x.fresh⟩, rfl, rfl, rfl, rfl, rfl, rfl, rfl, hlow,
    hhigh, ?_⟩
  have hsize := (ptransSize_append die ctx (s.mem.ptrans.filter fun t => !decide (t.die = die ∧ t.ctx = ctx ∧ t.pc = pc.toNat))
    ⟨die, ctx, pc.toNat, max 8 (s.mem.pyrBytes 24 die ctx pc.toNat), s.x.fresh⟩).trans
      (Nat.add_le_add (ptransSize_filter ..) hhigh)
  refine ⟨fun q hq => ?_, fun q hq hother => ?_, fun hfit hlens => ?_, fun hfit => ?_⟩
  · refine (List.mem_append.1 ((ptransTrim_sublist ..).subset hq)).imp (fun h => (List.mem_filter.1 h).1) List.mem_singleton.1
  · refine mem_ptransTrim_of_other hother 24 (List.mem_append_left _ (List.mem_filter.2 ⟨hq, ?_⟩))
    exact congrArg (!·) (decide_eq_false fun h => hother ⟨h.1, h.2.1⟩)
  · refine ptransSize_trim 24 (fun q hq => ?_) (hsize.trans (by omega))
    rcases List.mem_append.1 hq with h | h
    · exact hlens q (List.mem_filter.1 h).1
    · exact List.mem_singleton.1 h ▸ hlow
  · dsimp only [State.modM, State.stamp, State.modX]
    rw [ptransTrim_of_fits 24 (by omega)]
    refine ⟨List.mem_append_right _ (List.mem_singleton.2 rfl), fun q hq hne => List.mem_append_left _ (List.mem_filter.2 ⟨hq, ?_⟩)⟩
    exact congrArg (!·) (decide_eq_false hne)

end Sys2Proof.Machine

namespace Sys2Proof.Proofs

open Sys2Proof.Machine Sys2Proof.Claim

/-- The clauses of O44 on code. -/
theorem codeCaches : CodeCaches := by
  refine ⟨fun s i w f hu => ?_, fun s core ctx line d hws hp hread => execFetchFill_got hws (fun p h => (hp p h).1) hread,
    execPyrathaRunTranslation_kept⟩
  intro r va n core ctx scope met hr hext hn
  have hrange : s.x.codeRange i w = (.ok va, n) := Exec.codeRange_ok hr hext
  refine ⟨⟨_, execIcinv_ok hu hrange hn, rfl, ⟨Exec.moved_advance 8 hu.run rfl, rfl⟩, rfl, fun l hl h => MemSys.icinv_keeps hl h,
    fun l hl h => MemSys.icinv_covers hl h, fun q hq hc hs => ?_, fun q hq h => ?_⟩, fun hlog hstaged => ?_⟩
  · have := ((MemSys.mem_ptrans_icinv q).1 hq).2
    by_contra hmeets
    exact this ⟨⟨hc, by omega, by omega⟩, hs⟩
  · refine (MemSys.mem_ptrans_icinv q).2 ⟨hq, ?_⟩
    rintro ⟨⟨hc, hlo, hhi⟩, -⟩
    rcases h with h | h | h
    · exact h hc
    · omega
    · omega
  · obtain ⟨c, hexec, hctx⟩ := execFetchb_ok hu hrange hn hlog hstaged
    refine ⟨_, hexec, rfl, Exec.moved_advance 8 hu.run ?_, fun hscope hheld => ?_, fun hscope hone hmiss => ?_⟩
    · rw [State.waves_fetchAhead]
      split
      · exact s.waves_release _
      · rfl
    · dsimp only [State.modX]
      rw [hctx hscope, if_neg (by omega), State.fetchAhead_held hheld]
    · dsimp only [State.modX]
      rw [hctx hscope, if_neg (by omega)]
      exact ⟨fun d hout hread => State.fetchAhead_read hone hmiss hout hread, fun l hl => State.fetchAhead_middle hone hmiss hl⟩

/-- Settles O44: each step of a cache is read off the equation of the step, and no step of one touches a wave. -/
theorem cacheSteps : Obligations.CacheSteps := ⟨codeCaches, cacheEvents⟩

end Sys2Proof.Proofs
end

section
/-! PROOFS. Global accesses whose checks pass: their addresses, their translations, and the driver of global stores and atomics
(01 R19, R20, 02 R35, R38, 14 R274). -/

namespace Sys2Proof.Machine

/-! ### The address of a global access (R19, R20) -/

theorem swizzle_mod (o mode p : Nat) : swizzle o mode p % 16 = o % 16 := by
  have h (k : Nat) : Nat.xor o (16 * k) % 16 = o % 16 := by
    have hx : Nat.xor o (16 * k) % 2 ^ 4 = _ := Nat.xor_mod_two_pow (a := o) (b := 16 * k) (n := 4)
    simpa using hx
  unfold swizzle
  split
  · rw [Nat.mul_comm]
    exact h _
  · split
    · rw [show o / 2 ^ (8 + p) % 8 * 32 = 16 * (2 * (o / 2 ^ (8 + p) % 8)) by omega]
      exact h _
    · rfl

theorem BufRec.form_ok {r : BufRec} {type2 : Bool} {right : Right} {idx z : Nat} {imm : Int}
    (href : r.refusal type2 false right = none) (h0 : 0 ≤ (idx : Int) * (if r.stride = 0 then z else r.stride : Nat) + imm * z)
    (hext : (idx : Int) * (if r.stride = 0 then z else r.stride : Nat) + imm * z + z ≤ r.extent)
    (hdvd : (z : Int) ∣ (idx : Int) * (if r.stride = 0 then z else r.stride : Nat) + imm * z) :
    r.form type2 right idx imm z =
      .ok (r.base + swizzle ((idx : Int) * (if r.stride = 0 then z else r.stride : Nat) + imm * z).toNat r.swz r.swzP) := by
  rw [BufRec.form, href]
  simp only [BufRec.offset]
  rw [if_neg (not_or.2 ⟨not_lt.2 h0, not_lt.2 hext⟩), if_neg (not_not.2 (Int.emod_eq_zero_of_dvd hdvd))]

section
variable {s : State} {i : Iss} {w : MemI} {type2 : Bool} {right : Right} {a : Word} {va : Nat}

theorem globalAddr_ok (h : Claim.GlobalAt s i w type2 right a va) :
    globalAddr (s.x.bufRec i.w w.bn.toNat) w type2 right a.toNat = .ok va := by
  obtain ⟨htype, hright, -, h0, hext, hdvd, rfl⟩ := h
  refine BufRec.form_ok ?_ h0 hext hdvd
  cases type2 <;> simp_all [BufRec.refusal]

/-- An access of at most 16 bytes lies within one sector. -/
theorem globalAt_within (h : Claim.GlobalAt s i w type2 right a va) (hsize : w.m.size.toNat ≤ 4) :
    va % 32 + memSize w ≤ 32 := by
  obtain ⟨-, -, hbase, h0, -, hdvd, rfl⟩ := h
  have hswz := swizzle_mod (a.toNat * (if (s.x.bufRec i.w w.bn.toNat).stride = 0 then 2 ^ w.m.size.toNat
    else (s.x.bufRec i.w w.bn.toNat).stride : Nat) + w.imm.toInt * (2 ^ w.m.size.toNat : Nat) : Int).toNat
    (s.x.bufRec i.w w.bn.toNat).swz (s.x.bufRec i.w w.bn.toNat).swzP
  have hz : w.m.size.toNat = 0 ∨ w.m.size.toNat = 1 ∨ w.m.size.toNat = 2 ∨ w.m.size.toNat = 3 ∨ w.m.size.toNat = 4 := by omega
  unfold memSize
  generalize (a.toNat * (if (s.x.bufRec i.w w.bn.toNat).stride = 0 then 2 ^ w.m.size.toNat
    else (s.x.bufRec i.w w.bn.toNat).stride : Nat) + w.imm.toInt * (2 ^ w.m.size.toNat : Nat) : Int) = o at *
  generalize swizzle o.toNat _ _ = v at *
  rcases hz with e | e | e | e | e <;> rw [e] at hdvd ⊢ <;> norm_num at hdvd ⊢ <;> omega

end

theorem memScope_eq (s : State) (i : Iss) (w : MemI) : memScope w (s.x.bufRec i.w w.bn.toNat) = Claim.scopeOf s i w := rfl

/-! ### Translations that the core's cache holds (R35, R38) -/

section
variable {s t : State} {o : Who} {n : Need} {va : Nat} {l : Loc}

theorem reaches_translate (h : Claim.Reaches s o n va l) (hn : n.idle = false) : s.translate o.core o.ctx va n = (s, .ok l) := by
  obtain ⟨hva, -, t, ht, hcheck, hdirty, rfl⟩ := h
  have hsnap : ¬ snapBase ≤ va := by unfold snapBase; omega
  have huse : s.tlbUse o.ctx va n t = (s, some (.ok (s.locOf o.ctx t.z t.entry va))) := by
    have hdrop : n.dropped t.entry = false := by rw [Need.dropped, hn]; rfl
    unfold State.tlbUse
    rw [hcheck, hdrop]
    by_cases hw : (n.write || n.atomic) = true
    · simp [hw, MemSys.markDirty, hdirty hw]
    · simp [hw]
  rw [State.translate, if_neg hsnap]
  simp only [State.translateOnce, ht, huse]

theorem reaches_translateIn (h : Claim.Reaches s o n va l) (hn : n.idle = false) :
    s.translateIn [] o.core o.ctx va n = (s, .ok l, []) := by
  simp [State.translateIn, reaches_translate h hn]

theorem reaches_unique {k : Loc} (h : Claim.Reaches s o n va l) (hk : Claim.Reaches s o n va k) : l = k := by
  obtain ⟨-, -, t, ht, -, -, rfl⟩ := h
  obtain ⟨-, -, q, hq, -, -, rfl⟩ := hk
  rw [ht] at hq
  cases hq
  rfl

/-- What an address reaches depends on the cached translations and on the keys. -/
theorem reaches_congr (h : Claim.Reaches s o n va l) (ht : t.mem.tlbs = s.mem.tlbs) (hk : t.trust = s.trust) :
    Claim.Reaches t o n va l := by
  obtain ⟨hva, hl, e, he, hcheck, hdirty, hloc⟩ := h
  have hmal : ∀ c z q, t.malformed c z q = s.malformed c z q := fun c z q => by simp only [State.malformed, hk]
  refine ⟨hva, hl, e, ?_, ?_, hdirty, ?_⟩
  · rw [MemSys.tlbFind, ht]
    exact he
  · simp only [State.checkEntry, hmal] at hcheck ⊢
    exact hcheck
  · simp only [State.locOf, hk] at hloc ⊢
    exact hloc

end

/-! ### Instructions all of whose accesses are formed -/

theorem filterMap_map_some {α β γ : Type} {F : β → Option γ} {h : α → β} {g : α → γ} (hF : ∀ a, F (h a) = some (g a))
    (l : List α) : (l.map h).filterMap F = l.map g := by
  rw [List.filterMap_map, ← List.filterMap_eq_map]
  exact List.filterMap_congr fun a _ => hF a

theorem foldl_map_self {α β σ : Type} {F : σ → β → σ} {h : α → β} (hF : ∀ s a, F s (h a) = s) (l : List α) (s : σ) :
    (l.map h).foldl F s = s := by
  rw [List.foldl_map]
  exact foldl_keeps id (fun s a => hF s a) l s

/-- A store or reduction none of whose fibres is refused. -/
theorem State.perWrite_eq {s : State} {i : Iss} {w : MemI} {kind op : Nat} {form : Exec → Iss → Nat → WFormed} {g : Nat → SecWrite}
    (hi : s.x.issue? = some i) (hg : ∀ f ∈ i.served w.h, form s.x i f = .go (g f)) :
    s.perWrite w kind op form = (s.issueEnts i 8 w.m.hint.toNat
      (sectorEnts kind op (Claim.scopeOf s i w) w.m.ord.toNat i.pc ((i.served w.h).map g))).modX fun x => x.advance i 8 := by
  have hfs : (i.served w.h).map (fun f => (f, form s.x i f)) = (i.served w.h).map fun f => (f, WFormed.go (g f)) :=
    List.map_congr_left fun f hf => by rw [hg f hf]
  simp only [State.perWrite, hi, hfs, memScope_eq]
  rw [filterMap_map_some (h := fun f => (f, WFormed.go (g f))) (g := g) fun _ => rfl,
    foldl_map_self (h := fun f => (f, WFormed.go (g f))) fun _ _ => rfl]

/-- A fibre's write is formed where its registers can be read and its record grants the access. -/
theorem Exec.formWrite_go {s : State} {i : Iss} {w : MemI} {n f va : Nat} {a : Word} {right : Right} {srcs l : List Nat}
    {fill : List Nat → List Byte × (Nat × Nat)} (hb : s.x.pastBudget i f (w.s1.toNat :: regsFrom w.d.toNat n) = false)
    (ha : s.x.ownRead i f w.s1.toNat = some a) (hl : (srcs.mapM fun k => (s.x.ownRead i f k).map BitVec.toNat) = some l)
    (hva : Claim.GlobalAt s i w false right a va) :
    s.x.formWrite i f w n srcs right fill = .go ⟨f, va, memSize w, (fill l).1, (fill l).2⟩ := by
  simp only [Exec.formWrite, hb, ha, hl, globalAddr_ok hva, Bool.false_eq_true, if_false]

end Sys2Proof.Machine
end

section
/-! PROOFS. Stores into sectors that a core's L1 holds (03 R57, R58, 06 R117). -/

namespace Sys2Proof.Machine

/-! ### Placing a sector where its line stands already -/

theorem mem_dedup {α : Type} [DecidableEq α] {a : α} {l : List α} : a ∈ dedup l ↔ a ∈ l := by
  induction l with
  | nil => rfl
  | cons b l ih => by_cases h : a = b <;> simp [dedup, ih, h]

/-- A sector of an L1 without its recency and persistence. -/
def L1Sec.plain (c : L1Sec) : L1Sec := { c with lru := 0, keep := false }

/-- What an L1 holds of a sector, whatever its recency and persistence (R56). -/
def MemSys.l1Held (m : MemSys) (core sec key : Nat) : Option L1Sec := (m.l1Find core sec key).map L1Sec.plain

/-- A step that changes the copies of the L1s, and nothing else of memory, and no wave. -/
structure L1Only (s t : State) : Prop where
  trust : t.trust = s.trust
  waves : t.x.waves = s.x.waves
  mem   : { t.mem with l1 := s.mem.l1 } = s.mem

theorem L1Only.refl (s : State) : L1Only s s := ⟨rfl, rfl, rfl⟩

theorem L1Only.trans {s t u : State} (h : L1Only s t) (k : L1Only t u) : L1Only s u :=
  ⟨k.trust.trans h.trust, k.waves.trans h.waves, by
    have e := congrArg (fun m : MemSys => { m with l1 := s.mem.l1 }) k.mem
    exact e.trans h.mem⟩

theorem L1Only.modX {s : State} {f : Exec → Exec} (h : (f s.x).waves = s.x.waves) : L1Only s (s.modX f) := ⟨rfl, h, rfl⟩

theorem L1Only.tlbs {s t : State} (h : L1Only s t) : t.mem.tlbs = s.mem.tlbs := by have e := congrArg MemSys.tlbs h.mem; exact e
theorem L1Only.dev {s t : State} (h : L1Only s t) : t.mem.dev = s.mem.dev := by have e := congrArg MemSys.dev h.mem; exact e
theorem L1Only.host {s t : State} (h : L1Only s t) : t.mem.host = s.mem.host := by have e := congrArg MemSys.host h.mem; exact e

theorem MemSys.of_l1Find {m : MemSys} {core sec key : Nat} {c : L1Sec} (h : m.l1Find core sec key = some c) :
    c ∈ m.l1 ∧ c.core = core ∧ c.sec = sec ∧ c.key = key :=
  ⟨List.mem_of_find?_eq_some h, by simpa using List.find?_some h⟩

/-- A line that an L1 holds needs no room. -/
theorem State.l1Room_eq_self {s : State} {core : Nat} {l : Loc} {c : L1Sec} (h : s.mem.l1Find core l.sec l.key = some c) :
    s.l1Room core l = s := by
  obtain ⟨hmem, hcore, hsec, hkey⟩ := MemSys.of_l1Find h
  have hline : (l.sec / 4, l.key) ∈ dedup ((s.mem.l1.filter fun c =>
      decide (c.core = core ∧ c.sec / 4 % 256 = l.sec / 4 % 256)).map L1Sec.line) :=
    mem_dedup.2 (List.mem_map.2 ⟨c, List.mem_filter.2 ⟨hmem, by simp [hcore, hsec]⟩, by rw [L1Sec.line, hsec, hkey]⟩)
  unfold State.l1Room
  simp only [List.contains_iff_mem.2 hline, Bool.true_or, if_true]

theorem find?_filter_of_imp {α : Type} {p q : α → Bool} (h : ∀ a, q a = true → p a = true) (l : List α) :
    (l.filter p).find? q = l.find? q := by
  rw [List.find?_filter]
  congr 1
  funext a
  cases hq : q a with
  | false => simp
  | true => simp [h a hq]

theorem MemSys.l1Held_l1Put (m : MemSys) (c : L1Sec) (core sec key : Nat) : (m.l1Put c).l1Held core sec key =
    if core = c.core ∧ sec = c.sec ∧ key = c.key then some c.plain else m.l1Held core sec key := by
  unfold l1Held l1Find l1Put
  rw [List.find?_append]
  by_cases h : core = c.core ∧ sec = c.sec ∧ key = c.key
  · obtain ⟨rfl, rfl, rfl⟩ := h
    have hnone : (m.l1.filter fun d => !decide (d.core = c.core ∧ d.sec = c.sec ∧ d.key = c.key)).find?
        (fun d => decide (d.core = c.core ∧ d.sec = c.sec ∧ d.key = c.key)) = none :=
      List.find?_eq_none.2 fun d hd he => by
        have := (List.mem_filter.1 hd).2
        rw [he] at this
        exact Bool.false_ne_true this
    rw [hnone]
    simp
  · have hc : decide (c.core = core ∧ c.sec = sec ∧ c.key = key) = false :=
      decide_eq_false fun e => h ⟨e.1.symm, e.2.1.symm, e.2.2.symm⟩
    rw [if_neg h, find?_filter_of_imp, List.find?_cons, hc]
    · simp
    · intro d hd
      obtain ⟨rfl, rfl, rfl⟩ := of_decide_eq_true hd
      exact congrArg (!·) (decide_eq_false h)

/-- A change of recency changes nothing that an L1 holds. -/
theorem MemSys.l1Held_map (m : MemSys) {f : L1Sec → L1Sec} (hf : ∀ c, ∃ n, f c = { c with lru := n }) (core sec key : Nat) :
    ({ m with l1 := m.l1.map f } : MemSys).l1Held core sec key = m.l1Held core sec key := by
  have hsame : ((fun c : L1Sec => decide (c.core = core ∧ c.sec = sec ∧ c.key = key)) ∘ f) =
      fun c => decide (c.core = core ∧ c.sec = sec ∧ c.key = key) := by
    funext c
    obtain ⟨n, hn⟩ := hf c
    simp only [Function.comp_apply, hn]
    rfl
  have hplain : L1Sec.plain ∘ f = L1Sec.plain := by
    funext c
    obtain ⟨n, hn⟩ := hf c
    simp only [Function.comp_apply, hn]
    rfl
  simp only [l1Held, l1Find, List.find?_map, hsame, Option.map_map, hplain]

/-- A sector placed in a line that the L1 holds (R58). -/
theorem State.l1Place_held {s : State} {c d : L1Sec} (h : s.mem.l1Find c.core c.sec c.key = some d) (hint : Nat) :
    L1Only s (s.l1Place hint c) ∧ ∀ core sec key, (s.l1Place hint c).mem.l1Held core sec key =
      if core = c.core ∧ sec = c.sec ∧ key = c.key then some c.plain else s.mem.l1Held core sec key := by
  have hroom : s.l1Room c.core c.loc = s := State.l1Room_eq_self (l := c.loc) h
  unfold State.l1Place
  rw [hroom]
  dsimp only [State.modM, State.stamp, State.modX]
  split
  · refine ⟨⟨rfl, rfl, rfl⟩, fun core sec key => ?_⟩
    rw [MemSys.l1Held_map _ (fun e => ?_), MemSys.l1Held_l1Put]
    · rfl
    · split
      · exact ⟨0, rfl⟩
      · exact ⟨e.lru, rfl⟩
  · refine ⟨⟨rfl, rfl, rfl⟩, fun core sec key => ?_⟩
    rw [MemSys.l1Held_l1Put]
    rfl

/-! ### A store of one sector -/

/-- What a store leaves of a sector that an L1 holds: every byte valid, the stored ones new and dirty (R57). -/
def Stored (m : MemSys) (core sec key mask : Nat) (d data : List Byte) : Prop :=
  ∃ c, m.l1Held core sec key = some c ∧ c.have_ = fullMask ∧ c.data = mergeBytes mask d data ∧
    ∀ k, mask.testBit k = true → c.dirty.testBit k = true

/-- A narrow store into a sector that the core's L1 holds writes its bytes there, and no memory (R57, R58). -/
theorem State.storeSec_cached {s : State} {o : Who} {hint mask : Nat} {data d : List Byte} {l : Loc}
    (h : Claim.Cached s o.core l d) (hhint : hint ≠ 2) (hmask : Nat.lor fullMask mask = fullMask) :
    L1Only s (s.storeSec o false hint mask data l) ∧
    Stored (s.storeSec o false hint mask data l).mem o.core l.sec l.key mask d data ∧
    ∀ core sec key, sec ≠ l.sec → (s.storeSec o false hint mask data l).mem.l1Held core sec key = s.mem.l1Held core sec key := by
  obtain ⟨-, c, hfind, hhave, -, rfl⟩ := h
  obtain ⟨-, hcore, hsec, hkey⟩ := MemSys.of_l1Find hfind
  unfold State.storeSec
  rw [hfind]
  simp only [Option.getD_some, hhint, if_false, Bool.false_eq_true]
  have hplace := fun c' : L1Sec => fun (h : c'.core = c.core ∧ c'.loc = c.loc) =>
    State.l1Place_held (s := s) (c := c') (d := c) (by
      rw [h.1, hcore, L1Sec.sec, h.2, L1Sec.key, h.2]
      rw [← hsec, ← hkey] at hfind
      exact hfind) hint
  have hpost {t : State} (ht : L1Only s t) {p : Prop} [Decidable p] :
      L1Only s (if p then t.modX fun x => x.post 8192 (.l1WritebackTimeout o.core l.sec) else t) := by
    split
    · exact ht.trans (L1Only.modX (Exec.waves_post ..))
    · exact ht
  have hmem {t : State} {p : Prop} [Decidable p] :
      (if p then t.modX fun x => x.post 8192 (.l1WritebackTimeout o.core l.sec) else t).mem = t.mem := by
    split <;> rfl
  obtain ⟨honly, hheld⟩ := hplace { c with
    have_ := Nat.lor c.have_ mask, data := mergeBytes mask c.data data, pois := (storePois mask).getD c.pois,
    dirty := Nat.lor c.dirty mask, whole := c.whole || decide (mask = fullMask), grids := setAdd c.grids o.grid } ⟨rfl, rfl⟩
  refine ⟨hpost honly, ?_, fun core sec key hne => ?_⟩
  · rw [hmem]
    refine ⟨_, (hheld ..).trans (if_pos ⟨hcore.symm, hsec.symm, hkey.symm⟩), ?_, rfl, fun k hk => ?_⟩
    · exact (congrArg (fun n => Nat.lor n mask) hhave).trans hmask
    · exact (Nat.testBit_or ..).trans (by simp [hk])
  · rw [hmem, hheld, if_neg fun e => hne (e.2.1.trans hsec)]

end Sys2Proof.Machine
end

section
/-! PROOFS. Global stores into cached sectors (03 R57, R58, 06 R117, 14 R274). -/

namespace Sys2Proof.Machine

/-! ### The writes of several fibres to one sector (R117) -/

theorem nodup_dedup {α : Type} [DecidableEq α] (l : List α) : (dedup l).Nodup := by
  induction l with
  | nil => exact List.nodup_nil
  | cons a l ih => exact List.nodup_cons.2 ⟨by simp, ih.filter _⟩

/-- Whether a write stores byte k of its sector. -/
def SecWrite.covers (k : Nat) (a : SecWrite) : Bool := decide (a.va % 32 ≤ k ∧ k < a.va % 32 + a.size)

/-- The mask and the bytes that writes to one sector make, in their order. -/
def mergedWrites (l : List SecWrite) : Nat × List Byte :=
  l.foldl (fun m a => (Nat.lor m.1 (maskAt (a.va % 32) a.size),
    mergeBytes (maskAt (a.va % 32) a.size) m.2 (placeAt (a.va % 32) a.data))) (0, List.replicate 32 0)

/-- The sector entry of a store. -/
def storeEntry (scope ord pc : Nat) (l : List SecWrite) (sec : Nat) : LogEnt :=
  let mine := l.filter fun a => decide (a.va / 32 = sec)
  { va := 32 * sec, mask := (mergedWrites mine).1, data := (mergedWrites mine).2, op := 0, args := [], scope := scope, ord := ord,
    fibs := mine.map SecWrite.fib, pc := pc, kind := ekStore }

theorem sectorEnts_store (scope ord pc : Nat) (l : List SecWrite) :
    sectorEnts ekStore 0 scope ord pc l = (dedup (l.map fun a => a.va / 32)).map (storeEntry scope ord pc l) := rfl

theorem mergedWrites_concat (l : List SecWrite) (a : SecWrite) : mergedWrites (l ++ [a]) =
    (Nat.lor (mergedWrites l).1 (maskAt (a.va % 32) a.size),
      mergeBytes (maskAt (a.va % 32) a.size) (mergedWrites l).2 (placeAt (a.va % 32) a.data)) := by
  simp only [mergedWrites, List.foldl_append, List.foldl_cons, List.foldl_nil]

theorem testBit_maskAt (a : SecWrite) (k : Nat) : (maskAt (a.va % 32) a.size).testBit k = a.covers k := by
  rw [← bitOf_eq_testBit, bitOf_maskAt, SecWrite.covers]

section
variable {l : List SecWrite} (h : ∀ a ∈ l, a.va % 32 + a.size ≤ 32 ∧ a.data.length = a.size)

theorem testBit_mergedWrites (l : List SecWrite) (k : Nat) : (mergedWrites l).1.testBit k = l.any (SecWrite.covers k) := by
  induction l using List.reverseRecOn with
  | nil => simp [mergedWrites]
  | append_singleton l a ih =>
    rw [mergedWrites_concat, List.any_append, ← ih]
    exact (Nat.testBit_or ..).trans (by simp [testBit_maskAt])

include h

theorem lor_mergedWrites : Nat.lor fullMask (mergedWrites l).1 = fullMask := by
  apply Nat.eq_of_testBit_eq
  intro k
  refine (Nat.testBit_or ..).trans ?_
  rw [testBit_mergedWrites, fullMask, Nat.testBit_two_pow_sub_one, Bool.or_eq_left_iff_imp, List.any_eq_true]
  rintro ⟨a, ha, hk⟩
  have hk := of_decide_eq_true hk
  have := (h a ha).1
  exact decide_eq_true (by omega)

theorem length_mergedWrites : (mergedWrites l).2.length = 32 := by
  induction l using List.reverseRecOn with
  | nil => rfl
  | append_singleton l a ih =>
    obtain ⟨ha, hd⟩ := h a (by simp)
    rw [mergedWrites_concat, length_mergeBytes, ih fun b hb => h b (List.mem_append_left _ hb), length_placeAt _ _ (by omega)]
    rfl

/-- A byte that several writes store takes the last one's value (R117). -/
theorem getD_mergedWrites {k : Nat} {a : SecWrite} (ha : (l.filter (SecWrite.covers k)).getLast? = some a) :
    (mergedWrites l).2.getD k 0 = a.data.getD (k - a.va % 32) 0 := by
  induction l using List.reverseRecOn with
  | nil => simp at ha
  | append_singleton l b ih =>
    have hl := fun c hc => h c (List.mem_append_left _ hc)
    obtain ⟨hb, hd⟩ := h b (by simp)
    have hlen := length_mergedWrites hl
    have hk : k < 32 := by
      obtain ⟨hmem, hcov⟩ := List.mem_filter.1 (List.mem_of_getLast? ha)
      have hcov := of_decide_eq_true hcov
      have := (h a hmem).1
      omega
    rw [mergedWrites_concat, getD_mergeBytes _ _ _ _ (by omega) (by rw [length_placeAt _ _ (by omega)]; exact hk),
      bitOf_eq_testBit, testBit_maskAt]
    rw [List.filter_append] at ha
    cases hc : b.covers k with
    | true =>
      obtain rfl : b = a := by simpa [hc] using ha
      have hc := of_decide_eq_true hc
      rw [if_pos rfl, getD_placeAt _ _ _ hc.1 (by omega)]
    | false =>
      rw [if_neg Bool.false_ne_true]
      exact ih hl (by simpa [hc] using ha)

end

/-! ### The entries of one store -/

theorem cached_of_held {s t : State} {core : Nat} {l : Loc} {d : List Byte} (h : Claim.Cached s core l d)
    (he : t.mem.l1Held core l.sec l.key = s.mem.l1Held core l.sec l.key) : Claim.Cached t core l d := by
  obtain ⟨hd, c, hc, hhave, hpois, hdata⟩ := h
  rw [MemSys.l1Held, MemSys.l1Held, hc, Option.map_some, Option.map_eq_some_iff] at he
  obtain ⟨e, he, hplain⟩ := he
  exact ⟨hd, e, he, (congrArg L1Sec.have_ hplain).trans hhave, (congrArg L1Sec.pois hplain).trans hpois,
    (congrArg L1Sec.data hplain).trans hdata⟩

section
variable {o : Who} {hint : Nat} {ent : Nat → LogEnt} {loc : Nat → Loc} {d : Nat → List Byte}

/-- One sector stored, and counted as a request (R57, R75). -/
def State.storeSector (s : State) (o : Who) (hint : Nat) (ent : Nat → LogEnt) (loc : Nat → Loc) (q : Nat) : State :=
  (s.modX fun x => x.countReq o (loc q)).storeSec o false hint (ent q).mask (ent q).data (loc q)

/-- The sectors of a list are each reached by a translation and held by the core's L1. -/
def Holds (s : State) (o : Who) (ent : Nat → LogEnt) (loc : Nat → Loc) (d : Nat → List Byte) (qs : List Nat) : Prop :=
  ∀ q ∈ qs, Claim.Reaches s o { write := true } (ent q).va (loc q) ∧ Claim.Cached s o.core (loc q) (d q)

theorem State.storeSector_held {s : State} {q : Nat} {qs : List Nat} (hhint : hint ≠ 2)
    (hmask : Nat.lor fullMask (ent q).mask = fullMask) (hsec : ∀ p ∈ qs, (loc q).sec ≠ (loc p).sec)
    (hs : Holds s o ent loc d (q :: qs)) :
    L1Only s (s.storeSector o hint ent loc q) ∧ Holds (s.storeSector o hint ent loc q) o ent loc d qs ∧
    Stored (s.storeSector o hint ent loc q).mem o.core (loc q).sec (loc q).key (ent q).mask (d q) (ent q).data ∧
    ∀ core sec key, sec ≠ (loc q).sec → (s.storeSector o hint ent loc q).mem.l1Held core sec key = s.mem.l1Held core sec key := by
  obtain ⟨honly, hstored, hheld⟩ := State.storeSec_cached (s := s.modX fun x => x.countReq o (loc q)) (data := (ent q).data)
    (hs q (List.mem_cons_self ..)).2 hhint hmask
  have honly := (L1Only.modX (s := s) (Exec.waves_countReq ..)).trans honly
  refine ⟨honly, fun p hp => ?_, hstored, hheld⟩
  obtain ⟨hr, hc⟩ := hs p (List.mem_cons_of_mem _ hp)
  exact ⟨reaches_congr hr honly.tlbs honly.trust, cached_of_held hc (hheld _ _ _ (hsec p hp).symm)⟩

/-- Sectors that the L1 holds, stored in turn. -/
theorem State.storeSectors_held (hhint : hint ≠ 2) (qs : List Nat) (hmask : ∀ q ∈ qs, Nat.lor fullMask (ent q).mask = fullMask)
    (hsec : qs.Pairwise fun p q => (loc p).sec ≠ (loc q).sec) {s : State} (hs : Holds s o ent loc d qs) :
    L1Only s (qs.foldl (fun s q => s.storeSector o hint ent loc q) s) ∧
    (∀ q ∈ qs, Stored (qs.foldl (fun s q => s.storeSector o hint ent loc q) s).mem o.core (loc q).sec (loc q).key (ent q).mask (d q)
      (ent q).data) ∧
    ∀ core sec key, (∀ q ∈ qs, sec ≠ (loc q).sec) →
      (qs.foldl (fun s q => s.storeSector o hint ent loc q) s).mem.l1Held core sec key = s.mem.l1Held core sec key := by
  induction qs generalizing s with
  | nil => exact ⟨.refl s, by simp, fun _ _ _ _ => rfl⟩
  | cons q qs ih =>
    obtain ⟨hq, hsec⟩ := List.pairwise_cons.1 hsec
    obtain ⟨honly, hs, ⟨c, hc, hfacts⟩, hheld⟩ := State.storeSector_held hhint (hmask q (List.mem_cons_self ..)) hq hs
    obtain ⟨hrest, hall, hother⟩ := ih (fun p hp => hmask p (List.mem_cons_of_mem _ hp)) hsec hs
    rw [List.foldl_cons]
    refine ⟨honly.trans hrest, fun p hp => ?_, fun core sec key hne => ?_⟩
    · rcases List.mem_cons.1 hp with rfl | hp
      · exact ⟨c, (hother _ _ _ hq).trans hc, hfacts⟩
      · exact hall p hp
    · rw [hother core sec key fun p hp => hne p (List.mem_cons_of_mem _ hp), hheld core sec key (hne q (List.mem_cons_self ..))]

/-- The entries of a store at a narrow scope, each performed at once: `F` is the driver's step for one entry. -/
theorem foldl_storeEntries {F : (State × List LogEnt) × List Nat → LogEnt → (State × List LogEnt) × List Nat} (hhint : hint ≠ 2)
    (qs : List Nat) (hmask : ∀ q ∈ qs, Nat.lor fullMask (ent q).mask = fullMask)
    (hsec : qs.Pairwise fun p q => (loc p).sec ≠ (loc q).sec) {s : State} (hs : Holds s o ent loc d qs)
    (hF : ∀ q t, Claim.Reaches t o { write := true } (ent q).va (loc q) →
      F ((t, []), []) (ent q) = ((t.storeSector o hint ent loc q, []), [])) :
    (qs.map ent).foldl F ((s, []), []) = ((qs.foldl (fun s q => s.storeSector o hint ent loc q) s, []), []) := by
  induction qs generalizing s with
  | nil => rfl
  | cons q qs ih =>
    obtain ⟨hq, hsec⟩ := List.pairwise_cons.1 hsec
    rw [List.map_cons, List.foldl_cons, hF q s (hs q (List.mem_cons_self ..)).1]
    exact ih (fun p hp => hmask p (List.mem_cons_of_mem _ hp)) hsec
      (State.storeSector_held hhint (hmask q (List.mem_cons_self ..)) hq hs).2.1

end

/-- A store entry at a narrow scope whose sector the translation reaches: it is counted and performed at once. -/
theorem State.performEnt_store {o : Who} {e : LogEnt} {hint : Nat} {p : Loc} (hkind : e.kind = ekStore) (hscope : e.scope < 4)
    (hhost : p.host = false) (t : State) : (t.countEnt o e p).performEnt o e hint p =
      ((t.modX fun x => x.countReq o p).storeSec o false hint e.mask e.data p, []) := by
  have hwide : decide (4 ≤ e.scope) = false := decide_eq_false (by omega)
  simp [State.countEnt, State.performEnt, hkind, hhost, hwide, ekStore, ekCwb, ekCinv]

/-- The store entries of a wave whose log is empty (R44, R45). -/
theorem State.issueEnts_store {s : State} {i : Iss} {scope ord pc hint : Nat} {l : List SecWrite} {loc : Nat → Loc}
    {d : Nat → List Byte} (hlog : i.w.log = []) (hdet : s.x.determ i.w = false) (hscope : scope < 4) (hhint : hint ≠ 2)
    (hl : ∀ a ∈ l, a.va % 32 + a.size ≤ 32 ∧ a.data.length = a.size)
    (hloc : ∀ a ∈ l, Claim.Reaches s (s.x.who i.w) { write := true } (32 * (a.va / 32)) (loc (a.va / 32)) ∧
      Claim.Cached s (s.x.who i.w).core (loc (a.va / 32)) (d (a.va / 32)))
    (hsec : ∀ a ∈ l, ∀ b ∈ l, (loc (a.va / 32)).sec = (loc (b.va / 32)).sec → a.va / 32 = b.va / 32) :
    ∃ t, s.issueEnts i 8 hint (sectorEnts ekStore 0 scope ord pc l) = t ∧ L1Only s t ∧
      ∀ a ∈ l, Stored t.mem (s.x.who i.w).core (loc (a.va / 32)).sec (loc (a.va / 32)).key
        (mergedWrites (l.filter fun b => decide (b.va / 32 = a.va / 32))).1 (d (a.va / 32))
        (mergedWrites (l.filter fun b => decide (b.va / 32 = a.va / 32))).2 := by
  have hmem : ∀ q, q ∈ dedup (l.map fun a => a.va / 32) ↔ ∃ a ∈ l, a.va / 32 = q := fun q => by rw [mem_dedup, List.mem_map]
  have hmine : ∀ q, ∀ a ∈ l.filter (fun b => decide (b.va / 32 = q)), a.va % 32 + a.size ≤ 32 ∧ a.data.length = a.size :=
    fun q a ha => hl a (List.mem_filter.1 ha).1
  unfold State.issueEnts
  simp only [hlog, hdet, List.isEmpty_nil, Bool.not_true, Bool.and_false, Bool.false_eq_true, if_false, sectorEnts_store]
  have hfull := fun q (_ : q ∈ dedup (l.map fun a => a.va / 32)) => lor_mergedWrites (hmine q)
  have hapart : (dedup (l.map fun a => a.va / 32)).Pairwise fun p q => (loc p).sec ≠ (loc q).sec :=
    (nodup_dedup _).imp_of_mem fun {p q} hp hq hne he => by
      obtain ⟨a, ha, rfl⟩ := (hmem p).1 hp
      obtain ⟨b, hb, rfl⟩ := (hmem q).1 hq
      exact hne (hsec a ha b hb he)
  have hs : Holds s (s.x.who i.w) (storeEntry scope ord pc l) loc d (dedup (l.map fun a => a.va / 32)) := fun q hq => by
    obtain ⟨a, ha, rfl⟩ := (hmem q).1 hq
    exact hloc a ha
  have hneed : ∀ q, (storeEntry scope ord pc l q).need = { write := true } := fun _ => rfl
  obtain ⟨honly, hstored, -⟩ := State.storeSectors_held hhint _ hfull hapart hs
  rw [foldl_storeEntries hhint _ hfull hapart hs fun q t ht => ?_]
  · exact ⟨_, rfl, honly, fun a ha => hstored _ ((hmem _).2 ⟨a, ha, rfl⟩)⟩
  · simp only [hneed, reaches_translateIn ht rfl, State.performEnt_store (e := storeEntry scope ord pc l q) rfl hscope ht.2.1]
    rfl

end Sys2Proof.Machine
end

section
/-! PROOFS. Global stores into cached sectors, and what a group leaves that writes no register (03 R57, R58, 06 R117, 14 R274). -/

namespace Sys2Proof.Machine

/-- A group that moves on and writes no register. -/
theorem served_advance {s t : State} {i : Iss} {h : Hd} {y : Exec} (hi : s.x.issue? = some i) (htrust : t.trust = s.trust)
    (hw : y.waves = s.x.waves) (ht : t.x = y.advance i 8) : Claim.Served s t i { h with la := 0 } fun _ => {} := by
  have hfib : ∀ u f, t.x.fib u f = { s.x.fib u f with pc := if u = i.u ∧ f ∈ i.grp then (i.pc + 8) % 2 ^ 48 else (s.x.fib u f).pc } :=
    fun u f => by
      rw [ht, Exec.fib_advance _ _ _ (Iss.grp_nodup hi), Exec.fib_congr hw]
      by_cases c : u = i.u ∧ f ∈ i.grp
      · obtain ⟨rfl, hf⟩ := c
        obtain ⟨-, hst, hpc⟩ := (Iss.mem_grp hi f).1 hf
        rw [if_pos ⟨rfl, hf, hst, hpc⟩, if_pos ⟨rfl, hf⟩]
      · rw [if_neg fun e => c ⟨e.1, e.2.1⟩, if_neg c]
  have hread : ∀ w : Option Wave, w.map Claim.bareRead = (w.map Wave.bare).map fun w => { w with unset := [] } := fun w => by
    cases w <;> rfl
  refine ⟨htrust, fun u => ?_, fun u a k _ => ?_, fun u f => ?_, fun u f => ?_⟩
  · rw [hread, hread, ht, Exec.bare_advance, Exec.wave?_congr hw]
  · rw [ht, Exec.slotReg_advance, Exec.slotReg_congr hw]
    cases s.x.ownerOf i (i.served { h with la := 0 }) u a <;> rfl
  · rw [hfib]
    simp
  · rw [hfib]

theorem getElem?_eq_some_getD {l : List Byte} {k : Nat} (h : k < l.length) : l[k]? = some (l.getD k 0) := by
  rw [List.getElem?_eq_getElem h, List.getD_eq_getElem _ _ h]

/-! ### What a store of a group leaves in a sector -/

section
variable {fs : List Nat} {va : Nat → Nat} {g : Nat → SecWrite} {z : Nat} (hva : ∀ f, (g f).va = va f) (hsize : ∀ f, (g f).size = z)
  (hfit : ∀ f ∈ fs, va f % 32 + z ≤ 32 ∧ (g f).data.length = z)
include hva hsize

theorem filter_covers (fs : List Nat) (q k : Nat) : ((fs.map g).filter fun a => decide (a.va / 32 = q)).filter (SecWrite.covers k) =
    (fs.filter fun f => decide (va f / 32 = q ∧ va f % 32 ≤ k ∧ k < va f % 32 + z)).map g := by
  rw [List.filter_filter, List.filter_map]
  congr 2
  funext f
  rw [Function.comp_apply, SecWrite.covers, hva, hsize, ← Bool.decide_and, decide_eq_decide]
  tauto

include hfit

/-- The bytes of a sector after the stores of a group: the last fibre that stores a byte gives it, and marks it. -/
theorem stored_bytes {m : MemSys} {core sec key q : Nat} {d : List Byte} (hd : d.length = 32)
    (h : Stored m core sec key (mergedWrites ((fs.map g).filter fun a => decide (a.va / 32 = q))).1 d
      (mergedWrites ((fs.map g).filter fun a => decide (a.va / 32 = q))).2) :
    ∃ n, m.l1Find core sec key = some n ∧ n.have_ = fullMask ∧
      ∀ k < 32, match (fs.filter fun f => decide (va f / 32 = q ∧ va f % 32 ≤ k ∧ k < va f % 32 + z)).getLast? with
        | some f => n.data[k]? = some ((g f).data.getD (k - va f % 32) 0) ∧ n.dirty.testBit k = true
        | none => n.data[k]? = d[k]? := by
  have hmine : ∀ a ∈ (fs.map g).filter (fun a => decide (a.va / 32 = q)), a.va % 32 + a.size ≤ 32 ∧ a.data.length = a.size := by
    intro a ha
    obtain ⟨f, hf, rfl⟩ := List.mem_map.1 (List.mem_filter.1 ha).1
    rw [hva, hsize]
    exact hfit f hf
  have hbit := testBit_mergedWrites ((fs.map g).filter fun a => decide (a.va / 32 = q))
  have hlen := length_mergedWrites hmine
  have hlast := fun k a => getD_mergedWrites hmine (k := k) (a := a)
  have hcovers := filter_covers hva hsize fs q
  generalize (fs.map g).filter (fun a => decide (a.va / 32 = q)) = mine at *
  obtain ⟨c, hc, hhave, hdata, hdirty⟩ := h
  obtain ⟨n, hn, rfl⟩ := Option.map_eq_some_iff.1 hc
  have hdata : n.data = mergeBytes (mergedWrites mine).1 d (mergedWrites mine).2 := hdata
  refine ⟨n, hn, hhave, fun k hk => ?_⟩
  rw [hdata, getElem?_eq_some_getD (by rw [length_mergeBytes]; omega), getD_mergeBytes _ _ _ _ (by omega) (by omega),
    bitOf_eq_testBit, hbit]
  cases hf : (fs.filter fun f => decide (va f / 32 = q ∧ va f % 32 ≤ k ∧ k < va f % 32 + z)).getLast? with
  | some f =>
    have hcov : (mine.filter (SecWrite.covers k)).getLast? = some (g f) := by rw [hcovers, List.getLast?_map, hf]; rfl
    obtain ⟨hmem, hk⟩ := List.mem_filter.1 (List.mem_of_getLast? hcov)
    have hany : mine.any (SecWrite.covers k) = true := List.any_eq_true.2 ⟨_, hmem, hk⟩
    rw [hany, if_pos rfl, hlast k _ hcov, hva]
    exact ⟨rfl, hdirty k ((hbit k).trans hany)⟩
  | none =>
    have hnone : mine.filter (SecWrite.covers k) = [] := by rw [hcovers, List.getLast?_eq_none_iff.1 hf]; rfl
    have hany : mine.any (SecWrite.covers k) = false := by
      rw [List.any_eq_false]
      exact fun a ha => by simpa using List.filter_eq_nil_iff.1 hnone a ha
    rw [hany, if_neg Bool.false_ne_true, getElem?_eq_some_getD (by omega)]

end

/-- What the fibres of a sector reach and find there is one location, with one content. -/
theorem exists_sector {s : State} {o : Who} {fs : List Nat} {va : Nat → Nat} {l : Nat → Loc} {d : Nat → List Byte}
    (h : ∀ f ∈ fs, Claim.Reaches s o { write := true } (va f / 32 * 32) (l f) ∧ Claim.Cached s o.core (l f) (d f)) :
    ∃ (loc : Nat → Loc) (b : Nat → List Byte), ∀ f ∈ fs, loc (va f / 32) = l f ∧ b (va f / 32) = d f := by
  have hq : ∀ q, ∃ p : Loc × List Byte, ∀ f ∈ fs, va f / 32 = q → p.1 = l f ∧ p.2 = d f := by
    intro q
    by_cases hf : ∃ f ∈ fs, va f / 32 = q
    · obtain ⟨f, hf, rfl⟩ := hf
      refine ⟨(l f, d f), fun g hg he => ?_⟩
      obtain ⟨hrf, -, c, hc, -, -, hcd⟩ := h f hf
      obtain ⟨hrg, -, e, he', -, -, hed⟩ := h g hg
      have hl : l f = l g := reaches_unique hrf (he ▸ hrg)
      rw [← hl, hc] at he'
      cases he'
      exact ⟨hl, hcd.symm.trans hed⟩
    · exact ⟨(⟨false, 0, 0, 0, false, 0, 0, false⟩, []), fun g hg he => absurd ⟨g, hg, he⟩ hf⟩
  choose p hp using hq
  exact ⟨fun q => (p q).1, fun q => (p q).2, fun f hf => hp _ f hf rfl⟩

/-- The write of a fibre of a store: its words' bytes at its address (R274, R275). -/
def storeWrite (w : MemI) (c : Nat) (D : Nat → Nat → Word) (va : Nat → Nat) (f : Nat) : SecWrite :=
  ⟨f, va f, memSize w, leBytes (memSize w) (Claim.stored c ((List.range (dataCount c (memSize w))).map (D f))), 0, 0⟩

/-- A store none of whose fibres is refused issues the entries of their sectors (R274). -/
theorem execStb_entries {s : State} {i : Iss} {w : MemI} {c : Nat} {a : Nat → Word} {D : Nat → Nat → Word} {va : Nat → Nat}
    (hi : s.x.issue? = some i) (hc : s.x.memDesc w = some c)
    (hb : Claim.InBudget s i w.h (w.s1.toNat :: regsFrom w.d.toNat (dataCount c (memSize w))))
    (ha : Claim.Register s i w.h w.s1.toNat a) (hD : ∀ j < dataCount c (memSize w), Claim.Register s i w.h (w.d.toNat + j) (D · j))
    (hva : ∀ f ∈ i.served w.h, Claim.GlobalAt s i w false .write (a f) (va f)) :
    exec (.stb w) s = .next { (s.issueEnts i 8 w.m.hint.toNat (sectorEnts ekStore 0 (Claim.scopeOf s i w) w.m.ord.toNat i.pc
      ((i.served w.h).map (storeWrite w c D va)))).modX fun x => x.advance i 8 with trust := s.trust } := by
  refine congrArg (fun y : State => (.next { y with trust := s.trust } : Out)) (State.perWrite_eq hi fun f hf => ?_)
  simp only [hc]
  rw [Exec.formWrite_go (hb f hf) (ha f hf) (Exec.mapM_ownRead (D := D f) fun j hj => hD j hj f hf) (hva f hf),
    storeBytes_eq _ _ _ (by simp)]
  rfl

end Sys2Proof.Machine

namespace Sys2Proof.Proofs

open Sys2Proof.Machine Sys2Proof.Claim

/-- Settles O32: the entries of the store lie in distinct sectors that the L1 holds, so each is performed at once, in its place. -/
theorem cachedStores : Obligations.CachedStores := by
  intro s i w c a D va l d hi hclear hdet hc hsize hscope hhint o z hb ha hD hall hsec
  obtain ⟨-, hlog, -, -⟩ := hclear
  have hq : ∀ f, (storeWrite w c D va f).va / 32 = va f / 32 := fun _ => rfl
  have hfit : ∀ f ∈ i.served w.h, va f % 32 + memSize w ≤ 32 ∧ (storeWrite w c D va f).data.length = memSize w := fun f hf =>
    ⟨globalAt_within (hall f hf).1 hsize, length_leBytes ..⟩
  obtain ⟨loc, b, hloc⟩ := exists_sector fun f hf => (hall f hf).2
  obtain ⟨t, ht, honly, hstored⟩ := State.issueEnts_store (s := s) (i := i) (scope := scopeOf s i w) (ord := w.m.ord.toNat)
    (pc := i.pc) (l := (i.served w.h).map (storeWrite w c D va)) (loc := loc) (d := b) hlog hdet hscope
    (fun e => hhint (BitVec.eq_of_toNat_eq e)) (List.forall_mem_map.2 hfit)
    (List.forall_mem_map.2 fun f hf => by
      rw [hq, (hloc f hf).1, (hloc f hf).2, Nat.mul_comm]
      exact (hall f hf).2)
    (List.forall_mem_map.2 fun f hf => List.forall_mem_map.2 fun k hk => by
      rw [hq, hq, (hloc f hf).1, (hloc k hk).1]
      exact hsec f hf k hk)
  refine ⟨_, execStb_entries hi.run hc hb ha hD fun f hf => (hall f hf).1, ?_⟩
  rw [ht]
  refine ⟨honly.dev, honly.host, served_advance hi.run rfl honly.waves rfl, fun f hf => ?_⟩
  have hsector := hstored _ (List.mem_map_of_mem hf)
  rw [hq, (hloc f hf).1, (hloc f hf).2] at hsector
  obtain ⟨n, hn, hhave, hbytes⟩ := stored_bytes (va := va) (z := z) (fun _ => rfl) (fun _ => rfl) hfit
    (hall f hf).2.2.1 hsector
  refine ⟨n, hn, hhave, fun k hk => ?_⟩
  have hbyte := hbytes k hk
  cases hlast : ((i.served w.h).filter fun g => decide (va g / 32 = va f / 32 ∧ va g % 32 ≤ k ∧ k < va g % 32 + z)).getLast? with
  | none =>
    rw [hlast] at hbyte
    exact hbyte
  | some g =>
    rw [hlast] at hbyte
    have hk : k - va g % 32 < z := by
      have := of_decide_eq_true (List.mem_filter.1 (List.mem_of_getLast? hlast)).2
      omega
    obtain ⟨hdata, hdirty⟩ := hbyte
    exact ⟨hdata.trans (congrArg some (getD_leBytes _ _ _ hk)), hdirty⟩

end Sys2Proof.Proofs
end

section
/-! PROOFS. An atomic update of a sector at its home slice, on the core's own die, where no copy of the sector and no write to it is
anywhere else (03 R57, 06 R117, R124). -/

namespace Sys2Proof.Machine

/-! ### Bytes of a sector -/

/-- Bytes of a sector from an offset are those at the addresses. -/
theorem sliceOf32_sector (m : MemSys) (key sec off z : Nat) (h : off + z ≤ 32) :
    sliceOf32 (m.sector key sec) off z = (List.range z).map fun k => m.byteAt key (32 * sec + off + k) := by
  apply List.ext_getElem
  · simp [sliceOf32, MemSys.sector]
    omega
  · intro k hk hk'
    simp [sliceOf32, MemSys.sector, Nat.add_assoc]

theorem leNat_sliceOf32_sector (m : MemSys) (key sec off z : Nat) (h : off + z ≤ 32) :
    leNat (sliceOf32 (m.sector key sec) off z) = Claim.number (m.byteAt key) (32 * sec + off) z := by
  rw [sliceOf32_sector m key sec off z h, leNat_map_range]
  rfl

/-- A number written into the bytes of a sector. -/
theorem MemSys.byteAt_putSector_placeAt {m : MemSys} {key sec off z n : Nat} {p : Option Bool} (hk : key ≠ 0) (h : off + z ≤ 32) :
    (m.putSector key sec (maskAt off z) (placeAt off (leBytes z n)) p).byteAt key = Claim.patch (m.byteAt key) (32 * sec + off) z n := by
  funext a
  have hlen : (placeAt off (leBytes z n)).length = 32 := length_placeAt _ _ (by rw [length_leBytes]; exact h)
  rw [byteAt_putSector hk hlen, Claim.patch, bitOf_maskAt]
  by_cases ha : 32 * sec + off ≤ a ∧ a < 32 * sec + off + z
  · rw [if_pos (by omega), if_pos (decide_eq_true (by omega)), if_pos ha, getD_placeAt _ _ _ (by omega) (by rw [length_leBytes]; omega),
      getD_leBytes _ _ _ (by omega), show a % 32 - off = a - (32 * sec + off) by omega]
  · rw [if_neg ha]
    split
    · rw [if_neg (by simp only [decide_eq_true_eq]; omega)]
    · rfl

/-! ### The home slice -/

/-- A sector whose home slice is on the core's die, with no write waiting, no copy in the core's L1, and no poison. -/
structure Alone (m : MemSys) (o : Who) (l : Loc) : Prop where
  home : l.home = dieOf o.core
  reqs : ∀ q ∈ m.reqs, q.sq ≠ l.sec / 32
  l1   : ∀ c ∈ m.l1, c.core = o.core → c.sec ≠ l.sec
  pois : l.sec ∉ m.pois
  unc  : l.sec ∉ m.unc

theorem State.l1Evict_eq_self {s : State} {core sec : Nat} (h : ∀ c ∈ s.mem.l1, c.core = core → c.sec ≠ sec) :
    s.l1Evict core sec = s := by
  have hback : s.mem.l1.filter (fun c => decide (c.core = core) && decide (c.sec = sec)) = [] :=
    List.filter_eq_nil_iff.2 fun c hc => by simpa using h c hc
  have hdrop : s.mem.l1.filter (fun c => !decide (c.core = core ∧ c.sec = sec)) = s.mem.l1 :=
    List.filter_eq_self.2 fun c hc => by
      have := h c hc
      simp only [Bool.not_eq_true', decide_eq_false_iff_not, not_and]
      exact this
  simp only [State.l1Evict, State.writeBackIf, hback, List.foldl_nil, State.modM, MemSys.l1Drop, hdrop]

/-- What the atomics of a group at the home slices have left of memory: `bytes` under one key, and the bytes of other sectors. -/
structure AtHome (m n : MemSys) (key : Nat) (bytes : Nat → Byte) (secs : Nat → Prop) : Prop where
  host  : n.host = m.host
  l1    : n.l1 = m.l1
  reqs  : n.reqs = m.reqs
  pois  : n.pois = m.pois
  unc   : n.unc = m.unc
  bytes : n.byteAt key = bytes
  other : ∀ b, ¬ secs (b / 32) → n.dev.get 0 b = m.dev.get 0 b

theorem AtHome.start (m : MemSys) (key : Nat) (secs : Nat → Prop) : AtHome m m key (m.byteAt key) secs :=
  ⟨rfl, rfl, rfl, rfl, rfl, rfl, fun _ _ => rfl⟩

theorem AtHome.alone {m n : MemSys} {key : Nat} {bytes : Nat → Byte} {secs : Nat → Prop} {o : Who} {l : Loc}
    (h : AtHome m n key bytes secs) (ha : Alone m o l) : Alone n o l :=
  ⟨ha.home, by rw [h.reqs]; exact ha.reqs, by rw [h.l1]; exact ha.l1, by rw [h.pois]; exact ha.pois, by rw [h.unc]; exact ha.unc⟩

section
variable {m n : MemSys} {key : Nat} {bytes : Nat → Byte} {secs : Nat → Prop}

theorem AtHome.beside {s t : State} (h : AtHome m s.mem key bytes secs) (hb : t.besideL2 = s.besideL2) :
    AtHome m t.mem key bytes secs := by
  have hbyte : t.mem.byteAt = s.mem.byteAt := MemSys.byteAt_congr (State.dev_of_besideL2 hb) (State.sealed_of_besideL2 hb)
  exact ⟨(State.host_of_besideL2 hb).trans h.host, (State.l1_of_besideL2 hb).trans h.l1, (State.reqs_of_besideL2 hb).trans h.reqs,
    (State.pois_of_besideL2 hb).trans h.pois, (State.unc_of_besideL2 hb).trans h.unc, by rw [hbyte, h.bytes],
    by rw [State.dev_of_besideL2 hb]; exact h.other⟩

theorem AtHome.invals (h : AtHome m n key bytes secs) (l : List Inval) : AtHome m { n with invals := l } key bytes secs :=
  ⟨h.host, h.l1, h.reqs, h.pois, h.unc, h.bytes, h.other⟩

theorem AtHome.sendInvals {s : State} (h : AtHome m s.mem key bytes secs) (sec die tok : Nat) :
    AtHome m (s.sendInvals sec die tok).mem key bytes secs := by
  rw [← s.mem_sendInvals sec die tok] at h
  exact h.invals (s.sendInvals sec die tok).mem.invals

theorem AtHome.putSector (h : AtHome m n key bytes secs) (hk : key ≠ 0) {sec off z : Nat} (hsec : secs sec) (hz : off + z ≤ 32)
    (v : Nat) : AtHome m (n.putSector key sec (maskAt off z) (placeAt off (leBytes z v)) none) key
      (Claim.patch bytes (32 * sec + off) z v) secs :=
  ⟨h.host, h.l1, h.reqs, h.pois, h.unc, by rw [MemSys.byteAt_putSector_placeAt hk hz, h.bytes], fun b hb => by
    rw [MemSys.get_dev_putSector _ _ _ _ _ _ fun e => hb (e ▸ hsec), h.other b hb]⟩

/-- An atomic of a wide scope finds the bytes of its sector and writes its own, and touches no wave (R57, R124). -/
theorem AtHome.atomicSec {t : State} {o : Who} {l : Loc} (h : AtHome m t.mem key bytes secs) (ha : Alone m o l) (hl : l.key = key)
    (hk : key ≠ 0) (hsec : secs l.sec) {kind sub z off x0 x1 : Nat} (hz : off + z ≤ 32) (hint : Nat) (req : Bool) :
    ∃ u, t.atomicSec o true hint l (atomicOn kind sub z off x0 x1) req = (u, t.mem.sector key l.sec, false) ∧
      u.x.waves = t.x.waves ∧ AtHome m u.mem key (Claim.patch bytes (32 * l.sec + off) z
        (atomicNew kind sub z (Claim.number bytes (32 * l.sec + off) z) x0 x1)) secs := by
  subst hl
  obtain ⟨hhome, hreqs, hl1, hpois, hunc⟩ := h.alone ha
  have htouch : (if req then t.sqTouch o.core o.ctx l true false 0 (rowBit l.sec) (rowBit l.sec) else t).besideL2 = t.besideL2 :=
    State.besideL2_ite (t.besideL2_sqTouch ..) rfl
  unfold State.atomicSec
  simp only [if_true, State.l1Evict_eq_self hl1, State.drainSq_eq_self hreqs, hhome, State.detect_eq_self hunc]
  generalize (if req then t.sqTouch o.core o.ctx l true false 0 (rowBit l.sec) (rowBit l.sec) else t) = v at htouch
  have hv := h.beside htouch
  have hp : v.mem.pois.contains l.sec = false := by
    rw [State.pois_of_besideL2 htouch]
    simpa using hpois
  have hsector : v.mem.sector l.key l.sec = t.mem.sector l.key l.sec := by simp only [MemSys.sector, hv.bytes, h.bytes]
  simp only [hp, Bool.false_eq_true, if_false, hsector, atomicOn, leNat_sliceOf32_sector _ _ _ _ _ hz, h.bytes]
  refine ⟨_, rfl, ?_, (hv.putSector hk hsec hz _).sendInvals (s := v.modM _) ..⟩
  rw [State.waves_sendInvals, State.modM_x, State.waves_of_besideL2 htouch]

end

end Sys2Proof.Machine
end

section
/-! PROOFS. What the results of a group's accesses leave in the waves, one by one: a read may also be noted as unsettled, which no
register and no fibre shows (06 R117, R122, 09 R198). -/

namespace Sys2Proof.Machine

/-- The register windows of a list of fibres exist and are distinct. -/
structure Apart (x : Exec) (i : Iss) (l : List Nat) : Prop where
  wave  : (x.wave? i.u).isSome = true
  apart : ∀ f ∈ l, ∀ g ∈ l, x.window i.u f = x.window i.u g → f = g
  held  : ∀ f ∈ l, (x.wave? (x.window i.u f).1).isSome = true
  slot  : ∀ f ∈ l, (x.window i.u f).2 < 128

theorem Apart.served {s : State} {i : Iss} (hi : Claim.Issues s i) (h : Hd) : Apart s.x i (i.served h) := by
  have sub : ∀ f ∈ i.served h, f ∈ i.grp := fun f hf => (List.mem_filter.1 hf).1
  exact ⟨by rw [(Exec.issue?_spec hi.run).2.1]; rfl, fun f hf g hg => hi.wins.apart f (sub f hf) g (sub g hg),
    fun f hf => hi.wins.held f (sub f hf), fun f hf => hi.wins.slot f (sub f hf)⟩

/-- The results `r` of a list of fibres, made in the waves. -/
structure Given (x y : Exec) (i : Iss) (la : Nat) (l : List Nat) (r : Nat → Res) : Prop where
  waves : ∀ u, (y.wave? u).map Claim.bareRead = (x.wave? u).map Claim.bareRead
  regs  : ∀ u a k, a < 128 → y.slotReg u a k = (x.ownerOf i l u a).elim (x.slotReg u a k)
            fun f => if la = 0 then regAfter (x.slotReg u a k) k (r f).v else x.slotReg u a k
  wins  : ∀ u f, ((y.fib u f).wins.map fun q => (q.left, q.v, q.w)) = ((x.fib u f).wins.map fun q => (q.left, q.v, q.w)) ++
            if u = i.u ∧ f ∈ l ∧ la ≠ 0 then [(la, (r f).v, [])] else []
  fibs  : ∀ u f, { y.fib u f with wins := [] } = { x.fib u f with wins := [] }

section
variable {x y z : Exec} {i : Iss} {la : Nat} {l : List Nat} {r : Nat → Res}

theorem Given.org (h : Given x y i la l r) (u f : Nat) : (y.fib u f).org = (x.fib u f).org := by
  have e := congrArg Fib.org (h.fibs u f)
  exact e

theorem Given.window (h : Given x y i la l r) (u f : Nat) : y.window u f = x.window u f := Exec.window_congr h.org u f

theorem Given.isSome (h : Given x y i la l r) (u : Nat) : (y.wave? u).isSome = (x.wave? u).isSome := by
  have e := congrArg Option.isSome (h.waves u)
  simpa using e

theorem Given.apart (h : Given x y i la l r) {k : List Nat} (ha : Apart x i k) : Apart y i k := by
  refine ⟨by rw [h.isSome]; exact ha.wave, fun f hf g hg e => ?_, fun f hf => ?_, fun f hf => ?_⟩
  · rw [h.window, h.window] at e
    exact ha.apart f hf g hg e
  · rw [h.window, h.isSome]
    exact ha.held f hf
  · rw [h.window]
    exact ha.slot f hf

/-- A step that no register and no fibre shows. -/
theorem Given.of_same (r : Nat → Res) (hw : ∀ u, (y.wave? u).map Claim.bareRead = (x.wave? u).map Claim.bareRead)
    (hr : ∀ u a k, y.slotReg u a k = x.slotReg u a k) (hf : ∀ u f, y.fib u f = x.fib u f) : Given x y i la [] r :=
  ⟨hw, fun u a k _ => hr u a k, fun u f => by simp [hf], fun u f => by rw [hf]⟩

theorem Given.of_waves (r : Nat → Res) (h : y.waves = x.waves) : Given x y i la [] r :=
  .of_same r (fun u => by rw [Exec.wave?_congr h]) (Exec.slotReg_congr h) (Exec.fib_congr h)

theorem bareRead_eq (w : Option Wave) : w.map Claim.bareRead = (w.map Wave.bare).map fun w => { w with unset := [] } := by
  cases w <;> rfl

/-- The result of one fibre. -/
theorem Given.of_done {j : Iss} {f : Nat} {res : Res} (h : ResDone x y j la f res) (hu : j.u = i.u) (hp : res.p = [])
    (hd : res.draws = 0) : Given x y i la [f] fun _ => res := by
  have hfib := h.fibs
  refine ⟨fun u => by rw [bareRead_eq, bareRead_eq, h.bare], fun u a k ha => ?_, fun u g => ?_, fun u g => ?_⟩
  · rw [h.regs u a k ha, hu]
    by_cases e : x.window i.u f = (u, a) <;> simp [Exec.ownerOf, e]
  · rw [hfib]
    by_cases e : u = i.u ∧ g = f ∧ la ≠ 0
    · obtain ⟨rfl, rfl, hl⟩ := e
      simp [fibRes, hu, hl]
    · have e' : ¬ (u = i.u ∧ g ∈ [f] ∧ la ≠ 0) := by simpa using e
      rw [if_neg e', List.append_nil]
      simp only [fibRes, hu, if_neg e]
  · rw [hfib]
    simp [fibRes, hp, hd]

theorem Exec.ownerOf_append (x : Exec) (i : Iss) (l k : List Nat) (u a : Nat) :
    x.ownerOf i (l ++ k) u a = (x.ownerOf i l u a).or (x.ownerOf i k u a) := List.find?_append ..

theorem Exec.window_of_ownerOf {x : Exec} {i : Iss} {l : List Nat} {u a f : Nat} (h : x.ownerOf i l u a = some f) :
    x.window i.u f = (u, a) := by simpa using List.find?_some h

/-- Results of more fibres, made after those of some. -/
theorem Given.append {k : List Nat} (h : Given x y i la l r) (h' : Given y z i la k r) (ha : Apart x i (l ++ k))
    (hd : l.Disjoint k) : Given x z i la (l ++ k) r := by
  have hown : ∀ u a, y.ownerOf i k u a = x.ownerOf i k u a := fun u a => by simp only [Exec.ownerOf, h.window]
  refine ⟨fun u => (h'.waves u).trans (h.waves u), fun u a j hlt => ?_, fun u f => ?_, fun u f => (h'.fibs u f).trans (h.fibs u f)⟩
  · rw [h'.regs u a j hlt, hown, h.regs u a j hlt, Exec.ownerOf_append]
    cases hl : x.ownerOf i l u a with
    | none => simp
    | some f =>
      cases hk : x.ownerOf i k u a with
      | none => simp
      | some g =>
        have hf := Exec.window_of_ownerOf hl
        have hg := Exec.window_of_ownerOf hk
        have hfl := Exec.ownerOf_mem hl
        have hgk := Exec.ownerOf_mem hk
        obtain rfl := ha.apart f (List.mem_append_left _ hfl) g (List.mem_append_right _ hgk) (hf.trans hg.symm)
        exact absurd hgk (hd hfl)
  · rw [h'.wins, h.wins, List.append_assoc]
    congr 1
    by_cases hl : f ∈ l
    · have hk : f ∉ k := hd hl
      simp [hl, hk]
    · simp [hl]

theorem Given.congr {r' : Nat → Res} (h : Given x y i la l r) (e : ∀ f ∈ l, r f = r' f) : Given x y i la l r' := by
  refine ⟨h.waves, fun u a k ha => ?_, fun u f => ?_, h.fibs⟩
  · rw [h.regs u a k ha]
    cases o : x.ownerOf i l u a with
    | none => rfl
    | some f => simp only [Option.elim_some, e f (Exec.ownerOf_mem o)]
  · rw [h.wins]
    by_cases c : u = i.u ∧ f ∈ l ∧ la ≠ 0
    · rw [e f c.2.1]
    · rw [if_neg c, if_neg c]

end

/-- The results of the served fibres, and the group past the instruction. -/
theorem Given.served {s t : State} {i : Iss} {h : Hd} {y : Exec} {r : Nat → Res} (hi : s.x.issue? = some i) (htrust : t.trust = s.trust)
    (hy : Given s.x y i h.la.toNat (i.served h) r) (ht : t.x = y.advance i 8) : Claim.Served s t i h r := by
  have hla : h.la.toNat = 0 ↔ h.la = 0 := ⟨fun e => BitVec.eq_of_toNat_eq e, fun e => by rw [e]; rfl⟩
  have hfib := Exec.fib_advance y i 8 (Iss.grp_nodup hi)
  have hsame : ∀ u f, (y.fib u f).st = (s.x.fib u f).st ∧ (y.fib u f).pc = (s.x.fib u f).pc := fun u f => by
    have e := hy.fibs u f
    have est := congrArg Fib.st e
    have epc := congrArg Fib.pc e
    exact ⟨est, epc⟩
  have hwins : ∀ u f, (t.x.fib u f).wins = (y.fib u f).wins := fun u f => by
    rw [ht, hfib]
    split <;> rfl
  refine ⟨htrust, fun u => ?_, fun u a k ha => ?_, fun u f => ?_, fun u f => ?_⟩
  · rw [bareRead_eq, ht, Exec.bare_advance, ← bareRead_eq, hy.waves]
  · rw [ht, Exec.slotReg_advance, hy.regs u a k ha]
    simp only [hla]
  · rw [hwins, hy.wins]
    simp only [ne_eq, hla]
  · rw [ht, hfib]
    obtain ⟨hst, hpc⟩ := hsame u f
    have e := hy.fibs u f
    by_cases c : u = i.u ∧ f ∈ i.grp
    · obtain ⟨rfl, hf⟩ := c
      obtain ⟨-, hst', hpc'⟩ := (Iss.mem_grp hi f).1 hf
      rw [if_pos ⟨rfl, hf, hst.trans hst', hpc.trans hpc'⟩, if_pos ⟨rfl, hf⟩]
      exact congrArg (fun b : Fib => { b with pc := (i.pc + 8) % 2 ^ 48 }) e
    · rw [if_neg fun k => c ⟨k.1, k.2.1⟩, if_neg c]
      exact e

/-! ### One access -/

/-- A read noted as unsettled changes no register and no fibre (R122). -/
theorem State.noteRead_given (s : State) (u : Nat) (l : Loc) (i : Iss) (la : Nat) (r : Nat → Res) :
    (s.noteRead u l).mem = s.mem ∧ Given s.x (s.noteRead u l).x i la [] r := by
  unfold State.noteRead
  split
  · refine ⟨rfl, .of_same r (fun v => ?_) (fun v a k => ?_) fun v f => ?_⟩
    · rw [State.modX_x, Exec.wave?_modWave]
      split
      · cases s.x.wave? v <;> rfl
      · rfl
    · unfold Exec.slotReg
      rw [State.modX_x, Exec.wave?_modWave]
      split
      · cases s.x.wave? v <;> rfl
      · rfl
    · unfold Exec.fib
      rw [State.modX_x, Exec.wave?_modWave]
      split
      · cases s.x.wave? v <;> rfl
      · rfl
  · exact ⟨rfl, .of_waves r rfl⟩

/-- The result of one access of V registers. -/
theorem Exec.applyAcc_given {x : Exec} {i : Iss} {a : PendAcc} {res : Res} (h : Apart x i [a.slot]) (hw : a.wdst = false)
    (ht : res.trap = none) (hp : res.p = []) (hd : res.draws = 0) :
    Given x (x.applyAcc i.u a res) i a.look [a.slot] fun _ => res := by
  obtain ⟨w, hwave⟩ := Option.isSome_iff_exists.1 h.wave
  have e : x.applyAcc i.u a res = x.applyRes ⟨i.u, w, a.pc, []⟩ a.look a.len a.slot res := by
    simp [Exec.applyAcc, hwave, ht, hw]
  rw [e]
  exact .of_done (Exec.applyRes_done x ⟨i.u, w, a.pc, []⟩ a.look a.len a.slot res ht h.wave (h.held _ (List.mem_singleton.2 rfl))
    (h.slot _ (List.mem_singleton.2 rfl))) rfl hp hd

end Sys2Proof.Machine
end

section
/-! PROOFS. Global atomics of a group at the home slices of their sectors, in increasing fibre order (03 R57, 06 R117, R124,
14 R277 to R279). -/

namespace Sys2Proof.Machine

theorem number_lt (m : Nat → Byte) (a z : Nat) : Claim.number m a z < 256 ^ z := by
  have h := leNat_lt ((List.range z).map fun k => m (a + k))
  rw [leNat_map_range (fun k => m (a + k)) z, List.length_map, List.length_range] at h
  exact h

/-- Fibres in their order, each writing `new f` of the number it finds, with the result `res f` of it: `F` is the access of one. -/
theorem foldl_atHome {m : MemSys} {key z la : Nat} {secs : Nat → Prop} {i : Iss} {at_ : Nat → Nat} {new : Nat → Nat → Nat}
    {res : Nat → Nat → Res} {F : State → Nat → State} (fs : List Nat) (hn : fs.Nodup)
    (hF : ∀ f ∈ fs, ∀ t bytes, AtHome m t.mem key bytes secs → Apart t.x i [f] →
      AtHome m (F t f).mem key (Claim.patch bytes (at_ f) z (new f (Claim.number bytes (at_ f) z))) secs ∧
      Given t.x (F t f).x i la [f] fun _ => res f (Claim.number bytes (at_ f) z))
    {t : State} {bytes : Nat → Byte} (ht : AtHome m t.mem key bytes secs) (ha : Apart t.x i fs) :
    AtHome m (fs.foldl F t).mem key (Claim.patched bytes at_ z new fs) secs ∧
    Given t.x (fs.foldl F t).x i la fs fun f => res f (found bytes at_ z new fs f) := by
  induction fs generalizing t bytes with
  | nil => exact ⟨ht, .of_waves _ rfl⟩
  | cons f fs ih =>
    obtain ⟨hf, hn⟩ := List.nodup_cons.1 hn
    have hone : Apart t.x i [f] := by
      refine ⟨ha.wave, fun a h b k _ => (List.mem_singleton.1 h).trans (List.mem_singleton.1 k).symm, ?_, ?_⟩
      · exact fun a h => ha.held a (by rw [List.mem_singleton.1 h]; exact List.mem_cons_self ..)
      · exact fun a h => ha.slot a (by rw [List.mem_singleton.1 h]; exact List.mem_cons_self ..)
    obtain ⟨hmem, hgiven⟩ := hF f (List.mem_cons_self ..) t bytes ht hone
    have hrest : Apart t.x i fs := ⟨ha.wave, fun a h b k => ha.apart a (List.mem_cons_of_mem _ h) b (List.mem_cons_of_mem _ k),
      fun a h => ha.held a (List.mem_cons_of_mem _ h), fun a h => ha.slot a (List.mem_cons_of_mem _ h)⟩
    obtain ⟨hmem', hgiven'⟩ := ih hn (fun k hk => hF k (List.mem_cons_of_mem _ hk)) hmem (hgiven.apart hrest)
    refine ⟨hmem', Given.append (l := [f]) (hgiven.congr fun k hk => ?_) (hgiven'.congr fun k hk => ?_) ha
      (List.singleton_disjoint.2 hf)⟩
    · rw [List.mem_singleton.1 hk, found_cons, if_pos rfl]
    · rw [found_cons, if_neg fun e => hf (by rw [e]; exact hk)]

/-- The access of a fibre of a global atomic. -/
def atomicAcc (x : Exec) (i : Iss) (w : MemI) (kind scope sub : Nat) (va : Nat → Nat) (args : Nat → Nat × Nat × Nat) (f : Nat) :
    PendAcc := { baseAcc x i f w kind scope with va := va f, sub := sub, args := args f }

/-- The sector of a location, as an access to the whole sector names it. -/
theorem sec_aligned (l : Loc) : ({ l with pa := l.pa / 32 * 32 } : Loc).sec = l.sec := by
  simp only [Loc.sec, Loc.sa, storageAt]
  omega

theorem sa_eq (l : Loc) : 32 * l.sec + l.pa % 32 = l.sa := by
  simp only [Loc.sec, Loc.sa, storageAt]
  omega

section
variable {s : State} {i : Iss} {w : MemI} {kind scope sub key : Nat} {va : Nat → Nat} {args : Nat → Nat × Nat × Nat} {l : Nat → Loc}
  {new : Nat → Nat → Nat} {o : Who} {fs : List Nat}

/-- One fibre's atomic at the home slice of its sector. -/
theorem AtHome.access {t : State} {bytes : Nat → Byte} {secs : Nat → Prop} {f : Nat} (h : AtHome s.mem t.mem key bytes secs)
    (ha : Apart t.x i [f]) (hl : (l f).key = key) (hk : key ≠ 0) (halone : Alone s.mem o (l f)) (hsec : secs (l f).sec)
    (hfit : (l f).pa % 32 + memSize w ≤ 32)
    (hnew : ∀ old < 256 ^ memSize w, atomicNew kind sub (memSize w) old (args f).1 (args f).2.1 = new f old) (req : Bool) :
    ∃ u, (t.noteRead i.u { l f with pa := (l f).pa / 32 * 32 }).atomicSec o true w.m.hint.toNat
        { l f with pa := (l f).pa / 32 * 32 } (atomicOn kind sub (memSize w) ((l f).pa % 32) (args f).1 (args f).2.1) req =
        (u, t.mem.sector key (l f).sec, false) ∧
      AtHome s.mem u.mem key (Claim.patch bytes (l f).sa (memSize w) (new f (Claim.number bytes (l f).sa (memSize w)))) secs ∧
      Given t.x (u.modX fun x => x.applyAcc i.u (atomicAcc s.x i w kind scope sub va args f)
        ((atomicAcc s.x i w kind scope sub va args f).result (sliceOf32 (t.mem.sector key (l f).sec) ((l f).pa % 32) (memSize w)))).x
        i w.h.la.toNat [f] fun _ => Claim.loaded w.d.toNat 0 (memSize w) (Claim.number bytes (l f).sa (memSize w)) := by
  obtain ⟨hmem, hnote⟩ := t.noteRead_given i.u { l f with pa := (l f).pa / 32 * 32 } i w.h.la.toNat
    fun _ => Claim.loaded w.d.toNat 0 (memSize w) (Claim.number bytes (l f).sa (memSize w))
  have halone : Alone s.mem o { l f with pa := (l f).pa / 32 * 32 } :=
    ⟨halone.home, by rw [sec_aligned]; exact halone.reqs, by rw [sec_aligned]; exact halone.l1,
      by rw [sec_aligned]; exact halone.pois, by rw [sec_aligned]; exact halone.unc⟩
  generalize t.noteRead i.u { l f with pa := (l f).pa / 32 * 32 } = v at hmem hnote
  rw [← hmem] at h ⊢
  obtain ⟨u, hu, hwaves, hat⟩ := h.atomicSec halone (kind := kind) (sub := sub) (x0 := (args f).1) (x1 := (args f).2.1) hl hk
    (by rw [sec_aligned]; exact hsec) hfit w.m.hint.toNat req
  rw [sec_aligned] at hu hat
  rw [sa_eq, hnew _ (number_lt ..)] at hat
  refine ⟨u, hu, hat, ?_⟩
  have hres : (atomicAcc s.x i w kind scope sub va args f).result (sliceOf32 (v.mem.sector key (l f).sec) ((l f).pa % 32) (memSize w)) =
      Claim.loaded w.d.toNat 0 (memSize w) (Claim.number bytes (l f).sa (memSize w)) := by
    rw [PendAcc.result_eq_loaded, leNat_sliceOf32_sector _ _ _ _ _ hfit, sa_eq, h.bytes]
    rfl
  rw [hres]
  have hquiet : Given v.x u.x i w.h.la.toNat [] fun _ => Claim.loaded w.d.toNat 0 (memSize w) (Claim.number bytes (l f).sa (memSize w)) :=
    .of_waves _ hwaves
  have hbefore := hnote.append hquiet ⟨ha.wave, by simp, by simp, by simp⟩ (List.disjoint_nil_left _)
  have happly := Exec.applyAcc_given (a := atomicAcc s.x i w kind scope sub va args f)
    (res := Claim.loaded w.d.toNat 0 (memSize w) (Claim.number bytes (l f).sa (memSize w))) (hbefore.apart ha) rfl rfl rfl rfl
  exact hbefore.append (l := []) happly ha (List.disjoint_nil_left _)

/-- The atomics of a group at the home slices (R117, R124). -/
theorem State.performAtomics_home (hn : fs.Nodup) (ha : Apart s.x i fs) (hwide : 4 ≤ scope) (hk : key ≠ 0)
    (hl : ∀ f ∈ fs, (l f).host = false ∧ (l f).key = key ∧ Alone s.mem o (l f) ∧ (l f).pa % 32 + memSize w ≤ 32)
    (hnew : ∀ f ∈ fs, ∀ old < 256 ^ memSize w, atomicNew kind sub (memSize w) old (args f).1 (args f).2.1 = new f old) :
    AtHome s.mem (s.performAtomics i.u o (fs.map fun f => (atomicAcc s.x i w kind scope sub va args f, l f))).mem key
      (Claim.patched (s.mem.byteAt key) (fun f => (l f).sa) (memSize w) new fs) (fun q => ∃ f ∈ fs, (l f).sec = q) ∧
    Given s.x (s.performAtomics i.u o (fs.map fun f => (atomicAcc s.x i w kind scope sub va args f, l f))).x i w.h.la.toNat fs
      fun f => Claim.loaded w.d.toNat 0 (memSize w) (found (s.mem.byteAt key) (fun f => (l f).sa) (memSize w) new fs f) := by
  unfold State.performAtomics
  generalize hcount : (sectorsOf (fs.map fun f => (atomicAcc s.x i w kind scope sub va args f, l f))).foldl _ s = c
  have hc : c.mem = s.mem ∧ c.x.waves = s.x.waves := by
    rw [← hcount]
    refine ⟨foldl_keeps State.mem (fun t k => ?_) _ s, foldl_keeps (fun t : State => t.x.waves) (fun t k => ?_) _ s⟩
    · split <;> rfl
    · split
      · exact Exec.waves_countReq ..
      · rfl
  obtain ⟨hmem, hwaves⟩ := hc
  have hquiet : Given s.x c.x i w.h.la.toNat [] _ := .of_waves (fun f => Claim.loaded w.d.toNat 0 (memSize w)
    (found (s.mem.byteAt key) (fun f => (l f).sa) (memSize w) new fs f)) hwaves
  rw [List.foldl_map]
  refine And.imp_right (fun h => hquiet.append (l := []) h ha (List.disjoint_nil_left _)) ?_
  refine foldl_atHome (res := fun _ n => Claim.loaded w.d.toNat 0 (memSize w) n) fs hn (fun f hf t bytes ht hone => ?_)
    (by rw [hmem]; exact .start ..) (hquiet.apart ha)
  obtain ⟨hhost, hkey, halone, hfit⟩ := hl f hf
  have hw : (decide (4 ≤ (atomicAcc s.x i w kind scope sub va args f).scope) ||
      decide ((atomicAcc s.x i w kind scope sub va args f).kind = akAtbc)) = true := by
    rw [show (atomicAcc s.x i w kind scope sub va args f).scope = scope from rfl, decide_eq_true hwide, Bool.true_or]
  dsimp only
  rw [if_neg (by rw [hhost]; exact Bool.false_ne_true), hw]
  generalize decide ((List.find? _ _ : Option (PendAcc × Loc)) = some _) = req
  obtain ⟨u, hu, hat, hgiven⟩ := ht.access (va := va) (scope := scope) hone hkey hk halone ⟨f, hf, rfl⟩ hfit (hnew f hf) req
  have hread : (((t.noteRead i.u { l f with pa := (l f).pa / 32 * 32 }).atomicSec o true
      (atomicAcc s.x i w kind scope sub va args f).hint { l f with pa := (l f).pa / 32 * 32 }
      (atomicOn (atomicAcc s.x i w kind scope sub va args f).kind (atomicAcc s.x i w kind scope sub va args f).sub
        (atomicAcc s.x i w kind scope sub va args f).size ((l f).pa % 32) (atomicAcc s.x i w kind scope sub va args f).args.1
        (atomicAcc s.x i w kind scope sub va args f).args.2.1) req)) = (u, t.mem.sector key (l f).sec, false) := hu
  rw [hread]
  exact ⟨hat, hgiven⟩

end

end Sys2Proof.Machine
end

section
/-! PROOFS. Global atomics: the driver of the instructions that return values, and ATB, ATBF, ATBC and CASB (03 R57, 06 R117, R124,
14 R277 to R279). -/

namespace Sys2Proof.Machine

/-! ### Instructions all of whose accesses are formed and reach device memory -/

/-- An instruction that returns values, of a wave whose log is empty: none of its fibres is refused. -/
theorem State.perAccess_eq {s : State} {i : Iss} {w : MemI} {staged : Bool} {form : Exec → Iss → Nat → Formed} {g : Nat → PendAcc}
    (hi : s.x.issue? = some i) (hlog : i.w.log = []) (hdet : s.x.determ i.w = false)
    (hg : ∀ f ∈ i.served w.h, form s.x i f = .go (g f)) :
    s.perAccess w staged form =
      (s.tryAccs i.u ((i.served w.h).map g)).modX fun x => (x.advance i 8).holdPend i.u i.pc := by
  have hfs : (i.served w.h).map (fun f => (f, form s.x i f)) = (i.served w.h).map fun f => (f, Formed.go (g f)) :=
    List.map_congr_left fun f hf => by rw [hg f hf]
  have hretry : ∀ l : List PendAcc, (l.any fun a =>
      (decide (2 ≤ a.ord) && !i.w.log.isEmpty) || a.touched.any fun v => i.w.logHit v) = false := fun l => by simp [hlog, Wave.logHit]
  simp only [State.perAccess, hi, hfs, hretry, Bool.false_eq_true, if_false]
  rw [filterMap_map_some (h := fun f => (f, Formed.go (g f))) (g := g) fun _ => rfl,
    foldl_map_self (h := fun f => (f, Formed.go (g f))) fun _ _ => rfl, hdet, Bool.and_false, if_neg Bool.false_ne_true]

/-- Translations that all succeed: `F` is the driver's step for one access. -/
theorem foldl_reaching {F : (State × List (PendAcc × Loc)) × List Nat → PendAcc → (State × List (PendAcc × Loc)) × List Nat}
    {s : State} {g : Nat → PendAcc} {l : Nat → Loc} (fs : List Nat)
    (hF : ∀ f ∈ fs, ∀ done, F ((s, done), []) (g f) = ((s, done ++ [(g f, l f)]), [])) (done : List (PendAcc × Loc)) :
    (fs.map g).foldl F ((s, done), []) = ((s, done ++ fs.map fun f => (g f, l f)), []) := by
  induction fs generalizing done with
  | nil => simp
  | cons f fs ih =>
    rw [List.map_cons, List.foldl_cons, hF f (List.mem_cons_self ..), ih fun k hk => hF k (List.mem_cons_of_mem _ hk)]
    simp

/-- Accesses that all reach device memory are performed at once (R25, R43). -/
theorem State.tryAccs_reaching {s : State} {u : Nat} {wv : Wave} {g : Nat → PendAcc} {l : Nat → Loc} {fs : List Nat}
    (hw : s.x.wave? u = some wv)
    (hl : ∀ f ∈ fs, Claim.Reaches s (s.x.who wv) (g f).need (g f).va (l f) ∧ (g f).need.idle = false)
    (hpend : ((s.performAccs u (s.x.who wv) (fs.map fun f => (g f, l f))).x.wave? u).all fun w => w.pend.isEmpty && w.hold.isNone) :
    s.tryAccs u (fs.map g) = s.performAccs u (s.x.who wv) (fs.map fun f => (g f, l f)) := by
  unfold State.tryAccs
  simp only [hw]
  rw [foldl_reaching (l := l) fs fun f hf done => ?_]
  · simp only [List.nil_append]
    cases hv : (s.performAccs u (s.x.who wv) (fs.map fun f => (g f, l f))).x.wave? u with
    | none => rfl
    | some v =>
      rw [hv, Option.all_some, Bool.and_eq_true, List.isEmpty_iff] at hpend
      simp [hpend.1]
  · obtain ⟨hr, hidle⟩ := hl f hf
    simp only [reaches_translateIn hr hidle, hr.2.1, Bool.false_eq_true, if_false]

/-- Value-returning atomics without acquire and release. -/
theorem State.performAccs_atomics {s : State} {u : Nat} {o : Who} {l : List (PendAcc × Loc)}
    (h : ∀ p ∈ l, p.1.ord = 0 ∧ p.1.kind ≠ akLoad ∧ p.1.kind ≠ akLdw ∧ p.1.kind ≠ akColumn) :
    s.performAccs u o l = s.performAtomics u o l := by
  cases l with
  | nil => rfl
  | cons p l =>
    obtain ⟨hord, h0, h1, h2⟩ := h p (List.mem_cons_self ..)
    simp [State.performAccs, State.ordered, hord, h0, h1, h2]

theorem Exec.holdPend_eq_self {x : Exec} {u pc : Nat} (h : (x.wave? u).all fun w => w.pend.isEmpty && w.hold.isNone) :
    x.holdPend u pc = x := by
  unfold Exec.holdPend
  cases hw : x.wave? u with
  | none => rfl
  | some w =>
    rw [hw, Option.all_some, Bool.and_eq_true, Option.isNone_iff_eq_none] at h
    simp only [h.1, if_true, h.2]

/-- A fibre's access is formed where its registers can be read and its record grants the access. -/
theorem Exec.formAcc_go {s : State} {i : Iss} {w : MemI} {f va : Nat} {a : Word} {named srcs l : List Nat} {acc : PendAcc}
    {right : Right} {fill : List Nat → PendAcc → PendAcc} (hb : s.x.pastBudget i f named = false)
    (ha : s.x.ownRead i f w.s1.toNat = some a) (hl : (srcs.mapM fun k => (s.x.ownRead i f k).map BitVec.toNat) = some l)
    (hva : Claim.GlobalAt s i w false right a va) :
    s.x.formAcc i f w named srcs acc (globalAddr (s.x.bufRec i.w w.bn.toNat) w false right) fill = .go (fill l { acc with va := va }) := by
  simp only [Exec.formAcc, hb, ha, hl, globalAddr_ok hva, Bool.false_eq_true, if_false]

/-! ### An atomic at the home slices -/

/-- A sector's address keeps its place within 32 bytes when it is translated. -/
theorem reaches_pa_mod {s : State} {o : Who} {n : Need} {va : Nat} {l : Loc} (h : Claim.Reaches s o n va l) : l.pa % 32 = va % 32 := by
  obtain ⟨-, -, t, -, -, -, rfl⟩ := h
  have hpage : pageBytes t.z % 32 = 0 := by
    unfold pageBytes
    split
    · rfl
    · split <;> rfl
  have hmod : (ePa t.entry + va % pageBytes t.z) % 32 = va % 32 := by
    have h1 : va % pageBytes t.z % 32 = va % 32 := Nat.mod_mod_of_dvd _ (Nat.dvd_of_mod_eq_zero hpage)
    have h2 : ePa t.entry % 32 = 0 := by unfold ePa; omega
    omega
  unfold State.locOf
  split <;> exact hmod

/-- A wave that has nothing pending and waits for nothing goes on so while what it is without registers and fibres stays. -/
theorem calm_of_bareRead {x y : Exec} {u : Nat} {w : Wave} (hw : x.wave? u = some w) (hpend : w.pend = []) (hhold : w.hold = none)
    (h : (y.wave? u).map Claim.bareRead = (x.wave? u).map Claim.bareRead) :
    (y.wave? u).all fun w => w.pend.isEmpty && w.hold.isNone := by
  rw [hw] at h
  obtain ⟨v, hv, e⟩ := Option.map_eq_some_iff.1 h
  have ep := congrArg Wave.pend e
  have eh := congrArg Wave.hold e
  have ep : v.pend = [] := ep.trans hpend
  have eh : v.hold = none := eh.trans hhold
  simp [hv, ep, eh]

/-- A group whose atomics all go to home slices on the core's own die, where their sectors are alone and share one key. -/
structure HomeGroup (s : State) (i : Iss) (w : MemI) (a : Nat → Word) (va : Nat → Nat) (l : Nat → Loc) (key : Nat) : Prop where
  issues : Claim.Issues s i
  clear  : Claim.Clear i.w
  determ : s.x.determ i.w = false
  scope  : 4 ≤ Claim.scopeOf s i w
  ord    : w.m.ord = 0
  size   : w.m.size.toNat ≤ 4
  isKey  : key ≠ 0
  at_    : ∀ f ∈ i.served w.h, Claim.GlobalAt s i w false .atomic (a f) (va f)
  alone  : ∀ f ∈ i.served w.h, (l f).key = key ∧ Alone s.mem (s.x.who i.w) (l f)

/-- Each fibre gets what stood in its sector after the fibres before it, and writes `new` of that; no other sector changes. -/
def HomeDone (s : State) (i : Iss) (w : MemI) (l : Nat → Loc) (key : Nat) (new : Nat → Nat → Nat) (p : Instr) : Prop :=
  ∃ t, exec p s = .next t ∧ t.mem.host = s.mem.host ∧
    Claim.Served s t i w.h (fun f => Claim.loaded w.d.toNat 0 (memSize w)
      (found (s.mem.byteAt key) (fun f => (l f).sa) (memSize w) new (i.served w.h) f)) ∧
    (∀ f ∈ i.served w.h, ∀ b, b / 32 = (l f).sec → t.mem.byteAt key b =
      Claim.patched (s.mem.byteAt key) (fun f => (l f).sa) (memSize w) new (i.served w.h) b) ∧
    ∀ b, (∀ f ∈ i.served w.h, b / 32 ≠ (l f).sec) → t.mem.dev.get 0 b = s.mem.dev.get 0 b

/-- What the translation of an atomic asks (R13, R35). -/
def atomicNeed (kind z : Nat) : Need :=
  { write := true, atomic := true, host := decide (kind = akAtb) || (decide (kind = akCas) && decide (z ≤ 8)) }

section
variable {s : State} {i : Iss} {w : MemI} {a : Nat → Word} {va : Nat → Nat} {l : Nat → Loc} {key : Nat} {kind sub : Nat}
  {args : Nat → Nat × Nat × Nat} {new : Nat → Nat → Nat} {form : Exec → Iss → Nat → Formed}

theorem atomicAcc_need {f scope : Nat} (hkind : kind = akAtb ∨ kind = akAtbf ∨ kind = akAtbc ∨ kind = akCas) :
    (atomicAcc s.x i w kind scope sub va args f).need = atomicNeed kind (memSize w) := by
  rcases hkind with rfl | rfl | rfl | rfl <;> rfl

/-- What a value-returning atomic of such a group does (R57, R117, R124). -/
theorem State.perAccess_home (h : HomeGroup s i w a va l key)
    (hkind : kind = akAtb ∨ kind = akAtbf ∨ kind = akAtbc ∨ kind = akCas)
    (hform : ∀ f ∈ i.served w.h, form s.x i f = .go (atomicAcc s.x i w kind (Claim.scopeOf s i w) sub va args f))
    (hr : ∀ f ∈ i.served w.h, Claim.Reaches s (s.x.who i.w) (atomicNeed kind (memSize w)) (va f) (l f))
    (hnew : ∀ f ∈ i.served w.h, ∀ old < 256 ^ memSize w, atomicNew kind sub (memSize w) old (args f).1 (args f).2.1 = new f old) :
    AtHome s.mem (s.perAccess w true form).mem key (Claim.patched (s.mem.byteAt key) (fun f => (l f).sa) (memSize w) new (i.served w.h))
      (fun q => ∃ f ∈ i.served w.h, (l f).sec = q) ∧
    Claim.Served s { s.perAccess w true form with trust := s.trust } i w.h (fun f => Claim.loaded w.d.toNat 0 (memSize w)
      (found (s.mem.byteAt key) (fun f => (l f).sa) (memSize w) new (i.served w.h) f)) := by
  obtain ⟨hhold, hlog, hpend, -⟩ := h.clear
  have hwave := (Exec.issue?_spec h.issues.run).2.1
  obtain ⟨hat, hgiven⟩ := State.performAtomics_home (s := s) (i := i) (w := w) (kind := kind) (scope := Claim.scopeOf s i w)
    (sub := sub) (va := va) (args := args) (fs := i.served w.h) ((Iss.grp_nodup h.issues.run).filter _) (Apart.served h.issues w.h) h.scope h.isKey
    (fun f hf => ⟨(hr f hf).2.1, (h.alone f hf).1, (h.alone f hf).2, by
      rw [reaches_pa_mod (hr f hf)]
      exact globalAt_within (h.at_ f hf) h.size⟩) hnew
  rw [← State.performAccs_atomics (List.forall_mem_map.2 fun f hf => ⟨congrArg BitVec.toNat h.ord, by
      rcases hkind with e | e | e | e <;> rw [show (atomicAcc s.x i w kind (Claim.scopeOf s i w) sub va args f).kind = kind from rfl, e] <;>
        decide⟩)] at hat hgiven
  have hcalm := fun y hy => calm_of_bareRead (y := y) hwave hpend hhold hy
  rw [State.perAccess_eq h.issues.run hlog h.determ hform,
    State.tryAccs_reaching (l := l) hwave (fun f hf => ?_) (hcalm _ (hgiven.waves i.u))]
  · refine ⟨hat, hgiven.served h.issues.run rfl (Exec.holdPend_eq_self (hcalm _ ?_))⟩
    rw [bareRead_eq, Exec.bare_advance, ← bareRead_eq, hgiven.waves]
  · rw [atomicAcc_need hkind]
    exact ⟨hr f hf, rfl⟩

/-- What such an instruction answers. -/
theorem HomeGroup.does {p : Instr} (h : HomeGroup s i w a va l key)
    (hexec : exec p s = .next { s.perAccess w true form with trust := s.trust })
    (hkind : kind = akAtb ∨ kind = akAtbf ∨ kind = akAtbc ∨ kind = akCas)
    (hform : ∀ f ∈ i.served w.h, form s.x i f = .go (atomicAcc s.x i w kind (Claim.scopeOf s i w) sub va args f))
    (hnew : ∀ f ∈ i.served w.h, ∀ old < 256 ^ memSize w, atomicNew kind sub (memSize w) old (args f).1 (args f).2.1 = new f old)
    (hr : ∀ f ∈ i.served w.h, Claim.Reaches s (s.x.who i.w) (atomicNeed kind (memSize w)) (va f) (l f)) :
    HomeDone s i w l key new p := by
  obtain ⟨hat, hserved⟩ := State.perAccess_home h hkind hform hr hnew
  refine ⟨_, hexec, hat.host, hserved, fun f _ b _ => congrFun hat.bytes b, fun b hb => hat.other b ?_⟩
  rintro ⟨f, hf, e⟩
  exact hb f hf e.symm

end

/-! ### ATB, ATBF, ATBC and CASB -/

/-- Fewer named registers stay within a budget. -/
theorem Exec.pastBudget_subset {x : Exec} {i : Iss} {f : Nat} {l k : List Nat} (hk : k ⊆ l) (h : x.pastBudget i f l = false) :
    x.pastBudget i f k = false := by
  rw [Exec.pastBudget, List.any_eq_false] at h ⊢
  exact fun j hj => h j (hk hj)

theorem regsFrom_subset {k n m : Nat} (h : n ≤ m) : regsFrom k n ⊆ regsFrom k m :=
  List.map_subset _ fun _ hj => List.mem_range.2 (lt_of_lt_of_le (List.mem_range.1 hj) h)

/-- The operands of ATB, ATBF and ATBC, from the words of their data registers (R277, R278). -/
def atomicArgs (w : MemI) (kind : Nat) (l : List Word) : Nat × Nat × Nat :=
  if kind = akAtbc then (word (l.map BitVec.toNat) 0, if w.m.fmt.toNat % 8 = 1 then word (l.map BitVec.toNat) 1 else 0, 0)
  else ((word (l.map BitVec.toNat) 0 + 2 ^ 32 * word (l.map BitVec.toNat) 1) % 2 ^ (8 * memSize w), 0, 0)

section
variable {s : State} {i : Iss} {w : MemI} {a : Nat → Word} {D : Nat → Nat → Word} {va : Nat → Nat} {n kind : Nat}

/-- The access of a fibre of an ATB, ATBF or ATBC. -/
theorem Exec.atomicForm_go {f : Nat} (hn : atomicSrcs w (decide (kind = akAtbc)) = regsFrom w.d.toNat n)
    (hb : s.x.pastBudget i f (w.s1.toNat :: regsFrom w.d.toNat (max n ((memSize w + 3) / 4))) = false)
    (ha : s.x.ownRead i f w.s1.toNat = some (a f)) (hD : ∀ j < n, s.x.ownRead i f (w.d.toNat + j) = some (D f j))
    (hva : Claim.GlobalAt s i w false .atomic (a f) (va f)) :
    s.x.atomicForm i f w kind = .go (atomicAcc s.x i w kind (Claim.scopeOf s i w) w.m.fmt.toNat va
      (fun f => atomicArgs w kind ((List.range n).map (D f))) f) := by
  unfold Exec.atomicForm
  dsimp only
  rw [hn, Exec.formAcc_go (Exec.pastBudget_subset (List.cons_subset_cons _ (regsFrom_subset (Nat.le_max_right ..))) hb) ha
    (Exec.mapM_ownRead (D := D f) hD) hva]
  rfl

theorem State.globalAtomic_perAccess {akind ekind : Nat} (h : w.m.fmt.toNat < 8) (s : State) :
    s.globalAtomic w akind ekind = s.perAccess w true fun x i f => x.atomicForm i f w akind := by
  have hred : w.red = false := by
    rw [MemI.red, bitAt_eq]
    exact decide_eq_false (by omega)
  rw [State.globalAtomic, hred, if_neg Bool.false_ne_true]

end

end Sys2Proof.Machine
end

section
/-! PROOFS. What ATB, ATBF, ATBC and CASB write, and the statement on global atomics (14 R277 to R279). -/

namespace Sys2Proof.Machine

/-! ### New values -/

theorem pow256 (z : Nat) : 256 ^ z = 2 ^ (8 * z) := by rw [show 256 = 2 ^ 8 from rfl, ← Nat.pow_mul]

section
variable {w : MemI}

/-- ATB's new value is that of its operation on words of its size (R277). -/
theorem atomicNew_atb {l : List Word} {old : Nat} (hz : memSize w = 4 ∨ memSize w = 8) (hl : l.length = memSize w / 4)
    (hold : old < 256 ^ memSize w) :
    atomicNew akAtb w.m.fmt.toNat (memSize w) old (atomicArgs w akAtb l).1 (atomicArgs w akAtb l).2.1 =
      (Claim.atomicOp (w.m.fmt.toNat % 8) (BitVec.ofNat (8 * memSize w) old) (BitVec.ofNat (8 * memSize w) (Claim.stored 0 l))).toNat := by
  have hx := stored_lt l
  rw [hl, show 4 * (memSize w / 4) = memSize w by omega, pow256] at hx
  rw [pow256] at hold
  have hargs : (atomicArgs w akAtb l).1 = Claim.stored 0 l := by
    rw [← Nat.mod_eq_of_lt hx, ← word_add_word l (by omega)]
    rfl
  rw [hargs]
  exact atbNew_eq _ _ _ _ (Nat.mod_lt _ (by decide)) (by omega) hold hx

/-- ATBF's new value (R277). -/
theorem atomicNew_atbf {l : List Word} (hl : l.length = 1) (old : Nat) :
    atomicNew akAtbf w.m.fmt.toNat (memSize w) old (atomicArgs w akAtbf l).1 (atomicArgs w akAtbf l).2.1 =
      atbfNew (atbfFmt (memSize w) (w.m.fmt.getLsbD 0)) (w.m.fmt.toNat / 2 % 4) old (Claim.stored 0 l % 2 ^ (8 * memSize w)) := by
  rw [← word_add_word l (.inl hl)]
  have hbit : bitOf w.m.fmt.toNat 0 = w.m.fmt.getLsbD 0 := bitOf_eq_testBit ..
  rw [← hbit]
  rfl

theorem fmt_mod_eq_one (h : w.m.fmt.toNat < 8) : w.m.fmt.toNat % 8 = 1 ↔ w.m.fmt = 1 :=
  ⟨fun e => BitVec.eq_of_toNat_eq (by rw [show (1 : BitVec 4).toNat = 1 from rfl]; omega), fun e => by rw [e]; rfl⟩

/-- ATBC's new value (R278). -/
theorem atomicNew_atbc {D : Nat → Word} {n : Nat} (hfmt : w.m.fmt.toNat < 8) (hn : n = if w.m.fmt = 1 then 2 else 1) (old : Nat) :
    atomicNew akAtbc w.m.fmt.toNat (memSize w) old (atomicArgs w akAtbc ((List.range n).map D)).1
      (atomicArgs w akAtbc ((List.range n).map D)).2.1 = atbcNew old (D 0).toNat (if w.m.fmt = 1 then (D 1).toNat else 0) := by
  have hone := fmt_mod_eq_one hfmt
  by_cases h : w.m.fmt = 1
  · rw [if_pos h] at hn ⊢
    subst hn
    have hargs : atomicArgs w akAtbc ((List.range 2).map D) = ((D 0).toNat, (D 1).toNat, 0) := by
      rw [atomicArgs, if_pos rfl, if_pos (hone.2 h)]
      rfl
    rw [hargs]
    rfl
  · rw [if_neg h] at hn ⊢
    subst hn
    have hargs : atomicArgs w akAtbc ((List.range 1).map D) = ((D 0).toNat, 0, 0) := by
      rw [atomicArgs, if_pos rfl, if_neg fun e => h (hone.1 e)]
      rfl
    rw [hargs]
    rfl

/-- CASB's operands: the compared words, and the words it writes (R279). -/
theorem casb_args (D : Nat → Word) (k : Nat) :
    leNat (((((List.range (2 * k)).map D).map BitVec.toNat).take k).map (leBytes 4)).flatten = Claim.stored 0 ((List.range k).map D) ∧
    leNat (((((List.range (2 * k)).map D).map BitVec.toNat).drop k).map (leBytes 4)).flatten =
      Claim.stored 0 ((List.range k).map fun j => D (k + j)) := by
  have htake : (List.range (2 * k)).take k = List.range k := by rw [List.take_range, Nat.min_eq_left (by omega)]
  have hdrop : (List.range (2 * k)).drop k = (List.range k).map (k + ·) := by
    rw [Nat.two_mul, List.range_add, List.drop_left' (by simp)]
  constructor
  · rw [← List.map_take, ← List.map_take, htake, leNat_flatten]
  · rw [← List.map_drop, ← List.map_drop, hdrop, List.map_map (f := (k + ·)), leNat_flatten]
    rfl

end

/-! ### The instructions -/

/-- An ATB, ATBF or ATBC of a group whose sectors are alone at their home slices. -/
theorem HomeGroup.globalAtomic {s : State} {i : Iss} {w : MemI} {a : Nat → Word} {D : Nat → Nat → Word} {va : Nat → Nat}
    {l : Nat → Loc} {key n kind ekind : Nat} {new : Nat → Nat → Nat} {p : Instr} (h : HomeGroup s i w a va l key)
    (hexec : exec p s = s.onMem fun s => s.globalAtomic w kind ekind) (hfmt : w.m.fmt.toNat < 8)
    (hkind : kind = akAtb ∨ kind = akAtbf ∨ kind = akAtbc) (hn : atomicSrcs w (decide (kind = akAtbc)) = regsFrom w.d.toNat n)
    (hb : Claim.InBudget s i w.h (w.s1.toNat :: regsFrom w.d.toNat (max n ((memSize w + 3) / 4))))
    (ha : Claim.Register s i w.h w.s1.toNat a) (hD : ∀ j < n, Claim.Register s i w.h (w.d.toNat + j) (D · j))
    (hnew : ∀ f, ∀ old < 256 ^ memSize w, atomicNew kind w.m.fmt.toNat (memSize w) old (atomicArgs w kind ((List.range n).map (D f))).1
      (atomicArgs w kind ((List.range n).map (D f))).2.1 = new f old)
    (hr : ∀ f ∈ i.served w.h, Claim.Reaches s (s.x.who i.w) (atomicNeed kind (memSize w)) (va f) (l f)) :
    HomeDone s i w l key new p := by
  refine h.does (form := fun x i f => x.atomicForm i f w kind) (sub := w.m.fmt.toNat)
    (args := fun f => atomicArgs w kind ((List.range n).map (D f))) ?_ (by tauto)
    (fun f hf => Exec.atomicForm_go hn (hb f hf) (ha f hf) (fun j hj => hD j hj f hf) (h.at_ f hf)) (fun f _ => hnew f) hr
  rw [hexec, State.onMem, State.globalAtomic_perAccess hfmt]

/-- The operands of a CASB, from the words of its data registers (R279). -/
def casbArgs (k : Nat) (D : Nat → Word) : Nat × Nat × Nat :=
  (Claim.stored 0 ((List.range k).map D), Claim.stored 0 ((List.range k).map fun j => D (k + j)), 0)

/-- The access of a fibre of a CASB. -/
theorem Exec.casbForm_go {s : State} {i : Iss} {w : MemI} {a : Nat → Word} {D : Nat → Nat → Word} {va : Nat → Nat} {f m : Nat}
    (hm : 2 * (memSize w / 4) ≤ m) (hb : s.x.pastBudget i f (w.s1.toNat :: regsFrom w.d.toNat m) = false)
    (ha : s.x.ownRead i f w.s1.toNat = some (a f)) (hD : ∀ j < 2 * (memSize w / 4), s.x.ownRead i f (w.d.toNat + j) = some (D f j))
    (hva : Claim.GlobalAt s i w false .atomic (a f) (va f)) :
    s.x.formAcc i f w (w.s1.toNat :: regsFrom w.d.toNat (2 * (memSize w / 4))) (regsFrom w.d.toNat (2 * (memSize w / 4)))
      (baseAcc s.x i f w akCas (Claim.scopeOf s i w)) (globalAddr (s.x.bufRec i.w w.bn.toNat) w false .atomic)
      (fun l a => { a with args := (leNat ((l.take (memSize w / 4)).map (leBytes 4)).flatten,
        leNat ((l.drop (memSize w / 4)).map (leBytes 4)).flatten, 0) }) =
      .go (atomicAcc s.x i w akCas (Claim.scopeOf s i w) 0 va (fun f => casbArgs (memSize w / 4) (D f)) f) := by
  obtain ⟨hcmp, hswap⟩ := casb_args (D f) (memSize w / 4)
  rw [Exec.formAcc_go (Exec.pastBudget_subset (List.cons_subset_cons _ (regsFrom_subset hm)) hb) ha
    (Exec.mapM_ownRead (D := D f) hD) hva, hcmp, hswap]
  rfl

end Sys2Proof.Machine

namespace Sys2Proof.Proofs

open Sys2Proof.Machine Sys2Proof.Claim

/-- Settles O33: every access reaches its home slice at once, and each finds there what the fibres before it have written. -/
theorem homeAtomics : Obligations.HomeAtomics := by
  intro s i w a D va l key n hi hclear hdet hscope hord o z hb ha hD hk hall at_ x does wr
  have hgroup : w.m.size.toNat ≤ 4 → HomeGroup s i w a va l key := fun hsize =>
    ⟨hi, hclear, hdet, hscope, hord, hsize, hk, fun f hf => (hall f hf).1, fun f hf => by
      obtain ⟨-, hkey, hhome, hreqs, hl1, hpois, hunc⟩ := hall f hf
      exact ⟨hkey, hhome, hreqs, hl1, hpois, hunc⟩⟩
  have hz : memSize w = 2 ^ w.m.size.toNat := rfl
  refine ⟨fun hsize hn hfmt hr => ?_, fun hsize hn hfmt hr => ?_, fun hsize hn hfmt hr => ?_, fun hsize hn hr => ?_⟩
  · have hz : memSize w = 4 ∨ memSize w = 8 := by rcases hsize with e | e <;> rw [hz, e] <;> decide
    have hn : n = memSize w / 4 := hn
    refine (hgroup (by omega)).globalAtomic (kind := akAtb) rfl hfmt (.inl rfl) ?_ hb ha hD (fun f old hold => ?_) hr
    · rw [show n = (memSize w + 3) / 4 by omega]
      rfl
    · exact atomicNew_atb hz (by simp [hn]) hold
  · have hz : memSize w = 2 ∨ memSize w = 4 := by rcases hsize with e | e <;> rw [hz, e] <;> decide
    refine (hgroup (by omega)).globalAtomic (kind := akAtbf) rfl hfmt (.inr (.inl rfl)) ?_ hb ha hD (fun f old _ => ?_) hr
    · rw [show n = (memSize w + 3) / 4 by omega]
      rfl
    · exact atomicNew_atbf (by simp [hn]) old
  · refine (hgroup (by omega)).globalAtomic (kind := akAtbc) rfl hfmt (.inr (.inr rfl)) ?_ hb ha hD (fun f old _ => ?_) hr
    · simp only [hn, atomicSrcs, decide_true, if_true, fmt_mod_eq_one hfmt]
    · exact atomicNew_atbc hfmt hn old
  · have hn : n = 2 * (memSize w / 4) := hn
    subst hn
    exact (hgroup (by omega)).does (kind := akCas) (sub := 0) rfl (.inr (.inr (.inr rfl))) (fun f hf =>
      Exec.casbForm_go (Nat.le_max_left ..) (hb f hf) (ha f hf) (fun j hj => hD j hj f hf) (hall f hf).1) (fun f _ old _ => rfl) hr

end Sys2Proof.Proofs
end

section
/-! PROOFS. Residency handles: RHNEW, and the numbers and frames that it claims (04 R88, R91, R92). -/

namespace Sys2Proof.Machine

/-! ### Sparse maps under many writes -/

/-- One value written at every key of a list. -/
theorem SMap.find?_foldl_insert {α : Type} (l : List Nat) (m : SMap α) (v : α) (j : Nat) :
    (l.foldl (fun t k => SMap.insert t k v) m).find? j = if j ∈ l then some v else m.find? j := by
  induction l generalizing m with
  | nil => simp
  | cons k l ih =>
    rw [List.foldl_cons, ih, SMap.find?_insert]
    by_cases hl : j ∈ l <;> by_cases hk : j = k <;> simp [hl, hk]

theorem SMap.find?_map {α β : Type} (f : α → β) (m : SMap α) (k : Nat) :
    SMap.find? (m.map fun p => (p.1, f p.2)) k = (m.find? k).map f := by
  induction m with
  | nil => rfl
  | cons p r ih =>
    obtain ⟨j, y⟩ := p
    simp only [List.map_cons, SMap.find?, ih]
    split <;> rfl

/-! ### The lowest free number -/

/-- Where fewer than 4,095 numbers are in use, the lowest free one is given (R88, log entry 14). -/
theorem MemSys.freeHandle_spec {m : MemSys} (h : m.liveHandles < 4095) :
    1 ≤ m.freeHandle ∧ m.freeHandle ≤ 4095 ∧ m.freeHandle ∉ m.handles ∧
      ∀ j, 1 ≤ j → j < m.freeHandle → j ∈ m.handles := by
  have hfree : ∃ k, (List.range 4095).find? (fun k => !m.handles.contains (k + 1)) = some k := by
    by_contra hnone
    have hnone := List.find?_eq_none.1 (Option.eq_none_iff_forall_ne_some.2 fun k hk => hnone ⟨k, hk⟩)
    have hsub : (List.range 4095).map (· + 1) ⊆ m.handles := by
      intro j hj
      obtain ⟨k, hk, rfl⟩ := List.mem_map.1 hj
      simpa using hnone k hk
    have hnodup : ((List.range 4095).map (· + 1)).Nodup := List.nodup_range.map fun a b e => Nat.succ.inj e
    have hlen := (hnodup.subperm hsub).length_le
    rw [List.length_map, List.length_range] at hlen
    exact absurd h (Nat.not_lt.2 hlen)
  obtain ⟨k, hk⟩ := hfree
  have hval : m.freeHandle = k + 1 := by rw [MemSys.freeHandle, hk]; rfl
  obtain ⟨hnot, hlt, hbelow⟩ := List.find?_range_eq_some.1 hk
  have hlt := List.mem_range.1 hlt
  rw [hval]
  refine ⟨by omega, by omega, by simpa using hnot, fun j h1 hj => ?_⟩
  obtain ⟨n, rfl⟩ : ∃ n, j = n + 1 := ⟨j - 1, by omega⟩
  simpa using hbelow n (by omega)

theorem MemSys.mem_handles {m : MemSys} {h : Nat} : h ∈ m.handles ↔ ∃ p ∈ m.resh, p.1 % 4096 = h := by
  rw [MemSys.handles, mem_dedup, List.mem_map]

/-! ### The frames of a range -/

/-- A range all of whose granules the core's translation cache holds (R91). -/
theorem State.frames_reaches {s : State} {o : Who} {base : Nat} {l : Nat → Loc} {n : Nat}
    (h : ∀ k < n, Claim.Reaches s o {} (base + 65536 * k) (l k)) (acc : List Nat) (host : Bool) :
    State.frames n s o.core o.ctx base acc host = (s, .ok (acc ++ (List.range n).map fun k => frameOf (l k).pa) host) := by
  induction n generalizing base l acc with
  | zero => simp [State.frames]
  | succ n ih =>
    have h0 : Claim.Reaches s o {} base (l 0) := by simpa using h 0 (by omega)
    have htail := ih (base := base + 65536) (l := fun k => l (k + 1)) (fun k hk => by
      have hnext := h (k + 1) (by omega)
      rwa [show base + 65536 * (k + 1) = base + 65536 + 65536 * k by omega] at hnext) (acc ++ [frameOf (l 0).pa])
    have htranslate := reaches_translate h0 rfl
    obtain ⟨hva, hdevice, -⟩ := h0
    simp only [State.frames, if_neg (Nat.not_le.2 hva), htranslate, hdevice, Bool.or_false, Bool.false_eq_true, if_false,
      htail]
    rw [List.range_succ_eq_map, List.map_cons, List.map_map, List.append_assoc]
    rfl

/-! ### Claiming a range -/

/-- The reason for which RHNEW fails before it translates, of a context and its base, length and priority; 0 where it goes on
(R92, log entry 14). -/
def MemSys.rhReason (m : MemSys) (ctx : Nat) (a : Nat × Nat × Nat) : Nat :=
  if 4095 ≤ m.liveHandles then 1 else if 256 ≤ m.ctxHandles ctx then 2
  else if a.1 % 65536 ≠ 0 ∨ a.2.1 % 65536 ≠ 0 ∨ a.2.1 = 0 then 3 else if 7 < a.2.2 then 6 else 0

/-- A handle on every die, and frames that belong to it there (R88, R89). -/
def MemSys.claimRange (m : MemSys) (h : Nat) (r : ResH) (frames : List Nat) : MemSys :=
  { m with resh := (List.range 4).foldl (fun t d => SMap.insert t (handleKey d h) r) m.resh
           resmap := (List.range 4).foldl (fun q d => frames.foldl (fun q f => SMap.insert q (frameKey d f) h) q) m.resmap }

/-- The keys of a handle, and of frames, on every die. -/
def handleKeys (h : Nat) : List Nat := (List.range 4).map (handleKey · h)
def frameKeys (frames : List Nat) : List Nat := (List.range 4).flatMap fun d => frames.map (frameKey d)

theorem mem_handleKeys {h k : Nat} : k ∈ handleKeys h ↔ ∃ d < 4, k = handleKey d h := by
  simp only [handleKeys, List.mem_map, List.mem_range, eq_comm]

theorem mem_frameKeys {frames : List Nat} {k : Nat} : k ∈ frameKeys frames ↔ ∃ d < 4, ∃ f ∈ frames, k = frameKey d f := by
  simp only [frameKeys, List.mem_flatMap, List.mem_map, List.mem_range, eq_comm]

theorem MemSys.find?_resh_claimRange (m : MemSys) (h : Nat) (r : ResH) (frames : List Nat) (k : Nat) :
    (m.claimRange h r frames).resh.find? k = if k ∈ handleKeys h then some r else m.resh.find? k := by
  have hfold : (m.claimRange h r frames).resh = (handleKeys h).foldl (fun t k => SMap.insert t k r) m.resh := by
    rw [handleKeys, List.foldl_map]
    rfl
  rw [hfold, SMap.find?_foldl_insert]

theorem MemSys.get_resmap_claimRange (m : MemSys) (h : Nat) (r : ResH) (frames : List Nat) (k : Nat) :
    (m.claimRange h r frames).resmap.get 0 k = if k ∈ frameKeys frames then h else m.resmap.get 0 k := by
  have hfold : (m.claimRange h r frames).resmap = (frameKeys frames).foldl (fun t k => SMap.insert t k h) m.resmap := by
    rw [frameKeys, List.foldl_flatMap]
    simp only [List.foldl_map]
    rfl
  rw [SMap.get, hfold, SMap.find?_foldl_insert]
  split <;> rfl

section
variable {s : State} {u : Nat} {w : Wave} {a : PendAcc} (hw : s.x.wave? u = some w)
include hw

/-- RHNEW that fails before it translates (R92). -/
theorem State.rhnew_refused (hr : s.mem.rhReason (s.x.who w).ctx a.args ≠ 0) :
    s.rhnew u a = s.modX fun x => x.writeW u a.d (rhWord (s.mem.rhReason (s.x.who w).ctx a.args) 0) := by
  unfold MemSys.rhReason at hr ⊢
  simp only [State.rhnew, hw]
  split
  · rfl
  split
  · rfl
  split
  · rfl
  split
  · rfl
  next h1 h2 h3 h4 => rw [if_neg h1, if_neg h2, if_neg h3, if_neg h4] at hr; exact absurd rfl hr

/-- RHNEW of a range that is reached and has no owner gives the lowest free handle (R91, R92). -/
theorem State.rhnew_granted {l : Nat → Loc} (hr : s.mem.rhReason (s.x.who w).ctx a.args = 0)
    (hl : ∀ k < a.args.2.1 / 65536, Claim.Reaches s (s.x.who w) {} (a.args.1 + 65536 * k) (l k) ∧
      ∀ d < 4, s.mem.resmap.get 0 (frameKey d (frameOf (l k).pa)) = 0) :
    s.rhnew u a = { s with
      mem := s.mem.claimRange s.mem.freeHandle ⟨(s.x.who w).ctx, a.args.2.2, false⟩
        ((List.range (a.args.2.1 / 65536)).map fun k => frameOf (l k).pa)
      x := s.x.writeW u a.d (rhWord 0 s.mem.freeHandle) } := by
  have hframes := State.frames_reaches (fun k hk => (hl k hk).1) [] false
  have hfree : ((List.range (a.args.2.1 / 65536)).map fun k => frameOf (l k).pa).any s.mem.owned = false := by
    refine List.any_eq_false.2 fun f hf => ?_
    obtain ⟨k, hk, rfl⟩ := List.mem_map.1 hf
    simpa [MemSys.owned] using (hl k (List.mem_range.1 hk)).2
  unfold MemSys.rhReason at hr
  split at hr
  · cases hr
  split at hr
  · cases hr
  split at hr
  · cases hr
  split at hr
  · cases hr
  next h1 h2 h3 h4 =>
    rw [List.nil_append] at hframes
    simp only [State.rhnew, hw, if_neg h1, if_neg h2, if_neg h3, if_neg h4, hframes, hfree, Bool.false_eq_true, if_false]
    rfl

end

theorem MemSys.liveHandles_lt {m : MemSys} {ctx : Nat} {a : Nat × Nat × Nat} (h : m.rhReason ctx a = 0) :
    m.liveHandles < 4095 := by
  by_contra hfull
  rw [MemSys.rhReason, if_pos (Nat.not_lt.1 hfull)] at h
  cases h

/-! ### The instruction -/

/-- A group whose fibres are all Ready at one instruction moves past it, and nothing else changes. -/
theorem Exec.past_advance (x : Exec) {i : Iss} (len : Nat) (hn : i.grp.Nodup) :
    Claim.Past x (x.advance i len) i fun _ => (i.pc + len) % 2 ^ 48 where
  wave := x.bare_advance i len
  regs := x.slotReg_advance i len
  pois := x.slotPois_advance i len
  fibs := x.fib_advance i len hn
  rest := rfl

/-- A wave without accesses that wait is not held when W registers have been written and its group has moved on. -/
theorem Exec.holdPend_writeW_advance {x : Exec} {i : Iss} (hi : x.issue? = some i) (hclear : Claim.Clear i.w)
    (k len pc : Nat) (v : Word) :
    ((x.writeW i.u k v).advance i len).holdPend i.u pc = (x.writeW i.u k v).advance i len := by
  obtain ⟨-, hw, -⟩ := Exec.issue?_spec hi
  obtain ⟨hhold, -, hpend, -⟩ := hclear
  have hwave : (x.writeW i.u k v).wave? i.u = some { i.w with w := i.w.w.put 0 k v } := by
    rw [Exec.writeW, Exec.wave?_modWave, if_pos rfl, hw]
    rfl
  exact Exec.holdPend_eq_self (calm_of_bareRead hwave hpend hhold (by rw [bareRead_eq, Exec.bare_advance, ← bareRead_eq]))

/-- What RHNEW reads: base, length and priority (R91, R282). -/
def Exec.rhArgs (x : Exec) (i : Iss) (w : OwnI) : Nat × Nat × Nat :=
  ((x.readW i.u w.s1.toNat).toNat + 2 ^ 32 * ((x.readW i.u (w.s1.toNat + 1)).toNat % 2 ^ 16), x.readW2 i.u w.s2.toNat,
    (x.readW i.u w.s3.toNat).toNat)

section
variable {s : State} {i : Iss} {w : OwnI} {f : Nat} (hu : Claim.Uniform s i w.h f) (hdet : s.x.determ i.w = false)
include hu hdet

/-- RHNEW outside deterministic mode is performed at once, and its group goes on (R91). -/
theorem exec_rhnew : ∃ a : PendAcc, a.d = w.d.toNat ∧ a.args = s.x.rhArgs i w ∧ exec (.rhnew w) s =
    .next { (s.rhnew i.u a).modX (fun x => (x.advance i 8).holdPend i.u i.pc) with trust := s.trust } := by
  obtain ⟨l, hl⟩ := Iss.served_of_head? hu.low
  have e : exec (.rhnew w) s = execRhnew w s := rfl
  simp only [e, execRhnew, State.onMem, hu.run, hl, hdet, Bool.false_eq_true, if_false]
  exact ⟨_, rfl, rfl, rfl⟩

variable (hclear : Claim.Clear i.w)
include hclear

theorem exec_rhnew_refused (hr : s.mem.rhReason (s.x.who i.w).ctx (s.x.rhArgs i w) ≠ 0) :
    exec (.rhnew w) s = .next { s with
      x := (s.x.writeW i.u w.d.toNat (rhWord (s.mem.rhReason (s.x.who i.w).ctx (s.x.rhArgs i w)) 0)).advance i 8 } := by
  obtain ⟨a, hd, hargs, hexec⟩ := exec_rhnew hu hdet
  rw [← hargs] at hr ⊢
  rw [hexec, State.rhnew_refused (Exec.issue?_spec hu.run).2.1 hr, hd]
  simp only [State.modX, Exec.holdPend_writeW_advance hu.run hclear]

theorem exec_rhnew_granted {l : Nat → Loc} (hr : s.mem.rhReason (s.x.who i.w).ctx (s.x.rhArgs i w) = 0)
    (hl : ∀ k < (s.x.rhArgs i w).2.1 / 65536, Claim.Reaches s (s.x.who i.w) {} ((s.x.rhArgs i w).1 + 65536 * k) (l k) ∧
      ∀ d < 4, s.mem.resmap.get 0 (frameKey d (frameOf (l k).pa)) = 0) :
    exec (.rhnew w) s = .next { s with
      mem := s.mem.claimRange s.mem.freeHandle ⟨(s.x.who i.w).ctx, (s.x.rhArgs i w).2.2, false⟩
        ((List.range ((s.x.rhArgs i w).2.1 / 65536)).map fun k => frameOf (l k).pa)
      x := (s.x.writeW i.u w.d.toNat (rhWord 0 s.mem.freeHandle)).advance i 8 } := by
  obtain ⟨a, hd, hargs, hexec⟩ := exec_rhnew hu hdet
  rw [← hargs] at hr hl ⊢
  rw [hexec, State.rhnew_granted (Exec.issue?_spec hu.run).2.1 hr hl, hd]
  simp only [State.modX, Exec.holdPend_writeW_advance hu.run hclear]

end

end Sys2Proof.Machine

namespace Sys2Proof.Proofs

open Sys2Proof.Machine Sys2Proof.Claim

/-- RHNEW of a wave that waits for nothing fails for a reason, or claims the range (R88, R91, R92). -/
theorem residencyNew : ResidencyNew := by
  intro s i w f hu hclear hdet o base len prio numbers mine odd reason
  have hreason : s.mem.rhReason o.ctx (s.x.rhArgs i w) = reason := rfl
  have hn := Iss.grp_nodup hu.run
  refine ⟨fun hr => ?_, fun l hr hl => ?_⟩
  · have hword : BitVec.ofNat 32 (2 ^ 31 + reason * 2 ^ 16) = rhWord reason 0 := by rw [rhWord, if_neg hr, Nat.add_zero]
    rw [hword]
    exact ⟨_, exec_rhnew_refused hu hdet hclear hr, rfl, rfl, Exec.past_advance _ 8 hn⟩
  · have hword : BitVec.ofNat 32 s.mem.freeHandle = rhWord 0 s.mem.freeHandle := by
      rw [rhWord, if_pos rfl, Nat.zero_mul, Nat.zero_add]
    obtain ⟨hlow, hhigh, hfree, hused⟩ := MemSys.freeHandle_spec (MemSys.liveHandles_lt (hreason.trans hr))
    refine ⟨_, s.mem.freeHandle, exec_rhnew_granted hu hdet hclear hr hl, rfl, hlow, hhigh,
      fun h => hfree (MemSys.mem_handles.2 h), fun j h1 hj => MemSys.mem_handles.1 (hused j h1 hj), rfl, fun d h4 => ?_, fun k hk => ?_, fun d h4 k hk => ?_, fun k hk => ?_, ?_⟩
    · rw [MemSys.find?_resh_claimRange, if_pos (mem_handleKeys.2 ⟨d, h4, rfl⟩)]
      rfl
    · rw [MemSys.find?_resh_claimRange, if_neg]
      rw [mem_handleKeys]
      exact fun ⟨d, h4, hkey⟩ => hk d h4 hkey
    · rw [MemSys.get_resmap_claimRange, if_pos]
      exact mem_frameKeys.2 ⟨d, h4, _, List.mem_map.2 ⟨k, List.mem_range.2 hk, rfl⟩, rfl⟩
    · rw [MemSys.get_resmap_claimRange, if_neg]
      rw [mem_frameKeys]
      rintro ⟨d, h4, _, hf, hkey⟩
      obtain ⟨j, hj, rfl⟩ := List.mem_map.1 hf
      exact hk d h4 j (List.mem_range.1 hj) hkey
    · rw [hword]
      exact Exec.past_advance _ 8 hn

end Sys2Proof.Proofs
end

section
/-! PROOFS. Operations on residency handles: RHSET, RHDEMOTE, RHEVICT and RHFREE, the updates of the table's copies and the
sweeps (04 R88, R90, R91). -/

namespace Sys2Proof.Machine

/-! ### An operation begins on every die -/

/-- One die's part of an operation: an update that is noted, and its step (R91). -/
def State.rhPost (kind h prio op : Nat) (s : State) (d : Nat) : State :=
  let t := s.x.take
  { s with mem := { s.mem with resupd := s.mem.resupd ++ [⟨t.1, d, h, kind, prio, op⟩] },
           x := t.2.post 1 (if kind = ruSweep then .residencySweep d h else .handleTableCopyUpdate t.1) }

theorem Exec.fresh_post (x : Exec) (d : Nat) (e : Ev) : (x.post d e).fresh = x.fresh := by
  unfold Exec.post
  split <;> rfl

theorem State.foldl_rhPost (kind h prio op n : Nat) (s : State) :
    ((List.range n).foldl (State.rhPost kind h prio op) s).mem = { s.mem with
      resupd := s.mem.resupd ++ (List.range n).map fun d => ⟨s.x.fresh + d, d, h, kind, prio, op⟩ } ∧
    ((List.range n).foldl (State.rhPost kind h prio op) s).x.fresh = s.x.fresh + n ∧
    ((List.range n).foldl (State.rhPost kind h prio op) s).x.waves = s.x.waves := by
  induction n with
  | zero => simp
  | succ n ih =>
    obtain ⟨hmem, hfresh, hwaves⟩ := ih
    rw [List.range_succ, List.foldl_append, List.foldl_cons, List.foldl_nil, List.map_append, ← List.append_assoc]
    generalize (List.range n).foldl (State.rhPost kind h prio op) s = t at hmem hfresh hwaves ⊢
    refine ⟨?_, ?_, ?_⟩
    · simp only [State.rhPost, Exec.take, hmem, hfresh, List.map_cons, List.map_nil]
    · rw [State.rhPost, Exec.fresh_post, Exec.take, hfresh, Nat.add_assoc]
    · rw [State.rhPost, Exec.waves_post, Exec.take, hwaves]

/-- A freed handle is live in no context from then on (R91). -/
def MemSys.rhLeave (m : MemSys) (kind h : Nat) : MemSys :=
  if kind = ruFree then m.modHandle h fun r => { r with ctx := 0 } else m

theorem State.rhStart_eq (s : State) (kind h prio op : Nat) :
    s.rhStart kind h prio op = (List.range 4).foldl (State.rhPost kind h prio op) (s.modM fun m => m.rhLeave kind h) := rfl

theorem State.mem_rhStart (s : State) (kind h prio op : Nat) : (s.rhStart kind h prio op).mem = { s.mem.rhLeave kind h with
    resupd := s.mem.resupd ++ (List.range 4).map fun d => ⟨s.x.fresh + d, d, h, kind, prio, op⟩ } := by
  have hupd : (s.mem.rhLeave kind h).resupd = s.mem.resupd := by unfold MemSys.rhLeave; split <;> rfl
  rw [State.rhStart_eq, (State.foldl_rhPost ..).1, State.modM_mem, hupd, State.modM_x]

theorem State.waves_rhStart (s : State) (kind h prio op : Nat) : (s.rhStart kind h prio op).x.waves = s.x.waves := by
  rw [State.rhStart_eq, (State.foldl_rhPost ..).2.2, State.modM_x]

/-! ### The instructions -/

/-- The fibres of a group that moves on from states with the same fibres. -/
theorem Exec.fib_advance_group {x y : Exec} {i : Iss} (len : Nat) (hi : x.issue? = some i)
    (hy : ∀ u f, y.fib u f = x.fib u f) (u f : Nat) :
    (y.advance i len).fib u f =
      { x.fib u f with pc := if u = i.u ∧ f ∈ i.grp then (i.pc + len) % 2 ^ 48 else (x.fib u f).pc } := by
  rw [Exec.fib_advance _ _ _ (Iss.grp_nodup hi), hy]
  by_cases hgrp : u = i.u ∧ f ∈ i.grp
  · obtain ⟨rfl, hf⟩ := hgrp
    obtain ⟨-, hst, hpc⟩ := (Iss.mem_grp hi f).1 hf
    rw [if_pos ⟨rfl, hf, hst, hpc⟩, if_pos ⟨rfl, hf⟩]
  · rw [if_neg fun e => hgrp ⟨e.1, e.2.1⟩, if_neg hgrp]

theorem Exec.slotReg_bindHandle (x : Exec) (u k op v a j : Nat) : (x.bindHandle u k op).slotReg v a j = x.slotReg v a j := by
  unfold Exec.slotReg
  rw [Exec.bindHandle, Exec.wave?_modWave]
  split
  · cases x.wave? v <;> rfl
  · rfl

theorem Exec.fib_bindHandle (x : Exec) (u k op v f : Nat) : (x.bindHandle u k op).fib v f = x.fib v f := by
  unfold Exec.fib
  rw [Exec.bindHandle, Exec.wave?_modWave]
  split
  · cases x.wave? v <;> rfl
  · rfl

/-- The future handles of a wave (R225). -/
def Exec.handlesOf (x : Exec) (u : Nat) : Option (SMap Handle) := (x.wave? u).map Wave.handles

theorem Exec.handlesOf_congr {x y : Exec} (h : y.waves = x.waves) : y.handlesOf = x.handlesOf :=
  funext fun u => by rw [Exec.handlesOf, Exec.wave?_congr h]; rfl

theorem Exec.handlesOf_modWave (x : Exec) (u : Nat) (f : Wave → Wave)
    (h : ∀ w, (f w).handles = w.handles := by exact fun _ => rfl) :
    (x.modWave u f).handlesOf = x.handlesOf := by
  funext v
  rw [Exec.handlesOf, Exec.wave?_modWave]
  split
  · rw [Option.map_map]
    exact congrArg (Option.map · (x.wave? v)) (funext h)
  · rfl

theorem Exec.handlesOf_advance (x : Exec) (i : Iss) (len : Nat) : (x.advance i len).handlesOf = x.handlesOf := by
  rw [Exec.advance_eq]
  refine x.handlesOf_modWave i.u _ fun w => ?_
  have hbare := congrArg Wave.handles (stepFibs_bare i.pc len i.grp w).1
  exact hbare

section
variable {s : State} {i : Iss} {w : OwnI} {f h p kind : Nat} {hasPrio : Bool} {r : ResH}
  (hu : Claim.Uniform s i w.h f) (hdet : s.x.determ i.w = false) (hh : (s.x.readW i.u w.s1.toNat).toNat = h) (hnum : h ≤ 4095)
  (hfind : s.mem.resh.find? (handleKey (dieOf (s.x.coreOf i.w)) h) = some r) (hctx : r.ctx = s.x.ctxOf i.w)
  (hp : (if hasPrio then (s.x.readW i.u w.s2.toNat).toNat else 0) = p) (h7 : p ≤ 7)
include hu hdet hh hnum hfind hctx hp h7

/-- An operation on a handle that is live binds its future and begins, and the group goes on (R91). -/
theorem State.rhOp_live : s.rhOp w kind hasPrio =
    (State.rhStart { s with x := s.x.take.2.bindHandle i.u w.d.toNat s.x.fresh } kind h p s.x.fresh).modX
      fun x => x.advance i 8 := by
  obtain ⟨l, hl⟩ := Iss.served_of_head? hu.low
  have hgo : (decide (4095 < h) || !decide (r.ctx = s.x.ctxOf i.w) || decide (7 < p)) = false := by simp [hctx, hnum, h7]
  have hdet' : (s.x.take.2.bindHandle i.u w.d.toNat s.x.take.1).determ i.w = false := hdet
  simp only [State.rhOp, hu.run, hl, hh, hfind, hp, hgo, hdet', Bool.false_eq_true, if_false]
  rfl

/-- What the four instructions do with a live handle. -/
theorem State.rhOp_does :
    (s.rhOp w kind hasPrio).mem = { s.mem.rhLeave kind h with
      resupd := s.mem.resupd ++ (List.range 4).map fun d => ⟨s.x.fresh + 1 + d, d, h, kind, p, s.x.fresh⟩ } ∧
    ((s.rhOp w kind hasPrio).x.wave? i.u).map (fun v => v.handles.get {} w.d.toNat) =
      some { ready := false, op := s.x.fresh } ∧
    (∀ u a k, (s.rhOp w kind hasPrio).x.slotReg u a k = s.x.slotReg u a k) ∧
    ∀ u f, (s.rhOp w kind hasPrio).x.fib u f =
      { s.x.fib u f with pc := if u = i.u ∧ f ∈ i.grp then (i.pc + 8) % 2 ^ 48 else (s.x.fib u f).pc } := by
  rw [State.rhOp_live hu hdet hh hnum hfind hctx hp h7]
  have hwaves := State.waves_rhStart { s with x := s.x.take.2.bindHandle i.u w.d.toNat s.x.fresh } kind h p s.x.fresh
  refine ⟨State.mem_rhStart .., ?_, fun u a k => ?_, Exec.fib_advance_group 8 hu.run fun u f => ?_⟩
  · have hwave : s.x.take.2.wave? i.u = some i.w := (Exec.issue?_spec hu.run).2.1
    have hhandles : (s.x.take.2.bindHandle i.u w.d.toNat s.x.fresh).handlesOf i.u =
        some (i.w.handles.put {} w.d.toNat { ready := false, op := s.x.fresh }) := by
      rw [Exec.handlesOf, Exec.bindHandle, Exec.wave?_modWave, if_pos rfl, hwave]
      rfl
    rw [← Exec.handlesOf_congr hwaves, ← Exec.handlesOf_advance _ i 8] at hhandles
    have hget := congrArg (Option.map fun m : SMap Handle => m.get {} w.d.toNat) hhandles
    rw [Exec.handlesOf, Option.map_map, Option.map_some, SMap.get_put_self] at hget
    exact hget
  · rw [State.modX_x, Exec.slotReg_advance, Exec.slotReg_congr hwaves, Exec.slotReg_bindHandle]
    rfl
  · rw [Exec.fib_congr hwaves, Exec.fib_bindHandle]
    rfl

end

/-! ### Completion -/

theorem Exec.handlesOf_closeWin (x : Exec) (u f : Nat) (l : LookWin) : (x.closeWin u f l).handlesOf = x.handlesOf := by
  have hv := foldl_keeps Exec.handlesOf (f := fun (x : Exec) (p : Nat × Word) => x.writeV u f p.1 p.2)
    (fun x _ => x.handlesOf_modWave ..) l.v x
  have hw := fun y => foldl_keeps Exec.handlesOf (f := fun (x : Exec) (p : Nat × Word) => x.writeW u p.1 p.2)
    (fun x _ => x.handlesOf_modWave ..) l.w y
  unfold Exec.closeWin
  dsimp only
  split
  · exact hv
  · exact (Exec.handlesOf_modWave ..).trans ((hw _).trans hv)

theorem Exec.handlesOf_passWindows (x : Exec) (u : Nat) (stop : Bool) (l : List (Nat × List Nat)) :
    (x.passWindows u stop l).handlesOf = x.handlesOf := by
  unfold Exec.passWindows
  refine (foldl_keeps Exec.handlesOf (fun x p => ?_) _ _).trans (foldl_keeps Exec.handlesOf (fun x _ => x.handlesOf_modWave ..) l x)
  split
  · rfl
  · exact (Exec.handlesOf_modWave ..).trans (Exec.handlesOf_closeWin ..)

/-- A wave whose hold ends (R149). -/
def Wave.woken (n : Nat) (w : Wave) : Wave :=
  { w with hold := none, stamp := n, resumed := (w.hold.map Hold.reissues).getD false, passing := none }

theorem Exec.waves_unhold (x : Exec) (u : Nat) :
    ∃ y : Exec, y.handlesOf = x.handlesOf ∧ (x.unhold u).waves = (y.modWave u (Wave.woken y.fresh)).waves := by
  rcases hpass : ((x.wave? u).filter fun (w : Wave) => w.hold.elim false Hold.late).bind Wave.passing with _ | p
  · refine ⟨x, rfl, ?_⟩
    simp only [Exec.unhold, hpass]
    split
    · exact Exec.waves_post ..
    · rfl
  · refine ⟨x.passWindows u p.1 p.2, x.handlesOf_passWindows u p.1 p.2, ?_⟩
    simp only [Exec.unhold, hpass]
    split
    · exact Exec.waves_post ..
    · rfl

/-- Ending a hold changes no future. -/
theorem Exec.handlesOf_unhold (x : Exec) (u : Nat) : (x.unhold u).handlesOf = x.handlesOf := by
  obtain ⟨y, hy, hwaves⟩ := x.waves_unhold u
  exact (Exec.handlesOf_congr hwaves).trans ((y.handlesOf_modWave u _).trans hy)

/-- A future, and a wave with its futures, once an operation has completed. -/
def Handle.completed (op : Nat) (all : Word) (vals : SMap Word) (q : Handle) : Handle :=
  if !q.ready && decide (q.op = op) then { ready := true, all := all, vals := vals } else q

def Wave.completed (op : Nat) (all : Word) (vals : SMap Word) (w : Wave) : Wave :=
  { w with handles := w.handles.map fun q => (q.1, q.2.completed op all vals) }

theorem Exec.handlesOf_complete (x : Exec) (op : Nat) (all : Word) (vals : SMap Word) (u : Nat) :
    (x.complete op all vals).handlesOf u =
      (x.handlesOf u).map fun m => m.map fun q => (q.1, q.2.completed op all vals) := by
  have hwake (y : Exec) (p : Nat → Wave → Bool) : (y.unholdWhere p).handlesOf = y.handlesOf :=
    foldl_keeps Exec.handlesOf (fun x q => by split; exacts [x.handlesOf_unhold q.1, rfl]) _ y
  have hwave : SMap.find? (x.waves.map fun p => (p.1, p.2.completed op all vals)) u =
      (x.wave? u).map (Wave.completed op all vals) :=
    SMap.find?_map _ x.waves u
  refine (congrFun (hwake _ _) u).trans ((congrArg (Option.map Wave.handles) hwave).trans ?_)
  rw [Exec.handlesOf, Option.map_map, Option.map_map]
  rfl

/-- A future that waits for an operation becomes ready with it. -/
theorem Exec.find?_handles_complete {x : Exec} {u k op : Nat} {v : Wave} {q : Handle} (hv : x.wave? u = some v)
    (hk : v.handles.find? k = some q) (hwait : q.ready = false) (hop : q.op = op) (all : Word) (vals : SMap Word) :
    ((x.complete op all vals).wave? u).bind (fun v => v.handles.find? k) = some { ready := true, all := all, vals := vals } := by
  have hmap := Exec.handlesOf_complete x op all vals u
  have hdone : q.completed op all vals = { ready := true, all := all, vals := vals } := by
    rw [Handle.completed, hwait, hop]
    simp
  rw [Exec.handlesOf, Exec.handlesOf, hv, Option.map_some, Option.map_some] at hmap
  obtain ⟨v', hv', hhandles⟩ := Option.map_eq_some_iff.1 hmap
  rw [hv', Option.bind_some, hhandles, SMap.find?_map, hk, Option.map_some, hdone]

/-! ### An update of one die's copy -/

/-- A priority set, or a handle demoted, in one die's copy of the table (R91). -/
def MemSys.rhChange (m : MemSys) (r : ResUpd) : MemSys :=
  { m with resupd := m.resupd.filter fun q => !decide (q.id = r.id)
           resh := m.resh.modify (handleKey r.die r.h) fun q =>
             if r.kind = 0 then { q with prio := r.prio, dem := false } else { q with dem := true } }

/-- The last update of an operation changes its die's copy and completes the operation (R91). -/
theorem State.rhUpdate_last {s : State} {n : Nat} {r : ResUpd} (hr : s.mem.resupd.find? (fun r => decide (r.id = n)) = some r)
    (hkind : r.kind < 2) (hlast : ∀ q ∈ s.mem.resupd, q.id ≠ n → q.op ≠ r.op) :
    s.rhUpdate n = { s with mem := s.mem.rhChange r, x := s.x.complete r.op 0 [] } := by
  have hid : r.id = n := by simpa using List.find?_some hr
  subst hid
  have hnone : ((s.mem.resupd.filter fun q => !decide (q.id = r.id)).any fun q => decide (q.op = r.op)) = false := by
    refine List.any_eq_false.2 fun q hq => ?_
    obtain ⟨hq, hne⟩ := List.mem_filter.1 hq
    simpa using hlast q hq (by simpa using hne)
  rcases (by omega : r.kind = 0 ∨ r.kind = 1) with hset | hdemote
  · simp [State.rhUpdate, hr, hset, ruFree, ruSet, State.modM, State.modX, hnone, MemSys.rhChange]
  · simp [State.rhUpdate, hr, hdemote, ruFree, ruSet, ruDemote, State.modM, State.modX, hnone, MemSys.rhChange]

/-! ### A sweep -/

/-- A square goes from its slice, its waiting writes performed (R91). -/
def State.sweepSq (s : State) (q : Sq) : State :=
  (s.drainSq q.id).modM fun m =>
    let m := m.dropSharers q.id
    { m with sqs := m.sqs.erase q.id, cways := m.cways.filter (fun c => !decide (c.sq = q.id)),
             hints := m.hints.filter (fun c => !decide (c.sq = q.id)) }

/-- A square that a memory system listed, whatever its other fields were then. -/
def MemSys.listed (m : MemSys) (p : Nat × Sq) : Prop := ∃ q, (p.1, q) ∈ m.sqs ∧ q.id = p.2.id ∧ q.pa = p.2.pa

theorem MemSys.listed_of_dropSharers {m : MemSys} {sq : Nat} {p : Nat × Sq} (h : p ∈ (m.dropSharers sq).sqs) : m.listed p := by
  unfold MemSys.dropSharers at h
  split at h
  · exact ⟨p.2, h, rfl, rfl⟩
  · dsimp only [MemSys.modSq, SMap.modify] at h
    rw [foldl_keeps MemSys.sqs (f := fun m d => m.rdcDropSq d sq) fun _ _ => rfl] at h
    obtain ⟨q, hq, rfl⟩ := List.mem_map.1 h
    by_cases hsq : q.1 = sq
    · rw [if_pos hsq]
      exact ⟨q.2, hq, rfl, rfl⟩
    · rw [if_neg hsq]
      exact ⟨q.2, hq, rfl, rfl⟩

/-- What a sweep of squares leaves: none of them, and of memory beside the L2 everything. -/
structure Swept (s t : State) (l : List Sq) : Prop where
  rest : t.mem.offL2 = s.mem.offL2
  gone : ∀ p ∈ t.mem.sqs, ∀ q ∈ l, p.1 ≠ q.id
  old  : ∀ p ∈ t.mem.sqs, s.mem.listed p

theorem Swept.reqs {s t : State} {l : List Sq} (h : Swept s t l) : t.mem.reqs = s.mem.reqs := by
  have e := congrArg MemSys.reqs h.rest
  exact e

theorem Swept.resmap {s t : State} {l : List Sq} (h : Swept s t l) : t.mem.resmap = s.mem.resmap := by
  have e := congrArg MemSys.resmap h.rest
  exact e

theorem State.swept_sweepSq {s : State} {q : Sq} (h : ∀ r ∈ s.mem.reqs, r.sq ≠ q.id) : Swept s (s.sweepSq q) [q] := by
  rw [State.sweepSq, State.drainSq_eq_self h]
  refine ⟨s.mem.offL2_dropSharers q.id, fun p hp v hv => ?_, fun p hp => ?_⟩
  · obtain rfl := List.mem_singleton.1 hv
    simpa using (List.mem_filter.1 hp).2
  · exact MemSys.listed_of_dropSharers (List.mem_filter.1 hp).1

/-- Squares for which no write waits are swept one after another. -/
theorem State.swept_foldl {l : List Sq} {s : State} (h : ∀ q ∈ l, ∀ r ∈ s.mem.reqs, r.sq ≠ q.id) :
    Swept s (l.foldl State.sweepSq s) l := by
  induction l generalizing s with
  | nil => exact ⟨rfl, fun _ _ _ hq => absurd hq List.not_mem_nil, fun p hp => ⟨p.2, hp, rfl, rfl⟩⟩
  | cons q l ih =>
    have hfirst := State.swept_sweepSq (h q (List.mem_cons_self ..))
    have hrest := ih (s := s.sweepSq q) fun v hv => by rw [hfirst.reqs]; exact h v (List.mem_cons_of_mem _ hv)
    refine ⟨hrest.rest.trans hfirst.rest, fun p hp v hv => ?_, fun p hp => ?_⟩
    · obtain ⟨old, hold, -⟩ := hrest.old p hp
      rcases List.mem_cons.1 hv with rfl | hv
      · exact hfirst.gone _ hold v (List.mem_singleton.2 rfl)
      · exact hrest.gone p hp v hv
    · obtain ⟨mid, hmid, hid, hpa⟩ := hrest.old p hp
      obtain ⟨old, hold, hid', hpa'⟩ := hfirst.old _ hmid
      exact ⟨old, hold, hid'.trans hid, hpa'.trans hpa⟩

/-- The squares of a handle's tensor on a die (R91). -/
def MemSys.tensor (m : MemSys) (die h : Nat) : List Sq :=
  (m.sqs.map (·.2)).filter fun q => decide (q.id / 2 ^ 28 = die) && decide (m.owner die q.pa = h)

theorem MemSys.mem_tensor {m : MemSys} {die h : Nat} {q : Sq} :
    q ∈ m.tensor die h ↔ (∃ k, (k, q) ∈ m.sqs) ∧ q.id / 2 ^ 28 = die ∧ m.owner die q.pa = h := by
  simp [MemSys.tensor]

/-- A sweep that no claim blocks: the tensor's squares go, then its sectors in the die's remote-data cache, and the sweep is
done (R91). -/
theorem State.rhSweep_unblocked {s : State} {die h : Nat} {r : ResUpd}
    (hr : s.mem.resupd.find? (fun r => decide (r.kind = 3 ∧ r.die = die ∧ r.h = h)) = some r)
    (hfree : ∀ p ∈ s.mem.sqs, p.2.hold = false) :
    ∃ rdc, (s.rhSweep die h).mem = { ((s.mem.tensor die h).foldl State.sweepSq s).mem with
      rdc := rdc
      resupd := ((s.mem.tensor die h).foldl State.sweepSq s).mem.resupd.filter fun q => !decide (q.id = r.id) } := by
  have hblock : (s.mem.tensor die h).any Sq.hold = false := by
    refine List.any_eq_false.2 fun q hq => ?_
    obtain ⟨⟨k, hk⟩, -⟩ := MemSys.mem_tensor.1 hq
    simpa using hfree _ hk
  have hr : s.mem.resupd.find? (fun r => decide (r.kind = ruSweep ∧ r.die = die ∧ r.h = h)) = some r := hr
  rw [MemSys.tensor] at hblock
  simp only [State.rhSweep, hr, hblock, Bool.false_eq_true, if_false]
  split
  · exact ⟨_, rfl⟩
  · exact ⟨_, rfl⟩

/-- Where no write waits on a die, a sweep that no claim blocks leaves no square of the tensor there (R91). -/
theorem State.tensor_rhSweep {s : State} {die h : Nat} {r : ResUpd}
    (hr : s.mem.resupd.find? (fun r => decide (r.kind = 3 ∧ r.die = die ∧ r.h = h)) = some r)
    (hfree : ∀ p ∈ s.mem.sqs, p.2.hold = false)
    (hkey : ∀ p ∈ s.mem.sqs, p.1 = p.2.id) (hreqs : ∀ q ∈ s.mem.reqs, q.sq / 2 ^ 28 ≠ die) :
    (s.rhSweep die h).mem.tensor die h = [] := by
  have hswept := State.swept_foldl (l := s.mem.tensor die h) (s := s) fun q hq v hv e =>
    hreqs v hv (e ▸ (MemSys.mem_tensor.1 hq).2.1)
  obtain ⟨rdc, hmem⟩ := State.rhSweep_unblocked hr hfree
  have hmap : (s.rhSweep die h).mem.resmap = s.mem.resmap := by
    rw [hmem]
    exact hswept.resmap
  refine List.eq_nil_iff_forall_not_mem.2 fun q hq => ?_
  obtain ⟨⟨k, hk⟩, hdie, howner⟩ := MemSys.mem_tensor.1 hq
  rw [MemSys.owner, hmap] at howner
  rw [hmem] at hk
  obtain ⟨old, hold, hid, hpa⟩ := hswept.old _ hk
  have hmine : old ∈ s.mem.tensor die h :=
    MemSys.mem_tensor.2 ⟨⟨k, hold⟩, by rw [hid]; exact hdie, by rw [MemSys.owner, hpa]; exact howner⟩
  exact hswept.gone _ hk old hmine (hkey _ hold)

end Sys2Proof.Machine

namespace Sys2Proof.Proofs

open Sys2Proof.Machine Sys2Proof.Claim

/-- The four operations begin on every die; an update changes one die's copy; a sweep empties one die of the tensor (R88, R91). -/
theorem residencyChanges : ResidencyChanges := by
  refine ⟨?_, fun s n r hr hkind hlast => ?_, fun s die h r hr hfree hkey => ?_⟩
  · intro s i w f r hu hdet h p n hfind hctx hnum four does
    have hop {instr : Instr} {kind p : Nat} {hasPrio : Bool} {m : MemSys}
        (hexec : Machine.exec instr s = .next { s.rhOp w kind hasPrio with trust := s.trust })
        (hp : (if hasPrio then (s.x.readW i.u w.s2.toNat).toNat else 0) = p) (h7 : p ≤ 7)
        (hm : { s.mem.rhLeave kind h with resupd := s.mem.resupd ++ four kind p } = m) : does instr m := by
      obtain ⟨hmem, hrest⟩ := State.rhOp_does hu hdet rfl hnum hfind hctx (kind := kind) hp h7
      exact ⟨_, hexec, rfl, hmem.trans hm, hrest⟩
    exact ⟨fun h7 => hop (kind := 0) (hasPrio := true) rfl rfl h7 rfl,
      hop (kind := 1) (p := 0) (hasPrio := false) rfl rfl (Nat.zero_le 7) rfl,
      hop (kind := 2) (p := 0) (hasPrio := false) rfl rfl (Nat.zero_le 7) rfl,
      hop (kind := 3) (p := 0) (hasPrio := false) rfl rfl (Nat.zero_le 7) rfl⟩
  · have hexec : Machine.exec (.handleTableCopyUpdate n) s = .next { s.rhUpdate n with trust := s.trust } := rfl
    have hid : r.id = n := by simpa using List.find?_some hr
    rw [State.rhUpdate_last hr hkind hlast] at hexec
    refine ⟨_, hexec, rfl, ?_, fun u v k q hv hk hwait hopq => Exec.find?_handles_complete hv hk hwait hopq 0 []⟩
    rw [← hid]
    rfl
  · refine ⟨{ s.rhSweep die h with trust := s.trust }, rfl, rfl, fun q hq => ?_, fun hreqs p hp => ?_⟩
    · obtain ⟨rdc, hmem⟩ := State.rhSweep_unblocked hr hfree
      have hq : q ∈ (s.rhSweep die h).mem.resupd := hq
      rw [hmem] at hq
      simpa using (List.mem_filter.1 hq).2
    · by_contra hmine
      rw [not_or, not_not, not_not] at hmine
      have hin : p.2 ∈ (s.rhSweep die h).mem.tensor die h := MemSys.mem_tensor.2 ⟨⟨p.1, hp⟩, hmine⟩
      rw [State.tensor_rhSweep hr hfree hkey hreqs] at hin
      exact List.not_mem_nil hin

/-- Settles O36: RHNEW claims the frames it has translated, and the other operations begin at once on every die's copy. -/
theorem residency : Obligations.Residency := ⟨residencyNew, residencyChanges⟩

end Sys2Proof.Proofs
end

section
/-! PROOFS. Why the statement on barrier objects fails as it stands: nothing in it says that each wave is listed once
(05 R105, R108). -/

namespace Sys2Proof.Proofs

open Sys2Proof.Machine Sys2Proof.Claim

/-- TBINIT of an unregistered object, at the offset in W0, with the count in W0. -/
def initObject : OwnI := ⟨⟨false, 7, 0, false⟩, 0, 0, 0, 0, 0⟩

theorem listedTwice_uniform : Uniform listedTwice issuing initObject.h 0 := ⟨by decide +kernel, by decide +kernel⟩

/-- TBINIT wakes the team's waves, so it closes the late entry's window: V3 of wave 1, which does not issue, becomes 5. -/
theorem listedTwice_tbinit {t : State} (h : exec (.tbinit initObject) listedTwice = .next t) : t.x.slotReg 1 0 3 = 5 := by
  have e : (match exec (.tbinit initObject) listedTwice with
    | .next t => t.x.slotReg 1 0 3
    | _ => 0) = 5 := by decide +kernel
  rw [h] at e
  exact e

/-- Refutes O35: the statement does not ask that each wave be listed once. In `listedTwice` the barrier entry of wave 1 is met, so
TBINIT, which wakes the waves of its team whose waits are over, ends the hold of wave 1; the entry found under that number is the
late one, and its window closes, which writes a register of a wave that does not issue. -/
theorem not_barrierObjects : ¬ Obligations.BarrierObjects := by
  intro h
  obtain ⟨hinit, -⟩ := h listedTwice issuing initObject 0 soleTeam listedTwice_uniform (by decide +kernel) (by decide +kernel)
    (by decide +kernel) (by decide +kernel) (by decide +kernel)
  obtain ⟨t, ht, -, -, hregs, -⟩ := hinit (by decide +kernel) fun hreg => absurd hreg (by decide)
  have hreg := hregs 1 0 3
  rw [listedTwice_tbinit ht] at hreg
  exact absurd hreg (by decide +kernel)

end Sys2Proof.Proofs
end

section
/-! PROOFS. Completion tags: their waits, the first done tag, and clearing (05 R99 to R102, 14 R284). -/

namespace Sys2Proof.Machine

/-! ### Bits of numbers -/

theorem bitOf_land (a b k : Nat) : bitOf (Nat.land a b) k = (bitOf a k && bitOf b k) := by
  simp only [bitOf_eq_testBit]
  exact Nat.testBit_and a b k

theorem bitOf_xor (a b k : Nat) : bitOf (Nat.xor a b) k = (bitOf a k ^^ bitOf b k) := by
  simp only [bitOf_eq_testBit]
  exact Nat.testBit_xor a b k

theorem bitOf_mod_two_pow (a n k : Nat) : bitOf (a % 2 ^ n) k = (decide (k < n) && bitOf a k) := by
  rw [bitOf_eq_testBit, Nat.testBit_mod_two_pow, bitOf_eq_testBit]

theorem eq_of_bitOf_eq {a b : Nat} (h : ∀ k, bitOf a k = bitOf b k) : a = b :=
  Nat.eq_of_testBit_eq fun k => by rw [← bitOf_eq_testBit, ← bitOf_eq_testBit, h]

/-! ### Uniform instructions (R146) -/

section
variable {s : State} {i : Iss} {h : Hd} {f : Nat}

theorem Exec.uniform_eq (hu : Claim.Uniform s i h f) (len : Nat) (g : Iss → Nat → Exec → Exec) :
    s.x.uniform len h g = (g i f s.x).advance i len := by
  obtain ⟨l, hl⟩ := Iss.served_of_head? hu.low
  simp only [Exec.uniform, hu.run, hl]

theorem Exec.uniformHold_eq (hu : Claim.Uniform s i h f) (len : Nat) (g : Iss → Nat → Exec → Exec × Bool) :
    s.x.uniformHold len h g = if (g i f s.x).2 then (g i f s.x).1 else (g i f s.x).1.advance i len := by
  obtain ⟨l, hl⟩ := Iss.served_of_head? hu.low
  simp only [Exec.uniformHold, hu.run, hl]

end

/-! ### Tag waits -/

section
variable {x : Exec} {t : Nat} {m : Team} (hm : x.teams.find? t = some m)
include hm

/-- Every selected tag is done (R102). -/
theorem Exec.tagsMet_all (mask : Nat) : x.tagsMet t mask true = true ↔
    ∀ k < x.tagCount m, bitOf mask k = true → bitOf m.tdone k = true := by
  simp only [Exec.tagsMet, hm, if_true, decide_eq_true_eq]
  constructor
  · intro h k hk hb
    have hbit : bitOf (Nat.land m.tdone (mask % 2 ^ x.tagCount m)) k = bitOf (mask % 2 ^ x.tagCount m) k := congrArg (bitOf · k) h
    rw [bitOf_land, bitOf_mod_two_pow] at hbit
    simpa [hk, hb] using hbit
  · intro h
    refine eq_of_bitOf_eq fun k => ?_
    rw [bitOf_land, bitOf_mod_two_pow]
    by_cases hk : k < x.tagCount m
    · cases hb : bitOf mask k
      · simp
      · simp [hk, h k hk hb]
    · simp [hk]

/-- One selected tag is done, or none of the team's tags is selected (R102). -/
theorem Exec.tagsMet_any (mask : Nat) : x.tagsMet t mask false = true ↔
    (∀ k < x.tagCount m, bitOf mask k = false) ∨ ∃ k < x.tagCount m, bitOf mask k = true ∧ bitOf m.tdone k = true := by
  have hzero (a : Nat) : a = 0 ↔ ∀ k, bitOf a k = false :=
    ⟨fun e k => by rw [e, bitOf_eq_testBit, Nat.zero_testBit], fun e => eq_of_bitOf_eq fun k => by
      rw [e, bitOf_eq_testBit, Nat.zero_testBit]⟩
  simp only [Exec.tagsMet, hm, Bool.false_eq_true, if_false, Bool.or_eq_true, Bool.not_eq_true', decide_eq_true_eq,
    decide_eq_false_iff_not, hzero, bitOf_land, bitOf_mod_two_pow, not_forall]
  refine or_congr ⟨fun h k hk => by simpa [hk] using h k, fun h k => ?_⟩
    ⟨fun ⟨k, h⟩ => ?_, fun ⟨k, hk, hb, hd⟩ => ⟨k, by simp [hk, hb, hd]⟩⟩
  · by_cases hk : k < x.tagCount m
    · simp [h k hk]
    · simp [hk]
  · simp only [Bool.not_eq_false, Bool.and_eq_true, decide_eq_true_eq] at h
    exact ⟨k, h.2.1, h.2.2, h.1⟩

end

section
variable {s : State} {i : Iss} {w : OwnI} {f : Nat} (hu : Claim.Uniform s i w.h f) (hdet : s.x.determ i.w = false)
include hu hdet

/-- TAGWALL and TAGWANY outside deterministic mode: where the wait is over the group goes on (R102). -/
theorem Exec.tagWait_met {any : Bool}
    (h : i.w.resumed = true ∨ s.x.tagsMet i.w.team (s.x.readW2 i.u w.s1.toNat) (!any) = true) :
    s.x.tagWait w any = s.x.advance i 8 := by
  rw [Exec.tagWait, Exec.uniformHold_eq hu]
  simp only [hdet, Bool.or_false, Bool.or_eq_true, Bool.false_eq_true, h, if_true, if_false]

theorem Exec.tagWait_held {any : Bool} (hres : i.w.resumed = false)
    (h : ¬ s.x.tagsMet i.w.team (s.x.readW2 i.u w.s1.toNat) (!any) = true) :
    s.x.tagWait w any = Claim.held s.x i (.tags (s.x.readW2 i.u w.s1.toNat) (!any)) := by
  rw [Exec.tagWait, Exec.uniformHold_eq hu]
  simp only [hdet, hres, Bool.or_false, h]
  rfl

end

theorem findIdx_eq_find?_range (p : Nat → Bool) (j n : Nat) :
    findIdx p ((List.range n).map (j + ·)) j = ((List.range n).map (j + ·)).find? p := by
  induction n generalizing j with
  | zero => rfl
  | succ n ih =>
    have hrest : ((List.range n).map Nat.succ).map (j + ·) = (List.range n).map (j + 1 + ·) := by
      rw [List.map_map]
      exact List.map_congr_left fun k _ => by simp only [Function.comp]; omega
    rw [List.range_succ_eq_map, List.map_cons, hrest, findIdx, List.find?_cons, ih (j + 1), Nat.add_zero]
    cases p j <;> rfl

theorem findIdx_range (p : Nat → Bool) (n : Nat) : findIdx p (List.range n) 0 = (List.range n).find? p := by
  simpa using findIdx_eq_find?_range p 0 n

/-- The first tag of TAGFFR: the lowest selected done tag, or 64 (R102). -/
theorem Exec.tagffr_eq {s : State} {i : Iss} {w : OwnI} {f : Nat} {m : Team} (hu : Claim.Uniform s i w.h f)
    (hdet : s.x.determ i.w = false) (hm : s.x.teamOf i.w = some m) : exec (.tagffr w) s = .next { s with
      x := (s.x.writeW i.u w.d.toNat (BitVec.ofNat 32 (((List.range 64).find? fun k =>
        decide (k < s.x.tagCount m) && bitOf (s.x.readW2 i.u w.s1.toNat) k && bitOf m.tdone k).getD 64))).advance i 8 } := by
  have hexec : exec (.tagffr w) s = execTagffr w s := rfl
  have hbits (k : Nat) : bitOf (Nat.land m.tdone (s.x.readW2 i.u w.s1.toNat % 2 ^ s.x.tagCount m)) k =
      (decide (k < s.x.tagCount m) && bitOf (s.x.readW2 i.u w.s1.toNat) k && bitOf m.tdone k) := by
    rw [bitOf_land, bitOf_mod_two_pow, Bool.and_comm]
  rw [hexec]
  simp only [execTagffr, State.onX, Exec.uniform_eq hu, Exec.seenTags, hdet, hm, Option.elim_some, Bool.false_eq_true,
    if_false, findIdx_range, hbits]

/-! ### Clearing tags -/

/-- A wave of team t no longer observes the tags of a mask. -/
def Wave.unsee (t mask : Nat) (v : Wave) : Wave :=
  if v.team = t then { v with obsTags := Nat.xor v.obsTags (Nat.land v.obsTags mask) } else v

theorem Wave.fib_unsee (t mask : Nat) (v : Wave) (f : Nat) : (v.unsee t mask).fib f = v.fib f := by
  unfold Wave.unsee; split <;> rfl
theorem Wave.reg_unsee (t mask : Nat) (v : Wave) (a k : Nat) : (v.unsee t mask).reg a k = v.reg a k := by
  unfold Wave.unsee; split <;> rfl

theorem Exec.wave?_tagDown (x : Exec) (t mask u : Nat) :
    (x.tagDown t mask).wave? u = (x.wave? u).map (Wave.unsee t mask) :=
  SMap.find?_map (Wave.unsee t mask) x.waves u

theorem Exec.fib_tagDown (x : Exec) (t mask u f : Nat) : (x.tagDown t mask).fib u f = x.fib u f := by
  rw [Exec.fib, Exec.wave?_tagDown, Exec.fib]
  cases x.wave? u with
  | none => rfl
  | some v => exact v.fib_unsee t mask f

theorem Exec.slotReg_tagDown (x : Exec) (t mask u a k : Nat) : (x.tagDown t mask).slotReg u a k = x.slotReg u a k := by
  rw [Exec.slotReg, Exec.wave?_tagDown, Exec.slotReg]
  cases x.wave? u with
  | none => rfl
  | some v => exact v.reg_unsee t mask a k

theorem Exec.find?_teams_tagDown (x : Exec) (t mask : Nat) : (x.tagDown t mask).teams.find? t =
    (x.teams.find? t).map fun m => { m with tdone := Nat.xor m.tdone (Nat.land m.tdone mask) } := by
  have h : (x.tagDown t mask).teams =
      SMap.modify x.teams t fun m => { m with tdone := Nat.xor m.tdone (Nat.land m.tdone mask) } := rfl
  rw [h, SMap.find?_modify, if_pos rfl]

/-- The done bits after a mask of them is cleared. -/
theorem bitOf_cleared (d mask k : Nat) : bitOf (Nat.xor d (Nat.land d mask)) k = (bitOf d k && !bitOf mask k) := by
  rw [bitOf_xor, bitOf_land]
  cases bitOf d k <;> cases bitOf mask k <;> rfl

end Sys2Proof.Machine

namespace Sys2Proof.Proofs

open Sys2Proof.Machine Sys2Proof.Claim

/-- Tag waits are met or hold their wave, TAGFFR finds the lowest, and TAGCLR clears what it selects (R102, R284). -/
theorem tags : Tags := by
  intro s i w f m hu hdet hm n mask all any
  have hgrp := Iss.grp_nodup hu.run
  have hall : s.x.tagsMet i.w.team mask true = true ↔ all := Exec.tagsMet_all hm mask
  have hany : s.x.tagsMet i.w.team mask false = true ↔ any := Exec.tagsMet_any hm mask
  have hwall {y : Exec} (h : s.x.tagWait w false = y) : exec (.tagwall w) s = .next { s with x := y } := by rw [← h]; rfl
  have hwany {y : Exec} (h : s.x.tagWait w true = y) : exec (.tagwany w) s = .next { s with x := y } := by rw [← h]; rfl
  refine ⟨fun h => ?_, fun h => ?_, fun h hres => ?_, fun h hres => ?_, ?_, ?_⟩
  · exact ⟨_, hwall (Exec.tagWait_met hu hdet (h.symm.imp_right hall.2)), rfl, rfl, s.x.past_advance 8 hgrp⟩
  · exact ⟨_, hwany (Exec.tagWait_met hu hdet (h.symm.imp_right hany.2)), rfl, rfl, s.x.past_advance 8 hgrp⟩
  · exact ⟨_, hwall (Exec.tagWait_held hu hdet hres fun e => h (hall.1 e)), rfl, rfl⟩
  · exact ⟨_, hwany (Exec.tagWait_held hu hdet hres fun e => h (hany.1 e)), rfl, rfl⟩
  · exact ⟨_, Exec.tagffr_eq hu hdet hm, rfl, rfl, Exec.past_advance _ 8 hgrp⟩
  · have hexec : exec (.tagclr w) s = execTagclr w s := rfl
    rw [execTagclr, State.onX, Exec.uniform_eq hu, hm, Option.elim_some] at hexec
    refine ⟨_, hexec, rfl, rfl, fun u a k => ?_, Exec.fib_advance_group 8 hu.run (s.x.fib_tagDown _ _), fun k => ?_⟩
    · exact (Exec.slotReg_advance ..).trans (s.x.slotReg_tagDown ..)
    · rw [Exec.advance_teams, Exec.find?_teams_tagDown, show s.x.teams.find? i.w.team = some m from hm, Option.map_some,
        Option.map_some, bitOf_cleared, bitOf_mod_two_pow]
      rfl

end Sys2Proof.Proofs
end

section
/-! PROOFS. Copies whose elements are granted: their elements, their line operations, and the tag that counts them
(05 R94 to R99, 14 R283). -/

namespace Sys2Proof.Machine

/-! ### Forming an element (R94, R283) -/

/-- What a copy forms of a fibre whose sides are granted; `n` is the nominal place of the counted side (R105). -/
def grantedForm (src dst : Nat → Nat) (n : Nat → Nat) (z f : Nat) : CpForm :=
  { slot := f, elem := some ⟨src f, dst f, false, f⟩, secs := secsOf (n f) z, mine := secsOf (n f) z }

/-- The elements of a copy whose sides are granted (R94). -/
def grantedElems (src dst : Nat → Nat) (l : List Nat) : List CpElem := l.map fun f => ⟨src f, dst f, false, f⟩

theorem filterMap_elem_grantedForm (src dst n : Nat → Nat) (z : Nat) (l : List Nat) :
    (l.map (grantedForm src dst n z)).filterMap CpForm.elem = grantedElems src dst l :=
  filterMap_map_some (F := CpForm.elem) (h := grantedForm src dst n z) (g := fun f => ⟨src f, dst f, false, f⟩) (fun _ => rfl) l

theorem dedup_map {α β : Type} [DecidableEq α] [DecidableEq β] {g : α → β} (hg : Function.Injective g) (l : List α) :
    dedup (l.map g) = (dedup l).map g := by
  induction l with
  | nil => rfl
  | cons a l ih =>
    rw [List.map_cons, dedup, dedup, ih, List.map_cons, List.filter_map]
    refine congrArg (g a :: ·) (congrArg (List.map g) (List.filter_congr fun b _ => ?_))
    simp [hg.eq_iff]

/-- The pairs of lines of a copy's elements, one line operation each (R95). -/
theorem length_keys_grantedElems (src dst : Nat → Nat) (l : List Nat) :
    (dedup ((grantedElems src dst l).map CpElem.key)).length = (dedup (l.map fun f => (src f / 128, dst f / 128))).length := by
  have h : (grantedElems src dst l).map CpElem.key = (l.map fun f => (src f / 128, dst f / 128)).map (Prod.mk false) := by
    rw [grantedElems, List.map_map, List.map_map]
    rfl
  rw [h, dedup_map fun p q e => congrArg Prod.snd e, List.length_map]

/-- The nominal place of the counted side of a fibre's element (R105). -/
def Exec.copyNominal (x : Exec) (i : Iss) (w : OwnI) (kind : Nat) (d : Word) : Nat :=
  if kind = 2 then (x.bufRec i.w (w.m.toNat / 16 % 16)).nominal d.toNat (cpSize w.m.toNat) else d.toNat

/-- A global side that its record grants and holds (R19). -/
theorem BufRec.form_granted {r : BufRec} {right : Right} {idx z : Nat} (htype : r.type ≠ 0) (hright : r.has right = true)
    (hext : idx * (if r.stride = 0 then z else r.stride) + z ≤ r.extent)
    (hdvd : z ∣ idx * (if r.stride = 0 then z else r.stride)) :
    r.form false right idx 0 z =
      .ok (r.base + swizzle (idx * (if r.stride = 0 then z else r.stride)) r.swz r.swzP) := by
  have href : r.refusal false false right = none := by simp [BufRec.refusal, htype, hright]
  have hoff : ((idx : Int) * (if r.stride = 0 then z else r.stride : Nat) + 0 * z) =
      ((idx * (if r.stride = 0 then z else r.stride) : Nat) : Int) := by push_cast; ring
  have h := BufRec.form_ok (imm := 0) href (by rw [hoff]; exact Int.natCast_nonneg _) (by rw [hoff]; exact_mod_cast hext)
    (by rw [hoff]; exact_mod_cast hdvd)
  rw [h, hoff, Int.toNat_natCast]

theorem localOffset_granted {size o z : Nat} (h : o + z ≤ size) (hd : z ∣ o) : localOffset size o z = .ok o := by
  have h' := localOffset_ok (size := size) (s := z) (o := o) (Int.natCast_nonneg o) (by exact_mod_cast h) (by exact_mod_cast hd)
  rwa [Int.toNat_natCast] at h'

section
variable {x : Exec} {i : Iss} {w : OwnI} {kind f : Nat} {vd vi : Word} {src dst : Nat → Nat}

/-- A fibre whose registers can be read and whose two sides are granted gives its element (R94). -/
theorem Exec.cpFormed_granted {n : Nat → Nat} (hb : x.pastBudget i f [w.d.toNat, w.s1.toNat] = false)
    (hd : x.ownRead i f w.d.toNat = some vd) (hi : x.ownRead i f w.s1.toNat = some vi)
    (hsrc : (if kind = 1 then localOffset (x.localSize i.w.team) vd.toNat (cpSize w.m.toNat)
      else (x.bufRec i.w (w.s2.toNat % 16)).form false .read vi.toNat 0 (cpSize w.m.toNat)) = .ok (src f))
    (hdst : (if kind = 0 then localOffset (x.localSize i.w.team) vd.toNat (cpSize w.m.toNat)
      else if kind = 1 then (x.bufRec i.w (w.s2.toNat % 16)).form false .write vi.toNat 0 (cpSize w.m.toNat)
      else (x.bufRec i.w (w.m.toNat / 16 % 16)).form false .write vd.toNat 0 (cpSize w.m.toNat)) = .ok (dst f))
    (hn : n f = x.copyNominal i w kind vd) :
    x.cpFormed i w kind f = grantedForm src dst n (cpSize w.m.toNat) f := by
  have hform : x.cpForm i w kind f = grantedForm src dst n (cpSize w.m.toNat) f := by
    simp only [Exec.cpForm, hb, hd, hi, Bool.false_eq_true, if_false, grantedForm, hn, Exec.copyNominal]
    by_cases h1 : kind = 1
    · subst h1
      simp only [if_true, one_ne_zero, if_false] at hsrc hdst ⊢
      rw [hsrc, hdst]
    · simp only [h1, if_false] at hsrc hdst ⊢
      rw [hsrc, hdst]
  have hsecs : (grantedForm src dst n (cpSize w.m.toNat) f).secs.isEmpty = false := rfl
  rw [Exec.cpFormed, hform, hsecs]
  rfl

end

/-! ### Accepting a copy (R95, R96) -/

theorem foldl_collect {σ α β : Type} {F : (σ × List α) × β → α → (σ × List α) × β} {s : σ} {b : β} (l : List α)
    (hF : ∀ a ∈ l, ∀ done, F ((s, done), b) a = ((s, done ++ [a]), b)) (done : List α) :
    l.foldl F ((s, done), b) = ((s, done ++ l), b) := by
  induction l generalizing done with
  | nil => rw [List.foldl_nil, List.append_nil]
  | cons a l ih =>
    rw [List.foldl_cons, hF a (List.mem_cons_self ..), ih fun c hc => hF c (List.mem_cons_of_mem _ hc), List.append_assoc]
    rfl

/-- The page of a side of an element that is granted (R35). -/
theorem State.pageRefuse_reaches {s : State} {o : Who} {va : Nat} {l : Loc} {write : Bool}
    (h : Claim.Reaches s o { write := write, host := false, wait := false } va l) : s.pageRefuse [] o va write = (s, none, []) := by
  rw [State.pageRefuse, reaches_translateIn h rfl]

theorem Exec.cpctl_tag {x : Exec} {i : Iss} {m : Team} {ctl : Nat} (hm : x.teamOf i.w = some m) (h8 : ctl % 256 = 0)
    (h14 : bitOf ctl 14 = true) (h15 : bitOf ctl 15 = false) (htag : bitsOf ctl 8 6 < x.tagCount m) : x.cpctl i ctl = none := by
  simp [Exec.cpctl, h8, h14, h15, hm, htag]

/-- A copy whose elements are granted, with a tag and no object, is accepted where its core's engine has room (R95, R96). -/
theorem State.copy_granted {s : State} {i : Iss} {w : OwnI} {kind ctl : Nat} {src dst n : Nat → Nat} {ls ld : Nat → Loc}
    (hi : s.x.issue? = some i) (hserved : i.served w.h ≠ []) (hctl : (s.x.readW i.u w.s3.toNat).toNat = ctl)
    (hok : s.x.cpctl i ctl = none)
    (hform : ∀ f ∈ i.served w.h, s.x.cpFormed i w kind f = grantedForm src dst n (cpSize w.m.toNat) f)
    (hsrc : kind ≠ 1 → ∀ f ∈ i.served w.h, Claim.Reaches s (s.x.who i.w) { host := false, wait := false } (src f) (ls f))
    (hdst : kind ≠ 0 → ∀ f ∈ i.served w.h, Claim.Reaches s (s.x.who i.w) { write := true, host := false, wait := false } (dst f) (ld f))
    (hroom : s.x.inFlight (s.x.coreOf i.w) + (dedup ((grantedElems src dst (i.served w.h)).map CpElem.key)).length ≤ 1024)
    (hqueue : s.x.copyQueue (s.x.coreOf i.w) = []) :
    s.copy w kind = s.modX fun x => ((x.cpAccept i kind (cpSize w.m.toNat) ctl
      ((i.served w.h).map (grantedForm src dst n (cpSize w.m.toNat)))).advance i 8).wakeCopy (s.x.coreOf i.w) := by
  obtain ⟨low, rest, hl⟩ := List.exists_cons_of_ne_nil hserved
  have hforms : (i.served w.h).map (fun f => s.x.cpFormed i w kind f) =
      (i.served w.h).map (grantedForm src dst n (cpSize w.m.toNat)) := List.map_congr_left hform
  have hfull : ¬ (decide (1024 < s.x.inFlight (s.x.coreOf i.w) +
      (dedup ((grantedElems src dst (i.served w.h)).map CpElem.key)).length) ||
      !([] : List Nat).isEmpty && !decide (([] : List Nat).head? = some i.u)) = true := by simpa using hroom
  unfold State.copy
  rw [hl] at hforms hfull
  simp only [hi, hl, hctl, hok, hforms]
  rw [foldl_collect]
  · simp only [List.nil_append, filterMap_elem_grantedForm, hqueue]
    rw [if_neg hfull]
    refine congrArg s.modX (funext fun x => ?_)
    rw [foldl_map_self (fun _ _ => rfl), foldl_map_self (fun _ _ => rfl)]
    rfl
  · intro a ha done
    obtain ⟨f, hf, rfl⟩ := List.mem_map.1 ha
    rw [← hl] at hf
    have hread (h : kind ≠ 1) := State.pageRefuse_reaches (hsrc h f hf)
    have hwrite (h : kind ≠ 0) := State.pageRefuse_reaches (hdst h f hf)
    by_cases h0 : kind = 0
    · subst h0
      simp [grantedForm, hread Nat.zero_ne_one]
    · by_cases h1 : kind = 1
      · subst h1
        simp [grantedForm, hwrite h0]
      · simp [grantedForm, h0, h1, hread h1, hwrite h0]

end Sys2Proof.Machine
end

section
/-! PROOFS. Asynchronous copies: a granted copy starts its line operations (R94, R95, R99). -/

namespace Sys2Proof.Machine

/-- The line operations of some elements: one for each pair of lines, numbered from the state's next number but one (R95). -/
def Exec.copyOps (x : Exec) (i : Iss) (kind size : Nat) (elems : List CpElem) : List (Nat × LineOp) :=
  (dedup (elems.map CpElem.key)).zipIdx.map fun p => (x.fresh + 1 + p.2,
    { inst := x.fresh, core := x.coreOf i.w, team := i.w.team, wave := i.u, kind := kind, size := size,
      elems := elems.filter (fun e => decide (e.key = p.1)), pc := i.pc, held := none, performed := false })

/-- A tag counts the line operations of a copy, and is not done (R99, R102). -/
def Exec.tagged (x : Exec) (t tag n : Nat) : Exec :=
  (x.modTeam t fun m => { m with tpend := m.tpend.put 0 tag (m.tpend.get 0 tag + n) }).tagDown t (2 ^ tag)

theorem Exec.find?_teams_tagged (x : Exec) (t tag n : Nat) : (x.tagged t tag n).teams.find? t =
    (x.teams.find? t).map fun m => { m with
      tpend := m.tpend.put 0 tag (m.tpend.get 0 tag + n), tdone := Nat.xor m.tdone (Nat.land m.tdone (2 ^ tag)) } := by
  rw [Exec.tagged, Exec.find?_teams_tagDown, Exec.modTeam_teams, SMap.find?_modify, if_pos rfl, Option.map_map]
  rfl

theorem Exec.determ_tagged (x : Exec) (w : Wave) (tag n : Nat) : (x.tagged w.team tag n).determ w = x.determ w := by
  rw [Exec.determ, Exec.determ, Exec.teamOf, Exec.find?_teams_tagged, Exec.teamOf]
  cases x.teams.find? w.team <;> rfl

theorem Exec.length_copyOps (x : Exec) (i : Iss) (kind size : Nat) (elems : List CpElem) :
    (x.copyOps i kind size elems).length = (dedup (elems.map CpElem.key)).length := by
  rw [Exec.copyOps, List.length_map, List.length_zipIdx]

/-- A copy with a tag and without an object, outside deterministic mode: its line operations start, and its tag counts them
(R95, R99). -/
theorem Exec.cpAccept_eq {x : Exec} {i : Iss} {kind size ctl : Nat} {fs : List CpForm} (h14 : bitOf ctl 14 = true)
    (h15 : bitOf ctl 15 = false) (hne : fs.filterMap CpForm.elem ≠ []) (hdet : x.determ i.w = false) :
    ∃ fresh insts, x.cpAccept i kind size ctl fs =
      (x.copyOps i kind size (fs.filterMap CpForm.elem)).foldl (fun x p => x.post 1 (.lineOperationPerform p.1))
      { x.tagged i.w.team (bitsOf ctl 8 6) (x.copyOps i kind size (fs.filterMap CpForm.elem)).length with
        fresh := fresh, insts := insts
        copies := (x.copyOps i kind size (fs.filterMap CpForm.elem)).foldl (fun m p => SMap.insert m p.1 p.2) x.copies } := by
  have hkeys : (dedup ((fs.filterMap CpForm.elem).map CpElem.key)).isEmpty = false := by
    obtain ⟨e, l, he⟩ := List.exists_cons_of_ne_nil hne
    rw [he]
    rfl
  have hdet' := (x.determ_tagged i.w (bitsOf ctl 8 6)
    (dedup ((fs.filterMap CpForm.elem).map CpElem.key)).length).trans hdet
  rw [Exec.length_copyOps]
  unfold Exec.cpAccept
  simp only [Exec.take, h14, h15, hkeys, if_true, Bool.false_eq_true, if_false, Option.isSome_none]
  rw [if_neg (by exact Bool.eq_false_iff.1 hdet')]
  exact ⟨_, _, rfl⟩

/-! ### The line operations of a copy -/

theorem SMap.find?_foldl_insert_of_not_mem {α : Type} {l : List (Nat × α)} {k : Nat} (h : k ∉ l.map Prod.fst) (m : SMap α) :
    (l.foldl (fun m p => SMap.insert m p.1 p.2) m).find? k = m.find? k := by
  induction l generalizing m with
  | nil => rfl
  | cons p l ih =>
    rw [List.map_cons, List.mem_cons, not_or] at h
    rw [List.foldl_cons, ih h.2, SMap.find?_insert, if_neg h.1]

theorem SMap.find?_foldl_insert_of_mem {α : Type} {l : List (Nat × α)} {k : Nat} {v : α} (hn : (l.map Prod.fst).Nodup)
    (h : (k, v) ∈ l) (m : SMap α) : (l.foldl (fun m p => SMap.insert m p.1 p.2) m).find? k = some v := by
  induction l generalizing m with
  | nil => exact absurd h List.not_mem_nil
  | cons p l ih =>
    rw [List.map_cons, List.nodup_cons] at hn
    rcases List.mem_cons.1 h with rfl | h
    · rw [List.foldl_cons, SMap.find?_foldl_insert_of_not_mem hn.1, SMap.find?_insert, if_pos rfl]
    · exact ih hn.2 h _

theorem Exec.copyOps_nodup (x : Exec) (i : Iss) (kind size : Nat) (elems : List CpElem) :
    ((x.copyOps i kind size elems).map Prod.fst).Nodup := by
  have h : (x.copyOps i kind size elems).map Prod.fst =
      ((dedup (elems.map CpElem.key)).zipIdx.map Prod.snd).map (x.fresh + 1 + ·) := by
    rw [Exec.copyOps, List.map_map, List.map_map]
    rfl
  rw [h, List.zipIdx_map_snd]
  exact (List.nodup_range' (step := 1)).map fun a b e => Nat.add_left_cancel e

/-- Every element of a copy is held by one of its line operations (R95). -/
theorem Exec.exists_copyOp {x : Exec} {i : Iss} {kind size : Nat} {elems : List CpElem} {e : CpElem} (he : e ∈ elems) :
    ∃ id op, (id, op) ∈ x.copyOps i kind size elems ∧ op.inst = x.fresh ∧ op.kind = kind ∧ op.size = size ∧
      op.performed = false ∧ e ∈ op.elems := by
  have hkey : e.key ∈ dedup (elems.map CpElem.key) := mem_dedup.2 (List.mem_map_of_mem he)
  obtain ⟨n, hn⟩ := List.mem_iff_getElem?.1 hkey
  exact ⟨_, _, List.mem_map.2 ⟨(e.key, n), List.mem_zipIdx_iff_getElem?.2 hn, rfl⟩, rfl, rfl, rfl, rfl,
    List.mem_filter.2 ⟨he, decide_eq_true rfl⟩⟩

/-! ### The copy queue after a copy (R96) -/

/-- What the copy queue reads of a wave. -/
def Wave.queueing (w : Wave) : Nat × Option Hold × Bool := (w.team, w.hold, w.resumed)

theorem Exec.copyQueue_congr {x y : Exec} (hc : y.cores = x.cores) (hg : y.grids = x.grids)
    (hw : ∀ u, (y.wave? u).map Wave.queueing = (x.wave? u).map Wave.queueing)
    (ht : ∀ t, (y.teams.find? t).map (fun m => (m.st, m.grid)) = (x.teams.find? t).map fun m => (m.st, m.grid)) (core : Nat) :
    y.copyQueue core = x.copyQueue core := by
  rw [Exec.copyQueue, Exec.copyQueue, hc]
  refine List.filter_congr fun u _ => ?_
  have hwave := hw u
  cases hy : y.wave? u with
  | none =>
    rw [hy, Option.map_none, eq_comm, Option.map_eq_none_iff] at hwave
    rw [hwave]
  | some v =>
    rw [hy, Option.map_some, eq_comm, Option.map_eq_some_iff] at hwave
    obtain ⟨v', hx, hv⟩ := hwave
    simp only [Wave.queueing, Prod.mk.injEq] at hv
    obtain ⟨hteam, hhold, hres⟩ := hv
    have hteams := ht v.team
    rw [hx]
    simp only [Exec.teamOf, hteam, hhold, hres]
    cases hm : y.teams.find? v.team with
    | none =>
      rw [hm, Option.map_none, eq_comm, Option.map_eq_none_iff] at hteams
      rw [hteams]
      rfl
    | some m =>
      rw [hm, Option.map_some, eq_comm, Option.map_eq_some_iff] at hteams
      obtain ⟨m', hx', hm'⟩ := hteams
      simp only [Prod.mk.injEq] at hm'
      obtain ⟨hst, hgrid⟩ := hm'
      rw [hx']
      simp only [Option.elim_some, Exec.gridOf, hst, hgrid, hg]

theorem Exec.wakeCopy_of_empty {x : Exec} {core : Nat} (h : x.copyQueue core = []) : x.wakeCopy core = x := by
  rw [Exec.wakeCopy, h]

/-- What the start of a copy leaves of what executes: its cores and grids, its waves but for the tags they observe, and its teams
but for the tag. -/
structure CopyBegun (x y : Exec) (t tag n : Nat) : Prop where
  waves : y.waves = (x.tagged t tag n).waves
  teams : y.teams = (x.tagged t tag n).teams
  cores : y.cores = x.cores
  grids : y.grids = x.grids

theorem CopyBegun.wave? {x y : Exec} {t tag n : Nat} (h : CopyBegun x y t tag n) (u : Nat) :
    y.wave? u = (x.wave? u).map (Wave.unsee t (2 ^ tag)) :=
  (Exec.wave?_congr h.waves u).trans (Exec.wave?_tagDown ..)

theorem CopyBegun.fib {x y : Exec} {t tag n : Nat} (h : CopyBegun x y t tag n) (u f : Nat) : y.fib u f = x.fib u f :=
  (Exec.fib_congr h.waves u f).trans (Exec.fib_tagDown ..)

theorem CopyBegun.slotReg {x y : Exec} {t tag n : Nat} (h : CopyBegun x y t tag n) (u a k : Nat) :
    y.slotReg u a k = x.slotReg u a k := (Exec.slotReg_congr h.waves u a k).trans (Exec.slotReg_tagDown ..)

theorem Exec.stGrid_tagged (x : Exec) (t tag n k : Nat) : ((x.tagged t tag n).teams.find? k).map (fun m => (m.st, m.grid)) =
    (x.teams.find? k).map fun m => (m.st, m.grid) := by
  have h : (x.tagged t tag n).teams = SMap.modify (SMap.modify x.teams t fun m =>
      { m with tpend := m.tpend.put 0 tag (m.tpend.get 0 tag + n) }) t fun m =>
      { m with tdone := Nat.xor m.tdone (Nat.land m.tdone (2 ^ tag)) } := rfl
  rw [h, SMap.find?_modify, SMap.find?_modify]
  split <;> cases x.teams.find? k <;> rfl

/-- An accepted copy has begun, and each of its line operations is in flight (R95). -/
theorem Exec.cpAccept_begun {x : Exec} {i : Iss} {kind size ctl : Nat} {fs : List CpForm} (h14 : bitOf ctl 14 = true)
    (h15 : bitOf ctl 15 = false) (hne : fs.filterMap CpForm.elem ≠ []) (hdet : x.determ i.w = false) :
    CopyBegun x (x.cpAccept i kind size ctl fs) i.w.team (bitsOf ctl 8 6)
      (x.copyOps i kind size (fs.filterMap CpForm.elem)).length ∧
    ∀ id op, (id, op) ∈ x.copyOps i kind size (fs.filterMap CpForm.elem) →
      (x.cpAccept i kind size ctl fs).copies.find? id = some op := by
  obtain ⟨fresh, insts, haccept⟩ := Exec.cpAccept_eq (kind := kind) (size := size) h14 h15 hne hdet
  have hposts {γ : Type} (g : Exec → γ) (hg : ∀ x d e, g (Exec.post x d e) = g x) (y : Exec) (l : List (Nat × LineOp)) :
      g (l.foldl (fun x p => x.post 1 (.lineOperationPerform p.1)) y) = g y := foldl_keeps g (fun b _ => hg b _ _) l y
  have hpost (x : Exec) (d : Nat) (e : Ev) : (x.post d e).cores = x.cores ∧ (x.post d e).grids = x.grids ∧
      (x.post d e).copies = x.copies := by
    unfold Exec.post
    split <;> exact ⟨rfl, rfl, rfl⟩
  rw [haccept]
  refine ⟨⟨?_, ?_, ?_, ?_⟩, fun id op hop => ?_⟩
  · exact hposts Exec.waves Exec.waves_post ..
  · exact hposts Exec.teams Exec.teams_post ..
  · exact hposts Exec.cores (fun x d e => (hpost x d e).1) ..
  · exact hposts Exec.grids (fun x d e => (hpost x d e).2.1) ..
  · rw [hposts Exec.copies (fun x d e => (hpost x d e).2.2)]
    exact SMap.find?_foldl_insert_of_mem (Exec.copyOps_nodup ..) hop x.copies

/-- The group of a copy moves on, and the copy queue is as it was. -/
theorem CopyBegun.copyQueue_advance {x y : Exec} {t tag n : Nat} (h : CopyBegun x y t tag n) (i : Iss) (len core : Nat) :
    (y.advance i len).copyQueue core = x.copyQueue core := by
  refine Exec.copyQueue_congr (y := y.advance i len) h.cores h.grids (fun u => ?_) (fun k => ?_) core
  · have hbare := congrArg (Option.map Wave.queueing) (Exec.bare_advance y i len u)
    rw [Option.map_map, Option.map_map] at hbare
    refine hbare.trans ?_
    rw [h.wave?, Option.map_map]
    refine Option.map_congr fun v _ => ?_
    simp only [Function.comp, Wave.unsee]
    split <;> rfl
  · rw [Exec.advance_teams, h.teams]
    exact x.stGrid_tagged t tag n k

/-- A granted copy with a tag and without an object begins, and its line operations hold its elements (R94, R95). -/
theorem State.copy_begins {s : State} {i : Iss} {w : OwnI} {m : Team} {kind ctl : Nat} {src dst n : Nat → Nat} {ls ld : Nat → Loc}
    (hi : s.x.issue? = some i) (hserved : i.served w.h ≠ []) (hdet : s.x.determ i.w = false) (hm : s.x.teamOf i.w = some m)
    (hctl : (s.x.readW i.u w.s3.toNat).toNat = ctl) (h8 : ctl % 256 = 0) (h14 : bitOf ctl 14 = true) (h15 : bitOf ctl 15 = false)
    (htag : bitsOf ctl 8 6 < s.x.tagCount m)
    (hform : ∀ f ∈ i.served w.h, s.x.cpFormed i w kind f = grantedForm src dst n (cpSize w.m.toNat) f)
    (hsrc : kind ≠ 1 → ∀ f ∈ i.served w.h, Claim.Reaches s (s.x.who i.w) { host := false, wait := false } (src f) (ls f))
    (hdst : kind ≠ 0 → ∀ f ∈ i.served w.h, Claim.Reaches s (s.x.who i.w) { write := true, host := false, wait := false } (dst f) (ld f))
    (hroom : s.x.inFlight (s.x.coreOf i.w) + (dedup ((i.served w.h).map fun f => (src f / 128, dst f / 128))).length ≤ 1024)
    (hqueue : s.x.copyQueue (s.x.coreOf i.w) = []) :
    ∃ y, s.copy w kind = { s with x := y.advance i 8 } ∧
      CopyBegun s.x y i.w.team (bitsOf ctl 8 6) (dedup ((i.served w.h).map fun f => (src f / 128, dst f / 128))).length ∧
      ∀ f ∈ i.served w.h, ∃ id op, y.copies.find? id = some op ∧ op.inst = s.x.fresh ∧ op.kind = kind ∧
        op.size = cpSize w.m.toNat ∧ op.performed = false ∧ (⟨src f, dst f, false, f⟩ : CpElem) ∈ op.elems := by
  have hcopy := State.copy_granted hi hserved hctl (Exec.cpctl_tag hm h8 h14 h15 htag) hform hsrc hdst
    (by rw [length_keys_grantedElems]; exact hroom) hqueue
  have helems := filterMap_elem_grantedForm src dst n (cpSize w.m.toNat) (i.served w.h)
  obtain ⟨hbegun, hops⟩ := Exec.cpAccept_begun (kind := kind) (size := cpSize w.m.toNat) h14 h15
    (fs := (i.served w.h).map (grantedForm src dst n (cpSize w.m.toNat)))
    (by rw [helems]; exact fun e => hserved (List.map_eq_nil_iff.1 e)) hdet
  rw [helems] at hops hbegun
  rw [Exec.length_copyOps, length_keys_grantedElems] at hbegun
  refine ⟨_, ?_, hbegun, fun f hf => ?_⟩
  · rw [hcopy]
    simp only [State.modX, Exec.wakeCopy_of_empty ((hbegun.copyQueue_advance ..).trans hqueue)]
  · obtain ⟨id, op, hop, hrest⟩ := Exec.exists_copyOp (x := s.x) (i := i) (kind := kind) (size := cpSize w.m.toNat)
      (List.mem_map_of_mem (f := fun f => (⟨src f, dst f, false, f⟩ : CpElem)) hf)
    exact ⟨id, op, hops id op hop, hrest⟩

end Sys2Proof.Machine

namespace Sys2Proof.Proofs

open Sys2Proof.Machine Sys2Proof.Claim

/-- A granted copy is accepted, and its line operations hold the elements of all its fibres (R94, R95, R99). -/
theorem copyStarts : CopyStarts := by
  intro s i w m kind a b src dst ls ld hi hserved hdet hm o z ctl tag rec_ glob loc hkind h8 h14 h15 htag hb ha hbreg hsides keys hroom
    hqueue
  have hissue := hi.run
  let n (f : Nat) : Nat := s.x.copyNominal i w kind (a f)
  have hform : ∀ f ∈ i.served w.h, s.x.cpFormed i w kind f = grantedForm src dst n z f := by
    intro f hf
    obtain ⟨hsrc, hdst⟩ := hsides f hf
    have hlocal {off : Word} {at_ : Nat} (h : loc off at_) : localOffset (s.x.localSize i.w.team) off.toNat z = .ok at_ := by
      obtain ⟨hsize, hdvd, rfl⟩ := h
      exact localOffset_granted hsize hdvd
    have hglobal {r : BufRec} {right : Right} {idx : Word} {va : Nat} (h : glob r right idx va) :
        r.form false right idx.toNat 0 z = .ok va := by
      obtain ⟨htype, hright, hext, hdvd, rfl⟩ := h
      exact BufRec.form_granted htype hright hext hdvd
    refine Exec.cpFormed_granted (hb f hf) (ha f hf) (hbreg f hf) ?_ ?_ rfl
    · split_ifs at hsrc ⊢ with h1
      · exact hlocal hsrc
      · exact hglobal hsrc.1
    · split_ifs at hdst ⊢ with h0 h1
      · exact hlocal hdst
      · exact hglobal hdst.1
      · exact hglobal hdst.1
  obtain ⟨y, hcopy, hbegun, hops⟩ := State.copy_begins hissue hserved hdet hm rfl h8 h14 h15 htag hform
    (fun h1 f hf => (if_neg h1 ▸ (hsides f hf).1).2) (fun h0 f hf => (if_neg h0 ▸ (hsides f hf).2).2) hroom hqueue
  have hexec : exec (if kind = 0 then .cpa w else if kind = 1 then .cps w else .cpl w) s =
      .next { s.copy w kind with trust := s.trust } := by
    interval_cases kind <;> rfl
  rw [hcopy] at hexec
  refine ⟨_, hexec, rfl, rfl, fun u a k => (Exec.slotReg_advance ..).trans (hbegun.slotReg u a k),
    Exec.fib_advance_group 8 hissue hbegun.fib, hops, ?_⟩
  have hteam := congrArg (SMap.find? · i.w.team) hbegun.teams
  rw [Exec.find?_teams_tagged, show s.x.teams.find? i.w.team = some m from hm, Option.map_some] at hteam
  rw [Exec.advance_teams, hteam]
  simp only [Option.map_some]
  rw [bitOf_cleared, bitOf_eq_testBit (2 ^ _), Nat.testBit_two_pow_self,
    Bool.not_true, Bool.and_false, SMap.get_put, if_pos rfl]

end Sys2Proof.Proofs
end

section
/-! PROOFS. What the path of a sector leaves of the execution state: all but the counters of the contexts, the agenda, the error
queue and the numbering (03 R57 to R74, 04 R77 to R87, 02 R28 to R44). -/

namespace Sys2Proof.Machine

/-- The execution state without what a step of the memory system changes in it: counters, agenda, errors and numbers. -/
def Exec.besideMem (x : Exec) : Exec := { x with ctxs := [], agenda := [], errq := [], fresh := 0 }

section
variable {x y : Exec} (h : y.besideMem = x.besideMem)
include h

theorem Exec.teams_of_besideMem : y.teams = x.teams := show y.besideMem.teams = x.besideMem.teams by rw [h]
theorem Exec.grids_of_besideMem : y.grids = x.grids := show y.besideMem.grids = x.besideMem.grids by rw [h]
theorem Exec.waves_of_besideMem : y.waves = x.waves := show y.besideMem.waves = x.besideMem.waves by rw [h]
theorem Exec.copies_of_besideMem : y.copies = x.copies := show y.besideMem.copies = x.besideMem.copies by rw [h]

end

@[simp] theorem Exec.besideMem_post (x : Exec) (d : Nat) (e : Ev) : (x.post d e).besideMem = x.besideMem := by
  unfold Exec.post
  split <;> rfl
@[simp] theorem Exec.besideMem_count (x : Exec) (ctx die idx n : Nat) : (x.count ctx die idx n).besideMem = x.besideMem := by
  unfold Exec.count
  split <;> rfl
@[simp] theorem Exec.besideMem_countReq (x : Exec) (o : Who) (l : Loc) : (x.countReq o l).besideMem = x.besideMem :=
  x.besideMem_count ..
@[simp] theorem Exec.besideMem_err (x : Exec) (e : ErrEnt) : (x.err e).besideMem = x.besideMem := rfl

theorem State.besideMem_ite {c : Prop} [Decidable c] {s t u : State} (ht : t.x.besideMem = s.x.besideMem)
    (hu : u.x.besideMem = s.x.besideMem) : (if c then t else u).x.besideMem = s.x.besideMem := by
  split
  · exact ht
  · exact hu

theorem State.besideMem_foldl {α : Type} {f : State → α → State} (h : ∀ s a, (f s a).x.besideMem = s.x.besideMem) (l : List α)
    (s : State) : (l.foldl f s).x.besideMem = s.x.besideMem := foldl_keeps (fun t : State => t.x.besideMem) h l s

/-! ### The L2 and its directory -/

@[simp] theorem State.besideMem_evictSq (s : State) (q : Sq) : (s.evictSq q).x.besideMem = s.x.besideMem := by
  unfold State.evictSq
  dsimp only
  split
  · rfl
  · split
    · rfl
    · exact Exec.besideMem_count ..

@[simp] theorem State.besideMem_sqRoomGo (n : Nat) (s : State) (slice id : Nat) :
    (State.sqRoomGo n s slice id).x.besideMem = s.x.besideMem := by
  induction n generalizing s slice id with
  | zero => rfl
  | succ n ih =>
    unfold State.sqRoomGo
    split
    · rfl
    split
    · rfl
    · dsimp only
      split
      · exact s.besideMem_evictSq _
      · split
        · exact ih ..
        · exact (State.besideMem_evictSq ..).trans (ih ..)

@[simp] theorem State.besideMem_sqRoom (s : State) (slice id : Nat) : (s.sqRoom slice id).x.besideMem = s.x.besideMem :=
  State.besideMem_sqRoomGo ..

@[simp] theorem State.besideMem_tidalCount (s : State) (sq core : Nat) : (s.tidalCount sq core).x.besideMem = s.x.besideMem := by
  unfold State.tidalCount
  split
  · rfl
  · refine State.besideMem_ite rfl ?_
    dsimp only
    split
    · exact State.besideMem_ite (Exec.besideMem_post ..) rfl
    · rfl

@[simp] theorem State.besideMem_sqAlloc (s : State) (ctx : Nat) (l : Loc) (col : Bool) (width : Nat) :
    (s.sqAlloc ctx l col width).x.besideMem = s.x.besideMem := by
  have hevict : (match s.mem.sqs.find? (l.sec / 32) with
      | some q => s.evictSq q
      | none => s).x.besideMem = s.x.besideMem := by
    split
    · exact s.besideMem_evictSq _
    · rfl
  have hroom := (State.besideMem_sqRoom _ (sliceOf (l.sec / 32)) (l.sec / 32)).trans hevict
  unfold State.sqAlloc
  exact State.besideMem_ite hroom hroom

@[simp] theorem State.besideMem_sqTouch (s : State) (core ctx : Nat) (l : Loc) (req col : Bool) (width : Nat)
    (need wr : BitVec 32) : (s.sqTouch core ctx l req col width need wr).x.besideMem = s.x.besideMem := by
  have halloc : (if (s.mem.sqs.find? (l.sec / 32)).any fun q => decide (q.key = l.key) then s
      else s.sqAlloc ctx l col width).x.besideMem = s.x.besideMem := State.besideMem_ite rfl (s.besideMem_sqAlloc ..)
  unfold State.sqTouch
  dsimp only
  generalize (if (s.mem.sqs.find? (l.sec / 32)).any fun q => decide (q.key = l.key) then s
    else s.sqAlloc ctx l col width) = a at halloc ⊢
  split
  · exact halloc
  · have hturn {c : Bool} {t : State} (ht : t.x.besideMem = s.x.besideMem) :
        (if c then t.modX fun x => x.post 16 (.squareTurn (l.sec / 32)) else t).x.besideMem = s.x.besideMem :=
      State.besideMem_ite ((Exec.besideMem_post ..).trans ht) ht
    have hcount {p : Prop} [Decidable p] {t : State} (ht : t.x.besideMem = s.x.besideMem) :
        (if p then t.modX fun x => x.count ctx (l.sec / 32 / 2 ^ 28) 5 1 else t).x.besideMem = s.x.besideMem :=
      State.besideMem_ite ((Exec.besideMem_count ..).trans ht) ht
    have htidal {t : State} (ht : t.x.besideMem = s.x.besideMem) :
        (if req then t.tidalCount (l.sec / 32) core else t).x.besideMem = s.x.besideMem :=
      State.besideMem_ite ((t.besideMem_tidalCount ..).trans ht) ht
    exact htidal (hcount (hturn halloc))

/-! ### Requests, write-backs and invalidations -/

@[simp] theorem State.besideMem_detect (s : State) (sec pa ctx : Nat) : (s.detect sec pa ctx).x.besideMem = s.x.besideMem := by
  unfold State.detect
  split <;> rfl

@[simp] theorem State.besideMem_sendInvals (s : State) (sec die tok : Nat) :
    (s.sendInvals sec die tok).x.besideMem = s.x.besideMem := by
  unfold State.sendInvals
  split
  · rfl
  · exact State.besideMem_foldl (fun t d => Exec.besideMem_post ..) _ s

@[simp] theorem State.besideMem_performReq (s : State) (r : Req) : (s.performReq r).x.besideMem = s.x.besideMem := by
  unfold State.performReq
  dsimp only
  rw [besideMem_sendInvals, modM_x, besideMem_sqTouch]
  exact State.besideMem_ite rfl (s.besideMem_detect ..)

@[simp] theorem State.besideMem_drainSq (s : State) (sq : Nat) : (s.drainSq sq).x.besideMem = s.x.besideMem :=
  State.besideMem_foldl State.besideMem_performReq _ s

@[simp] theorem State.besideMem_send (s : State) (core ctx : Nat) (l : Loc) (mask : Nat) (data : List Byte) (pois : Option Bool)
    (src : ReqSrc) : (s.send core ctx l mask data pois src).x.besideMem = s.x.besideMem := by
  unfold State.send
  split
  · rfl
  · exact (Exec.besideMem_post ..).trans (State.besideMem_ite (s := s) rfl rfl)

@[simp] theorem State.besideMem_invalArrive (s : State) (die sec : Nat) : (s.invalArrive die sec).x.besideMem = s.x.besideMem := by
  unfold State.invalArrive
  split
  · exact Exec.besideMem_post ..
  · rfl

@[simp] theorem State.besideMem_invalAck (s : State) (die sec : Nat) : (s.invalAck die sec).x.besideMem = s.x.besideMem := by
  unfold State.invalAck
  split <;> rfl

@[simp] theorem State.besideMem_drainInvals (s : State) (p : Inval → Bool) : (s.drainInvals p).x.besideMem = s.x.besideMem :=
  State.besideMem_foldl (fun t k => by rw [besideMem_invalAck, besideMem_invalArrive]) _ s

@[simp] theorem State.besideMem_drainCore (s : State) (core : Nat) : (s.drainCore core).x.besideMem = s.x.besideMem := by
  unfold State.drainCore
  rw [besideMem_drainInvals]
  exact State.besideMem_foldl State.besideMem_drainSq _ s

@[simp] theorem State.besideMem_writeBack (s : State) (c : L1Sec) (src : ReqSrc) :
    (s.writeBack c src).x.besideMem = s.x.besideMem := by
  unfold State.writeBack
  split
  · rfl
  · exact s.besideMem_send ..

@[simp] theorem State.besideMem_writeBackIf (s : State) (core : Nat) (p : L1Sec → Bool) (src : ReqSrc) :
    (s.writeBackIf core p src).x.besideMem = s.x.besideMem :=
  State.besideMem_foldl (fun t c => t.besideMem_writeBack c src) _ s

@[simp] theorem State.besideMem_release (s : State) (core : Nat) : (s.release core).x.besideMem = s.x.besideMem := by
  unfold State.release State.l1Flush
  rw [besideMem_drainCore, besideMem_writeBackIf]

@[simp] theorem State.besideMem_l1Evict (s : State) (core sec : Nat) : (s.l1Evict core sec).x.besideMem = s.x.besideMem :=
  s.besideMem_writeBackIf ..

/-! ### Translation -/

@[simp] theorem State.besideMem_badProbe (s : State) (core c slot : Nat) : (s.badProbe core c slot).x.besideMem = s.x.besideMem := by
  unfold State.badProbe
  dsimp only
  split
  · exact s.besideMem_detect ..
  · rfl

@[simp] theorem State.besideMem_tlbUse (s : State) (c va : Nat) (n : Need) (t : Tlb) :
    (s.tlbUse c va n t).1.x.besideMem = s.x.besideMem := by
  unfold State.tlbUse
  split
  · rfl
  · split
    · dsimp only
      split <;> rfl
    · rfl

@[simp] theorem State.besideMem_translateOnce (s : State) (core c va : Nat) (n : Need) :
    (s.translateOnce core c va n).1.x.besideMem = s.x.besideMem := by
  unfold State.translateOnce
  split
  · exact s.besideMem_tlbUse ..
  · split
    · exact State.besideMem_tlbUse ..
    · rfl

@[simp] theorem State.besideMem_translateWalk (s : State) (core c va : Nat) (n : Need) (descs : SMap Nat) :
    (s.translateWalk core c va n descs).1.x.besideMem = s.x.besideMem := by
  unfold State.translateWalk
  split
  · rfl
  · split
    · exact s.besideMem_badProbe ..
    · rfl
    · dsimp only
      split
      · rfl
      · split
        · rfl
        · dsimp only
          split <;> rfl

@[simp] theorem State.besideMem_translate (s : State) (core c va : Nat) (n : Need) :
    (s.translate core c va n).1.x.besideMem = s.x.besideMem := by
  unfold State.translate
  split
  · rfl
  · dsimp only
    split
    · exact s.besideMem_translateOnce ..
    · rw [besideMem_translateWalk, besideMem_translateOnce]

end Sys2Proof.Machine
end

section
/-! PROOFS. What the end of a hold leaves of the execution state: all but the waves, the agenda and the numbering (09 R198, 08 R149,
07 R111, R113). -/

namespace Sys2Proof.Machine

/-- The execution state without its waves, its agenda and its next number. -/
def Exec.besideWaves (x : Exec) : Exec := { x with waves := [], agenda := [], fresh := 0 }

section
variable {x y : Exec} (h : y.besideWaves = x.besideWaves)
include h

theorem Exec.teams_of_besideWaves : y.teams = x.teams := show y.besideWaves.teams = x.besideWaves.teams by rw [h]
theorem Exec.grids_of_besideWaves : y.grids = x.grids := show y.besideWaves.grids = x.besideWaves.grids by rw [h]
theorem Exec.copies_of_besideWaves : y.copies = x.copies := show y.besideWaves.copies = x.besideWaves.copies by rw [h]

end

@[simp] theorem Exec.besideWaves_post (x : Exec) (d : Nat) (e : Ev) : (x.post d e).besideWaves = x.besideWaves := by
  unfold Exec.post
  split <;> rfl
@[simp] theorem Exec.besideWaves_modWave (x : Exec) (u : Nat) (f : Wave → Wave) : (x.modWave u f).besideWaves = x.besideWaves := rfl
@[simp] theorem Exec.besideWaves_modFib (x : Exec) (u f : Nat) (g : Fib → Fib) : (x.modFib u f g).besideWaves = x.besideWaves := rfl

@[simp] theorem Exec.besideWaves_writeV (x : Exec) (u f k : Nat) (v : Word) : (x.writeV u f k v).besideWaves = x.besideWaves := rfl
@[simp] theorem Exec.besideWaves_writeW (x : Exec) (u k : Nat) (v : Word) : (x.writeW u k v).besideWaves = x.besideWaves := rfl

theorem Exec.besideWaves_foldl {α : Type} {f : Exec → α → Exec} (h : ∀ x a, (f x a).besideWaves = x.besideWaves) (l : List α)
    (x : Exec) : (l.foldl f x).besideWaves = x.besideWaves := foldl_keeps Exec.besideWaves h l x

@[simp] theorem Exec.besideWaves_closeWin (x : Exec) (u f : Nat) (l : LookWin) : (x.closeWin u f l).besideWaves = x.besideWaves := by
  have hv : (l.v.foldl (fun x p => x.writeV u f p.1 p.2) x).besideWaves = x.besideWaves :=
    Exec.besideWaves_foldl (fun x p => x.besideWaves_writeV ..) _ x
  unfold Exec.closeWin
  dsimp only
  split
  · exact hv
  · rw [besideWaves_modWave]
    exact (Exec.besideWaves_foldl (fun x p => x.besideWaves_writeW ..) _ _).trans hv

@[simp] theorem Exec.besideWaves_passWindows (x : Exec) (u : Nat) (stop : Bool) (l : List (Nat × List Nat)) :
    (x.passWindows u stop l).besideWaves = x.besideWaves := by
  refine (Exec.besideWaves_foldl (fun x p => ?_) _ _).trans (Exec.besideWaves_foldl (fun x p => x.besideWaves_modFib ..) l x)
  split
  · rfl
  · rw [besideWaves_modFib, besideWaves_closeWin]

@[simp] theorem Exec.besideWaves_unhold (x : Exec) (u : Nat) : (x.unhold u).besideWaves = x.besideWaves := by
  rcases hpass : ((x.wave? u).filter fun (w : Wave) => w.hold.elim false Hold.late).bind Wave.passing with _ | p
  · simp only [Exec.unhold, hpass]
    split
    · exact Exec.besideWaves_post ..
    · rfl
  · have hp := x.besideWaves_passWindows u p.1 p.2
    simp only [Exec.unhold, hpass]
    split
    · exact (Exec.besideWaves_post ..).trans hp
    · exact hp

@[simp] theorem Exec.besideWaves_unholdWhere (x : Exec) (p : Nat → Wave → Bool) :
    (x.unholdWhere p).besideWaves = x.besideWaves := by
  refine Exec.besideWaves_foldl (fun x q => ?_) _ x
  split
  · exact x.besideWaves_unhold _
  · rfl

@[simp] theorem Exec.besideWaves_wakeTeam (x : Exec) (t : Nat) : (x.wakeTeam t).besideWaves = x.besideWaves := by
  unfold Exec.wakeTeam
  split
  · rfl
  · exact Exec.besideWaves_foldl Exec.besideWaves_unhold _ x

@[simp] theorem Exec.besideWaves_wakeCopy (x : Exec) (core : Nat) : (x.wakeCopy core).besideWaves = x.besideWaves := by
  unfold Exec.wakeCopy
  split
  · split
    · exact x.besideWaves_unhold _
    · rfl
  · rfl

end Sys2Proof.Machine
end

section
/-! PROOFS. A line operation of a CPA is performed and retires (05 R97, R100, R101). -/

namespace Sys2Proof.Machine

/-! ### The sector that holds an address -/

/-- The start of the sector that holds a location. -/
def Loc.base (l : Loc) : Loc := { l with pa := l.pa / 32 * 32 }

theorem Loc.sa_eq (l : Loc) : l.sa = 32 * l.sec + l.pa % 32 := by
  simp only [Loc.sec, Loc.sa, storageAt]
  omega

theorem Loc.sec_base (l : Loc) : l.base.sec = l.sec := by
  simp only [Loc.sec, Loc.sa, storageAt, Loc.base]
  omega

/-- An engine's read, on its own die, of a sector with no write waiting and no copy in its core's L1: the sector as it stands. -/
theorem State.engineRead_alone {s : State} {o : Who} {l : Loc} (h : Alone s.mem o l) :
    ∃ t, s.engineRead o l = (t, s.mem.sector l.key l.sec, false) ∧ t.besideL2 = s.besideL2 ∧ t.x.besideMem = s.x.besideMem := by
  obtain ⟨hhome, hreqs, hl1, hpois, hunc⟩ := h
  have hback : s.mem.l1.filter (fun c => decide (c.core = o.core) && decide (c.sec = l.sec)) = [] :=
    List.filter_eq_nil_iff.2 fun c hc => by simpa using hl1 c hc
  have hb := s.besideL2_sqTouch o.core o.ctx l true false 0 (rowBit l.sec) 0
  have hsector : ((s.sqTouch o.core o.ctx l true false 0 (rowBit l.sec) 0).mem.sector l.key l.sec) = s.mem.sector l.key l.sec := by
    rw [MemSys.sector_congr (MemSys.byteAt_congr (State.dev_of_besideL2 hb) (State.sealed_of_besideL2 hb))]
  have hp : (s.sqTouch o.core o.ctx l true false 0 (rowBit l.sec) 0).mem.pois.contains l.sec = false := by
    rw [State.pois_of_besideL2 hb]
    simpa using hpois
  refine ⟨_, ?_, hb, s.besideMem_sqTouch ..⟩
  simp only [State.engineRead, State.writeBackIf, hback, List.foldl_nil, State.fetch, if_pos (Or.inl hhome),
    State.drainSq_eq_self hreqs, State.detect_eq_self hunc, hsector, hp]

/-- The same as the one read of an engine. -/
theorem State.engineReads_alone {s : State} {o : Who} {l : Loc} (h : Alone s.mem o l) :
    ∃ t, s.engineReads o [l] = (t, [(l.pa / 32 * 32, s.mem.sector l.key l.sec, false)]) ∧ t.besideL2 = s.besideL2 ∧
      t.x.besideMem = s.x.besideMem := by
  have hb : (s.modX fun x => x.countReq o l.base).besideL2 = s.besideL2 := State.besideL2_modX (Exec.waves_countReq ..)
  have hbase : Alone (s.modX fun x => x.countReq o l.base).mem o l.base := by
    obtain ⟨hhome, hreqs, hl1, hpois, hunc⟩ := h
    rw [← l.sec_base] at hreqs hl1 hpois hunc
    exact ⟨hhome, hreqs, hl1, hpois, hunc⟩
  obtain ⟨t, hread, hl2, hx⟩ := State.engineRead_alone hbase
  rw [l.sec_base] at hread
  refine ⟨t, ?_, hl2.trans hb, hx.trans (Exec.besideMem_countReq ..)⟩
  simp only [State.engineReads, List.foldl_cons, List.foldl_nil, List.any_nil, Bool.false_eq_true, if_false, List.nil_append]
  rw [show ({ l with pa := l.pa / 32 * 32 } : Loc) = l.base from rfl, hread]
  rfl

theorem State.xlSide_nil (s : State) (o : Who) (n : Need) : s.xlSide o n [] = (s, .ok []) := rfl

theorem State.xlSide_reaches {s : State} {o : Who} {n : Need} {va : Nat} {l : Loc} (h : Claim.Reaches s o n va l)
    (hn : n.idle = false) : s.xlSide o n [va] = (s, .ok [l]) := by
  simp only [State.xlSide, List.foldl_cons, List.foldl_nil, reaches_translate h hn, List.nil_append]

/-! ### The element of a CPA's line operation reaches the allocation (R97) -/

/-- A line operation marked as performed. -/
def LineOp.done (op : LineOp) : LineOp := { op with performed := true }

/-- While a team is on its core, nothing of it is written in the image (R112). -/
theorem State.saveLate_resident {s : State} {t : Nat} {m : Team} (hm : s.x.teams.find? t = some m) (h : m.st = .resident) (o n : Nat) :
    s.saveLate t o n = s := by
  simp only [State.saveLate, hm, h, true_or, if_true]

/-- The bytes of an element, read from a sector that stands alone, are stored at its place in the allocation of the team. -/
theorem State.moveLine_cpa {s : State} {id : Nat} {op : LineOp} {e : CpElem} {m : Team} {o : Who} {l : Loc} (hkind : op.kind = 0)
    (helems : op.elems = [e]) (hzero : e.zero = false) (hm : s.x.teams.find? op.team = some m) (hst : m.st = .resident)
    (hunc : m.lunc = []) (h : Alone s.mem o l) : ∃ y : State,
    (∃ z : State, y.mem = z.mem ∧ z.besideL2 = s.besideL2) ∧
    y.x.copies = s.x.copies ∧ y.x.teams.find? op.team = some (m.store e.dst (sliceOf32 (s.mem.sector l.key l.sec) (l.pa % 32) op.size)) ∧
    s.moveLine id op o [l] [] = y.modX fun x =>
      ({ x with copies := x.copies.modify id LineOp.done } : Exec).post 1 (.lineOperationRetire id) := by
  obtain ⟨t, hread, hl2, hx⟩ := State.engineReads_alone h
  let data := sliceOf32 (s.mem.sector l.key l.sec) (l.pa % 32) op.size
  have hm' : (t.x.modTeam op.team fun m => m.store e.dst data).teams.find? op.team = some (m.store e.dst data) := by
    rw [Exec.modTeam_teams, SMap.find?_modify, if_pos rfl, Exec.teams_of_besideMem hx, hm, Option.map_some]
  have hdetect : ((t.modX fun x => x.modTeam op.team fun m => m.store e.dst data).modX fun x =>
      x.detectLocal op.team e.dst op.size) = t.modX fun x => x.modTeam op.team fun m => m.store e.dst data := by
    refine congrArg (fun x : Exec => { t with x := x }) (Exec.detectLocal_eq_self hm' ?_)
    simp only [Team.store, poisonStore, hunc, List.filter_nil, poisonHit, List.any_nil]
  have hsave : (t.modX fun x => x.modTeam op.team fun m => m.store e.dst data).saveLate op.team e.dst op.size =
      t.modX fun x => x.modTeam op.team fun m => m.store e.dst data :=
    State.saveLate_resident (m := m.store e.dst data) hm' hst _ _
  have hwake := (t.x.modTeam op.team fun m => m.store e.dst data).besideWaves_wakeTeam op.team
  refine ⟨t.modX fun x => (x.modTeam op.team fun m => m.store e.dst data).wakeTeam op.team, ⟨t, rfl, hl2⟩, ?_, ?_, ?_⟩
  · exact (Exec.copies_of_besideWaves hwake).trans (show t.x.copies = s.x.copies from Exec.copies_of_besideMem hx)
  · exact (congrArg (SMap.find? · op.team) (Exec.teams_of_besideWaves hwake)).trans hm'
  · have hslice : (SMap.find? [(l.pa / 32 * 32, s.mem.sector l.key l.sec, false)] (l.pa / 32 * 32)).getD ([], false) =
        (s.mem.sector l.key l.sec, false) := by simp [SMap.find?]
    have hk1 : ¬ op.kind = 1 := by omega
    simp only [State.moveLine, helems, hread]
    rw [if_neg hk1, if_neg hk1, if_pos hkind, List.filter_singleton, List.filter_singleton, hzero]
    simp only [Bool.not_false, cond_true, cond_false, List.zip_cons_cons, List.zip_nil_left, List.map_cons, List.map_nil,
      List.append_nil, List.foldl_cons, List.foldl_nil, hslice, Bool.false_eq_true, if_false, State.detectLocal]
    rw [hdetect, hsave]
    rfl

/-- Nothing holds a line operation back whose wave has an empty log (R45). -/
theorem State.performLine_of_ok {s : State} {id : Nat} {op : LineOp} {src : List Loc} (hop : s.x.copies.find? id = some op)
    (hperf : op.performed = false) (hheld : op.held = none) (hlog : ∀ w, s.x.wave? op.wave = some w → w.log = [])
    (hsrc : s.xlSide (s.x.opWho op) { host := false } op.reads = (s, .ok src)) (hwrites : op.writes = []) :
    s.performLine id = s.moveLine id op (s.x.opWho op) src [] := by
  have hblocked {w : Wave} (hw : s.x.wave? op.wave = some w) : ((op.reads ++ op.writes).any fun va => w.logHit va) = false :=
    List.any_eq_false.2 fun va _ => by simp [Wave.logHit, hlog w hw]
  have hnil : dedup ([] : List Nat) = [] := rfl
  have hroom : s.claimWaits id op [] = false := by
    simp [State.claimWaits, State.claimFits, dedup]
  rcases hw : s.x.wave? op.wave with _ | w
  · simp only [State.performLine, hop, hperf, hheld, Option.isSome_none, hw, hsrc, hwrites,
      State.xlSide_nil, List.map_nil, hnil, hroom, Bool.or_self, Bool.false_eq_true, if_false]
  · have hfree := hblocked hw
    rw [hwrites] at hfree
    simp only [State.performLine, hop, hperf, hheld, Option.isSome_none, hw, hfree, hsrc, hwrites,
      State.xlSide_nil, List.map_nil, hnil, hroom, Bool.or_self, Bool.false_eq_true, if_false]

/-! ### A line operation retires (R100) -/

/-- A line operation without squares has no write to wait for and no claim to release. -/
theorem State.settled_nil (s : State) :
    ((([] : List Nat).foldl State.drainSq s).drainInvals fun i => ([] : List Nat).contains (i.sec / 32)).unclaim [] = s := by
  have hnone : s.mem.invals.filter (fun i => ([] : List Nat).contains (i.sec / 32)) = [] := by simp
  rw [List.foldl_nil, State.drainInvals, hnone, List.foldl_nil, State.unclaim, List.foldl_nil]

/-- A tag with one line operation less: it is done once none is left (R100). -/
def Team.lessTag (m : Team) (n : Nat) : Team :=
  { m with
    tpend := m.tpend.put 0 n (m.tpend.get 0 n - 1)
    tdone := bitSet m.tdone n (decide (m.tpend.get 0 n - 1 = 0) || bitOf m.tdone n) }

theorem bitOf_bitSet_self (x i : Nat) (v : Bool) : bitOf (bitSet x i v) i = v := by
  have hp := Nat.two_pow_pos i
  unfold bitSet
  cases v <;> cases hb : bitOf x i <;>
    simp only [hb, if_true, if_false, Bool.false_eq_true] <;> simp only [bitOf, decide_eq_true_eq, decide_eq_false_iff_not] at hb ⊢
  · have hle : 2 ^ i ≤ x := by
      by_contra hlt
      rw [Nat.div_eq_of_lt (by omega)] at hb
      omega
    have hdiv := Nat.add_div_right (x - 2 ^ i) hp
    rw [Nat.sub_add_cancel hle] at hdiv
    omega
  · rw [Nat.add_div_right _ hp]
    omega

theorem Team.lessTag_view (m : Team) (n : Nat) : ((m.lessTag n).tpend.get 0 n, bitOf (m.lessTag n).tdone n) =
    (m.tpend.get 0 n - 1, decide (m.tpend.get 0 n ≤ 1) || bitOf m.tdone n) := by
  simp only [Team.lessTag, SMap.get_put, if_true, bitOf_bitSet_self, Nat.sub_eq_zero_iff_le]

/-- What follows a retired line operation: a copy that waits for room, and a team that may be over, go on. -/
def Exec.afterRetire (x : Exec) (core t : Nat) : Exec :=
  let x := x.wakeCopy core
  if x.teamOver t then (x.post 0 (.teamFree t)).post 0 (.gridCompletion ((x.teams.find? t).elim 0 Team.grid)) else x

theorem Exec.besideWaves_afterRetire (x : Exec) (core t : Nat) : (x.afterRetire core t).besideWaves = x.besideWaves := by
  unfold Exec.afterRetire
  dsimp only
  split
  · rw [besideWaves_post, besideWaves_post, besideWaves_wakeCopy]
  · exact x.besideWaves_wakeCopy core

theorem State.retireLine_tag {s : State} {id n : Nat} {op : LineOp} {c : CpInst} (hop : s.x.copies.find? id = some op)
    (hperf : op.performed = true) (hsqs : op.sqs = []) (hc : s.x.insts.find? op.inst = some c) (hobj : c.obj = none)
    (htag : c.tag = some n) : ∃ y : Exec, y.copies = s.x.copies.erase id ∧
      y.teams = (s.x.modTeam c.team (Team.lessTag · n)).teams ∧ s.retireLine id = { s with x := y } := by
  simp only [State.retireLine, hop, hperf, hsqs, State.settled_nil]
  simp only [Bool.not_true, Bool.false_eq_true, if_false, State.modX, hc, hobj, htag]
  generalize hx : Exec.wakeTeam _ c.team = x
  refine ⟨x.afterRetire op.core op.team, ?_, ?_, rfl⟩ <;> subst hx
  · rw [Exec.copies_of_besideWaves (Exec.besideWaves_afterRetire ..), Exec.copies_of_besideWaves (Exec.besideWaves_wakeTeam ..)]
    rfl
  · rw [Exec.teams_of_besideWaves (Exec.besideWaves_afterRetire ..), Exec.teams_of_besideWaves (Exec.besideWaves_wakeTeam ..)]
    rfl

end Sys2Proof.Machine

namespace Sys2Proof.Proofs

open Sys2Proof.Machine Sys2Proof.Claim

/-- A line operation of a CPA moves its element, and retires (R97, R100). -/
theorem copyMoves : CopyMoves := by
  refine ⟨?_, ?_⟩
  · intro s id op e m l hop hkind helems hzero hperf hheld hm hst hunc hlog o hreach hhome hfit hreqs hl1 hpois hunc'
    have hreads : op.reads = [e.src] := by simp [LineOp.reads, hkind, helems, hzero]
    have hwrites : op.writes = [] := by simp [LineOp.writes, hkind]
    have hsrc := State.xlSide_reaches hreach rfl
    rw [← hreads] at hsrc
    obtain ⟨y, ⟨z, hmem, hl2⟩, hcopies, hteam, hmove⟩ :=
      State.moveLine_cpa (id := id) hkind helems hzero hm hst hunc ⟨hhome, hreqs, hl1, hpois, hunc'⟩
    have hexec : exec (.lineOperationPerform id) s = .next { s.performLine id with trust := s.trust } := rfl
    rw [State.performLine_of_ok hop hperf hheld hlog hsrc hwrites, hmove] at hexec
    refine ⟨_, hexec, rfl, ?_, ?_, ?_, fun k => ?_⟩
    · exact (congrArg MemSys.dev hmem).trans (State.dev_of_besideL2 hl2)
    · exact (congrArg MemSys.host hmem).trans (State.host_of_besideL2 hl2)
    · simp only [State.modX, Exec.copies_of_besideWaves (Exec.besideWaves_post ..), SMap.find?_modify, if_pos, hcopies, hop,
        Option.map_some, LineOp.done]
    · simp only [State.modX, Exec.teams_of_besideWaves (Exec.besideWaves_post ..), hteam, Option.map_some, Team.store, get_putBytes,
        sliceOf32_sector _ _ _ _ _ hfit, ← Loc.sa_eq, List.length_map, List.length_range]
      split
      · rw [List.getD_eq_getElem?_getD, List.getElem?_map, List.getElem?_range (by omega)]
        rfl
      · rfl
  · intro s id op c m n hop hperf hsqs hc hobj htag hm
    obtain ⟨y, hcopies, hteams, hretire⟩ := State.retireLine_tag hop hperf hsqs hc hobj htag
    have hexec : exec (.lineOperationRetire id) s = .next { s.retireLine id with trust := s.trust } := rfl
    rw [hretire] at hexec
    refine ⟨_, hexec, rfl, rfl, ?_, ?_⟩
    · simp only [hcopies, SMap.find?_erase, if_true]
    · simp only [hteams, Exec.modTeam_teams, SMap.find?_modify, if_true, hm, Option.map_some, Team.lessTag_view]

/-- Settles O37: by the three parts, copies that start, line operations that move and retire, and tags. -/
theorem copiesAndTags : Obligations.CopiesAndTags := ⟨copyStarts, copyMoves, tags⟩

end Sys2Proof.Proofs
end

section
/-! PROOFS. Placement: the first team of the queue takes its core, and its waves stand at their entries (08 R143 to R145, 16 R327,
R328). -/

namespace Sys2Proof.Machine

/-! ### The waves a team starts with (R143) -/

/-- A wave as it starts, on a quadrant and with a time. -/
def Wave.started (t idx role entry n quad stamp : Nat) : Wave :=
  { team := t, idx := idx, role := role, quad := quad, stamp := stamp,
    fibs := (List.range n).map fun f => (f, { st := .ready, pc := entry }), starved := List.range n }

theorem SMap.find?_map_self {α : Type} (l : List Nat) (g : Nat → α) (k : Nat) :
    SMap.find? (l.map fun j => (j, g j)) k = if k ∈ l then some (g k) else none := by
  induction l with
  | nil => rfl
  | cons j l ih =>
    rw [List.map_cons, SMap.find?, ih]
    by_cases h : k = j
    · simp [h]
    · simp [h]

theorem Wave.fib_started (t idx role entry n quad stamp f : Nat) :
    (Wave.started t idx role entry n quad stamp).fib f = if f < n then { st := .ready, pc := entry } else {} := by
  rw [Wave.fib, Wave.started, SMap.get, SMap.find?_map_self]
  simp only [List.mem_range]
  split <;> rfl

/-- The wave of an index starts. -/
def Exec.startNth (t : Nat) (l : LRec) (x : Exec) (i : Nat) : Exec :=
  let role := if i < fieldAt l 30 1 then 0 else 1
  (x.startWave t i role (l.entry role) (if i + 1 = l.waves then fieldAt l 29 1 else 128)).2

@[simp] theorem Exec.besideWaves_startWave (x : Exec) (t idx role entry n : Nat) :
    (x.startWave t idx role entry n).2.besideWaves = x.besideWaves := rfl

@[simp] theorem Exec.besideWaves_startWaves (x : Exec) (t : Nat) (l : LRec) : (x.startWaves t l).besideWaves = x.besideWaves :=
  Exec.besideWaves_foldl (f := Exec.startNth t l) (fun x _ => x.besideWaves_startWave ..) _ x

theorem Exec.wave?_startWave (x : Exec) (t idx role entry n u : Nat) : ∃ quad, (x.startWave t idx role entry n).2.wave? u =
    if u = x.fresh then some (Wave.started t idx role entry n quad x.fresh) else x.wave? u :=
  ⟨_, SMap.find?_insert ..⟩

theorem Exec.wave?_startNth (t : Nat) (l : LRec) (x : Exec) (n : Nat) :
    ((List.range n).foldl (Exec.startNth t l) x).fresh = x.fresh + n ∧
    ∀ j < n, ∃ quad stamp, ((List.range n).foldl (Exec.startNth t l) x).wave? (x.fresh + j) =
      some (Wave.started t j (if j < fieldAt l 30 1 then 0 else 1) (l.entry (if j < fieldAt l 30 1 then 0 else 1))
        (if j + 1 = l.waves then fieldAt l 29 1 else 128) quad stamp) := by
  induction n with
  | zero => exact ⟨rfl, fun j hj => absurd hj (Nat.not_lt_zero j)⟩
  | succ n ih =>
    obtain ⟨hfresh, hwave⟩ := ih
    rw [List.range_succ, List.foldl_append, List.foldl_cons, List.foldl_nil]
    generalize (List.range n).foldl (Exec.startNth t l) x = y at hfresh hwave ⊢
    refine ⟨(congrArg (· + 1) hfresh).trans (Nat.add_assoc ..), fun j hj => ?_⟩
    obtain ⟨quad, hq⟩ := y.wave?_startWave t n (if n < fieldAt l 30 1 then 0 else 1)
      (l.entry (if n < fieldAt l 30 1 then 0 else 1)) (if n + 1 = l.waves then fieldAt l 29 1 else 128) (x.fresh + j)
    by_cases hjn : j = n
    · subst hjn
      rw [if_pos (show x.fresh + j = y.fresh from hfresh.symm)] at hq
      exact ⟨_, _, hq⟩
    · rw [if_neg (show ¬ x.fresh + j = y.fresh by omega)] at hq
      obtain ⟨q, st, h⟩ := hwave j (by omega)
      exact ⟨q, st, hq.trans h⟩

/-! ### A queued team takes its core (R53, R328) -/

@[simp] theorem State.besideMem_takeSplit (s : State) (core share : Nat) : (s.takeSplit core share).x.besideMem = s.x.besideMem := by
  unfold State.takeSplit
  split
  · rfl
  · exact s.besideMem_release core

@[simp] theorem Exec.besideWaves_postArrivals (x : Exec) (g idx : Nat) : (x.postArrivals g idx).besideWaves = x.besideWaves :=
  Exec.besideWaves_foldl (fun _ _ => Exec.besideWaves_post ..) _ x

@[simp] theorem Exec.waves_postArrivals (x : Exec) (g idx : Nat) : (x.postArrivals g idx).waves = x.waves :=
  foldl_keeps Exec.waves (fun _ _ => Exec.waves_post ..) _ x

/-- What placing a team that has not run yet leaves: the team on its core, the pointer behind the position, and a wave for each
index (R143, R328). -/
structure Placed (y : Exec) (t : Nat) (m : Team) (pos core : Nat) (l : LRec) : Prop where
  team  : ∃ k, y.teams.find? t = some { m with st := .resident, core := core, img := k }
  ptr   : y.ptr = (pos + 1) % 640
  waves : ∀ j < l.waves, ∃ u quad stamp, y.wave? u =
    some (Wave.started t j (if j < fieldAt l 30 1 then 0 else 1) (l.entry (if j < fieldAt l 30 1 then 0 else 1))
      (if j + 1 = l.waves then fieldAt l 29 1 else 128) quad stamp)

theorem Placed.congr {x y : Exec} {t pos core : Nat} {m : Team} {l : LRec} (h : Placed x t m pos core l)
    (hw : y.waves = x.waves) (hb : y.besideWaves = x.besideWaves) : Placed y t m pos core l := by
  obtain ⟨hteam, hptr, hwaves⟩ := h
  refine ⟨?_, (show y.besideWaves.ptr = x.besideWaves.ptr by rw [hb]).trans hptr, ?_⟩
  · rw [Exec.teams_of_besideWaves hb]
    exact hteam
  · simp only [Exec.wave?_congr hw]
    exact hwaves

/-- A team's first waves start where it is already placed. -/
theorem Placed.startWaves {x : Exec} {t pos core k : Nat} {m : Team} (l : LRec)
    (hm : x.teams.find? t = some { m with st := .resident, core := core, img := k }) (hptr : x.ptr = (pos + 1) % 640) :
    Placed (x.startWaves t l) t m pos core l := by
  have hb := x.besideWaves_startWaves t l
  refine ⟨⟨k, ?_⟩, (show (x.startWaves t l).besideWaves.ptr = x.besideWaves.ptr by rw [hb]).trans hptr, fun j hj => ?_⟩
  · rw [Exec.teams_of_besideWaves hb]
    exact hm
  · exact ⟨_, (Exec.wave?_startNth t l x l.waves).2 j hj⟩

theorem State.place_queued {s : State} {t : Nat} {m : Team} (hm : s.x.teams.find? t = some m) (hst : m.st = .queued false)
    (pos core : Nat) : Placed (s.place t m pos core).x t m pos core (s.x.lrecOf m) := by
  have hteams := Exec.teams_of_besideMem (s.besideMem_takeSplit core (s.x.lrecOf m).share)
  have hteam (k : Nat) : (SMap.modify (s.takeSplit core (s.x.lrecOf m).share).x.teams t fun m =>
      { m with st := .resident, core := core, img := k }).find? t = some { m with st := .resident, core := core, img := k } := by
    rw [SMap.find?_modify, if_pos rfl, hteams, hm, Option.map_some]
  unfold State.place
  dsimp only
  rw [if_pos hst]
  exact (Placed.startWaves _ (hteam _) rfl).congr (Exec.waves_postArrivals ..) (Exec.besideWaves_postArrivals ..)

/-! ### TEAM_PLACEMENT (R327, R328) -/

theorem Exec.queueHead_none {x : Exec} (h : ∀ p ∈ x.teams, ∀ b, p.2.st ≠ .queued b) : x.queueHead = none := by
  have hnone : x.teams.filter (fun p => x.inQueue p.2) = [] := by
    refine List.filter_eq_nil_iff.2 fun p hp => ?_
    unfold Exec.inQueue
    split
    next b hb => exact absurd hb (h p hp b)
    · simp
  rw [Exec.queueHead, hnone, List.foldl_nil]

theorem Exec.teams_resetPtr (x : Exec) : x.resetPtr.teams = x.teams := by
  unfold Exec.resetPtr
  split <;> rfl

theorem Exec.grids_resetPtr (x : Exec) : x.resetPtr.grids = x.grids := by
  unfold Exec.resetPtr
  split <;> rfl

theorem Exec.lrecOf_resetPtr (x : Exec) (m : Team) : x.resetPtr.lrecOf m = x.lrecOf m := by
  rw [Exec.lrecOf, Exec.gridOf, x.grids_resetPtr, Exec.lrecOf, Exec.gridOf]

/-- The head of the queue, of a launch that is neither a cohort nor stitched, is placed where it fits. -/
theorem State.placement_head {s : State} {t : Nat} {m : Team} {pos core : Nat} (hhead : (s.modX Exec.resetPtr).x.queueHead = some (t, m))
    (hstitch : (s.x.lrecOf m).stitch.1 = 0) (hcohort : (s.x.lrecOf m).cohort = false)
    (hfind : (s.modX Exec.resetPtr).findCore t m = some (pos, core)) :
    s.placement = ((s.modX Exec.resetPtr).place t m pos core).modX fun x => x.post 0 .teamPlacement := by
  have hlrec : (s.modX Exec.resetPtr).x.lrecOf m = s.x.lrecOf m := s.x.lrecOf_resetPtr m
  have hstitched : (s.modX Exec.resetPtr).x.stitched (s.x.lrecOf m) = true := by
    rw [Exec.stitched, hstitch]
    rfl
  simp only [State.placement, hhead, hlrec, hstitched, hcohort, Bool.not_true, Bool.false_eq_true, if_false, State.placeAll,
    List.foldl_cons, List.foldl_nil, hfind, if_true]

end Sys2Proof.Machine

namespace Sys2Proof.Proofs

open Sys2Proof.Machine Sys2Proof.Claim

/-- The first team of the queue is placed, with its waves at their entries (R143, R145, R328). -/
theorem teamPlacement_head {s : State} {t : Nat} {m : Team} {g : Grid} {pos core : Nat}
    (hhead : (s.modX Exec.resetPtr).x.queueHead = some (t, m)) (hm : s.x.teams.find? t = some m) (hg : s.x.gridOf m = some g)
    (hst : m.st = .queued false) (hstitch : fieldAt g.lrec 56 1 = 0) (hcohort : bitOf (fieldAt g.lrec 45 1) 0 = false)
    (hfind : (s.modX Exec.resetPtr).findCore t m = some (pos, core)) :
    ∃ y : State, exec .teamPlacement s = .next { y with trust := s.trust } ∧ Placed y.x t m pos core g.lrec := by
  have hl : s.x.lrecOf m = g.lrec := by rw [Exec.lrecOf, hg]; rfl
  have hm' : (s.modX Exec.resetPtr).x.teams.find? t = some m := by
    rw [show (s.modX Exec.resetPtr).x.teams = s.x.teams from s.x.teams_resetPtr]
    exact hm
  have hl' : (s.modX Exec.resetPtr).x.lrecOf m = s.x.lrecOf m := s.x.lrecOf_resetPtr m
  have hplaced := State.place_queued hm' hst pos core
  rw [hl', hl] at hplaced
  have hexec : exec .teamPlacement s = .next { s.placement with trust := s.trust } := rfl
  rw [State.placement_head hhead (by rw [hl]; exact hstitch) (by rw [hl]; exact hcohort) hfind] at hexec
  exact ⟨_, hexec, hplaced.congr (Exec.waves_post ..) (Exec.besideWaves_post ..)⟩

end Sys2Proof.Proofs
end

section
/-! PROOFS. A region is stitched (16 R329), and a team that is over leaves its core (17 R347). -/

namespace Sys2Proof.Machine

theorem SMap.get_foldl_put {α : Type} [DecidableEq α] (d v : α) (l : List Nat) (m : SMap α) (j : Nat) :
    (l.foldl (fun m a => SMap.put d m a v) m).get d j = if j ∈ l then v else m.get d j := by
  induction l generalizing m with
  | nil => simp
  | cons k l ih =>
    rw [List.foldl_cons, ih, SMap.get_put]
    by_cases hl : j ∈ l <;> by_cases hk : j = k <;> simp [hl, hk]

/-- An atoll of a die is in a launch's region when the launch allows the die and the region reaches the atoll (R329). -/
theorem LRec.mem_atolls {l : LRec} {d a : Nat} (hd : d < 4) (ha : a < 21) (hreach : l.stitch.2 ≤ 21) :
    21 * d + a ∈ l.atolls ↔ bitOf (fieldAt l 46 1) d = true ∧ a < l.stitch.2 := by
  simp only [LRec.atolls, LRec.dies, List.mem_flatMap, List.mem_filter, List.mem_range, List.mem_map]
  constructor
  · rintro ⟨e, ⟨-, hbit⟩, b, hb, heq⟩
    obtain rfl : e = d := by omega
    exact ⟨hbit, by omega⟩
  · rintro ⟨hbit, hlt⟩
    exact ⟨d, ⟨hd, hbit⟩, a, hlt, rfl⟩

/-- A region in which a team of another pattern runs keeps its pattern. -/
theorem execRestitch_busy {s : State} {n : Nat} {g : Grid} (hg : s.x.grids.find? n = some g)
    (h : ∃ p ∈ s.x.teams, p.2.st = .resident ∧ LRec.allows g.lrec p.2.core = true ∧ (s.x.lrecOf p.2).stitch.1 ≠ fieldAt g.lrec 56 1) :
    execRestitch n s = s.onX fun x => x := by
  obtain ⟨p, hp, hres, hallows, hpattern⟩ := h
  have hbusy : (s.x.teams.any fun p => decide (p.2.st = .resident) && LRec.allows g.lrec p.2.core &&
      !decide ((s.x.lrecOf p.2).stitch.1 = (LRec.stitch g.lrec).1)) = true :=
    List.any_eq_true.2 ⟨p, hp, by
      rw [hres, hallows, decide_eq_false (show ¬ (s.x.lrecOf p.2).stitch.1 = (LRec.stitch g.lrec).1 from hpattern)]
      rfl⟩
  simp only [execRestitch, State.onX, hg, hbusy, Bool.true_or, if_true]

/-- Where no team is on a core, a launch's region takes its pattern. -/
theorem execRestitch_free {s : State} {n : Nat} {g : Grid} (hg : s.x.grids.find? n = some g) (hpattern : (LRec.stitch g.lrec).1 ≠ 0)
    (h : ∀ p ∈ s.x.teams, p.2.st ≠ .resident) : execRestitch n s = s.onX fun x =>
      ({ x with stitch := (LRec.atolls g.lrec).foldl (fun m a => SMap.put (0, 0) m a (LRec.stitch g.lrec)) x.stitch } : Exec).post 0
        .teamPlacement := by
  have hbusy : (s.x.teams.any fun p => decide (p.2.st = .resident) && LRec.allows g.lrec p.2.core &&
      !decide ((s.x.lrecOf p.2).stitch.1 = (LRec.stitch g.lrec).1)) = false :=
    List.any_eq_false.2 fun p hp => by simp [h p hp]
  simp only [execRestitch, State.onX, hg, hbusy, hpattern, decide_false, Bool.false_or, Bool.false_eq_true, if_false]

theorem Exec.stitch_post (x : Exec) (d : Nat) (e : Ev) : (x.post d e).stitch = x.stitch := by
  unfold Exec.post
  split <;> rfl

/-- A team as TEAM_FREE leaves it (R347). -/
def Team.freed (m : Team) : Team :=
  { m with st := .ended, tiles := [], arms := [], posts := [], unmat := [], saving := [], flagged := [] }

theorem execTeamFree_kept {s : State} {n : Nat} {m : Team} (hm : s.x.teams.find? n = some m) (h : s.x.teamFreeable n m = false) :
    execTeamFree n s = s.onX fun x => x := by
  simp only [execTeamFree, State.onX, hm, h, Bool.not_false, if_true]

theorem execTeamFree_freed {s : State} {n : Nat} {m : Team} (hm : s.x.teams.find? n = some m) (h : s.x.teamFreeable n m = true) :
    ∃ y : Exec, execTeamFree n s = s.onX (fun _ => y) ∧ y.teams.find? n = some m.freed := by
  refine ⟨_, by simp only [execTeamFree, State.onX, hm, h, Bool.not_true, Bool.false_eq_true, if_false]; rfl, ?_⟩
  rw [Exec.teams_post, Exec.teams_post, foldl_keeps Exec.teams (fun x p => Exec.teams_post ..), Exec.modTeam_teams,
    SMap.find?_modify, if_pos rfl, hm]
  rfl

end Sys2Proof.Machine
end

section
/-! PROOFS. Where teams stand: what starts of queued matrix work, marks and wakes leave of it, and what a stop makes of it
(13 R312, R314, 16 R331, 17 R343). -/

namespace Sys2Proof.Machine

/-! ### Teams by where they stand -/

/-- What of a team says where it stands. -/
def Team.berth (m : Team) : Nat × TSt × List Nat := (m.grid, m.st, m.saving)

/-- The teams by where they stand, and the grids. -/
def Exec.roster (x : Exec) : SMap (Nat × TSt × List Nat) × SMap Grid := (x.teams.map fun p => (p.1, p.2.berth), x.grids)

theorem Exec.roster_congr {x y : Exec} (ht : y.teams = x.teams) (hg : y.grids = x.grids) : y.roster = x.roster := by
  rw [Exec.roster, Exec.roster, ht, hg]

theorem Exec.roster_of_besideWaves {x y : Exec} (h : y.besideWaves = x.besideWaves) : y.roster = x.roster :=
  Exec.roster_congr (Exec.teams_of_besideWaves h) (Exec.grids_of_besideWaves h)

/-- A change of one team that leaves it where it stands. -/
theorem Exec.roster_modTeam {f : Team → Team} (h : ∀ m, (f m).berth = m.berth) (x : Exec) (t : Nat) :
    (x.modTeam t f).roster = x.roster := by
  refine Prod.ext ?_ rfl
  simp only [Exec.roster, Exec.modTeam_teams, SMap.modify, List.map_map]
  refine List.map_congr_left fun p _ => ?_
  simp only [Function.comp]
  split
  · exact congrArg (Prod.mk p.1) (h p.2)
  · rfl

theorem Exec.find?_roster (x : Exec) (t : Nat) : x.roster.1.find? t = (x.teams.find? t).map Team.berth := SMap.find?_map ..

theorem Exec.berth_of_roster {x y : Exec} (h : y.roster = x.roster) (t : Nat) :
    (y.teams.find? t).map Team.berth = (x.teams.find? t).map Team.berth := by
  rw [← Exec.find?_roster, h, Exec.find?_roster]

theorem Exec.roster_foldl {α : Type} {f : Exec → α → Exec} (h : ∀ x a, (f x a).roster = x.roster) (l : List α) (x : Exec) :
    (l.foldl f x).roster = x.roster := foldl_keeps Exec.roster h l x

@[simp] theorem Exec.roster_post (x : Exec) (d : Nat) (e : Ev) : (x.post d e).roster = x.roster :=
  Exec.roster_of_besideWaves (x.besideWaves_post d e)

/-! ### Queued matrix work (R312, R314) -/

@[simp] theorem Exec.roster_mxEnter (x : Exec) (o : MxOp) (u : Nat) : (x.mxEnter o u).roster = x.roster := by
  unfold Exec.mxEnter
  dsimp only
  split
  · rfl
  · exact Exec.roster_post ..

@[simp] theorem Exec.roster_wakeRetry (x : Exec) (why : Nat) : (x.wakeRetry why).roster = x.roster :=
  Exec.roster_of_besideWaves (x.besideWaves_unholdWhere _)

@[simp] theorem Exec.roster_mxStart (x : Exec) (t : Nat) (k : Option Nat) (key u : Nat) (g : Sig) :
    (x.mxStart t k key u g).roster = x.roster := by
  unfold Exec.mxStart
  split
  · rfl
  · dsimp only
    rw [roster_wakeRetry, roster_mxEnter]
    refine (Exec.roster_modTeam (fun m => ?_) _ t).trans rfl
    cases k <;> split <;> rfl

@[simp] theorem Exec.roster_mxReady (x : Exec) (t k u : Nat) : (x.mxReady t k u).roster = x.roster := by
  unfold Exec.mxReady
  split
  · rfl
  · split
    · split
      · exact x.roster_mxStart ..
      · rfl
    · rfl

@[simp] theorem Exec.roster_mxReadyAll (x : Exec) (core : Nat) : (x.mxReadyAll core).roster = x.roster :=
  Exec.roster_foldl (fun x _ => Exec.roster_foldl (fun x _ => x.roster_mxReady ..) _ x) _ x

@[simp] theorem Exec.roster_mxMoved (x : Exec) (core : Nat) : (x.mxMoved core).roster = x.roster := by
  rw [Exec.mxMoved, roster_post, roster_wakeRetry, roster_mxReadyAll]

@[simp] theorem Exec.roster_wakeCopy (x : Exec) (core : Nat) : (x.wakeCopy core).roster = x.roster :=
  Exec.roster_of_besideWaves (x.besideWaves_wakeCopy core)

/-! ### Marks (R343) -/

@[simp] theorem Exec.roster_markLines (x : Exec) (core t : Nat) (out : Bool) : (x.markLines core t out).roster = x.roster := rfl

/-- A team with its physical tiles marked, or without marks. -/
def Team.markedTiles (out : Bool) (stamp : Nat) (m : Team) : Team :=
  { m with tiles := m.tiles.map fun p => (p.1, { p.2 with mark := if out && p.2.phys then some stamp else none }) }

theorem Exec.markTiles_eq (x : Exec) (t : Nat) (out : Bool) :
    x.markTiles t out = { x.modTeam t (Team.markedTiles out x.fresh) with fresh := x.fresh + 1 } := rfl

@[simp] theorem Exec.roster_markTiles (x : Exec) (t : Nat) (out : Bool) : (x.markTiles t out).roster = x.roster := by
  rw [markTiles_eq]
  exact Exec.roster_modTeam (f := Team.markedTiles out x.fresh) (fun _ => rfl) x t

/-! ### A team stops (R331, R343) -/

theorem Exec.lrecOf_congr {x y : Exec} {m n : Team} (hg : y.grids = x.grids) (hm : n.grid = m.grid) : y.lrecOf n = x.lrecOf m := by
  rw [Exec.lrecOf, Exec.gridOf, hg, hm, Exec.lrecOf, Exec.gridOf]

theorem Exec.teams_mxRuns (x : Exec) (core t : Nat) : (x.mxRuns core t).teams = x.teams := by
  unfold Exec.mxRuns
  split
  · rfl
  · split <;> rfl

theorem Exec.grids_mxRuns (x : Exec) (core t : Nat) : (x.mxRuns core t).grids = x.grids := by
  unfold Exec.mxRuns
  split
  · rfl
  · split <;> rfl

/-- A team as its stop leaves it, with its blocks to save. -/
def Team.stopping (blocks : Nat) (m : Team) : Team := { m with st := .queued true, saving := List.range blocks }

/-- A stop changes where the team stands that stops, and nothing else of any team's place. -/
theorem Exec.roster_stopTeam {x : Exec} {t : Nat} {m : Team} (hm : x.teams.find? t = some m) (hst : m.st = .resident) :
    (x.stopTeam t).roster = (x.modTeam t (Team.stopping ((x.lrecOf m).space / 1024))).roster := by
  have hstop : ((x.mxRuns m.core t).modTeam t (Team.stopping ((x.lrecOf m).space / 1024))).roster =
      (x.modTeam t (Team.stopping ((x.lrecOf m).space / 1024))).roster :=
    Exec.roster_congr (by rw [modTeam_teams, modTeam_teams, teams_mxRuns]) (x.grids_mxRuns ..)
  simp only [Exec.stopTeam, hm, hst, ne_eq, not_true_eq_false, if_false]
  rw [roster_post, roster_wakeCopy, roster_mxMoved, roster_markTiles, roster_markLines]
  split
  · exact hstop
  · exact (Exec.roster_post ..).trans hstop

theorem Exec.stopTeam_away {x : Exec} {t : Nat} (h : ∀ m, x.teams.find? t = some m → m.st ≠ .resident) : x.stopTeam t = x := by
  rcases hm : x.teams.find? t with _ | m
  · simp only [Exec.stopTeam, hm]
  · simp only [Exec.stopTeam, hm, h m hm, ne_eq, not_false_eq_true, if_true]

/-- A team is on its core or has stopped, with the blocks of its allocation to save; `gone` says that it has stopped. -/
def Exec.Halting (g : SMap Grid) (t : Nat) (m : Team) (blocks : Nat) (gone : Bool) (y : Exec) : Prop :=
  y.grids = g ∧ ∃ n, y.teams.find? t = some n ∧ n.grid = m.grid ∧
    (gone = false ∧ n.st = .resident ∨ n.st = .queued true ∧ n.saving = List.range blocks)

theorem Exec.Halting.of_roster {g : SMap Grid} {t blocks : Nat} {m : Team} {gone : Bool} {x y : Exec}
    (h : Exec.Halting g t m blocks gone x) (hr : y.roster = x.roster) : Exec.Halting g t m blocks gone y := by
  obtain ⟨hg, n, hn, hgrid, hwhere⟩ := h
  have hberth := Exec.berth_of_roster hr t
  rw [hn, Option.map_some, Option.map_eq_some_iff] at hberth
  obtain ⟨n', hn', heq⟩ := hberth
  simp only [Team.berth, Prod.mk.injEq] at heq
  obtain ⟨h1, h2, h3⟩ := heq
  exact ⟨(congrArg Prod.snd hr).trans hg, n', hn', h1.trans hgrid, by rw [h2, h3]; exact hwhere⟩

/-- A stop of any team keeps it so, and a stop of this one makes it stop. -/
theorem Exec.Halting.stopTeam {x : Exec} {t : Nat} {m : Team} {gone : Bool} {y : Exec}
    (h : Exec.Halting x.grids t m ((x.lrecOf m).space / 1024) gone y) (u : Nat) :
    Exec.Halting x.grids t m ((x.lrecOf m).space / 1024) (gone || decide (u = t)) (y.stopTeam u) := by
  obtain ⟨hg, n, hn, hgrid, hwhere⟩ := h
  by_cases hres : ∃ q, y.teams.find? u = some q ∧ q.st = .resident
  · obtain ⟨q, hq, hst⟩ := hres
    refine Exec.Halting.of_roster (x := y.modTeam u (Team.stopping ((y.lrecOf q).space / 1024))) ⟨hg, ?_⟩
      (Exec.roster_stopTeam hq hst)
    rw [modTeam_teams, SMap.find?_modify]
    by_cases hu : t = u
    · subst hu
      obtain rfl : n = q := Option.some.inj (hn.symm.trans hq)
      rw [if_pos rfl, hn]
      exact ⟨_, rfl, hgrid, .inr ⟨rfl, by rw [Team.stopping, Exec.lrecOf_congr hg hgrid]⟩⟩
    · rw [if_neg hu]
      exact ⟨n, hn, hgrid, by rw [decide_eq_false (Ne.symm hu), Bool.or_false]; exact hwhere⟩
  · rw [Exec.stopTeam_away fun q hq hst => hres ⟨q, hq, hst⟩]
    refine ⟨hg, n, hn, hgrid, ?_⟩
    rcases hwhere with ⟨hgone, hst⟩ | hstopped
    · refine .inl ⟨?_, hst⟩
      rw [hgone, Bool.false_or]
      exact decide_eq_false fun hu => hres ⟨n, hu ▸ hn, hst⟩
    · exact .inr hstopped

theorem Exec.Halting.weaken {g : SMap Grid} {t blocks : Nat} {m : Team} {a b : Bool} {y : Exec}
    (h : Exec.Halting g t m blocks b y) (hab : b = false → a = false) : Exec.Halting g t m blocks a y := by
  obtain ⟨hg, n, hn, hgrid, hwhere⟩ := h
  exact ⟨hg, n, hn, hgrid, hwhere.imp_left fun ⟨hb, hst⟩ => ⟨hab hb, hst⟩⟩

/-- The stops of a grid's teams keep a team that stands so. -/
theorem Exec.Halting.stopGridTeams {x : Exec} {t : Nat} {m : Team} {gone : Bool} {y : Exec}
    (h : Exec.Halting x.grids t m ((x.lrecOf m).space / 1024) gone y) (g : Nat) :
    Exec.Halting x.grids t m ((x.lrecOf m).space / 1024) gone (y.stopGridTeams g) := by
  unfold Exec.stopGridTeams
  generalize y.teams.filter (fun p => decide (p.2.grid = g)) = l
  induction l generalizing y with
  | nil => exact h
  | cons p l ih => exact ih ((h.stopTeam p.1).weaken fun e => (Bool.or_eq_false_iff.1 e).1)

/-- Among victims, a team of a launch that is no cohort stops (R331). -/
theorem Exec.Halting.stopVictims {x : Exec} {t : Nat} {m : Team} (hcohort : (x.lrecOf m).cohort = false) {l : List (Nat × Team)}
    {gone : Bool} {y : Exec} (h : Exec.Halting x.grids t m ((x.lrecOf m).space / 1024) gone y) :
    Exec.Halting x.grids t m ((x.lrecOf m).space / 1024) (gone || decide ((t, m) ∈ l)) (y.stopVictims l) := by
  induction l generalizing y gone with
  | nil => exact h.weaken fun e => by rw [e, Bool.false_or]; exact decide_eq_false List.not_mem_nil
  | cons p l ih =>
    have hone : Exec.Halting x.grids t m ((x.lrecOf m).space / 1024) (gone || decide ((t, m) = p))
        (if (y.lrecOf p.2).cohort then y.stopGridTeams p.2.grid else y.stopTeam p.1) := by
      split
      next hp =>
        refine (h.stopGridTeams p.2.grid).weaken fun e => ?_
        rw [e, Bool.false_or]
        refine decide_eq_false fun heq => ?_
        subst heq
        rw [Exec.lrecOf_congr h.1 rfl, hcohort] at hp
        exact Bool.false_ne_true hp
      · refine (h.stopTeam p.1).weaken fun e => ?_
        rw [Bool.or_eq_false_iff] at e ⊢
        exact ⟨e.1, decide_eq_false fun heq => of_decide_eq_false e.2 (congrArg Prod.fst heq).symm⟩
    refine (ih hone).weaken fun e => ?_
    rw [Bool.or_assoc, Bool.or_eq_false_iff] at e
    rw [Bool.or_eq_false_iff]
    refine ⟨e.1, decide_eq_false fun hmem => ?_⟩
    rcases List.mem_cons.1 hmem with heq | hl
    · exact of_decide_eq_false (Bool.or_eq_false_iff.1 e.2).1 heq
    · exact of_decide_eq_false (Bool.or_eq_false_iff.1 e.2).2 hl

end Sys2Proof.Machine
end

section
/-! PROOFS. A team's stop wakes no wave where no queued operation can start and no wave waits for a place (13 R312, 05 R96, R112,
17 R343). -/

namespace Sys2Proof.Machine

/-! ### Nothing to start, and nothing to wake -/

/-- No team has a frieze operation that every member has signed. -/
def Exec.NoStart (x : Exec) : Prop := ∀ p ∈ x.teams, ∀ k, (p.2.conv k).complete = false

theorem Exec.NoStart.congr {x y : Exec} (h : x.NoStart) (ht : y.teams = x.teams) : y.NoStart := by
  unfold Exec.NoStart
  rw [ht]
  exact h

theorem Exec.NoStart.modTeam {x : Exec} (h : x.NoStart) (t : Nat) {f : Team → Team} (hf : ∀ m, (f m).convs = m.convs) :
    (x.modTeam t f).NoStart := by
  intro p hp k
  rw [Exec.modTeam_teams] at hp
  obtain ⟨q, hq, rfl⟩ := List.mem_map.1 hp
  have hconv : (f q.2).conv k = q.2.conv k := by rw [Team.conv, hf, Team.conv]
  split
  · exact (congrArg Conv.complete hconv).trans (h q hq k)
  · exact h q hq k

theorem Exec.NoStart.markTiles {x : Exec} (h : x.NoStart) (t : Nat) (out : Bool) : (x.markTiles t out).NoStart := by
  rw [markTiles_eq]
  exact (h.modTeam t (f := Team.markedTiles out x.fresh) fun _ => rfl).congr rfl

theorem SMap.mem_of_find? {α : Type} {m : SMap α} {k : Nat} {v : α} (h : m.find? k = some v) : (k, v) ∈ m := by
  induction m with
  | nil => exact absurd h (by simp [SMap.find?])
  | cons p r ih =>
    rw [SMap.find?] at h
    split at h
    next hk => exact List.mem_cons.2 (.inl (Prod.ext hk (Option.some.inj h).symm))
    · exact List.mem_cons_of_mem _ (ih h)

theorem Exec.NoStart.mxReady {x : Exec} (h : x.NoStart) (t k u : Nat) : x.mxReady t k u = x := by
  unfold Exec.mxReady
  split
  · rfl
  next m hm =>
    split
    · rw [h _ (SMap.mem_of_find? hm) k, Bool.false_and, if_neg Bool.false_ne_true]
    · rfl

theorem Exec.NoStart.mxReadyAll {x : Exec} (h : x.NoStart) (core : Nat) : x.mxReadyAll core = x :=
  List.foldl_fixed' (fun p => List.foldl_fixed' (fun k => h.mxReady p.1 k _) (List.range 8)) _

/-- No wave waits for a place of a matrix queue or for room for a copy. -/
def Exec.NoPlaceWait (x : Exec) : Prop := ∀ p ∈ x.waves, p.2.hold ≠ some (.retry rvMatrix) ∧ p.2.hold ≠ some (.retry rvCopy)

theorem Exec.NoPlaceWait.wakeRetry {x : Exec} (h : x.NoPlaceWait) : x.wakeRetry rvMatrix = x := by
  unfold Exec.wakeRetry Exec.unholdWhere
  refine (List.foldl_ext _ (fun x _ => x) x fun y p hp => ?_).trans (List.foldl_fixed _)
  refine if_neg ?_
  rw [Bool.and_eq_true, decide_eq_true_eq]
  exact fun e => (h p hp).1 e.2

theorem Exec.NoPlaceWait.wakeCopy {x : Exec} (h : x.NoPlaceWait) (core : Nat) : x.wakeCopy core = x := by
  have hno (u : Nat) : ((x.wave? u).elim false fun w => decide (w.hold = some (.retry rvCopy))) = false := by
    rcases hu : x.wave? u with _ | w
    · rfl
    · exact decide_eq_false (h _ (SMap.mem_of_find? hu)).2
  unfold Exec.wakeCopy
  split
  · rw [hno, if_neg Bool.false_ne_true]
  · rfl

theorem Exec.NoPlaceWait.congr {x y : Exec} (h : x.NoPlaceWait) (hw : y.waves = x.waves) : y.NoPlaceWait := by
  unfold Exec.NoPlaceWait
  rw [hw]
  exact h

/-- Nothing of the waves changes where a queue's places have changed. -/
theorem Exec.waves_mxMoved {x : Exec} (h : x.NoStart) (hw : x.NoPlaceWait) (core : Nat) : (x.mxMoved core).waves = x.waves := by
  rw [Exec.mxMoved, Exec.waves_post, h.mxReadyAll, hw.wakeRetry]

/-! ### A stop -/

theorem Exec.waves_mxRuns (x : Exec) (core t : Nat) : (x.mxRuns core t).waves = x.waves := by
  unfold Exec.mxRuns
  split
  · rfl
  · split <;> rfl

theorem Exec.waves_stopTeam {x : Exec} (h : x.NoStart) (hw : x.NoPlaceWait) (t : Nat) : (x.stopTeam t).waves = x.waves := by
  rcases hm : x.teams.find? t with _ | m
  · simp only [Exec.stopTeam, hm]
  by_cases hst : m.st = .resident
  swap
  · simp only [Exec.stopTeam, hm, hst, ne_eq, not_false_eq_true, if_true]
  simp only [Exec.stopTeam, hm, hst, ne_eq, not_true_eq_false, if_false]
  have hstop : ((x.mxRuns m.core t).modTeam t (Team.stopping ((x.lrecOf m).space / 1024))).NoStart :=
    (h.congr (x.teams_mxRuns ..)).modTeam t fun _ => rfl
  have hleave (y : Exec) (hys : y.NoStart) (hyw : y.waves = x.waves) :
      (((((y.markLines m.core t true).markTiles t true).mxMoved m.core).wakeCopy m.core).post 0 .teamPlacement).waves = x.waves := by
    have hys' : ((y.markLines m.core t true).markTiles t true).NoStart :=
      Exec.NoStart.markTiles (x := y.markLines m.core t true) (hys.congr rfl) t true
    have hyw' := hw.congr (y := (y.markLines m.core t true).markTiles t true) hyw
    have hmoved := Exec.waves_mxMoved hys' hyw' m.core
    rw [Exec.waves_post, (hyw'.congr hmoved).wakeCopy, hmoved]
    exact hyw
  refine hleave _ ?_ ?_
  · split
    · exact hstop.congr rfl
    · exact hstop.congr (Exec.teams_post ..)
  · split
    · exact x.waves_mxRuns ..
    · exact (Exec.waves_post ..).trans (x.waves_mxRuns ..)

end Sys2Proof.Machine
end

section
/-! PROOFS. Pre-emption, saving, and swap-out (05 R111 to R113, 16 R331, 17 R343). -/

namespace Sys2Proof.Machine

/-! ### Swap-out (R112) -/

/-- The objects of a team that its waves wait on. -/
def Exec.phaseObjs (x : Exec) (t : Nat) : List Nat := (x.teamWaves t).filterMap fun p => match p.2.hold with
  | some (.phase o _ _) => some o
  | _ => none

/-- An object of a team is flagged as awaited by a team that is swapped out. -/
def Team.flag (o : Nat) (m : Team) : Team := m.setTb o { m.tb o with swapped := true }

/-- The objects that a team waits on are flagged. -/
def Exec.flagged (x : Exec) (t : Nat) (l : List Nat) : Exec := l.foldl (fun x o => x.modTeam t (Team.flag o)) x

theorem Team.berth_store (m : Team) (o : Nat) (b : List Byte) : (m.store o b).berth = m.berth := rfl
theorem Team.berth_flag (m : Team) (o : Nat) : (m.flag o).berth = m.berth := m.berth_store ..
theorem Team.convs_store (m : Team) (o : Nat) (b : List Byte) : (m.store o b).convs = m.convs := rfl
theorem Team.convs_flag (m : Team) (o : Nat) : (m.flag o).convs = m.convs := m.convs_store ..

theorem Exec.roster_flagged (x : Exec) (t : Nat) (l : List Nat) : (x.flagged t l).roster = x.roster :=
  Exec.roster_foldl (fun x o => Exec.roster_modTeam (f := Team.flag o) (fun m => m.berth_flag o) x t) l x

theorem Exec.waves_flagged (x : Exec) (t : Nat) (l : List Nat) : (x.flagged t l).waves = x.waves :=
  foldl_keeps Exec.waves (f := fun x o => x.modTeam t (Team.flag o)) (fun _ _ => rfl) l x

theorem Exec.NoStart.flagged {x : Exec} (h : x.NoStart) (t : Nat) (l : List Nat) : (x.flagged t l).NoStart := by
  induction l generalizing x with
  | nil => exact h
  | cons o l ih => exact ih (h.modTeam t (f := Team.flag o) fun m => m.convs_flag o)

theorem execSwapOut_out {s : State} {n : Nat} {m : Team} (hm : s.x.teams.find? n = some m) (h : s.x.parkClock n m = true) :
    execSwapOut n s = s.onX fun x => ((x.flagged n (x.phaseObjs n)).stopTeam n).modTeam n fun m =>
      { m with st := .swapped, flagged := x.phaseObjs n } := by
  simp only [execSwapOut, State.onX, hm, h, Bool.not_true, Bool.false_eq_true, if_false]
  rfl

theorem Exec.parkClock_resident {x : Exec} {n : Nat} {m : Team} (h : x.parkClock n m = true) : m.st = .resident := by
  simp only [Exec.parkClock, Bool.and_eq_true, decide_eq_true_eq] at h
  obtain ⟨⟨⟨⟨⟨hst, -⟩, -⟩, -⟩, -⟩, -⟩ := h
  exact hst

/-- A team on its core has stopped after its stop, whatever the flags of its objects. -/
theorem Exec.Halting.flagged {x : Exec} {n : Nat} {m : Team} (hm : x.teams.find? n = some m) (hst : m.st = .resident) (l : List Nat) :
    Exec.Halting x.grids n m ((x.lrecOf m).space / 1024) true ((x.flagged n l).stopTeam n) := by
  have hstart : Exec.Halting x.grids n m ((x.lrecOf m).space / 1024) false x := ⟨rfl, m, hm, rfl, .inl ⟨rfl, hst⟩⟩
  exact ((hstart.of_roster (x.roster_flagged n l)).stopTeam n).weaken fun e => by simp at e

end Sys2Proof.Machine

namespace Sys2Proof.Proofs

open Sys2Proof.Machine Sys2Proof.Claim

/-- A team whose park clock has run leaves its core, with its blocks to save; no wave changes where nothing waits for a place
(R111, R112). -/
theorem swapOut_swaps {s : State} {n : Nat} {m : Team} (hm : s.x.teams.find? n = some m) (h : s.x.parkClock n m = true) :
    ∃ y : Exec, execSwapOut n s = s.onX (fun _ => y) ∧
      (NoneToStart s → (∀ p ∈ s.x.waves, p.2.hold ≠ some (.retry rvMatrix) ∧ p.2.hold ≠ some (.retry rvCopy)) → y.waves = s.x.waves) ∧
      (y.teams.find? n).map (fun m => (m.st, m.saving)) = some (.swapped, List.range ((s.x.lrecOf m).space / 1024)) := by
  refine ⟨_, execSwapOut_out hm h, fun hnone hhold => ?_, ?_⟩
  · have hno : s.x.NoStart := hnone
    exact (Exec.waves_stopTeam (hno.flagged n _) (Exec.NoPlaceWait.congr hhold (s.x.waves_flagged ..)) n).trans (s.x.waves_flagged ..)
  · obtain ⟨-, q, hq, -, hwhere⟩ := Exec.Halting.flagged hm (Exec.parkClock_resident h) (s.x.phaseObjs n)
    rcases hwhere with ⟨e, -⟩ | ⟨-, hsaving⟩
    · exact absurd e (by decide)
    · rw [Exec.modTeam_teams, SMap.find?_modify, if_pos rfl, hq, Option.map_some, Option.map_some, hsaving]

/-- Victims of launches that are no cohorts stop (R331, R343). -/
theorem priorityPreemption_stops {s : State} {t : Nat} {m : Team} {vs : List (Nat × Team)} (hhead : s.x.queueHead = some (t, m))
    (hcohort : (s.x.lrecOf m).cohort = false) (hvs : s.victimsFor [(t, m)] = some vs) :
    execPriorityPreemption s = s.onX (fun _ => s.x.stopVictims vs) ∧
    ∀ p ∈ vs, s.x.teams.find? p.1 = some p.2 → p.2.st = .resident → (s.x.lrecOf p.2).cohort = false →
      ((s.x.stopVictims vs).teams.find? p.1).map (fun m => (m.st, m.saving)) =
        some (.queued true, List.range ((s.x.lrecOf p.2).space / 1024)) := by
  refine ⟨?_, fun p hp hfind hst hnot => ?_⟩
  · simp only [execPriorityPreemption, State.onX, hhead, hcohort, Bool.false_eq_true, if_false, hvs]
  · have hstart : Exec.Halting s.x.grids p.1 p.2 ((s.x.lrecOf p.2).space / 1024) false s.x := ⟨rfl, p.2, hfind, rfl, .inl ⟨rfl, hst⟩⟩
    obtain ⟨-, q, hq, -, hwhere⟩ := hstart.stopVictims hnot (l := vs)
    rcases hwhere with ⟨e, -⟩ | ⟨hqst, hsaving⟩
    · exact absurd hp (of_decide_eq_false e)
    · rw [hq, Option.map_some, hqst, hsaving]

end Sys2Proof.Proofs
end

section
/-! PROOFS. A write that is sent and performed at once, and one block of a stopped team saved (03 R73, R74, 05 R112, 17 R343). -/

namespace Sys2Proof.Machine

/-- Where no request waits, a write that is sent is the one that its square performs. -/
theorem State.send_drainSq {s : State} (hreqs : s.mem.reqs = []) {mask : Nat} (hmask : mask ≠ 0) (core ctx : Nat) (l : Loc)
    (data : List Byte) (pois : Option Bool) (src : ReqSrc) : ∃ (u : State) (r : Req),
    (s.send core ctx l mask data pois src).drainSq (l.sec / 32) = u.performReq r ∧ u.mem.reqs = [r] ∧ u.mem.dev = s.mem.dev ∧
      u.mem.sealed = s.mem.sealed ∧ r.loc = l ∧ r.mask = mask ∧ r.data = data := by
  have hsend : ∃ r : Req, (s.send core ctx l mask data pois src).mem.reqs = [r] ∧
      (s.send core ctx l mask data pois src).mem.dev = s.mem.dev ∧ (s.send core ctx l mask data pois src).mem.sealed = s.mem.sealed ∧
      r.loc = l ∧ r.mask = mask ∧ r.data = data := by
    unfold State.send
    rw [if_neg hmask]
    dsimp only
    split <;> exact ⟨_, congrArg (· ++ _) hreqs, rfl, rfl, rfl, rfl, rfl⟩
  obtain ⟨r, hr, hdev, hsealed, hloc, hm, hdata⟩ := hsend
  refine ⟨_, r, ?_, hr, hdev, hsealed, hloc, hm, hdata⟩
  have hsq : r.sq = l.sec / 32 := congrArg (fun k : Loc => k.sec / 32) hloc
  have hone : [r].filter (fun q => decide (q.sq = l.sec / 32)) = [r] := by simp [hsq]
  rw [State.drainSq, hr, hone, List.foldl_cons, List.foldl_nil]

/-- A performed request was the last one. -/
theorem State.reqs_performReq_single {u : State} {r : Req} (h : u.mem.reqs = [r]) : (u.performReq r).mem.reqs = [] := by
  rw [State.reqs_performReq, h, List.filter_cons_of_neg (by simp), List.filter_nil]

@[simp] theorem State.besideMem_imageWrite (s : State) (core ctx : Nat) (l : List (Loc × List Byte × Bool)) :
    (s.imageWrite core ctx l).x.besideMem = s.x.besideMem :=
  State.besideMem_foldl (fun s p => by rw [besideMem_drainSq, besideMem_send]) l s

/-- Writes of the image change no byte of another sector. -/
theorem State.get_dev_imageWrite {s : State} (hreqs : s.mem.reqs = []) (core ctx : Nat) {l : List (Loc × List Byte × Bool)} {a : Nat}
    (ha : ∀ p ∈ l, a / 32 ≠ p.1.sec) : (s.imageWrite core ctx l).mem.dev.get 0 a = s.mem.dev.get 0 a := by
  induction l generalizing s with
  | nil => rfl
  | cons p l ih =>
    obtain ⟨u, r, hsend, hu, hdev, -, hloc, -, -⟩ :=
      State.send_drainSq hreqs (mask := fullMask) (by decide) core ctx p.1 p.2.1 (some p.2.2) .back
    have hstep : (u.performReq r).mem.dev.get 0 a = s.mem.dev.get 0 a := by
      rw [State.get_dev_performReq u r (by rw [hloc]; exact ha p List.mem_cons_self), hdev]
    have hrest := ih (State.reqs_performReq_single hu) fun q hq => ha q (List.mem_cons_of_mem _ hq)
    rw [← hsend] at hstep hrest
    exact hrest.trans hstep

/-- A save of a team's local memory writes its place in the image. -/
theorem State.saveLocal_eq {s : State} {t : Nat} {m : Team} (hm : s.x.teams.find? t = some m) (o n : Nat) : ∃ l,
    s.saveLocal t o n = s.imageWrite m.core ((s.x.gridOf m).elim 0 Grid.ctx) l ∧
      ∀ p ∈ l, p.1 ∈ s.imageAt ((s.x.gridOf m).elim 0 Grid.ctx) m.img (localOff o) n := by
  refine ⟨_, by simp only [State.saveLocal, hm]; rfl, fun p hp => ?_⟩
  obtain ⟨q, hq, rfl⟩ := List.mem_map.1 hp
  exact (List.mem_zipIdx hq).2.2 ▸ List.getElem_mem _

end Sys2Proof.Machine
end

section
/-! PROOFS. Teams that stop: pre-emption, the save of a block, swap-out and its end (05 R111 to R113, 16 R331, 17 R343). -/

namespace Sys2Proof.Machine

/-- What LOCAL_BLOCK_SAVE leaves before it counts the block: the block's sectors of the image (R343). -/
def State.blockSaved (s : State) (n : Nat) (m : Team) : State := match m.saving with
  | [] => s
  | b :: _ => s.saveLocal n (1024 * b) 1024

theorem State.besideMem_blockSaved {s : State} {n : Nat} {m : Team} (hm : s.x.teams.find? n = some m) :
    (s.blockSaved n m).x.besideMem = s.x.besideMem := by
  unfold State.blockSaved
  split
  · rfl
  · obtain ⟨l, hsave, -⟩ := State.saveLocal_eq hm _ _
    rw [hsave, State.besideMem_imageWrite]

theorem execLocalBlockSave_eq {s : State} {n : Nat} {m : Team} (hm : s.x.teams.find? n = some m) :
    ∃ y : Exec, execLocalBlockSave n s = .next { s with mem := (s.blockSaved n m).mem, x := y } ∧
      y.teams = ((s.blockSaved n m).x.modTeam n fun m => { m with saving := m.saving.drop 1 }).teams ∧
      y.waves = (s.blockSaved n m).x.waves := by
  have hexec : execLocalBlockSave n s = .next { (s.blockSaved n m).modX fun x =>
      if m.saving.length ≤ 1 then (x.modTeam n fun m => { m with saving := m.saving.drop 1 }).post 0 .teamPlacement
      else (x.modTeam n fun m => { m with saving := m.saving.drop 1 }).post 1 (.localBlockSave n) with trust := s.trust } := by
    cases hs : m.saving <;> simp only [execLocalBlockSave, State.onMem, hm, State.blockSaved, hs]
  refine ⟨_, hexec, ?_, ?_⟩ <;> simp only [State.modX] <;> split
  · exact Exec.teams_post ..
  · exact Exec.teams_post ..
  · exact Exec.waves_post ..
  · exact Exec.waves_post ..

theorem execSwapRequeue_swapped {s : State} {n : Nat} {m : Team} (hm : s.x.teams.find? n = some m) (hst : m.st = .swapped) :
    execSwapRequeue n s = s.onX fun x => (x.modTeam n fun m => { m with st := .queued true }).post 0 .teamPlacement := by
  simp only [execSwapRequeue, State.onX, hm, hst, if_true]

theorem execSwapRequeue_other {s : State} {n : Nat} {m : Team} (hm : s.x.teams.find? n = some m) (hst : m.st ≠ .swapped) :
    execSwapRequeue n s = s.onX fun x => x := by
  simp only [execSwapRequeue, State.onX, hm, hst, if_false]

end Sys2Proof.Machine

namespace Sys2Proof.Proofs

open Sys2Proof.Machine Sys2Proof.Claim

/-- Teams stop as R331 chooses, are saved by blocks, and are swapped out and queued again (R111 to R113, R331, R343). -/
theorem teamStops : TeamStops := by
  refine ⟨fun s hnone => ?_, fun s t m hhead hcohort => ⟨fun hvs => ?_, fun vs hvs => ?_⟩,
    fun s n m hm => ⟨?_, fun hclock => ?_, fun hclock => ?_, fun hst => ?_, fun hst => ?_⟩⟩
  · have hexec : execPriorityPreemption s = s.onX fun x => x := by simp only [execPriorityPreemption, State.onX, hnone]
    exact ⟨_, hexec, rfl, rfl, rfl⟩
  · have hexec : execPriorityPreemption s = s.onX fun x => x := by
      simp only [execPriorityPreemption, State.onX, hhead, hcohort, Bool.false_eq_true, if_false, hvs]
    exact ⟨_, hexec, rfl, rfl, rfl⟩
  · obtain ⟨hexec, hstopped⟩ := priorityPreemption_stops hhead hcohort hvs
    exact ⟨_, hexec, rfl, rfl, hstopped⟩
  · obtain ⟨y, hexec, hteams, hwaves⟩ := execLocalBlockSave_eq hm
    have hb := State.besideMem_blockSaved hm
    refine ⟨_, hexec, rfl, ?_, hwaves.trans (Exec.waves_of_besideMem hb), fun hnil => ?_, fun b hhead hreqs => ?_⟩
    · show y.teams.find? n = _
      rw [hteams, Exec.modTeam_teams, SMap.find?_modify, if_pos rfl, Exec.teams_of_besideMem hb, hm, Option.map_some]
    · show (s.blockSaved n m).mem = s.mem
      simp only [State.blockSaved, hnil]
    · obtain ⟨r, hsaving⟩ := List.head?_eq_some_iff.1 hhead
      obtain ⟨l, hsave, hkept⟩ := State.saveLocal_eq hm (1024 * b) 1024
      intro kept a ha
      show (s.blockSaved n m).mem.dev.get 0 a = _
      simp only [State.blockSaved, hsaving]
      rw [hsave]
      exact State.get_dev_imageWrite hreqs _ _ fun p hp => ha p.1 (hkept p hp)
  · have hexec : execSwapOut n s = s.onX fun x => x := by
      simp only [execSwapOut, State.onX, hm, hclock, Bool.not_false, if_true]
    exact ⟨_, hexec, rfl, rfl, rfl⟩
  · obtain ⟨y, hexec, hwaves, hteam⟩ := swapOut_swaps hm hclock
    exact ⟨_, hexec, rfl, rfl, hwaves, hteam⟩
  · refine ⟨_, execSwapRequeue_swapped hm hst, rfl, rfl, Exec.waves_post .., ?_⟩
    show ((s.x.modTeam n _).post 0 .teamPlacement).teams.find? n = _
    rw [Exec.teams_post, Exec.modTeam_teams, SMap.find?_modify, if_pos rfl, hm, Option.map_some]
  · exact ⟨_, execSwapRequeue_other hm hst, rfl, rfl, rfl⟩

end Sys2Proof.Proofs
end

section
/-! PROOFS. A grid that is over writes its completion record, and then leaves the module (08 R129, 16 R325, R326). -/

namespace Sys2Proof.Machine

/-! ### What the steps of a completion leave of the execution state -/

@[simp] theorem State.besideMem_drainCtx (s : State) (ctx : Nat) : (s.drainCtx ctx).x.besideMem = s.x.besideMem := by
  unfold State.drainCtx
  rw [besideMem_drainInvals]
  exact State.besideMem_foldl State.besideMem_drainSq _ s

@[simp] theorem State.besideMem_gridClean (s : State) (g : Nat) : (s.gridClean g).x.besideMem = s.x.besideMem := by
  unfold State.gridClean
  rw [besideMem_drainCtx]
  exact State.besideMem_foldl (fun s core => s.besideMem_writeBackIf ..) _ s

@[simp] theorem State.besideMem_devWrite (s : State) (c va : Nat) (b : List Byte) : (s.devWrite c va b).1.x.besideMem = s.x.besideMem := by
  have ht := s.besideMem_translate 0 c va { write := true, wait := false }
  unfold State.devWrite
  split
  · rfl
  · dsimp only
    split
    · split
      · exact ht
      · split
        · exact (State.besideMem_detect ..).trans ht
        · rw [besideMem_drainSq, State.engineWrite, besideMem_send, besideMem_l1Evict]
          exact ht
    · exact ht

@[simp] theorem State.besideMem_doneWrite (s : State) (d : Done) (item va : Nat) (b : List Byte) :
    (s.doneWrite d item va b).x.besideMem = s.x.besideMem := by
  have hr : (if va % b.length = 0 then s.devWrite d.ctx va b else (s, false)).1.x.besideMem = s.x.besideMem := by
    split
    · exact s.besideMem_devWrite ..
    · rfl
  unfold State.doneWrite
  split
  · rfl
  · dsimp only
    generalize (if va % b.length = 0 then s.devWrite d.ctx va b else (s, false)) = r at hr ⊢
    split
    · exact hr
    · exact (Exec.besideMem_err ..).trans hr

@[simp] theorem Exec.besideMem_queueMoved (x : Exec) (c q : Nat) : (x.queueMoved c q).besideMem = x.besideMem := by
  unfold Exec.queueMoved
  rw [besideMem_post]
  exact foldl_keeps Exec.besideMem (fun x w => x.besideMem_post ..) _ x

@[simp] theorem State.besideMem_signalDone (s : State) (d : Done) (status reason late inval code : Nat) :
    (s.signalDone d status reason late inval code).x.besideMem = s.x.besideMem := by
  unfold State.signalDone
  dsimp only
  exact (Exec.besideMem_queueMoved ..).trans ((State.besideMem_doneWrite ..).trans (State.besideMem_doneWrite ..))

/-! ### The completion record (R325, R326) -/

/-- The record that a completion writes. -/
def completionRecord (status reason late inval code id : Nat) : List Byte :=
  leBytes 1 status ++ leBytes 1 reason ++ leBytes 1 late ++ leBytes 1 0 ++ leBytes 2 inval ++ leBytes 2 code ++
    leBytes 4 id ++ List.replicate 20 0

theorem length_completionRecord (status reason late inval code id : Nat) :
    (completionRecord status reason late inval code id).length = 32 := by
  simp only [completionRecord, List.length_append, length_leBytes, List.length_replicate]

/-- A whole sector of data replaces what stood there. -/
theorem mergeBytes_whole {old b : List Byte} (ho : old.length = 32) (hb : b.length = 32) :
    mergeBytes (maskAt 0 32) old (placeAt 0 b) = b := by
  have hp : placeAt 0 b = b := by simp [placeAt, hb]
  rw [hp]
  apply List.ext_getElem
  · rw [length_mergeBytes, ho, hb, Nat.min_self]
  · intro k hk hk'
    rw [← List.getD_eq_getElem (d := 0), ← List.getD_eq_getElem (d := 0), getD_mergeBytes _ _ _ _ (by omega) hk', bitOf_maskAt,
      if_pos (decide_eq_true (by omega))]

theorem Loc.base_of_aligned {l : Loc} (h : l.pa % 32 = 0) : ({ l with pa := l.pa / 32 * 32 } : Loc) = l := by
  rw [show l.pa / 32 * 32 = l.pa by omega]

/-- A record written at an address that core 0 reaches, on memory without a request and with nothing in core 0's L1, stands in its
sector. -/
theorem State.sector_devWrite {s : State} {c va : Nat} {l : Loc} {b : List Byte} (hlen : b.length = 32) (hva : va % 32 = 0)
    (hreach : Claim.Reaches s ⟨0, c, 0⟩ { write := true } va l) (hpa : l.pa % 32 = 0) (hkey : l.key ≠ 0)
    (hl1 : ∀ d ∈ s.mem.l1, d.core ≠ 0) (hreqs : s.mem.reqs = []) (hunc : l.sec ∉ s.mem.unc) :
    (s.devWrite c va b).2 = true ∧ (s.devWrite c va b).1.mem.sector l.key l.sec = b := by
  have hxl := reaches_translate (n := { write := true, wait := false }) hreach rfl
  obtain ⟨hlt, hhost, -⟩ := hreach
  have hspan : ¬ (2 ^ 48 ≤ va ∨ 32 < va % 32 + b.length) := by omega
  have hevict : s.l1Evict 0 l.sec = s := State.l1Evict_eq_self fun d hd h0 => absurd h0 (hl1 d hd)
  obtain ⟨u, r, hsend, -, -, -, hloc, hmask, hdata⟩ :=
    State.send_drainSq hreqs (mask := maskAt 0 32) (by decide) 0 c l (placeAt 0 b) (storePois (maskAt 0 32)) .back
  have hwrite : s.devWrite c va b = (u.performReq r, true) := by
    rw [State.devWrite, if_neg hspan, hxl]
    simp only [Loc.base_of_aligned hpa]
    simp only [hhost, Bool.false_eq_true, if_false, List.contains_eq_mem, hunc, decide_false, hpa, hlen, State.engineWrite, hevict, hsend]
  have hsector := State.sector_performReq u r (by rw [hloc]; exact hkey)
    (by rw [hdata]; exact length_placeAt 0 b (by omega))
  rw [hloc, hmask, hdata, mergeBytes_whole (MemSys.length_sector ..) hlen] at hsector
  rw [hwrite]
  exact ⟨rfl, hsector⟩

/-! ### A grid whose data no L1 holds -/

/-- What of the module an acknowledgement leaves: the L1s, the requests, the sectors that prove uncorrectable, the cached
translations and the keys. -/
def State.front (s : State) : List L1Sec × List Req × List Nat × List Tlb × Trust :=
  (s.mem.l1, s.mem.reqs, s.mem.unc, s.mem.tlbs, s.trust)

theorem State.front_invalArrive (s : State) (die sec : Nat) : (s.invalArrive die sec).front = s.front := by
  unfold State.invalArrive
  split <;> rfl

theorem State.front_invalAck (s : State) (die sec : Nat) : (s.invalAck die sec).front = s.front := by
  unfold State.invalAck
  split
  · dsimp only [State.modM, State.front]
    split <;> rfl
  · rfl

theorem State.front_drainInvals (s : State) (p : Inval → Bool) : (s.drainInvals p).front = s.front :=
  foldl_keeps State.front (fun s _ => ((s.invalArrive ..).front_invalAck ..).trans (s.front_invalArrive ..)) _ s

theorem State.front_gridClean {s : State} {g : Nat} (hl1 : ∀ c ∈ s.mem.l1, g ∉ c.grids) (hreqs : s.mem.reqs = []) :
    (s.gridClean g).front = s.front := by
  have hnone : s.mem.l1.filter (fun c => c.grids.contains g && decide (c.dirty ≠ 0)) = [] :=
    List.filter_eq_nil_iff.2 fun c hc => by simp [hl1 c hc]
  rw [State.gridClean, hnone]
  simp only [List.map_nil, show dedup ([] : List Nat) = [] from rfl, List.foldl_nil, State.drainCtx, hreqs, List.filter_nil]
  exact s.front_drainInvals _

end Sys2Proof.Machine
end

section
/-! PROOFS. A grid completes and leaves the module, and the statement on placed and stopped teams (08 R143, R145, 16 R325 to R329,
17 R347). -/

namespace Sys2Proof.Machine

/-! ### A grid leaves the module (R326, R390) -/

theorem Exec.roster_dropGrid (x : Exec) (n : Nat) : (x.dropGrid n).roster =
    ((x.teams.filter fun p => !decide (p.2.grid = n)).map fun p => (p.1, p.2.berth), x.grids.erase n) := by
  unfold Exec.dropGrid
  dsimp only
  rw [Exec.roster_foldl (fun x c => by rw [roster_wakeCopy, roster_mxMoved])]
  split
  · rfl
  · exact Exec.roster_post ..

/-- None of the teams that stay is of the grid that leaves. -/
theorem Exec.grid_ne_of_dropGrid {x : Exec} {n : Nat} {p : Nat × Team} (hp : p ∈ (x.dropGrid n).teams) : p.2.grid ≠ n := by
  have hmem : (p.1, p.2.berth) ∈ (x.dropGrid n).roster.1 := List.mem_map.2 ⟨p, hp, rfl⟩
  rw [roster_dropGrid] at hmem
  obtain ⟨q, hq, heq⟩ := List.mem_map.1 hmem
  have hgrid : q.2.grid = p.2.grid := congrArg (fun r : Nat × Nat × TSt × List Nat => r.2.1) heq
  rw [← hgrid]
  simpa using (List.mem_filter.1 hq).2

theorem Exec.find?_grids_dropGrid (x : Exec) (n : Nat) : (x.dropGrid n).grids.find? n = none := by
  rw [show (x.dropGrid n).grids = x.grids.erase n from congrArg Prod.snd (x.roster_dropGrid n), SMap.find?_erase, if_pos rfl]

/-! ### GRID_COMPLETION (R325, R326) -/

/-- Status and code of a grid's completion. -/
def Grid.outcome (g : Grid) : Nat × Nat := match g.st with
  | .halted c => (1, c)
  | .faulted => (3, 0)
  | _ => (0, 0)

theorem State.doneWrite_zero (s : State) (d : Done) (item : Nat) (b : List Byte) : s.doneWrite d item 0 b = s := if_pos rfl

theorem State.doneWrite_written {s : State} {d : Done} {item va : Nat} {b : List Byte} (h0 : va ≠ 0) (hal : va % b.length = 0)
    (h : (s.devWrite d.ctx va b).2 = true) : s.doneWrite d item va b = (s.devWrite d.ctx va b).1 := by
  simp only [State.doneWrite, h0, hal, h, if_false, if_true]

/-- A completion without an event, whose record is written, leaves memory as the record's write does. -/
theorem State.mem_signalDone {s : State} {d : Done} {status reason late inval code : Nat} (hevent : fieldAt d.lrec 192 8 = 0)
    (h0 : fieldAt d.lrec 208 8 ≠ 0) (hal : fieldAt d.lrec 208 8 % 32 = 0)
    (h : (s.devWrite d.ctx (fieldAt d.lrec 208 8) (completionRecord status reason late inval code d.id)).2 = true) :
    (s.signalDone d status reason late inval code).mem =
      (s.devWrite d.ctx (fieldAt d.lrec 208 8) (completionRecord status reason late inval code d.id)).1.mem := by
  have hwrite := State.doneWrite_written (item := 4) h0 (by rw [length_completionRecord]; exact hal) h
  rw [← hwrite, State.signalDone, hevent]
  simp only [State.doneWrite_zero]
  rfl

section
variable {s : State} {n : Nat} {g : Grid} (hg : s.x.grids.find? n = some g)
include hg

theorem State.gridDone_done (h : g.st = .done) : s.gridDone n = s.modX fun x => x.dropGrid n := by
  simp only [State.gridDone, hg, h, if_true]

theorem State.gridDone_waits (hst : g.st ≠ .done) (h : s.x.gridBusy n = true ∨ g.st = .running ∧ s.x.teamsEnded n = false) :
    s.gridDone n = s := by
  have hwait : (s.x.gridBusy n || (decide (g.st = .running) && !s.x.teamsEnded n)) = true := by
    rcases h with h | ⟨h, hend⟩
    · rw [h, Bool.true_or]
    · rw [h, hend, decide_eq_true rfl, Bool.not_false, Bool.and_true, Bool.or_true]
  simp only [State.gridDone, hg, hst, hwait, if_false, if_true]

theorem State.gridDone_ends (hst : g.st ≠ .done) (hidle : s.x.gridBusy n = false)
    (h : g.st ≠ .running ∨ s.x.teamsEnded n = true) : s.gridDone n =
      ((((s.gridClean n).modX fun x => x.modGrid n fun r => { r with st := .done }).signalDone ⟨g.ctx, g.queue, g.seq, g.id, g.lrec⟩
        g.outcome.1 0 (if g.late then 1 else 0) g.inval g.outcome.2).modX fun x => x.post 1 (.gridCompletion n)) := by
  have hwait : (s.x.gridBusy n || (decide (g.st = .running) && !s.x.teamsEnded n)) = false := by
    rcases h with h | hend
    · rw [hidle, decide_eq_false h, Bool.false_and, Bool.false_or]
    · rw [hidle, hend, Bool.not_true, Bool.and_false, Bool.false_or]
  simp only [State.gridDone, hg, hst, hwait, Bool.false_eq_true, if_false]
  rfl

/-- A grid that ends is done in the state that its record leaves. -/
theorem State.grid_of_gridDone (hst : g.st ≠ .done) (hidle : s.x.gridBusy n = false)
    (h : g.st ≠ .running ∨ s.x.teamsEnded n = true) : ((s.gridDone n).x.grids.find? n).map Grid.st = some .done := by
  have hx : (s.gridDone n).x.besideMem = ((s.gridClean n).x.modGrid n fun r => { r with st := .done }).besideMem := by
    rw [State.gridDone_ends hg hst hidle h, State.modX_x, Exec.besideMem_post, State.besideMem_signalDone, State.modX_x]
  rw [Exec.grids_of_besideMem hx, Exec.modGrid_grids, SMap.find?_modify, if_pos rfl,
    Exec.grids_of_besideMem (s.besideMem_gridClean n), hg, Option.map_some, Option.map_some]

/-- The record of a grid that ends, whose data no L1 holds, stands where its launch asks for it. -/
theorem State.record_of_gridDone (hst : g.st ≠ .done) (hidle : s.x.gridBusy n = false)
    (h : g.st ≠ .running ∨ s.x.teamsEnded n = true) {l : Loc} (hevent : fieldAt g.lrec 192 8 = 0)
    (hva : fieldAt g.lrec 208 8 % 32 = 0) (hva0 : fieldAt g.lrec 208 8 ≠ 0)
    (hreach : Claim.Reaches s ⟨0, g.ctx, 0⟩ { write := true } (fieldAt g.lrec 208 8) l) (hpa : l.pa % 32 = 0) (hkey : l.key ≠ 0)
    (hl1 : ∀ c ∈ s.mem.l1, n ∉ c.grids ∧ c.core ≠ 0) (hreqs : s.mem.reqs = []) (hunc : l.sec ∉ s.mem.unc) :
    (s.gridDone n).mem.sector l.key l.sec =
      completionRecord g.outcome.1 0 (if g.late then 1 else 0) g.inval g.outcome.2 g.id := by
  have hfront := State.front_gridClean (fun c hc => (hl1 c hc).1) hreqs
  simp only [State.front, Prod.mk.injEq] at hfront
  obtain ⟨hl1', hreqs', hunc', htlbs', htrust'⟩ := hfront
  let v := (s.gridClean n).modX fun x => x.modGrid n fun r => { r with st := .done }
  obtain ⟨hdone, hsector⟩ := State.sector_devWrite (s := v) (l := l)
    (length_completionRecord g.outcome.1 0 (if g.late then 1 else 0) g.inval g.outcome.2 g.id) hva (reaches_congr hreach htlbs' htrust')
    hpa hkey (fun d hd => (hl1 d (hl1' ▸ hd)).2) (hreqs'.trans hreqs) (fun e => hunc (hunc' ▸ e))
  rw [State.gridDone_ends hg hst hidle h, State.modX_mem, State.mem_signalDone (s := v) hevent hva0 hva hdone]
  exact hsector

end

end Sys2Proof.Machine

namespace Sys2Proof.Proofs

open Sys2Proof.Machine Sys2Proof.Claim

/-- Teams are placed, regions are stitched, and teams and grids end as R143, R145, R326 to R329 and R347 say. -/
theorem teamPlaces : TeamPlaces := by
  refine ⟨fun s t m g pos core hhead hm hg hst hstitch hcohort hfind => ?_, fun s hnone => ?_, fun s n g hg hpattern => ⟨fun hbusy => ?_,
    fun hfree => ?_⟩, fun s n m hm => ⟨fun hfree => ?_, fun hkept => ?_⟩, fun s n g hg => ⟨fun hdone => ?_, fun hst hwait => ?_,
    fun hst hidle hend => ?_⟩⟩
  · obtain ⟨y, hexec, ⟨hteam, hptr, hwaves⟩⟩ := teamPlacement_head hhead hm hg hst hstitch hcohort hfind
    refine ⟨_, hexec, rfl, hteam, hptr, fun j hj => ?_⟩
    obtain ⟨u, quad, stamp, hu⟩ := hwaves j hj
    exact ⟨u, _, hu, rfl, rfl, rfl, rfl, fun f => Wave.fib_started ..⟩
  · have hexec : exec .teamPlacement s = .next { s.placement with trust := s.trust } := rfl
    have hplace : s.placement = s.modX Exec.resetPtr := by
      have hq : (s.modX Exec.resetPtr).x.queueHead = none := Exec.queueHead_none (by
        rw [State.modX_x, Exec.teams_resetPtr]
        exact hnone)
      simp only [State.placement, hq]
    rw [hplace] at hexec
    exact ⟨_, hexec, rfl, rfl, rfl⟩
  · exact ⟨_, execRestitch_busy hg hbusy, rfl, rfl, rfl⟩
  · refine ⟨_, execRestitch_free hg hpattern hfree, rfl, rfl, fun d a hd ha hreach => ?_⟩
    show (Exec.post _ 0 .teamPlacement).stitch.get (0, 0) (21 * d + a) = _
    rw [Exec.stitch_post, SMap.get_foldl_put]
    simp only [LRec.mem_atolls hd ha hreach]
    rfl
  · obtain ⟨y, hexec, hteam⟩ := execTeamFree_freed hm hfree
    exact ⟨_, hexec, rfl, rfl, hteam⟩
  · exact ⟨_, execTeamFree_kept hm hkept, rfl, rfl, rfl⟩
  · have hexec : exec (.gridCompletion n) s = .next { s.gridDone n with trust := s.trust } := rfl
    rw [State.gridDone_done hg hdone] at hexec
    exact ⟨_, hexec, rfl, rfl, s.x.find?_grids_dropGrid n, fun p hp => Exec.grid_ne_of_dropGrid hp⟩
  · have hexec : exec (.gridCompletion n) s = .next { s.gridDone n with trust := s.trust } := rfl
    rw [State.gridDone_waits hg hst hwait] at hexec
    exact ⟨_, hexec, rfl, rfl, rfl⟩
  · refine ⟨{ s.gridDone n with trust := s.trust }, rfl, rfl, State.grid_of_gridDone hg hst hidle hend, ?_⟩
    intro l va hevent hva hva0 hreach hpa hkey hl1 hreqs hunc
    exact State.record_of_gridDone hg hst hidle hend hevent hva hva0 hreach hpa hkey hl1 hreqs hunc

/-- Settles O50: by its two parts, on placement and completion, and on stops, saves and swaps. -/
theorem teamsPlacedAndStopped : Obligations.TeamsPlacedAndStopped := ⟨teamPlaces, teamStops⟩

end Sys2Proof.Proofs
end

section
/-! PROOFS. A release leaves the core nothing dirty and nothing on its way, and what a wide fence leaves (03 R57, R59, R73, R74,
06 R119 to R122). -/

namespace Sys2Proof.Machine

/-! ### What requests and acknowledgements leave of the L1s -/

theorem MemSys.l1_putSector (m : MemSys) (key sec mask : Nat) (data : List Byte) (p : Option Bool) :
    (m.putSector key sec mask data p).l1 = m.l1 := by
  unfold putSector
  dsimp only
  split <;> rfl

theorem State.l1_beforeReq (s : State) (r : Req) : (s.beforeReq r).mem.l1 = s.mem.l1 := by
  have hb : (s.beforeReq r).besideL2 = _ := State.besideL2_sqTouch ..
  rw [State.l1_of_besideL2 hb]
  split
  · rfl
  · have hl1 := congrArg MemSys.l1 (s.mem_detect r.loc.sec r.loc.pa r.ctx)
    exact hl1

@[simp] theorem State.l1_performReq (s : State) (r : Req) : (s.performReq r).mem.l1 = s.mem.l1 :=
  (congrArg MemSys.l1 (State.mem_sendInvals ..)).trans ((MemSys.l1_putSector ..).trans (s.l1_beforeReq r))

@[simp] theorem State.l1_drainSq (s : State) (sq : Nat) : (s.drainSq sq).mem.l1 = s.mem.l1 :=
  foldl_keeps (fun t : State => t.mem.l1) State.l1_performReq _ s

theorem State.l1_drainInvals (s : State) (p : Inval → Bool) : (s.drainInvals p).mem.l1 = s.mem.l1 :=
  congrArg Prod.fst (s.front_drainInvals p)

theorem State.reqs_drainInvals (s : State) (p : Inval → Bool) : (s.drainInvals p).mem.reqs = s.mem.reqs :=
  congrArg (fun q => q.2.1) (s.front_drainInvals p)

/-! ### Requests that are performed (R74) -/

/-- A request that stays behind some others was none of them. -/
theorem State.mem_reqs_of_performed {r : Req} (l : List Req) (s : State) (h : r ∈ (l.foldl State.performReq s).mem.reqs) :
    r ∈ s.mem.reqs ∧ r ∉ l := by
  induction l generalizing s with
  | nil => exact ⟨h, List.not_mem_nil⟩
  | cons q l ih =>
    obtain ⟨hmem, hl⟩ := ih _ h
    rw [State.reqs_performReq] at hmem
    obtain ⟨hs, hid⟩ := List.mem_filter.1 hmem
    refine ⟨hs, fun hr => (List.mem_cons.1 hr).elim (fun e => ?_) hl⟩
    simp [e] at hid

theorem State.mem_reqs_of_drainSq {s : State} {sq : Nat} {r : Req} (h : r ∈ (s.drainSq sq).mem.reqs) :
    r ∈ s.mem.reqs ∧ r.sq ≠ sq := by
  obtain ⟨hmem, hno⟩ := State.mem_reqs_of_performed _ s h
  exact ⟨hmem, fun e => hno (List.mem_filter.2 ⟨hmem, decide_eq_true e⟩)⟩

theorem State.mem_reqs_of_drainSqs {r : Req} (l : List Nat) (s : State) (h : r ∈ (l.foldl State.drainSq s).mem.reqs) :
    r ∈ s.mem.reqs ∧ r.sq ∉ l := by
  induction l generalizing s with
  | nil => exact ⟨h, List.not_mem_nil⟩
  | cons sq l ih =>
    obtain ⟨hmem, hl⟩ := ih _ h
    obtain ⟨hs, hsq⟩ := State.mem_reqs_of_drainSq hmem
    exact ⟨hs, fun k => (List.mem_cons.1 k).elim hsq hl⟩

/-! ### What a release leaves (R57, R119, R120) -/

/-- No write of a core is on its way once they have been performed (R119). -/
theorem State.tok_of_drainCore {s : State} {core : Nat} {r : Req} (h : r ∈ (s.drainCore core).mem.reqs) : r.tok ≠ core + 1 := by
  rw [State.drainCore, State.reqs_drainInvals] at h
  obtain ⟨hmem, hno⟩ := State.mem_reqs_of_drainSqs _ s h
  exact fun htok => hno (mem_dedup.2 (List.mem_map.2 ⟨r, List.mem_filter.2 ⟨hmem, decide_eq_true htok⟩, rfl⟩))

theorem State.l1_drainCore (s : State) (core : Nat) : (s.drainCore core).mem.l1 = s.mem.l1 := by
  rw [State.drainCore, State.l1_drainInvals]
  exact foldl_keeps (fun t : State => t.mem.l1) State.l1_drainSq _ s

/-- A release leaves the core no write on its way. -/
theorem State.tok_of_release {s : State} {core : Nat} : ∀ r ∈ (s.release core).mem.reqs, r.tok ≠ core + 1 :=
  fun _ => State.tok_of_drainCore

/-- A release leaves the core no dirty sector. -/
theorem State.dirty_of_release {s : State} {core : Nat} {c : L1Sec} (h : c ∈ (s.release core).mem.l1) (hc : c.core = core) :
    c.dirty = 0 := by
  rw [State.release, State.l1_drainCore] at h
  exact State.dirty_writeBackIf h hc rfl

/-! ### Clean bytes go (R57, R120) -/

/-- What is left of a core in its L1 once its clean bytes have gone is dirty. -/
theorem State.dirty_of_l1Clean {s : State} {core : Nat} {c : L1Sec} (h : c ∈ (s.l1Clean core).mem.l1) (hc : c.core = core) :
    ∃ d ∈ s.mem.l1, d.core = core ∧ d.dirty ≠ 0 := by
  obtain ⟨d, hd, rfl⟩ := List.mem_map.1 h
  obtain ⟨hmem, hkept⟩ := List.mem_filter.1 hd
  have hcore : d.core = core := by
    split at hc <;> exact hc
  refine ⟨d, hmem, hcore, fun hzero => ?_⟩
  simp [hcore, hzero] at hkept

/-! ### A wide fence (R121, R122) -/

/-- A wave whose reads have all settled waits for no write: nothing but its empty note is written again (R122). -/
theorem State.settleReads_settled {s : State} {u : Nat} {w : Wave} (hw : s.x.wave? u = some w) (hset : w.unset = []) :
    s.settleReads u = s.modX fun x => x.modWave u fun w => { w with unset := [] } := by
  have hnone : s.mem.invals.filter (fun i => ([] : List Nat).contains i.sec) = [] := List.filter_eq_nil_iff.2 (by simp)
  simp only [State.settleReads, hw, hset, List.map_nil, show dedup ([] : List Nat) = [] from rfl, List.foldl_nil,
    State.drainInvals, hnone]

theorem Exec.wave?_settled {x : Exec} {u : Nat} {w : Wave} (hw : x.wave? u = some w) (hset : w.unset = []) :
    (x.modWave u fun w => { w with unset := [] }).wave? = x.wave? := by
  funext v
  rw [Exec.wave?_modWave]
  split
  next e =>
    rw [e, hw, Option.map_some, ← hset]
  next => rfl

/-- A fence at `.die` or wider of a wave whose reads have settled: the core's release, and its clean bytes gone. No wave, team or
grid changes. -/
theorem State.fenceAt_wide {s : State} {u core scope ord : Nat} {w : Wave} (hw : s.x.wave? u = some w) (hset : w.unset = [])
    (hscope : 4 ≤ scope) : (s.fenceAt u core scope ord).mem = ((s.release core).l1Clean core).mem ∧
      (s.fenceAt u core scope ord).x.wave? = s.x.wave? ∧ (s.fenceAt u core scope ord).x.teams = s.x.teams ∧
      (s.fenceAt u core scope ord).x.grids = s.x.grids := by
  have hteams : (s.release core).x.teams = s.x.teams := Exec.teams_of_besideMem (s.besideMem_release core)
  have hgrids : (s.release core).x.grids = s.x.grids := Exec.grids_of_besideMem (s.besideMem_release core)
  have hwave : (s.release core).x.wave? = s.x.wave? := funext (Exec.wave?_congr (s.waves_release core))
  have hw' : (s.release core).x.wave? u = some w := hwave ▸ hw
  rw [State.fenceAt, if_neg (by omega)]
  dsimp only
  split
  · rw [State.settleReads_settled hw' hset]
    exact ⟨rfl, (Exec.wave?_settled hw' hset).trans hwave, hteams, hgrids⟩
  · exact ⟨rfl, hwave, hteams, hgrids⟩

/-- After a wide fence of a wave whose reads have settled, its core has no sector in its L1 and no write on its way (R121). -/
theorem State.core_of_fenceAt_wide {s : State} {u core scope ord : Nat} {w : Wave} (hw : s.x.wave? u = some w)
    (hset : w.unset = []) (hscope : 4 ≤ scope) : (∀ c ∈ (s.fenceAt u core scope ord).mem.l1, c.core ≠ core) ∧
      ∀ r ∈ (s.fenceAt u core scope ord).mem.reqs, r.tok ≠ core + 1 := by
  obtain ⟨hmem, -⟩ := State.fenceAt_wide (ord := ord) (core := core) hw hset hscope
  rw [hmem]
  refine ⟨fun c hc hcore => ?_, State.tok_of_release⟩
  obtain ⟨d, hd, hdcore, hdirty⟩ := State.dirty_of_l1Clean hc hcore
  exact hdirty (State.dirty_of_release hd hdcore)

end Sys2Proof.Machine
end

section
/-! PROOFS. Fences, the ends of quanta, and sleep (06 R121, R122, 11 R227, 18 R349). -/

namespace Sys2Proof.Machine

/-! ### Instructions of a whole group -/

theorem Exec.determ_congr {x y : Exec} (ht : y.teams = x.teams) (hg : y.grids = x.grids) : y.determ = x.determ := by
  funext w
  have hgrid : y.gridOf = x.gridOf := funext fun t => by rw [Exec.gridOf, hg, Exec.gridOf]
  rw [Exec.determ, Exec.teamOf, ht, hgrid, Exec.determ, Exec.teamOf]

/-- An unguarded instruction of the whole group that touches what executes alone. -/
theorem makes_whole {s : State} {n : Instr} {i : Iss} {len : Nat} {g : Iss → Exec → Exec} (hi : s.x.issue? = some i)
    (he : exec n s = s.onX fun x => x.whole len g) : Claim.Makes s n i (g i s.x) len := by
  refine ⟨{ s with x := (g i s.x).advance i len }, ?_, rfl, rfl, Exec.past_advance _ len (Iss.grp_nodup hi)⟩
  simp only [he, State.onX, Exec.whole, hi]

/-- A step whose waves read as before, and then its group moves on. -/
theorem Exec.moved_advance_of_wave? {x y : Exec} {i : Iss} (len : Nat) (hi : x.issue? = some i) (hw : y.wave? = x.wave?) :
    Claim.Moved x (y.advance i len) i fun _ => (i.pc + len) % 2 ^ 48 where
  wave u := by rw [Exec.bare_advance, hw]
  regs u a k := by rw [Exec.slotReg_advance, Exec.slotReg, hw, Exec.slotReg]
  pois u a k := by rw [Exec.slotPois_advance, Exec.slotPois, hw, Exec.slotPois]
  fibs u f := by
    have hfib : y.fib u f = x.fib u f := by rw [Exec.fib, hw, Exec.fib]
    rw [Exec.fib_advance _ _ _ (Iss.grp_nodup hi), hfib]

/-! ### FENCE, QSYNC and SLEEPW -/

/-- A FENCE of a wave with an empty side log, outside deterministic mode (R121, R227). -/
theorem execFence_fences {s : State} {i : Iss} {w : OwnI} (hi : s.x.issue? = some i) (hlog : i.w.log = [])
    (hdet : (s.fenceAt i.u (s.x.coreOf i.w) (w.m.toNat / 256 % 8) (w.m.toNat / 2 ^ 11 % 4)).x.determ i.w = false) :
    exec (.fence w) s = .next { (s.fenceAt i.u (s.x.coreOf i.w) (w.m.toNat / 256 % 8) (w.m.toNat / 2 ^ 11 % 4)).modX
      (fun x => x.advance i 8) with trust := s.trust } := by
  have e : exec (.fence w) s = execFence w s := rfl
  simp only [e, execFence, State.onMem, hi, hlog, List.isEmpty_nil, Bool.not_true, Bool.false_eq_true, if_false, State.modX, hdet]

theorem makes_fence_narrow {s : State} {i : Iss} {w : OwnI} (hi : s.x.issue? = some i) (hlog : i.w.log = [])
    (hdet : s.x.determ i.w = false) (hscope : w.m.toNat / 256 % 8 < 4) : Claim.Makes s (.fence w) i s.x 8 := by
  have hself (u core ord : Nat) : s.fenceAt u core (w.m.toNat / 256 % 8) ord = s := if_pos hscope
  have hexec := execFence_fences (w := w) hi hlog (by rw [hself]; exact hdet)
  rw [hself] at hexec
  exact ⟨_, hexec, rfl, rfl, Exec.past_advance _ 8 (Iss.grp_nodup hi)⟩

theorem execFence_wide {s : State} {i : Iss} {w : OwnI} (hi : s.x.issue? = some i) (hlog : i.w.log = []) (hset : i.w.unset = [])
    (hdet : s.x.determ i.w = false) (hscope : 4 ≤ w.m.toNat / 256 % 8) :
    ∃ t, exec (.fence w) s = .next t ∧ t.trust = s.trust ∧ Claim.Moved s.x t.x i (fun _ => (i.pc + 8) % 2 ^ 48) ∧
      (∀ c ∈ t.mem.l1, c.core ≠ s.x.coreOf i.w) ∧ ∀ r ∈ t.mem.reqs, r.tok ≠ s.x.coreOf i.w + 1 := by
  obtain ⟨-, hw, -⟩ := Exec.issue?_spec hi
  obtain ⟨-, hwave, hteams, hgrids⟩ := State.fenceAt_wide (core := s.x.coreOf i.w) (ord := w.m.toNat / 2 ^ 11 % 4) hw hset hscope
  exact ⟨_, execFence_fences hi hlog (by rw [Exec.determ_congr hteams hgrids]; exact hdet), rfl,
    Exec.moved_advance_of_wave? 8 hi hwave, State.core_of_fenceAt_wide hw hset hscope⟩

/-- QSYNC waits for the commit in deterministic mode, and elsewhere does nothing (R227, R349). -/
theorem makes_qsync {s : State} {i : Iss} (w : OwnI) (hi : s.x.issue? = some i) :
    Claim.Makes s (.qsync w) i (if s.x.determ i.w then Claim.held s.x i .commit else s.x) 8 :=
  makes_whole (n := .qsync w) hi rfl

/-- SLEEPW waits for the commit in deterministic mode, and elsewhere for as many ticks as W[S1] names (R227, R349). -/
theorem makes_sleepw {s : State} {i : Iss} (w : OwnI) (hi : s.x.issue? = some i) :
    Claim.Makes s (.sleepw w) i (if s.x.determ i.w then Claim.held s.x i .commit
      else if (s.x.readW i.u w.s1.toNat).toNat = 0 then s.x
      else (Claim.held s.x i .sleep).post (s.x.readW i.u w.s1.toNat).toNat (.sleepwExpiry i.u)) 8 :=
  makes_whole (n := .sleepw w) hi rfl

/-- A sleep that is over: the wave is the youngest that is eligible, and its instruction does not issue again (R149, R227). -/
theorem execSleepwExpiry_wakes {s : State} {u : Nat} {v : Wave} (hv : s.x.wave? u = some v) (hsleep : v.hold = some .sleep) :
    exec (.sleepwExpiry u) s = .next { s with x := s.x.unhold u } ∧
      ∀ q, (s.x.unhold u).wave? q =
        if q = u then some { v with hold := none, stamp := s.x.fresh, resumed := false, passing := none } else s.x.wave? q := by
  have e : exec (.sleepwExpiry u) s = execSleepwExpiry u s := rfl
  have hlate : s.x.heldLate u = false := by rw [Exec.heldLate, hv, Option.elim_some, hsleep]; rfl
  refine ⟨by simp only [e, execSleepwExpiry, State.onX, hv, hsleep, if_true], fun q => ?_⟩
  rw [Exec.wave?_unhold hlate]
  split
  next hq =>
    rw [hq, hv, Option.map_some, hsleep]
    rfl
  next => rfl

end Sys2Proof.Machine

namespace Sys2Proof.Proofs

open Sys2Proof.Machine Sys2Proof.Claim

/-- Settles O23: a wide fence is a release of the core and the loss of its clean bytes; QSYNC and SLEEPW touch their wave alone. -/
theorem fencesAndSleep : Obligations.FencesAndSleep := by
  refine ⟨fun s i w hi => ⟨fun hlog hset hdet => ⟨makes_fence_narrow hi hlog hdet, execFence_wide hi hlog hset hdet⟩,
    fun hdet => ?_, fun hdet => ?_⟩, fun s u v hv hsleep hpass => ?_⟩
  · have hquiet := makes_qsync w hi
    have hsleep := makes_sleepw w hi
    simp only [hdet, Bool.false_eq_true, if_false] at hquiet hsleep
    exact ⟨hquiet, fun hn => by rwa [if_pos hn] at hsleep, fun hn => by rwa [if_neg hn] at hsleep⟩
  · have hquiet := makes_qsync w hi
    have hsleep := makes_sleepw w hi
    rw [if_pos hdet] at hquiet hsleep
    exact ⟨hquiet, hsleep⟩
  · obtain ⟨hexec, hwave⟩ := execSleepwExpiry_wakes hv hsleep
    refine ⟨_, hexec, rfl, rfl, ?_, fun q hq => by rw [hwave, if_neg hq]⟩
    rw [hwave, if_pos rfl, ← hpass]

end Sys2Proof.Proofs
end

section
/-! PROOFS. Why the statement on near-memory commands fails as it stands: nothing in it says that each wave is listed once
(07 R135, R139). -/

namespace Sys2Proof.Proofs

open Sys2Proof.Machine Sys2Proof.Claim

/-- A wave held on a future that is ready (R225). -/
def readyWave : Wave := { team := 0, idx := 1, role := 0, quad := 0, fibs := [], hold := some (.handle 0) }
/-- A machine that lists wave 1 twice: the entry that a read finds is late, the one behind it is on its future. Its grid is of the
fast mode, with eight registers for each fibre. -/
def futureListedTwice : State := { listedTwice with x := { listedTwice.x with
  grids := [(0, { ctx := 0, queue := 0, seq := 0, id := 0, lrec := List.replicate 128 8, recs := [] })]
  waves := [(0, issuingWave), (1, lateWave), (1, readyWave)] } }
/-- NMCMD of the eight words in V0 to V7, all of them 0, which are no command: the element count is 0. -/
def emptyCommand : OwnI := ⟨⟨false, 7, 0, false⟩, 0, 0, 0, 0, 0⟩

theorem futureListedTwice_issues : Issues futureListedTwice issuing :=
  ⟨by decide +kernel, by decide +kernel, by decide +kernel, by decide +kernel⟩

/-- The report of the failed command closes the late entry's window: V3 of wave 1, which does not issue, becomes 5. -/
theorem futureListedTwice_nmcmd {t : State} (h : exec (.nmcmd emptyCommand) futureListedTwice = .next t) :
    t.x.slotReg 1 0 3 = 5 := by
  have e : (match exec (.nmcmd emptyCommand) futureListedTwice with
    | .next t => t.x.slotReg 1 0 3
    | _ => 0) = 5 := by decide +kernel
  rw [h] at e
  exact e

/-- Refutes O39: the statement does not ask that each wave be listed once. In `futureListedTwice` the command fails check 1 with
BADCMD, so its handle becomes ready at once, and with it the waves go on that are held on a ready future, as an entry of wave 1 is;
the entry found under that number is the late one, and its window closes, which writes a register of a wave that does not issue. -/
theorem not_nearMemory : ¬ Obligations.NearMemory := by
  rintro ⟨-, hfail, -⟩
  obtain ⟨t, ht, -, -, -, hregs, -⟩ := hfail futureListedTwice issuing emptyCommand 0 (List.replicate 8 0) nsBadcmd
    futureListedTwice_issues (by decide +kernel) (by decide +kernel) (by decide +kernel) (by decide +kernel) (by decide +kernel)
    (by decide +kernel) rfl (by decide +kernel) (by decide +kernel) (by decide) (fun h => absurd h (by decide))
  have hreg := hregs 1 0 3
  rw [futureListedTwice_nmcmd ht] at hreg
  exact absurd hreg (by decide +kernel)

end Sys2Proof.Proofs
end

section
/-! PROOFS. Why the statements on fibre lives and on frieze operations fail as they stand: nothing in them says that each wave is
listed once (08 R152, R161). -/

namespace Sys2Proof.Proofs

open Sys2Proof.Machine Sys2Proof.Claim

theorem fib_wins_issuingWave (f : Nat) : (issuingWave.fib f).wins = [] := by
  simp only [issuingWave, Wave.fib, SMap.get, SMap.find?]
  split <;> rfl

/-- `listedTwice` with one arrival at barrier 0, which asks for one: it is complete when the barriers of the team next count
again. -/
def arrivedTwice : State := { listedTwice with x := { listedTwice.x with
  teams := [(0, { soleTeam with bars := [(0, { g := 1, a := 1, n := 1 })] })] } }
/-- An instruction without guard and with all its fields 0. -/
def plainOp : OwnI := ⟨⟨false, 7, 0, false⟩, 0, 0, 0, 0, 0⟩

/-- The exit of wave 0 closes the late entry's window: V3 of wave 1 becomes 5. -/
theorem arrivedTwice_fquit {t : State} (h : exec (.fquit plainOp) arrivedTwice = .next t) : t.x.slotReg 1 0 3 = 5 := by
  have e : (match exec (.fquit plainOp) arrivedTwice with
    | .next t => t.x.slotReg 1 0 3
    | _ => 0) = 5 := by decide +kernel
  rw [h] at e
  exact e

/-- Refutes O18: the clause on FQUIT does not ask that each wave be listed once. In `arrivedTwice` the only fibre of wave 0 ends,
so the wave exits and barrier 0 completes; that ends the hold of wave 1, whose second entry is on the barrier, while the entry
found under its number is late, so a window of it closes and writes a register. -/
theorem not_fibreLives : ¬ Obligations.FibreLives := by
  rintro ⟨-, hquit, -⟩
  obtain ⟨t, ht, -, -, hregs, -⟩ := hquit arrivedTwice issuing plainOp (by decide +kernel) (by decide +kernel)
    fib_wins_issuingWave (by decide +kernel)
  have hreg := hregs 1 0 3
  rw [arrivedTwice_fquit ht] at hreg
  exact absurd hreg (by decide +kernel)

/-- A wave held on a place in the engine's queue (R312). -/
def placeWave : Wave := { team := 0, idx := 1, role := 0, quad := 0, fibs := [], hold := some (.retry rvMatrix) }
/-- A machine that lists wave 1 twice: the entry that a read finds is late, the one behind it waits for the engine. -/
def engineListedTwice : State := { listedTwice with x := { listedTwice.x with
  waves := [(0, issuingWave), (1, lateWave), (1, placeWave)] } }

/-- The start of the operation closes the late entry's window: V3 of wave 1, which does not issue, becomes 5. -/
theorem engineListedTwice_tzero {t : State} (h : exec (.tzero plainOp) engineListedTwice = .next t) :
    t.x.slotReg 1 0 3 = 5 := by
  have e : (match exec (.tzero plainOp) engineListedTwice with
    | .next t => t.x.slotReg 1 0 3
    | _ => 0) = 5 := by decide +kernel
  rw [h] at e
  exact e

/-- Refutes O41: the clause on signing does not ask that each wave be listed once. In `engineListedTwice` the TZERO of wave 0,
which is in no frieze, starts at once, and waves that wait for the engine issue again; the second entry of wave 1 is one of them,
the entry found under its number is late, so a window of it closes and writes a register. -/
theorem not_matrixInstructions : ¬ Obligations.MatrixInstructions := by
  rintro ⟨hsign, -⟩
  obtain ⟨hlone, -⟩ := hsign engineListedTwice issuing plainOp soleTeam (by decide +kernel) (by decide +kernel)
    (by decide +kernel) (by decide +kernel) (by decide +kernel) (by decide +kernel) (.tzero plainOp, 0x1c4) (by simp [friezes])
  obtain ⟨t, ht, hsigned, -⟩ := hlone ([], (0, 0)) (by decide +kernel) rfl
  have hreg := hsigned.regs 1 0 3
  rw [engineListedTwice_tzero ht] at hreg
  exact absurd hreg (by decide +kernel)

end Sys2Proof.Proofs
end

section
/-! PROOFS. One step of the machine: the instruction at the PC of the run in progress, and a scheduled row that is due (08 R148,
10 R186, R200, 19 R362 to R369). -/

namespace Sys2Proof.Proofs

open Sys2Proof.Machine Sys2Proof.Claim

/-! ### What decoding to an instruction says of the bytes -/

theorem fateOf_instr {d : BitVec 512} {o : Option Instr} {len raw n : Nat} {i : Instr} (h : fateOf d o len raw = .instr i n) :
    len = n := by
  unfold fateOf at h
  split at h
  · cases h
  · split at h
    · cases h
    · split at h
      · exact (Decoded.instr.inj h).2
      · cases h

theorem lenOf_of_decode {d : BitVec 512} {l : List Byte} {i : Instr} {n : Nat} (h : decode d l = .instr i n) :
    lenOf (leVal (l.take 2)) = n := by
  unfold decode at h
  split at h
  · cases h
  · simp only at h
    split at h
    · cases h
    · exact fateOf_instr h

theorem decodeCode_of_decode {d : BitVec 512} {l : List Byte} {i : Instr} {n : Nat} (h : decode d l = .instr i n) :
    ∃ c, decodeCode d l = .instr c n := by
  rw [decode_eq_code] at h
  cases hc : decodeCode d l with
  | instr c k =>
    rw [hc] at h
    exact ⟨c, by rw [(Decoded.instr.inj h).2]⟩
  | emulate f k r => rw [hc] at h; cases h
  | short => rw [hc] at h; cases h

/-- The low two bits of a list of bytes are those of its first (R186). -/
theorem leVal_take_mod (l : List Byte) (n : Nat) (hn : 0 < n) : leVal (l.take n) % 4 = leVal (l.take 1) % 4 := by
  obtain ⟨k, rfl⟩ := Nat.exists_eq_add_of_lt hn
  cases l with
  | nil => rfl
  | cons b r =>
    simp only [Nat.zero_add, List.take_succ_cons, List.take_zero, leVal]
    omega

theorem mod_four_of_lenOf {x : Nat} (h : lenOf x = 8) : x % 4 = 3 := by
  unfold lenOf at h
  split at h
  · cases h
  · split at h
    · cases h
    · omega

/-- An instruction of 8 bytes has a word whose low bits are 11, as Pyratha's words do (R186, R368). -/
theorem leVal_mod_of_decode {d : BitVec 512} {l : List Byte} {i : Instr} (h : decode d l = .instr i 8) :
    leVal (l.take 8) % 4 = 3 := by
  rw [leVal_take_mod l 8 (by decide), ← leVal_take_mod l 2 (by decide)]
  exact mod_four_of_lenOf (lenOf_of_decode h)

theorem runBytes_of_decode {d : BitVec 512} {l : List Byte} {i : Instr} {n : Nat} {pyr : Bool} (h : decode d l = .instr i n)
    (hpyr : pyr = true → n = 8) (s : State) : runBytes d pyr l s = exec i s := by
  have hword : (pyr && decide (leVal (l.take 8) % 4 ≠ 3)) = false := by
    cases pyr with
    | false => rfl
    | true =>
      obtain rfl := hpyr rfl
      simp [leVal_mod_of_decode h]
  simp only [runBytes, hword, Bool.false_eq_true, if_false, h]

/-! ### The instruction of a run -/

/-- A run's instruction where all that may keep it from issuing is absent (R148, R186, R200, R362, R364). -/
theorem State.issue_decoded {s m : State} {c : Cur} {w : Wave} {l : List Byte} {bad : List Bool} {i : Instr} {n : Nat}
    {pyr : Bool} (hpyr : ((s.x.teamOf w).bind s.x.gridOf).elim false Grid.pyr = pyr) (hw : s.x.wave? c.wave = some w)
    (hgrp : w.groupAt c.pc ≠ []) (hfetch : s.fetchAt c.wave (s.x.coreOf w) w.quad (s.x.ctxOf w) c.pc = (m, .bytes l bad))
    (hdec : decode m.trust.manifest.disabled l = .instr i n) (heven : c.pc % 2 = 0) (halign : n ≠ 2 → c.pc % 4 = 0)
    (hbad : ∀ b ∈ bad.take n, b = false) (hword : pyr = true → n = 8 ∧ c.pc % 8 = 0) :
    let has (r : State) : State := r.modX fun x => { x with cur := some { c with len := n, raw := leVal (l.take n) } }
    let die := dieOf (s.x.coreOf w)
    s.issue c = match exec i (if pyr = true ∧ c.count = 0 then
        if m.mem.ptransHas die (s.x.ctxOf w) c.pc then (has m).ptransUse die (s.x.ctxOf w) c.pc
        else (has m).modX fun x => x.post 4096 (.pyrathaRunTranslation die (s.x.ctxOf w) (BitVec.ofNat 48 c.pc))
      else has m) with
      | .next t => .next (t.issued ⟨c, w, w.groupAt c.pc, n, leVal (l.take n), true⟩)
      | .fault f => .fault f
      | .refused f => .refused f := by
  intro has die
  have hlen : (if pyr = true then 8 else lenOf (leVal (l.take 2))) = n := by
    cases pyr with
    | false => exact lenOf_of_decode hdec
    | true => exact (hword rfl).1.symm
  have hpc : ¬ (c.pc % 2 ≠ 0 ∨ (pyr = true ∧ c.pc % 8 ≠ 0)) := fun h =>
    h.elim (fun h => h heven) fun h => h.2 (hword h.1).2
  have hclean : (bad.take n).any id = false := List.any_eq_false.2 fun b hb => by simp [hbad b hb]
  have hlow : (!pyr || decide (leVal (l.take n) % 4 = 3)) = true := by
    cases pyr with
    | false => rfl
    | true =>
      obtain ⟨rfl, -⟩ := hword rfl
      simp [leVal_mod_of_decode hdec]
  obtain ⟨code, hcode⟩ := decodeCode_of_decode hdec
  have hgo : ∀ r, runBytes m.trust.manifest.disabled pyr l r = exec i r :=
    runBytes_of_decode hdec fun h => (hword h).1
  have hmiss : ¬ (n ≠ 2 ∧ c.pc % 4 ≠ 0) := fun h => h.2 (halign h.1)
  have hnone : (w.groupAt c.pc).isEmpty = false := by simpa using hgrp
  simp only [State.issue, hw, hpyr, hnone, hpc, hfetch, hlen, hmiss, hclean, State.modX_trust, hlow, hcode, hgo,
    Bool.false_eq_true, if_false, State.modX_mem, Bool.and_eq_true, decide_eq_true_eq]
  rfl

/-! ### The step -/

/-- A run in progress, whose wave has no asynchronous trap to take, issues its instruction (R148). -/
theorem State.go_of_cur {s : State} {c : Cur} {w : Wave} (hcur : s.x.cur = some c) (hw : s.x.wave? c.wave = some w)
    (hasync : w.asyncNow = []) : s.go = s.issue c := by
  simp only [State.go, hcur, hw, Option.elim_some, hasync, List.isEmpty_nil, Bool.not_true, Bool.false_eq_true, if_false]

/-- With no run in progress and no asynchronous trap to take, the first scheduled row is performed once it is due. -/
theorem State.go_of_due {s : State} {t : Nat} {e : Ev} {r : List (Nat × Ev)} (hcur : s.x.cur = none)
    (hasync : ∀ p ∈ s.x.waves, p.2.asyncNow = []) (hagenda : s.x.agenda = (t, e) :: r) (hdue : t ≤ s.x.tick) :
    s.go = exec e.toInstr (s.modX fun x => { x with agenda := r }) := by
  have hquiet : (s.x.waves.any fun p => !p.2.asyncNow.isEmpty) = false :=
    List.any_eq_false.2 fun p hp => by simp [hasync p hp]
  simp only [State.go, hcur, hquiet, Bool.false_eq_true, if_false, Exec.due, hagenda, hdue, if_true, runEv, State.takeAgenda,
    State.modX, List.drop_succ_cons, List.drop_zero]

/-- Settles O58: the bytes that decode to an instruction are those that the run's instruction is performed from. -/
theorem stepRunsDecoded : Obligations.StepRunsDecoded := by
  constructor
  · intro s c w m l bad i n s₁ grid pyr hcur hw hasync hgrp hfetch hdec heven halign hbad hword c' has die at_
    have hgo : s₁.go = s₁.issue c := State.go_of_cur hcur hw hasync
    have hissue := State.issue_decoded (s := s₁) (pyr := pyr) rfl hw hgrp hfetch hdec heven halign hbad hword
    change settleOut s₁.go = _
    rw [hgo, hissue]
    change settleOut (match exec i at_ with
      | .next t => .next (t.issued ⟨c, w, w.groupAt c.pc, n, leVal (l.take n), true⟩)
      | .fault f => .fault f
      | .refused f => .refused f) = _
    cases exec i at_ <;> rfl
  · intro s t e r hcur hasync hagenda hdue
    have hgo := State.go_of_due (s := s.modX fun x => { x with tick := x.tick + 1 }) hcur hasync hagenda hdue
    rw [step, hgo]
    rfl

end Sys2Proof.Proofs
end

section
/-! PROOFS. What of a wave stays when its windows close, and when a hold of it ends (08 R149, 10 R198, 16 R330). -/

namespace Sys2Proof.Machine

/-! ### Waves without registers and windows -/

/-- A fibre without its lookahead windows. -/
def Fib.shut (b : Fib) : Fib := { b with wins := [] }
/-- A wave without its registers, and its fibres without their lookahead windows. -/
def Wave.front (w : Wave) : Wave × (Nat → Fib) :=
  ({ w with v := [], vpois := [], w := [], fibs := [] }, fun f => (w.fib f).shut)
def Exec.front (x : Exec) (u : Nat) : Option (Wave × (Nat → Fib)) := (x.wave? u).map Wave.front

theorem Exec.front_congr {x y : Exec} (h : y.waves = x.waves) : y.front = x.front :=
  funext fun u => by rw [Exec.front, Exec.wave?_congr h, Exec.front]

theorem Exec.front_modWave (x : Exec) (u : Nat) (f : Wave → Wave)
    (h : ∀ w, (f w).front = w.front := by exact fun _ => rfl) : (x.modWave u f).front = x.front := by
  funext v
  rw [Exec.front, Exec.wave?_modWave]
  split
  · rw [Option.map_map]
    exact congrArg (Option.map · (x.wave? v)) (funext h)
  · rfl

theorem Wave.front_modFib (w : Wave) (f : Nat) (g : Fib → Fib) :
    (w.modFib f g).front = (w.front.1, Function.update w.front.2 f (g (w.fib f)).shut) := by
  refine Prod.ext rfl (funext fun k => ?_)
  simp only [Wave.front, Wave.fib_modFib, Function.update_apply]
  split <;> rfl

theorem Wave.front_modFib_shut {g : Fib → Fib} (h : ∀ b, (g b).shut = b.shut) (w : Wave) (f : Nat) :
    (w.modFib f g).front = w.front := by
  rw [Wave.front_modFib, h]
  exact Prod.ext rfl (Function.update_eq_self f w.front.2)

theorem Exec.front_modFib_shut (x : Exec) (u f : Nat) (g : Fib → Fib)
    (h : ∀ b, (g b).shut = b.shut := by exact fun _ => rfl) : (x.modFib u f g).front = x.front :=
  x.front_modWave u _ fun w => w.front_modFib_shut h f

theorem Wave.front_mapFibs (w : Wave) (g : Fib → Fib) (h : ∀ b, (g b).shut = b.shut := by exact fun _ => rfl) :
    ({ w with fibs := w.fibs.map fun p => (p.1, g p.2) } : Wave).front = w.front := by
  refine Prod.ext rfl (funext fun f => ?_)
  have hfind : ∀ l : SMap Fib, (SMap.get (l.map fun p => (p.1, g p.2)) {} f).shut = (l.get {} f).shut := fun l => by
    induction l with
    | nil => rfl
    | cons p r ih =>
      simp only [SMap.get, SMap.find?, List.map_cons] at ih ⊢
      split
      · exact h p.2
      · exact ih
  exact hfind w.fibs

theorem Exec.front_closeWin (x : Exec) (u f : Nat) (l : LookWin) : (x.closeWin u f l).front = x.front := by
  have hv := foldl_keeps Exec.front (f := fun (x : Exec) (p : Nat × Word) => x.writeV u f p.1 p.2)
    (fun x _ => x.front_modWave ..) l.v x
  have hw := fun y => foldl_keeps Exec.front (f := fun (x : Exec) (p : Nat × Word) => x.writeW u p.1 p.2)
    (fun x _ => x.front_modWave ..) l.w y
  unfold Exec.closeWin
  dsimp only
  split
  · exact hv
  · exact ((Exec.front_modWave _ u _ fun w => w.front_mapFibs fun b =>
      { b with wins := b.wins.map fun q => if q.id = l.id then { q with w := [] } else q }).trans ((hw _).trans hv))

/-- Closing a fibre's windows writes registers and nothing else (R198). -/
theorem Exec.front_closeAll (x : Exec) (u f : Nat) : (x.closeAll u f).front = x.front :=
  (Exec.front_modFib_shut ..).trans
    (foldl_keeps Exec.front (fun x l => x.front_closeWin u f l) (x.fib u f).wins x)

theorem Exec.front_passWindows (x : Exec) (u : Nat) (stop : Bool) (l : List (Nat × List Nat)) :
    (x.passWindows u stop l).front = x.front := by
  unfold Exec.passWindows
  refine (foldl_keeps Exec.front (fun x p => ?_) _ _).trans
    (foldl_keeps Exec.front (fun x _ => x.front_modFib_shut ..) l x)
  split
  · rfl
  · exact (Exec.front_modFib_shut ..).trans (Exec.front_closeWin ..)

/-! ### The end of a hold -/

/-- Windows apart, the end of a hold changes what `Wave.woken` says, and that of its wave alone (R149). -/
theorem Exec.front_unhold (x : Exec) (u : Nat) : ∃ n, ∀ v,
    (x.unhold u).front v = if v = u then (x.front v).map fun p => (p.1.woken n, p.2) else x.front v := by
  obtain ⟨y, hy, hwaves⟩ : ∃ y : Exec, y.front = x.front ∧ (x.unhold u).waves = (y.modWave u (Wave.woken y.fresh)).waves := by
    rcases hpass : ((x.wave? u).filter fun (w : Wave) => w.hold.elim false Hold.late).bind Wave.passing with _ | p
    · refine ⟨x, rfl, ?_⟩
      simp only [Exec.unhold, hpass]
      split
      · exact Exec.waves_post ..
      · rfl
    · refine ⟨x.passWindows u p.1 p.2, x.front_passWindows u p.1 p.2, ?_⟩
      simp only [Exec.unhold, hpass]
      split
      · exact Exec.waves_post ..
      · rfl
  refine ⟨y.fresh, fun v => ?_⟩
  rw [Exec.front_congr hwaves, ← hy, Exec.front, Exec.front, Exec.wave?_modWave]
  split
  · rw [Option.map_map, Option.map_map]
    rfl
  · rfl

/-- What holds a wave, if it is listed. -/
def Exec.holdOf (x : Exec) (u : Nat) : Option (Option Hold) := (x.wave? u).map Wave.hold

theorem Exec.holdOf_eq_front (x : Exec) (u : Nat) : x.holdOf u = (x.front u).map fun p => p.1.hold := by
  rw [Exec.front, Option.map_map]
  rfl

theorem Exec.holdOf_unhold (x : Exec) (u v : Nat) :
    (x.unhold u).holdOf v = if v = u then (x.holdOf v).map fun _ => none else x.holdOf v := by
  obtain ⟨n, h⟩ := x.front_unhold u
  rw [Exec.holdOf_eq_front, h v, Exec.holdOf_eq_front]
  split
  · rw [Option.map_map, Option.map_map]
    rfl
  · rfl

/-- Listed waves whose holds end are held no more, and no wave becomes held. -/
theorem Exec.holdOf_foldl_unhold {l : List Nat} {x : Exec} {v : Nat} (h : v ∈ l ∧ (x.holdOf v).isSome ∨ x.holdOf v = some none) :
    (l.foldl Exec.unhold x).holdOf v = some none := by
  induction l generalizing x with
  | nil => exact h.resolve_left fun k => List.not_mem_nil k.1
  | cons u l ih =>
    refine ih ?_
    rw [Exec.holdOf_unhold]
    by_cases e : v = u
    · have hsome : (x.holdOf v).isSome := h.elim And.right fun k => by rw [k]; rfl
      obtain ⟨d, hd⟩ := Option.isSome_iff_exists.1 hsome
      exact .inr (by rw [if_pos e, hd]; rfl)
    · rw [if_neg e]
      exact h.imp_left fun k => ⟨(List.mem_cons.1 k.1).resolve_left e, k.2⟩

/-! ### What waking leaves of a wave -/

/-- A wave without its registers, its futures, what it has staged and what holds it, and its fibres without their windows. -/
def Wave.lasting (w : Wave) : Wave × (Nat → Fib) :=
  ({ w with v := [], vpois := [], w := [], fibs := [], handles := [], staged := [], hold := none, stamp := 0, resumed := false
            passing := none }, fun f => (w.fib f).shut)
def Exec.lasting (x : Exec) (u : Nat) : Option (Wave × (Nat → Fib)) := (x.wave? u).map Wave.lasting

theorem Exec.lasting_eq_front (x : Exec) (u : Nat) : x.lasting u = (x.front u).map fun p =>
    ({ p.1 with handles := [], staged := [], hold := none, stamp := 0, resumed := false, passing := none }, p.2) := by
  rw [Exec.front, Option.map_map]
  rfl

theorem Exec.lasting_of_front {x y : Exec} (h : y.front = x.front) : y.lasting = x.lasting :=
  funext fun u => by rw [Exec.lasting_eq_front, h, Exec.lasting_eq_front]

theorem Exec.lasting_congr {x y : Exec} (h : y.waves = x.waves) : y.lasting = x.lasting :=
  Exec.lasting_of_front (Exec.front_congr h)

theorem Exec.lasting_modWave (x : Exec) (u : Nat) (f : Wave → Wave)
    (h : ∀ w, (f w).lasting = w.lasting := by exact fun _ => rfl) : (x.modWave u f).lasting = x.lasting := by
  funext v
  rw [Exec.lasting, Exec.wave?_modWave]
  split
  · rw [Option.map_map]
    exact congrArg (Option.map · (x.wave? v)) (funext h)
  · rfl

@[simp] theorem Exec.lasting_post (x : Exec) (d : Nat) (e : Ev) : (x.post d e).lasting = x.lasting :=
  Exec.lasting_congr (x.waves_post d e)

@[simp] theorem Exec.lasting_unhold (x : Exec) (u : Nat) : (x.unhold u).lasting = x.lasting := by
  funext v
  obtain ⟨n, h⟩ := x.front_unhold u
  rw [Exec.lasting_eq_front, h v, Exec.lasting_eq_front]
  split
  · rw [Option.map_map]
    rfl
  · rfl

@[simp] theorem Exec.lasting_unholdWhere (x : Exec) (p : Nat → Wave → Bool) : (x.unholdWhere p).lasting = x.lasting := by
  refine foldl_keeps Exec.lasting (fun x q => ?_) _ x
  split
  · exact x.lasting_unhold _
  · rfl

@[simp] theorem Exec.lasting_wakeTeam (x : Exec) (t : Nat) : (x.wakeTeam t).lasting = x.lasting := by
  unfold Exec.wakeTeam
  split
  · rfl
  · exact foldl_keeps Exec.lasting Exec.lasting_unhold _ x

/-- How many arrivals a barrier of a team asks for (R220). -/
def Exec.barReq (x : Exec) (t : Nat) (r : Bar) : Nat := if r.n ≠ 0 then r.n else x.waveCount t

theorem Exec.barComplete_none {x : Exec} {t : Nat} (hm : x.teams.find? t = none) (b : Nat) : x.barComplete t b = x := by
  rw [Exec.barComplete, hm]

section
variable {x : Exec} {t b : Nat} {m : Team} {r : Bar} (hm : x.teams.find? t = some m) (hr : m.bars.get {} b = r)
include hm hr

/-- A barrier that has not the arrivals it asks for stays as it is (R220). -/
theorem Exec.barComplete_open (h : ¬ (x.barReq t r ≤ r.a ∧ 0 < r.a)) : x.barComplete t b = x := by
  rw [Exec.barReq, ← decide_eq_true_eq (p := _ ∧ _), Bool.decide_and] at h
  simp only [Exec.barComplete, hm, hr, if_neg h]

/-- A barrier that has them begins its next generation, and the team's waves that this lets go on do (R220). -/
theorem Exec.barComplete_full (h : x.barReq t r ≤ r.a ∧ 0 < r.a) : x.barComplete t b = (x.modTeam t fun m =>
    { m with bars := m.bars.put {} b { r with g := (r.g + 1) % 2 ^ 16, a := 0 } }).wakeTeam t := by
  rw [Exec.barReq, ← decide_eq_true_eq (p := _ ∧ _), Bool.decide_and] at h
  simp only [Exec.barComplete, hm, hr, if_pos h]

end

@[simp] theorem Exec.lasting_barComplete (x : Exec) (t b : Nat) : (x.barComplete t b).lasting = x.lasting := by
  cases hm : x.teams.find? t with
  | none => rw [Exec.barComplete_none hm]
  | some m =>
    by_cases h : x.barReq t (m.bars.get {} b) ≤ (m.bars.get {} b).a ∧ 0 < (m.bars.get {} b).a
    · rw [Exec.barComplete_full hm rfl h, Exec.lasting_wakeTeam]
      rfl
    · rw [Exec.barComplete_open hm rfl h]

@[simp] theorem Exec.lasting_barCompleteAll (x : Exec) (t : Nat) : (x.barCompleteAll t).lasting = x.lasting :=
  foldl_keeps Exec.lasting (fun x b => x.lasting_barComplete t b) _ x

end Sys2Proof.Machine
end

section
/-! PROOFS. Team barriers, the grid barrier and convergence registers (08 R164, 11 R219, R220, R223, R224). -/

namespace Sys2Proof.Machine

/-! ### Instructions of the whole group -/

/-- An instruction whose group moves on once y executes. -/
theorem makes_of_advance {s : State} {n : Instr} {i : Iss} {y : Exec} {len : Nat} (hi : s.x.issue? = some i)
    (he : exec n s = .next { s with x := y.advance i len }) : Claim.Makes s n i y len :=
  ⟨_, he, rfl, rfl, y.past_advance len (Iss.grp_nodup hi)⟩

theorem Exec.holdOf_advance (x : Exec) (i : Iss) (len u : Nat) : (x.advance i len).holdOf u = x.holdOf u := by
  have hbare := congrArg (Option.map Wave.hold) (x.bare_advance i len u)
  rw [Option.map_map, Option.map_map] at hbare
  exact hbare

/-! ### Arrivals (R219, R220) -/

/-- An arrival of i's wave at barrier b, with n required, before the barrier counts. -/
def Exec.arrival (x : Exec) (i : Iss) (b n : Nat) (r : Bar) : Exec :=
  (x.modWave i.u fun v => { v with arrGen := v.arrGen.insert b (r.g, 0) }).modTeam i.w.team fun m =>
    { m with bars := m.bars.put {} b { r with n := n, a := r.a + 1 } }

theorem Exec.waveCount_modWave (x : Exec) (u t : Nat) (f : Wave → Wave)
    (h : ∀ w, ((f w).team, (f w).exited, (f w).handler) = (w.team, w.exited, w.handler) := by exact fun _ => rfl) :
    (x.modWave u f).waveCount t = x.waveCount t := by
  rw [Exec.waveCount, Exec.teamWaves, Exec.modWave_waves, SMap.modify, List.filter_map, List.length_map]
  refine congrArg List.length (List.filter_congr fun p _ => ?_)
  have hp := h p.2
  simp only [Prod.mk.injEq] at hp
  obtain ⟨hteam, hexited, hhandler⟩ := hp
  simp only [Function.comp]
  split
  · simp only [hteam, hexited, hhandler]
  · rfl

theorem Exec.find?_teams_modTeam {x : Exec} {t : Nat} {m : Team} (hm : x.teams.find? t = some m) (f : Team → Team) :
    (x.modTeam t f).teams.find? t = some (f m) := by
  rw [Exec.modTeam_teams, SMap.find?_modify, if_pos rfl, hm]
  rfl

/-- What an arrival makes of the arriving wave. -/
def Wave.arrived (b g : Nat) (v : Wave) : Wave := { v with arrGen := v.arrGen.insert b (g, 0) }

theorem Exec.wave?_arrival (x : Exec) (i : Iss) (b n : Nat) (r : Bar) (v : Nat) :
    (x.arrival i b n r).wave? v = if v = i.u then (x.wave? v).map (Wave.arrived b r.g) else x.wave? v :=
  x.wave?_modWave i.u v (Wave.arrived b r.g)

theorem Exec.barReq_arrival (x : Exec) (i : Iss) (b n : Nat) (r q : Bar) :
    (x.arrival i b n r).barReq i.w.team q = if q.n = 0 then x.waveCount i.w.team else q.n := by
  have hcount : (x.arrival i b n r).waveCount i.w.team = x.waveCount i.w.team :=
    x.waveCount_modWave i.u i.w.team (Wave.arrived b r.g)
  rw [Exec.barReq, hcount, ite_not]

section
variable {x : Exec} {i : Iss} {m : Team} (hw : x.wave? i.u = some i.w) (hm : x.teamOf i.w = some m)
include hm

theorem Exec.find?_teams_arrival (b n : Nat) (r : Bar) : (x.arrival i b n r).teams.find? i.w.team =
    some { m with bars := m.bars.put {} b { r with n := n, a := r.a + 1 } } :=
  Exec.find?_teams_modTeam (x := x.modWave i.u _) hm _

include hw

theorem Exec.barArrive_eq (b n : Nat) :
    x.barArrive i.u b n = (x.arrival i b n (m.bars.get {} b)).barComplete i.w.team b := by
  have hm' : x.teams.find? i.w.team = some m := hm
  simp only [Exec.barArrive, hw, hm', Exec.arrival]

theorem Exec.barWaits_eq (b : Nat) : x.barWaits i.u b =
    if (i.w.arrGen.find? b).map Prod.fst = some (m.bars.get {} b).g then some (m.bars.get {} b).g else none := by
  simp only [Exec.barWaits, hw, hm, Option.elim_some]
  cases i.w.arrGen.find? b with
  | none => rfl
  | some p => simp only [Option.map_some, Option.some.injEq]

end

/-! ### The three instructions -/

/-- A wave that waits at barrier b is held in the generation that it has arrived in (R220). -/
def Exec.barStay (x : Exec) (i : Iss) (b : Nat) : Exec := match x.barWaits i.u b with
  | some g => x.hold i (.barrier b g)
  | none => x

theorem Exec.barStay_some {x : Exec} {i : Iss} {b g : Nat} (h : x.barWaits i.u b = some g) :
    x.barStay i b = Claim.held x i (.barrier b g) := by rw [Exec.barStay, h]; rfl
theorem Exec.barStay_none {x : Exec} {i : Iss} {b : Nat} (h : x.barWaits i.u b = none) : x.barStay i b = x := by
  rw [Exec.barStay, h]

section
variable {s : State} {i : Iss} (w : OwnI) (hi : s.x.issue? = some i) (hhandler : i.inHandler = false)
  (hdiv : i.diverged = false) (hdet : s.x.determ i.w = false)
include hi hhandler hdiv hdet

theorem exec_barwt : exec (.barwt w) s = .next { s with x := (s.x.barStay i (w.m.toNat % 16)).advance i 8 } := by
  have e : exec (.barwt w) s = s.onX fun x => x.teamBar 2 (w.m.toNat % 16) 0 := rfl
  simp only [e, State.onX, Exec.teamBar, Exec.wholeHold, hi, hhandler, hdiv, hdet, Bool.false_and, Bool.false_eq_true, if_false,
    ne_eq, not_true_eq_false, false_and, if_true, OfNat.ofNat_ne_zero]
  rfl

variable (hlog : i.w.log = [])
include hlog

theorem exec_bararv : exec (.bararv w) s =
    .next { s with x := (s.x.barArrive i.u (w.m.toNat % 16) (w.m.toNat / 16 % 32)).advance i 8 } := by
  have e : exec (.bararv w) s = s.onX fun x => x.teamBar 0 (w.m.toNat % 16) (w.m.toNat / 16 % 32) := rfl
  simp only [e, State.onX, Exec.teamBar, Exec.wholeHold, hi, hhandler, hdiv, hdet, hlog, Bool.false_and, Bool.false_eq_true,
    if_false, List.isEmpty_nil, Bool.not_true, and_false, if_true, OfNat.zero_ne_ofNat]

theorem exec_barsyn : exec (.barsyn w) s = .next { s with x :=
    ((s.x.barArrive i.u (w.m.toNat % 16) (w.m.toNat / 16 % 32)).barStay i (w.m.toNat % 16)).advance i 8 } := by
  have e : exec (.barsyn w) s = s.onX fun x => x.teamBar 1 (w.m.toNat % 16) (w.m.toNat / 16 % 32) := rfl
  simp only [e, State.onX, Exec.teamBar, Exec.wholeHold, hi, hhandler, hdiv, hdet, hlog, Bool.false_and, Bool.false_eq_true,
    if_false, List.isEmpty_nil, Bool.not_true, and_false, OfNat.one_ne_ofNat, one_ne_zero]
  rfl

end

/-! ### An arrival that completes its generation -/

section
variable {x : Exec} {i : Iss} {m : Team} {b n : Nat} {r : Bar} (hw : x.wave? i.u = some i.w) (hm : x.teamOf i.w = some m)
  (hr : m.bars.get {} b = r)
include hw hm hr

theorem Exec.barArrive_open (h : r.a + 1 < if n = 0 then x.waveCount i.w.team else n) : x.barArrive i.u b n = x.arrival i b n r := by
  rw [Exec.barArrive_eq hw hm, hr]
  refine Exec.barComplete_open (Exec.find?_teams_arrival hm b n r) (SMap.get_put_self ..) fun k => ?_
  rw [Exec.barReq_arrival] at k
  exact absurd h (Nat.not_lt.2 k.1)

variable (h : (if n = 0 then x.waveCount i.w.team else n) ≤ r.a + 1)
include h

theorem Exec.barArrive_full : x.barArrive i.u b n = ((x.arrival i b n r).modTeam i.w.team fun m =>
    { m with bars := m.bars.put {} b { r with g := (r.g + 1) % 2 ^ 16, n := n, a := 0 } }).wakeTeam i.w.team := by
  rw [Exec.barArrive_eq hw hm, hr]
  refine Exec.barComplete_full (Exec.find?_teams_arrival hm b n r) (SMap.get_put_self ..) ⟨?_, Nat.succ_pos _⟩
  rw [Exec.barReq_arrival]
  exact h

/-- The barrier of the team is in its next generation, with no arrival. -/
theorem Exec.find?_teams_barArrive_full : ∃ m', (x.barArrive i.u b n).teams.find? i.w.team = some m' ∧
    m'.bars.get {} b = { r with g := (r.g + 1) % 2 ^ 16, n := n, a := 0 } := by
  rw [Exec.barArrive_full hw hm hr h, Exec.teams_of_besideWaves (Exec.besideWaves_wakeTeam _ _)]
  exact ⟨_, Exec.find?_teams_modTeam (Exec.find?_teams_arrival hm b n r) _, SMap.get_put_self ..⟩

/-- The arriving wave does not wait: its generation is over. -/
theorem Exec.barWaits_barArrive_full : (x.barArrive i.u b n).barWaits i.u b = none := by
  obtain ⟨m', hm', hbar⟩ := Exec.find?_teams_barArrive_full hw hm hr h
  have hlast : (x.barArrive i.u b n).lasting = (x.arrival i b n r).lasting := by
    rw [Exec.barArrive_full hw hm hr h, Exec.lasting_wakeTeam]
    rfl
  have hself := congrFun hlast i.u
  rw [Exec.lasting, Exec.lasting, Exec.wave?_arrival, if_pos rfl, hw, Option.map_some, Option.map_some] at hself
  obtain ⟨w', hw', hw''⟩ := Option.map_eq_some_iff.1 hself
  have hteam : w'.team = i.w.team := congrArg (fun p => p.1.team) hw''
  have hgen : w'.arrGen = i.w.arrGen.insert b (r.g, 0) := congrArg (fun p => p.1.arrGen) hw''
  have hwaits := Exec.barWaits_eq (i := ⟨i.u, w', i.pc, i.grp⟩) (m := m') hw' (by rw [Exec.teamOf, hteam, hm']) b
  refine hwaits.trans (if_neg ?_)
  rw [hgen, SMap.find?_insert, if_pos rfl, hbar, Option.map_some, Option.some.injEq]
  exact (show r.g ≠ (r.g + 1) % 2 ^ 16 by omega)

/-- The team's waves that are held at the generation that has ended are held no more. -/
theorem Exec.holdOf_barArrive_full {v : Nat} {q : Wave} (hv : x.wave? v = some q) (hteam : q.team = i.w.team)
    (hhold : q.hold = some (.barrier b r.g)) : (x.barArrive i.u b n).holdOf v = some none := by
  rw [Exec.barArrive_full hw hm hr h, Exec.wakeTeam, Exec.find?_teams_modTeam (Exec.find?_teams_arrival hm b n r)]
  obtain ⟨q', hq', hteam', hhold'⟩ : ∃ q', (x.arrival i b n r).wave? v = some q' ∧ q'.team = i.w.team ∧
      q'.hold = some (.barrier b r.g) := by
    rw [Exec.wave?_arrival, hv]
    split
    · exact ⟨_, rfl, hteam, hhold⟩
    · exact ⟨q, rfl, hteam, hhold⟩
  refine Exec.holdOf_foldl_unhold (.inl ⟨List.mem_map.2 ⟨(v, q'), List.mem_filter.2 ⟨SMap.mem_of_find? hq', ?_⟩, rfl⟩, ?_⟩)
  · have hnext : (r.g + 1) % 65536 ≠ r.g := by omega
    simp [Exec.holdMet, hteam', hhold', hnext]
  · have hhold : (x.arrival i b n r).holdOf v = some q'.hold := congrArg (Option.map Wave.hold) hq'
    exact Option.isSome_iff_exists.2 ⟨_, hhold⟩

end

end Sys2Proof.Machine

namespace Sys2Proof.Proofs

open Sys2Proof.Machine Sys2Proof.Claim

theorem teamBarriers : TeamBarriers := by
  intro s i w m hi hhandler hdiv hdet hlog hm b n r req y
  have hw := (Exec.issue?_spec hi).2.1
  have harv := exec_bararv w hi hhandler hdiv hdet hlog
  have hsyn := exec_barsyn w hi hhandler hdiv hdet hlog
  have hwt := exec_barwt w hi hhandler hdiv hdet
  refine ⟨fun hopen => ?_, fun hfull _ p hp => ?_, fun harrived => ?_, fun hnot => ?_⟩
  · have hy : s.x.barArrive i.u b n = y := Exec.barArrive_open hw hm rfl hopen
    refine ⟨makes_of_advance hi (hy ▸ harv), makes_of_advance hi ?_⟩
    have hwaits : y.barWaits i.u b = some r.g := by
      have hwave : y.wave? i.u = some (i.w.arrived b r.g) := by
        rw [← hy, Exec.barArrive_open hw hm rfl hopen, Exec.wave?_arrival, if_pos rfl, hw]
        rfl
      refine (Exec.barWaits_eq (i := ⟨i.u, i.w.arrived b r.g, i.pc, i.grp⟩) hwave (Exec.find?_teams_arrival hm b n r) b).trans ?_
      rw [SMap.get_put_self, Wave.arrived, SMap.find?_insert, if_pos rfl]
      exact if_pos rfl
    rw [hsyn, ← Exec.barStay_some hwaits, hy]
  · obtain ⟨m', hm', hbar⟩ := Exec.find?_teams_barArrive_full hw hm rfl hfull
    have hstay := Exec.barStay_none (Exec.barWaits_barArrive_full hw hm rfl hfull)
    have hexec : exec p s = .next { s with x := (s.x.barArrive i.u b n).advance i 8 } := by
      simp only [List.mem_cons, List.not_mem_nil, or_false] at hp
      rcases hp with rfl | rfl
      · exact harv
      · rw [hsyn, hstay]
    refine ⟨_, hexec, rfl, rfl, ?_, fun v q hv hteam hhold => ?_⟩
    · rw [Exec.advance_teams, hm', Option.map_some, hbar]
    · exact (Exec.holdOf_advance ..).trans (Exec.holdOf_barArrive_full hw hm rfl hfull hv hteam hhold)
  · refine makes_of_advance hi ?_
    rw [hwt, Exec.barStay_some ((Exec.barWaits_eq hw hm b).trans (if_pos harrived))]
  · refine makes_of_advance hi ?_
    rw [hwt, Exec.barStay_none ((Exec.barWaits_eq hw hm b).trans (if_neg hnot))]

end Sys2Proof.Proofs
end

section
/-! PROOFS. The grid barrier and convergence registers (08 R164, 11 R223, R224). -/

namespace Sys2Proof.Machine

/-! ### One change of several fibres -/

/-- The same change of each fibre of a list. -/
def Exec.modFibs (x : Exec) (u : Nat) (l : List Nat) (g : Fib → Fib) : Exec := l.foldl (fun x f => x.modFib u f g) x

theorem Exec.isSome_modFibs (x : Exec) (u v : Nat) (l : List Nat) (g : Fib → Fib) :
    ((x.modFibs u l g).wave? v).isSome = (x.wave? v).isSome :=
  foldl_keeps (fun x : Exec => (x.wave? v).isSome) (fun x f => x.isSome_modFib u f v g) l x

theorem Exec.bare_modFibs (x : Exec) (u v : Nat) (l : List Nat) (g : Fib → Fib) :
    ((x.modFibs u l g).wave? v).map Wave.bare = (x.wave? v).map Wave.bare :=
  foldl_keeps (fun x : Exec => (x.wave? v).map Wave.bare) (fun x f => x.bare_modFib u f v g) l x

theorem Exec.slotReg_modFibs (x : Exec) (u v a k : Nat) (l : List Nat) (g : Fib → Fib) :
    (x.modFibs u l g).slotReg v a k = x.slotReg v a k :=
  foldl_keeps (fun x : Exec => x.slotReg v a k) (fun x f => x.slotReg_modFib u f v a k g) l x

theorem Exec.fib_modFibs {x : Exec} {u : Nat} {l : List Nat} (hn : l.Nodup) (hu : (x.wave? u).isSome) (g : Fib → Fib) (v f : Nat) :
    (x.modFibs u l g).fib v f = if v = u ∧ f ∈ l then g (x.fib v f) else x.fib v f := by
  induction l generalizing x with
  | nil => simp [Exec.modFibs]
  | cons a l ih =>
    obtain ⟨ha, hn⟩ := List.nodup_cons.1 hn
    have hx : (x.modFibs u (a :: l) g) = (x.modFib u a g).modFibs u l g := rfl
    rw [hx, ih hn (by rw [Exec.isSome_modFib]; exact hu), Exec.fib_modFib _ _ _ _ _ _ hu]
    by_cases e : f = a
    · subst e
      simp [ha]
    · simp [e]

theorem Exec.rest_modFibs (x : Exec) (u : Nat) (l : List Nat) (g : Fib → Fib) :
    { x.modFibs u l g with waves := x.waves } = x := by
  induction l generalizing x with
  | nil => rfl
  | cons a l ih =>
    have h := congrArg (fun y : Exec => { y with waves := x.waves }) (ih (x.modFib u a g))
    exact h

/-! ### CVSET (R224) -/

theorem Team.friezeOf_eq_none_or {m : Team} {j k : Nat} (h : ∀ q < 8, q ≠ k → bitOf (m.conv q).members j = false) :
    m.friezeOf j = none ∨ m.friezeOf j = some k := by
  rw [Team.friezeOf, findIdx_range]
  cases hq : (List.range 8).find? fun q => bitOf (m.conv q).members j with
  | none => exact .inl rfl
  | some q =>
    refine .inr (congrArg some ?_)
    by_contra hne
    have hbit := List.find?_some hq
    rw [h q (List.mem_range.1 (List.mem_of_find?_eq_some hq)) hne] at hbit
    cases hbit

/-- A mask of one to eight live waves of the team, none of which another register names, is applied (R162, R224). -/
theorem Exec.cvsetOk_of_live {x : Exec} {t k mask : Nat} {m : Team} (hm : x.teams.find? t = some m)
    (h1 : 1 ≤ ((List.range 16).filter (bitOf mask ·)).length) (h8 : ((List.range 16).filter (bitOf mask ·)).length ≤ 8)
    (hl : ∀ j ∈ (List.range 16).filter (bitOf mask ·),
      (∃ u v, x.wave? u = some v ∧ v.team = t ∧ v.exited = false ∧ v.handler = none ∧ v.idx = j) ∧
      ∀ q < 8, q ≠ k → bitOf (m.conv q).members j = false) : x.cvsetOk t k mask = true := by
  simp only [Exec.cvsetOk, hm, h1, h8, and_self, decide_true, Bool.true_and, List.all_eq_true, Bool.and_eq_true]
  intro j hj
  obtain ⟨⟨u, v, hv, hteam, hlive, hown, hidx⟩, hother⟩ := hl j hj
  constructor
  · rw [List.contains_iff_mem]
    refine List.mem_map.2 ⟨(u, v), List.mem_filter.2 ⟨SMap.mem_of_find? hv, ?_⟩, hidx⟩
    simp [hteam, hlive, hown]
  · rcases Team.friezeOf_eq_none_or hother with hnone | hsome
    · rw [hnone]
    · rw [hsome]
      exact decide_eq_true rfl

end Sys2Proof.Machine

namespace Sys2Proof.Proofs

open Sys2Proof.Machine Sys2Proof.Claim

theorem gridBarrier : GridBarrier := by
  intro s i w m g hi hhandler hm hg hcohort
  have hw := (Exec.issue?_spec hi).2.1
  have e : exec (.gridbar w) s = execGridbar w s := rfl
  have hexec : exec (.gridbar w) s = .next { s with x := s.x.modFibs i.u i.grp fun b => { b with st := .waiting .gridbar } } := by
    have hgrid : (s.x.teamOf i.w).bind s.x.gridOf = some g := by rw [hm, Option.bind_some, hg]
    simp only [e, execGridbar, State.onX, hi, hhandler, hgrid, Option.elim_some, hcohort, Bool.not_true, Bool.false_eq_true,
      if_false]
    rfl
  refine ⟨_, hexec, rfl, rfl, s.x.rest_modFibs .., fun u => s.x.bare_modFibs .., fun u a k => s.x.slotReg_modFibs .., fun u f => ?_⟩
  exact Exec.fib_modFibs (Iss.grp_nodup hi) (by rw [hw]; rfl) _ u f

theorem convergenceSet : ConvergenceSet := by
  intro s i w f m hu hhandler hm k mask l c hsigned h1 h8 hl
  have hm' : s.x.teams.find? i.w.team = some m := hm
  have hconv : ((s.x.teamOf i.w).map fun m => m.conv w.d.toNat).getD {} = c := by rw [hm]; rfl
  have hok : s.x.cvsetOk i.w.team w.d.toNat ((s.x.readW i.u w.s1.toNat).toNat % 2 ^ 16) = true :=
    Exec.cvsetOk_of_live hm' h1 h8 hl
  refine makes_of_advance hu.run ?_
  have e : exec (.cvset w) s = execCvset w s := rfl
  rw [e, execCvset, State.onX, Exec.uniformHold_eq hu]
  simp only [hhandler, hconv, hsigned, hok, Bool.false_eq_true, if_false, ne_eq, not_true_eq_false, Bool.not_true]
  rfl

/-- Settles O22: by its three parts, on team barriers, the grid barrier and convergence registers. -/
theorem barriers : Obligations.Barriers := ⟨teamBarriers, gridBarrier, convergenceSet⟩

end Sys2Proof.Proofs
end

section
/-! PROOFS. A fibre that takes a deferred trap, and a group some of whose fibres trap (08 R145, R167, 17 R335). -/

namespace Sys2Proof.Machine

/-! ### One fibre traps -/

theorem Exec.waves_stopGrid (x : Exec) (g : Nat) (p : Nat × Nat × Nat × Nat) : (x.stopGrid g p).waves = x.waves := by
  unfold Exec.stopGrid
  split
  · rfl
  · split <;> exact Exec.waves_post ..

/-- A trap record without what the moment of the trap adds to it. -/
def Trap.told (t : Trap) : Trap := { t with age := 0, raw := 0, runs := 0 }

/-- A fibre that traps closes its windows, and stands masked with the record (R198, R335). -/
theorem Exec.waves_takeTrap (x : Exec) (u f : Nat) (t : Trap) : ∃ r : Trap, r.told = t.told ∧
    (x.takeTrap u f t).waves = ((x.closeAll u f).modFib u f fun b => { b with st := .masked, trap := some r }).waves := by
  unfold Exec.takeTrap
  extract_lets y raw z
  refine ⟨{ t with age := y.fresh, raw := raw, runs := y.runsOf u }, rfl, ?_⟩
  clear_value raw
  split
  · rfl
  · split
    · exact Exec.waves_post ..
    · split
      · exact Exec.waves_post ..
      · split
        · exact (Exec.waves_stopGrid ..).trans (Exec.waves_post ..)
        · exact Exec.waves_post ..

/-- y is x with one fibre masked, with a trap record. -/
structure Masks (x y : Exec) (u f : Nat) (r : Trap) : Prop where
  bare : ∀ v, (y.wave? v).map Wave.bare = (x.wave? v).map Wave.bare
  regs : ∀ v a k, y.slotReg v a k = x.slotReg v a k
  pois : ∀ v a k, y.slotPois v a k = x.slotPois v a k
  fibs : ∀ v g, y.fib v g = if v = u ∧ g = f then { x.fib v g with st := .masked, trap := some r } else x.fib v g

theorem Masks.window {x y : Exec} {u f : Nat} {r : Trap} (h : Masks x y u f r) (v g : Nat) : y.window v g = x.window v g :=
  Exec.window_congr (fun v g => by rw [h.fibs]; split <;> rfl) v g

theorem Exec.closeAll_of_noWins {x : Exec} {u f : Nat} (h : (x.fib u f).wins = []) :
    x.closeAll u f = x.modFib u f fun b => { b with wins := [] } := by
  rw [Exec.closeAll, h]
  rfl

theorem Exec.masks_takeTrap {x : Exec} {u f : Nat} (hu : (x.wave? u).isSome) (hwins : (x.fib u f).wins = []) (t : Trap) :
    ∃ r, r.told = t.told ∧ Masks x (x.takeTrap u f t) u f r := by
  obtain ⟨r, hr, hwaves⟩ := x.waves_takeTrap u f t
  rw [Exec.closeAll_of_noWins hwins] at hwaves
  refine ⟨r, hr, fun v => ?_, fun v a k => ?_, fun v a k => ?_, fun v g => ?_⟩
  · rw [Exec.wave?_congr hwaves, Exec.bare_modFib, Exec.bare_modFib]
  · rw [Exec.slotReg_congr hwaves, Exec.slotReg_modFib, Exec.slotReg_modFib]
  · rw [Exec.slotPois_congr hwaves, Exec.slotPois_modFib, Exec.slotPois_modFib]
  · rw [Exec.fib_congr hwaves, Exec.fib_modFib _ _ _ _ _ _ (by rw [Exec.isSome_modFib]; exact hu), Exec.fib_modFib _ _ _ _ _ _ hu]
    split
    next h => rw [h.1, h.2, ← hwins]
    next => rfl

/-! ### A group some of whose fibres trap -/

/-- A result that is a trap alone, or register writes alone. -/
def Res.simple (r : Res) : Prop := (∃ c, r = { trap := some c }) ∨ ∃ v, r = { v := v }

/-- What results that are traps or register writes do to the waves: those that write do so, the others mask their fibres. -/
structure MixDone (x y : Exec) (i : Iss) (len : Nat) (l : List Nat) (r : Nat → Res) : Prop where
  bare : ∀ u, (y.wave? u).map Wave.bare = (x.wave? u).map Wave.bare
  regs : ∀ u a k, (a < 128 ∨ ∀ f ∈ l, (r f).trap ≠ none) → y.slotReg u a k =
    (x.ownerOf i (l.filter fun f => (r f).trap.isNone) u a).elim (x.slotReg u a k) fun f => regAfter (x.slotReg u a k) k (r f).v
  pois : ∀ u a k, (∀ f ∈ l, (r f).trap ≠ none) → y.slotPois u a k = x.slotPois u a k
  trap : ∀ f ∈ l, ∀ c, (r f).trap = some c → ∃ t, t.told = (i.trap c len).told ∧
    y.fib i.u f = { x.fib i.u f with st := .masked, trap := some t }
  fibs : ∀ u f, ¬ (u = i.u ∧ f ∈ l ∧ (r f).trap ≠ none) → y.fib u f = x.fib u f

theorem Exec.ownerOf_congr {x y : Exec} (h : ∀ u f, y.window u f = x.window u f) (i : Iss) (l : List Nat) (u a : Nat) :
    y.ownerOf i l u a = x.ownerOf i l u a := by simp only [Exec.ownerOf, h]

theorem Exec.ownerOf_cons (x : Exec) (i : Iss) (f : Nat) (l : List Nat) (u a : Nat) :
    x.ownerOf i (f :: l) u a = if x.window i.u f = (u, a) then some f else x.ownerOf i l u a := by
  by_cases h : x.window i.u f = (u, a) <;> simp [Exec.ownerOf, h]

theorem fibRes_writes (x : Exec) (i : Iss) (f u g : Nat) (v : List (Nat × Word)) : fibRes x i 0 f { v := v } u g = x.fib u g := by
  simp [fibRes]

theorem MixDone.cons_trap {x y z : Exec} {i : Iss} {len f c : Nat} {l : List Nat} {r : Nat → Res} {t : Trap}
    (hf : f ∉ l) (hr : (r f).trap = some c) (ht : t.told = (i.trap c len).told) (hy : Masks x y i.u f t)
    (hz : MixDone y z i len l r) : MixDone x z i len (f :: l) r := by
  have hskip : ((f :: l).filter fun f => (r f).trap.isNone) = l.filter fun f => (r f).trap.isNone := by simp [hr]
  have hother : ∀ u g, ¬ (u = i.u ∧ g = f) → y.fib u g = x.fib u g := fun u g h => (hy.fibs u g).trans (if_neg h)
  refine ⟨fun u => (hz.bare u).trans (hy.bare u), fun u a k ha => ?_, fun u a k ha => ?_, fun g hg c' hc' => ?_, fun u g hg => ?_⟩
  · rw [hz.regs u a k (ha.imp_right fun h g hg => h g (List.mem_cons_of_mem _ hg)), hskip, Exec.ownerOf_congr hy.window, hy.regs]
  · rw [hz.pois u a k fun g hg => ha g (List.mem_cons_of_mem _ hg), hy.pois]
  · by_cases e : g = f
    · subst e
      have hc : c' = c := Option.some.inj (hc'.symm.trans hr)
      refine ⟨t, hc ▸ ht, (hz.fibs i.u g fun h => hf h.2.1).trans ?_⟩
      rw [hy.fibs, if_pos ⟨rfl, rfl⟩]
    · obtain ⟨t', ht', hfib⟩ := hz.trap g ((List.mem_cons.1 hg).resolve_left e) c' hc'
      exact ⟨t', ht', by rw [hfib, hother i.u g fun h => e h.2]⟩
  · have hne : ¬ (u = i.u ∧ g = f) := fun h => hg ⟨h.1, h.2 ▸ List.mem_cons_self .., by rw [h.2, hr]; exact Option.some_ne_none c⟩
    rw [hz.fibs u g fun h => hg ⟨h.1, List.mem_cons_of_mem _ h.2.1, h.2.2⟩, hother u g hne]

theorem MixDone.cons_writes {x y z : Exec} {i : Iss} {len f : Nat} {l : List Nat} {r : Nat → Res} {v : List (Nat × Word)}
    (hr : r f = { v := v }) (halone : ∀ g ∈ l, x.window i.u g ≠ x.window i.u f) (hy : ResDone x y i 0 f { v := v })
    (hz : MixDone y z i len l r) : MixDone x z i len (f :: l) r := by
  have hkeep : ((f :: l).filter fun f => (r f).trap.isNone) = f :: l.filter fun f => (r f).trap.isNone := by simp [hr]
  have hfib : ∀ u g, y.fib u g = x.fib u g := fun u g => (hy.fibs u g).trans (fibRes_writes ..)
  refine ⟨fun u => (hz.bare u).trans (hy.bare u), fun u a k ha => ?_, fun u a k ha => ?_, fun g hg c hc => ?_, fun u g hg => ?_⟩
  · have ha : a < 128 := ha.resolve_right fun h => h f (List.mem_cons_self ..) (by rw [hr])
    rw [hz.regs u a k (.inl ha), hkeep, Exec.ownerOf_congr hy.window, Exec.ownerOf_cons, hy.regs u a k ha]
    by_cases e : x.window i.u f = (u, a)
    · have hnone : x.ownerOf i (l.filter fun f => (r f).trap.isNone) u a = none :=
        List.find?_eq_none.2 fun g hg h => halone g (List.mem_filter.1 hg).1 ((of_decide_eq_true h).trans e.symm)
      rw [hnone, if_pos e, if_pos ⟨e, rfl⟩, Option.elim_none, Option.elim_some, hr]
    · rw [if_neg e, if_neg fun h => e h.1]
  · exact absurd (by rw [hr]) (ha f (List.mem_cons_self ..))
  · have e : g ≠ f := fun e => by rw [e, hr] at hc; cases hc
    rw [← hfib]
    exact hz.trap g ((List.mem_cons.1 hg).resolve_left e) c hc
  · rw [hz.fibs u g fun h => hg ⟨h.1, List.mem_cons_of_mem _ h.2.1, h.2.2⟩, hfib]

theorem Exec.mixDone (i : Iss) (la len : Nat) (r : Nat → Res) (l : List Nat) (x : Exec) (hn : l.Nodup) (hr : ∀ f ∈ l, (r f).simple)
    (hla : ∀ f ∈ l, (r f).trap = none → la = 0) (hu : (x.wave? i.u).isSome) (hwins : ∀ f ∈ l, (x.fib i.u f).wins = [])
    (ha : ∀ f ∈ l, ∀ g ∈ l, x.window i.u f = x.window i.u g → f = g) (hw : ∀ f ∈ l, (x.wave? (x.window i.u f).1).isSome)
    (hs : ∀ f ∈ l, (x.window i.u f).2 < 128) : MixDone x (l.foldl (fun x f => x.applyRes i la len f (r f)) x) i len l r := by
  induction l generalizing x with
  | nil => exact ⟨fun _ => rfl, fun _ _ _ _ => rfl, fun _ _ _ _ => rfl, fun _ h => absurd h List.not_mem_nil, fun _ _ _ => rfl⟩
  | cons f l ih =>
    obtain ⟨hf, hn⟩ := List.nodup_cons.1 hn
    have hself := List.mem_cons_self (a := f) (l := l)
    have hin : ∀ g ∈ l, g ∈ f :: l := fun g => List.mem_cons_of_mem f
    -- the rest of the list runs on any y that keeps the waves, the windows and the lookahead windows of x
    have hrest : ∀ y : Exec, (∀ u, (y.wave? u).map Wave.bare = (x.wave? u).map Wave.bare) → (∀ u g, y.window u g = x.window u g) →
        (∀ g ∈ l, (y.fib i.u g).wins = (x.fib i.u g).wins) →
        MixDone y (l.foldl (fun x f => x.applyRes i la len f (r f)) y) i len l r := fun y hbare hwin hfib => by
      refine ih y hn (fun g hg => hr g (hin g hg)) (fun g hg => hla g (hin g hg)) ?_ (fun g hg => ?_) (fun g hg k hk h => ?_)
        (fun g hg => ?_) fun g hg => ?_
      · rw [Exec.isSome_of_bare (hbare _)]
        exact hu
      · rw [hfib g hg]
        exact hwins g (hin g hg)
      · rw [hwin, hwin] at h
        exact ha g (hin g hg) k (hin k hk) h
      · rw [hwin, Exec.isSome_of_bare (hbare _)]
        exact hw g (hin g hg)
      · rw [hwin]
        exact hs g (hin g hg)
    rcases hr f hself with ⟨c, hc⟩ | ⟨v, hv⟩
    · obtain ⟨t, ht, hy⟩ := x.masks_takeTrap hu (hwins f hself) (i.trap c len)
      have happly : x.applyRes i la len f (r f) = x.takeTrap i.u f (i.trap c len) := by rw [hc]; rfl
      rw [List.foldl_cons, happly]
      refine .cons_trap hf (by rw [hc]) ht hy (hrest _ hy.bare hy.window fun g hg => ?_)
      rw [hy.fibs, if_neg fun h : i.u = i.u ∧ g = f => hf (h.2 ▸ hg)]
    · have hla : la = 0 := hla f hself (by rw [hv])
      have hy := x.applyRes_done i la len f { v := v } rfl hu (hw f hself) (hs f hself)
      subst hla
      rw [List.foldl_cons, hv]
      refine .cons_writes hv (fun g hg h => hf (ha g (hin g hg) f hself h ▸ hg)) hy (hrest _ hy.bare hy.window fun g hg => ?_)
      rw [hy.fibs, fibRes_writes]

/-! ### A per-fibre instruction some of whose fibres trap -/

/-- The result that a served fibre of a per-fibre instruction makes (R145). -/
def Exec.checked (x : Exec) (i : Iss) (named : List Nat) (g : Iss → Nat → Res) (f : Nat) : Res :=
  if x.pastBudget i f named then { trap := some cREGRNG } else g i f

section
variable {s : State} {i : Iss} {len : Nat} {h : Hd} {named : List Nat} {g : Iss → Nat → Res} {r : Nat → Res}
  (hs : Claim.Issues s i) (hwins : ∀ f, (i.w.fib f).wins = []) (hr : ∀ f ∈ i.served h, s.x.checked i named g f = r f)
  (hsimple : ∀ f ∈ i.served h, (r f).simple) (hla : ∀ f ∈ i.served h, (r f).trap = none → h.la.toNat = 0)
include hs hwins hr hsimple hla

theorem Exec.perFibre_mixDone : ∃ y, s.x.perFibre len h named g = y.advance i len ∧ MixDone s.x y i len (i.served h) r := by
  have hsub : ∀ f ∈ i.served h, f ∈ i.grp := fun f hf => (List.mem_filter.1 hf).1
  have hwave := (Exec.issue?_spec hs.run).2.1
  refine ⟨(i.served h).foldl (fun x f => x.applyRes i h.la.toNat len f (r f)) s.x, ?_, ?_⟩
  · simp only [Exec.perFibre, hs.run]
    rw [List.foldl_map]
    congr 1
    exact List.foldl_ext _ _ _ fun x f hf => congrArg (x.applyRes i h.la.toNat len f) (hr f hf)
  · exact Exec.mixDone i h.la.toNat len r (i.served h) s.x ((Iss.grp_nodup hs.run).filter _) hsimple hla (by rw [hwave]; rfl)
      (fun f _ => by rw [Exec.fib, hwave]; exact hwins f) (fun f hf k hk => hs.wins.apart f (hsub f hf) k (hsub k hk))
      (fun f hf => hs.wins.held f (hsub f hf)) fun f hf => hs.wins.slot f (hsub f hf)

end

/-! ### IADD -/

/-- A source operand that is poisoned traps a fibre, whatever the other is (R167, R239). -/
theorem Exec.ab_of_poisoned {x : Exec} {i : Iss} {f : Nat} {w : AluI} (hw2 : w.m.w2 = false)
    (hp : x.poisV i.u f w.s2.toNat = true) : x.ab i f (opndsOf w) = none := by
  have hsecond : x.operand i f (opndsOf w).s2 = none := by
    simp only [opndsOf, hw2, Bool.false_eq_true, if_false, Exec.operand, Exec.ownRead, hp, if_true, Option.map_none]
  rw [Exec.ab, hsecond]
  split
  next h => cases h
  next => rfl

/-- What IADD computes for one fibre, and the result that the fibre makes. -/
def Exec.iaddOf (x : Exec) (w : AluI) (i : Iss) (f : Nat) : Res :=
  orPoison (x.ab i f (opndsOf w)) fun p => .word (opndsOf w).d (vAdd p.1 p.2)
def Exec.iaddRes (x : Exec) (i : Iss) (w : AluI) (f : Nat) : Res := x.checked i (opndsOf w).named (x.iaddOf w) f

theorem exec_iadd (s : State) (w : AluI) :
    exec (.iadd w) s = .next { s with x := s.x.perFibre 8 w.h (opndsOf w).named (s.x.iaddOf w) } := rfl

section
variable {x : Exec} {i : Iss} {w : AluI} {f : Nat}

theorem Exec.iaddRes_past (h : x.pastBudget i f (opndsOf w).named = true) : x.iaddRes i w f = { trap := some cREGRNG } :=
  if_pos h

theorem Exec.iaddRes_poisoned (h : x.pastBudget i f (opndsOf w).named = false) (hab : x.ab i f (opndsOf w) = none) :
    x.iaddRes i w f = { trap := some cPOISON } := by
  rw [Exec.iaddRes, Exec.checked, h, Exec.iaddOf, hab]
  rfl

theorem Exec.iaddRes_sum {a b : Word} (h : x.pastBudget i f (opndsOf w).named = false)
    (hab : x.ab i f (opndsOf w) = some (a.toNat, b.toNat)) : x.iaddRes i w f = { v := [(w.d.toNat, a + b)] } := by
  have hsum : BitVec.ofNat 32 (vAdd a.toNat b.toNat) = a + b := by
    apply BitVec.eq_of_toNat_eq
    simp [vAdd]
  rw [Exec.iaddRes, Exec.checked, h, Exec.iaddOf, hab, ← hsum]
  rfl

end

end Sys2Proof.Machine

namespace Sys2Proof.Proofs

open Sys2Proof.Machine Sys2Proof.Claim

section
variable {s : State} {i : Iss} {w : AluI}

/-- The fibres of the group that a mixed result leaves Ready move on, and no others (R215). -/
theorem fib_advance_mixDone {x y : Exec} {len : Nat} {l : List Nat} {r : Nat → Res} (hi : x.issue? = some i)
    (h : MixDone x y i len l r) {u f : Nat} (hf : ¬ (u = i.u ∧ f ∈ l ∧ (r f).trap ≠ none)) : (y.advance i len).fib u f =
      { x.fib u f with pc := if u = i.u ∧ f ∈ i.grp then (i.pc + len) % 2 ^ 48 else (x.fib u f).pc } := by
  rw [Exec.fib_advance _ _ _ (Iss.grp_nodup hi), h.fibs u f hf]
  by_cases hin : u = i.u ∧ f ∈ i.grp
  · obtain ⟨rfl, hmem⟩ := hin
    obtain ⟨-, hst, hpc⟩ := (Iss.mem_grp hi f).1 hmem
    rw [if_pos ⟨rfl, hmem, hst, hpc⟩, if_pos ⟨rfl, hmem⟩]
  · rw [if_neg fun k => hin ⟨k.1, k.2.1⟩, if_neg hin]

/-- A fibre that a mixed result masks stays where it stood (R335). -/
theorem fib_advance_trapped {x y : Exec} {len f c : Nat} {l : List Nat} {r : Nat → Res} (hi : x.issue? = some i)
    (h : MixDone x y i len l r) (hf : f ∈ l) (hc : (r f).trap = some c) : ∃ t, t.told = (i.trap c len).told ∧
      (y.advance i len).fib i.u f = { x.fib i.u f with st := .masked, trap := some t } := by
  obtain ⟨t, ht, hfib⟩ := h.trap f hf c hc
  refine ⟨t, ht, ?_⟩
  rw [Exec.fib_advance _ _ _ (Iss.grp_nodup hi), hfib, if_neg fun k => FSt.noConfusion k.2.2.1]

/-- IADD all of whose served fibres trap with one cause. -/
theorem iadd_trapped {c : Nat} (hs : Issues s i) (hwins : ∀ f, (i.w.fib f).wins = [])
    (hr : ∀ f ∈ i.served w.h, s.x.iaddRes i w f = { trap := some c }) :
    ∃ t, Machine.exec (.iadd w) s = .next t ∧ Trapped s t i (i.served w.h) c 0 8 := by
  obtain ⟨y, hy, hmix⟩ := Exec.perFibre_mixDone (len := 8) (r := fun _ => { trap := some c }) hs hwins hr
    (fun _ _ => .inl ⟨c, rfl⟩) fun _ _ h => absurd h (Option.some_ne_none c)
  have hall : ∀ f ∈ i.served w.h, ({ trap := some c } : Res).trap ≠ none := fun _ _ => Option.some_ne_none c
  refine ⟨_, exec_iadd s w, ⟨rfl, rfl, fun u => ?_, fun u a k => ?_, fun u a k => ?_, fun f hf => ?_, fun u f hf => ?_⟩⟩
  · simp only [hy, Exec.bare_advance, hmix.bare]
  · simp only [hy, Exec.slotReg_advance, hmix.regs u a k (.inr hall), Option.isNone_some, List.filter_false]
    rfl
  · simp only [hy, Exec.slotPois_advance, hmix.pois u a k hall]
  · obtain ⟨t, ht, hfib⟩ := fib_advance_trapped hs.run hmix hf rfl
    rw [← hy] at hfib
    simp only [Trap.told, Iss.trap, Trap.mk.injEq] at ht
    obtain ⟨hcause, hopnd, hlen, -, hpc, -, hserved, -, -⟩ := ht
    exact ⟨t, by rw [hfib], hcause, hopnd, hlen, hpc, hserved, hfib⟩
  · simp only [hy]
    exact fib_advance_mixDone hs.run hmix fun k => hf.elim (fun h => h k.1) fun h => h k.2.1

end

/-- Settles O25: a served fibre of IADD makes one of three results, a sum, REGRNG or POISON, and a group of fibres with mixed
results is gone through fibre by fibre. -/
theorem refusedRegisters : Obligations.RefusedRegisters := by
  intro s i w hs hwins
  refine ⟨fun hpast hw2 => ?_, fun hbudget hw2 hpois => ?_, fun a b hw2 hla => ?_⟩
  · refine iadd_trapped hs hwins fun f hf => Exec.iaddRes_past ?_
    have hnamed : (opndsOf w).named = [w.d.toNat, w.s1.toNat, w.s2.toNat] := by
      simp only [Opnds.named, opndsOf, hw2, Bool.false_eq_true, if_false, Operand.regs, List.singleton_append]
    rw [hnamed]
    exact hpast f hf
  · exact iadd_trapped hs hwins fun f hf => Exec.iaddRes_poisoned (hbudget f hf) (Exec.ab_of_poisoned hw2 (hpois f hf))
  · intro past bad fine hsum
    have hbad : ∀ f, bad f = true → s.x.iaddRes i w f = { trap := some (if past f then 0x0c else 0x0a) } := fun f hf => by
      cases hp : past f with
      | true => exact Exec.iaddRes_past hp
      | false =>
        simp only [bad, hp, Bool.false_or, Option.isNone_iff_eq_none] at hf
        exact Exec.iaddRes_poisoned hp hf
    have hfine : ∀ f ∈ i.served w.h, bad f = false → s.x.iaddRes i w f = { v := [(w.d.toNat, a f + b f)] } := fun f hf hb =>
      Exec.iaddRes_sum (Bool.or_eq_false_iff.1 hb).1 (hsum f (List.mem_filter.2 ⟨hf, by rw [hb]; rfl⟩))
    have htrap : ∀ f ∈ i.served w.h, (s.x.iaddRes i w f).trap.isNone = !bad f := fun f hf => by
      cases hb : bad f with
      | true => rw [hbad f hb]; rfl
      | false => rw [hfine f hf hb]; rfl
    obtain ⟨y, hy, hmix⟩ := Exec.perFibre_mixDone (len := 8) (h := w.h) (r := s.x.iaddRes i w) hs hwins (fun _ _ => rfl)
      (fun f hf => by
        cases hb : bad f with
        | true => exact .inl ⟨_, hbad f hb⟩
        | false => exact .inr ⟨_, hfine f hf hb⟩)
      fun _ _ _ => by rw [hla]; rfl
    refine ⟨_, exec_iadd s w, rfl, rfl, fun u => ?_, fun f hf hb => ?_, fun u f hf => ?_, fun u r k hlt => ?_⟩
    · simp only [hy, Exec.bare_advance, hmix.bare]
    · obtain ⟨t, ht, hfib⟩ := fib_advance_trapped hs.run hmix hf (congrArg Res.trap (hbad f hb))
      rw [← hy] at hfib
      simp only [Trap.told, Iss.trap, Trap.mk.injEq] at ht
      obtain ⟨hcause, hopnd, hlen, -, hpc, -, hserved, -, -⟩ := ht
      exact ⟨t, hfib, hcause, hpc, hlen, hopnd, hserved⟩
    · simp only [hy]
      refine fib_advance_mixDone hs.run hmix fun k => hf.elim (fun h => h k.1) fun h => h (List.mem_filter.2 ⟨k.2.1, ?_⟩)
      have hnone := htrap f k.2.1
      rw [Option.isNone_eq_false_iff.2 (Option.isSome_iff_ne_none.2 k.2.2)] at hnone
      simpa using hnone
    · have hlist : (i.served w.h).filter (fun f => (s.x.iaddRes i w f).trap.isNone) = fine := List.filter_congr htrap
      simp only [hy, Exec.slotReg_advance, hmix.regs u r k (.inl hlt), hlist]
      cases ho : s.x.ownerOf i fine u r with
      | none => rfl
      | some f =>
        obtain ⟨hserved, hb⟩ := List.mem_filter.1 (Exec.ownerOf_mem ho)
        rw [Option.elim_some, Option.elim_some, hfine f hserved (by simpa using hb)]
        simp only [regAfter, List.foldl_cons, List.foldl_nil, eq_comm]

end Sys2Proof.Proofs
end

section
/-! PROOFS. What stays of a wave when a member leaves its frieze, its team's barriers and objects, and DETACH (08 R157, R158, R162). -/

namespace Sys2Proof.Machine

/-! ### What lasts of a wave -/

@[simp] theorem Exec.lasting_modTeam (x : Exec) (t : Nat) (f : Team → Team) : (x.modTeam t f).lasting = x.lasting := rfl

@[simp] theorem Exec.lasting_setStatus (x : Exec) (t bit : Nat) : (x.setStatus t bit).lasting = x.lasting := rfl
@[simp] theorem Exec.lasting_setStatusIf (x : Exec) (b : Bool) (t bit : Nat) : (x.setStatusIf b t bit).lasting = x.lasting :=
  Exec.lasting_congr (x.waves_setStatusIf b t bit)

@[simp] theorem Exec.lasting_tbApply (x : Exec) (t o : Nat) (by_ : TbBy) (b : TbObj) (wrapped : Bool) :
    (x.tbApply t o by_ b wrapped).lasting = x.lasting := by
  unfold Exec.tbApply
  split
  · rfl
  · rw [Exec.lasting_wakeTeam, Exec.lasting_setStatusIf, Exec.lasting_modTeam]

@[simp] theorem Exec.lasting_tbMembership (x : Exec) (t : Nat) (join : Bool) : (x.tbMembership t join).1.lasting = x.lasting := by
  unfold Exec.tbMembership
  split
  · rfl
  next m hm =>
    refine foldl_keeps (fun p : Exec × Bool => p.1.lasting) (fun p o => ?_) m.tbreg (x, false)
    split
    · rfl
    · dsimp only
      split
      · rw [Exec.lasting_setStatus]
      · split
        · split
          · rfl
          · rw [Exec.lasting_tbApply]
        · rw [Exec.lasting_tbApply]

@[simp] theorem Exec.lasting_wakeRetry (x : Exec) (why : Nat) : (x.wakeRetry why).lasting = x.lasting := Exec.lasting_unholdWhere ..

/-- A wave whose handles bound to an operation have become ready. -/
def Wave.readied (op : Nat) (all : Word) (vals : SMap Word) (w : Wave) : Wave :=
  { w with handles := w.handles.map fun q =>
      (q.1, if !q.2.ready && decide (q.2.op = op) then { ready := true, all := all, vals := vals } else q.2) }

@[simp] theorem Exec.lasting_complete (x : Exec) (op : Nat) (all : Word) (vals : SMap Word) :
    (x.complete op all vals).lasting = x.lasting := by
  refine (Exec.lasting_unholdWhere ..).trans (funext fun u => ?_)
  have hfind := SMap.find?_map (Wave.readied op all vals) x.waves u
  exact (congrArg (Option.map Wave.lasting) hfind).trans (Option.map_map ..)

@[simp] theorem Exec.lasting_mxEnter (x : Exec) (o : MxOp) (u : Nat) : (x.mxEnter o u).lasting = x.lasting := by
  unfold Exec.mxEnter
  split
  · exact Exec.lasting_modWave ..
  · exact Exec.lasting_post ..

@[simp] theorem Exec.lasting_mxStart (x : Exec) (t : Nat) (k : Option Nat) (key u : Nat) (g : Sig) :
    (x.mxStart t k key u g).lasting = x.lasting := by
  unfold Exec.mxStart
  split
  · rfl
  · exact (Exec.lasting_wakeRetry ..).trans (Exec.lasting_mxEnter ..)

@[simp] theorem Exec.lasting_mxReady (x : Exec) (t k u : Nat) : (x.mxReady t k u).lasting = x.lasting := by
  unfold Exec.mxReady
  split
  · rfl
  · split
    · split
      · exact Exec.lasting_mxStart ..
      · rfl
    · rfl

@[simp] theorem Exec.lasting_friezeLeave (x : Exec) (t idx u : Nat) : (x.friezeLeave t idx u).lasting = x.lasting := by
  unfold Exec.friezeLeave
  split
  · rfl
  · split
    · rfl
    · dsimp only
      split
      · split
        · rfl
        · exact (Exec.lasting_wakeRetry ..).trans (Exec.lasting_complete ..)
      · split
        · exact Exec.lasting_wakeRetry ..
        · exact Exec.lasting_mxReady ..

@[simp] theorem Exec.lasting_friezeExit (x : Exec) (t idx u : Nat) : (x.friezeExit t idx u).lasting = x.lasting := by
  unfold Exec.friezeExit
  split
  · split
    · exact Exec.lasting_friezeLeave ..
    · rfl
  · rfl

@[simp] theorem Exec.lasting_closeAll (x : Exec) (u f : Nat) : (x.closeAll u f).lasting = x.lasting :=
  Exec.lasting_of_front (x.front_closeAll u f)

/-! ### The exit of an ordinary wave -/

/-- What lasts of a wave, read at the wave. -/
theorem Exec.wave?_of_lasting {x y : Exec} {u : Nat} {w : Wave} (h : y.lasting u = x.lasting u) (hw : x.wave? u = some w) :
    ∃ v, y.wave? u = some v ∧ v.lasting = w.lasting := by
  rw [Exec.lasting, Exec.lasting, hw] at h
  exact Option.map_eq_some_iff.1 h

/-- A wave of an instruction's own team all of whose slots are Free exits (R152, R158). -/
theorem Exec.wave?_exitSettle {x : Exec} {u : Nat} {w : Wave} (hw : x.wave? u = some w) (hlive : w.exited = false)
    (hfinished : w.finished = true) (hown : w.handler = none) :
    ∃ v, (x.exitSettle u).wave? u = some v ∧ v.lasting = ({ w with exited := true } : Wave).lasting := by
  obtain ⟨v, hv, hlast⟩ := Exec.wave?_of_lasting (congrFun (x.lasting_friezeExit w.team w.idx u) u) hw
  have hexit : ∃ v', (((x.friezeExit w.team w.idx u).modWave u fun v => { v with exited := true, hold := none }).wave? u) =
      some v' ∧ v'.lasting = ({ w with exited := true } : Wave).lasting := by
    rw [Exec.wave?_modWave, if_pos rfl, hv]
    exact ⟨_, rfl, congrArg (fun p : Wave × (Nat → Fib) => (({ p.1 with exited := true } : Wave), p.2)) hlast⟩
  obtain ⟨v', hv', hlast'⟩ := hexit
  suffices hkeep : (x.exitSettle u).lasting =
      ((x.friezeExit w.team w.idx u).modWave u fun v => { v with exited := true, hold := none }).lasting by
    obtain ⟨v'', hv'', h⟩ := Exec.wave?_of_lasting (congrFun hkeep u) hv'
    exact ⟨v'', hv'', h.trans hlast'⟩
  simp only [Exec.exitSettle, hw, hlive, hfinished, hown, Bool.not_true, Bool.or_self, Bool.false_eq_true, if_false]
  split <;> split <;> simp only [Exec.lasting_post, Exec.lasting_barCompleteAll]

/-! ### DETACH -/

/-- A fibre that is Free, and a wave all of whose fibres are. -/
def Fib.freed (b : Fib) : Fib := { b with st := .free }
def Wave.freed (w : Wave) : Wave := { w with fibs := w.fibs.map fun p => (p.1, p.2.freed) }

theorem Wave.finished_freed (w : Wave) : w.freed.finished = true := by
  simp [Wave.finished, Wave.freed, Fib.freed]

theorem Wave.st_freed (w : Wave) (f : Nat) : (w.freed.fib f).st = .free := by
  refine (congrArg (fun o : Option Fib => (o.getD {}).st) (SMap.find?_map Fib.freed w.fibs f)).trans ?_
  cases w.fibs.find? f <;> rfl

theorem Iss.wholeWave_eq (i : Iss) : i.wholeWave = decide (∀ p ∈ i.w.fibs, p.2.st = .free ∨ p.1 ∈ i.grp) := by
  rw [Bool.eq_iff_iff]
  simp [Iss.wholeWave, Fib.unfinished]

/-- What executes once a wave has left its team's objects and its frieze, and its windows are closed. -/
def Exec.parted (x : Exec) (u : Nat) (w : Wave) : Exec :=
  w.fibs.foldl (fun x p => x.closeAll u p.1) ((x.tbMembership w.team false).1.friezeLeave w.team w.idx u)

theorem Exec.lasting_parted (x : Exec) (u : Nat) (w : Wave) : (x.parted u w).lasting = x.lasting := by
  refine (foldl_keeps Exec.lasting (f := fun (x : Exec) (p : Nat × Fib) => x.closeAll u p.1)
    (fun x p => x.lasting_closeAll u p.1) _ _).trans ?_
  rw [Exec.lasting_friezeLeave, Exec.lasting_tbMembership]

theorem Exec.detach_eq {x : Exec} {u : Nat} {w : Wave} (hw : x.wave? u = some w) :
    x.detach u = ((x.parted u w).modWave u Wave.freed).exitSettle u := by
  rw [Exec.detach, hw]
  rfl

/-- A wave that leaves its team ends (R158). -/
theorem Exec.wave?_detach {x : Exec} {u : Nat} {w : Wave} (hw : x.wave? u = some w) (hlive : w.exited = false)
    (hown : w.handler = none) : ∃ v, (x.detach u).wave? u = some v ∧ v.exited = true ∧ ∀ f, (v.fib f).st = .free := by
  obtain ⟨v, hv, hlast⟩ := Exec.wave?_of_lasting (congrFun (x.lasting_parted u w) u) hw
  have hfreed : ((x.parted u w).modWave u Wave.freed).wave? u = some v.freed := by
    rw [Exec.wave?_modWave, if_pos rfl, hv, Option.map_some]
  have hexited : v.exited = w.exited := congrArg (fun p : Wave × (Nat → Fib) => p.1.exited) hlast
  have hhandler : v.handler = w.handler := congrArg (fun p : Wave × (Nat → Fib) => p.1.handler) hlast
  obtain ⟨v', hv', hlast'⟩ := Exec.wave?_exitSettle hfreed (hexited.trans hlive) v.finished_freed (hhandler.trans hown)
  refine ⟨v', (congrArg (Exec.wave? · u) (Exec.detach_eq hw)).trans hv',
    congrArg (fun p : Wave × (Nat → Fib) => p.1.exited) hlast', fun f => ?_⟩
  have hfib : (v'.fib f).shut = (v.freed.fib f).shut := congrArg (fun p : Wave × (Nat → Fib) => p.2 f) hlast'
  exact (congrArg Fib.st hfib).trans (v.st_freed f)

/-! ### A group that traps, with windows open -/

theorem Exec.isSome_of_front {x y : Exec} (h : y.front = x.front) (u : Nat) : (y.wave? u).isSome = (x.wave? u).isSome := by
  have hu := congrArg Option.isSome (congrFun h u)
  rwa [Exec.front, Exec.front, Option.isSome_map, Option.isSome_map] at hu

theorem Exec.shut_of_front {x y : Exec} (h : y.front = x.front) (u f : Nat) : (y.fib u f).shut = (x.fib u f).shut := by
  have hread : ∀ z : Exec, (z.fib u f).shut = (z.front u).elim {} fun p => p.2 f := fun z => by
    rw [Exec.fib, Exec.front]
    cases z.wave? u <;> rfl
  rw [hread, hread, h]

/-- A fibre that traps, windows apart. -/
theorem Exec.shut_takeTrap {x : Exec} {u : Nat} (hu : (x.wave? u).isSome) (f : Nat) (t : Trap) : ∃ r, r.told = t.told ∧
    ((x.takeTrap u f t).wave? u).isSome ∧ ∀ v g, ((x.takeTrap u f t).fib v g).shut =
      if v = u ∧ g = f then { (x.fib v g).shut with st := .masked, trap := some r } else (x.fib v g).shut := by
  obtain ⟨r, hr, hwaves⟩ := x.waves_takeTrap u f t
  have hclosed : ((x.closeAll u f).wave? u).isSome := by
    rw [Exec.isSome_of_front (x.front_closeAll u f)]
    exact hu
  refine ⟨r, hr, ?_, fun v g => ?_⟩
  · rw [Exec.wave?_congr hwaves, Exec.isSome_modFib]
    exact hclosed
  · rw [Exec.fib_congr hwaves, Exec.fib_modFib _ _ _ _ _ _ hclosed, ← Exec.shut_of_front (x.front_closeAll u f)]
    split <;> rfl

theorem Exec.shut_trapAll {x : Exec} {i : Iss} {l : List Nat} (hu : (x.wave? i.u).isSome) (hn : l.Nodup) (c len : Nat) :
    (∀ f ∈ l, ∃ r, r.told = (i.trap c len).told ∧
      ((x.trapAll i l c len).fib i.u f).shut = { (x.fib i.u f).shut with st := .masked, trap := some r }) ∧
    ∀ f, f ∉ l → ((x.trapAll i l c len).fib i.u f).shut = (x.fib i.u f).shut := by
  induction l generalizing x with
  | nil => exact ⟨fun _ h => absurd h List.not_mem_nil, fun _ _ => rfl⟩
  | cons f l ih =>
    obtain ⟨hf, hn⟩ := List.nodup_cons.1 hn
    obtain ⟨r, hr, hu', hstep⟩ := Exec.shut_takeTrap hu f (i.trap c len)
    obtain ⟨hin, hout⟩ := ih hu' hn
    have hall : x.trapAll i (f :: l) c len = (x.takeTrap i.u f (i.trap c len)).trapAll i l c len := rfl
    rw [hall]
    refine ⟨fun g hg => ?_, fun g hg => ?_⟩
    · by_cases e : g = f
      · subst e
        exact ⟨r, hr, by rw [hout g hf, hstep, if_pos ⟨rfl, rfl⟩]⟩
      · obtain ⟨r', hr', hfib⟩ := hin g ((List.mem_cons.1 hg).resolve_left e)
        exact ⟨r', hr', by rw [hfib, hstep, if_neg fun h => e h.2]⟩
    · obtain ⟨hne, hg⟩ := List.ne_and_not_mem_of_not_mem_cons hg
      rw [hout g hg, hstep, if_neg fun h => hne h.2]

/-- Each fibre of a group that traps stays masked at the instruction (R335). -/
theorem Exec.fib_trapAll_advance {x : Exec} {i : Iss} (hi : x.issue? = some i) {f : Nat} (hf : f ∈ i.grp) (c len : Nat) :
    (((x.trapAll i i.grp c len).advance i len).fib i.u f).st = .masked ∧
    (((x.trapAll i i.grp c len).advance i len).fib i.u f).pc = i.pc ∧
    (((x.trapAll i i.grp c len).advance i len).fib i.u f).trap.map Trap.cause = some c := by
  have hn := Iss.grp_nodup hi
  obtain ⟨r, hr, hshut⟩ := (Exec.shut_trapAll (by rw [(Exec.issue?_spec hi).2.1]; rfl) hn c len).1 f hf
  have hst : ((x.trapAll i i.grp c len).fib i.u f).st = .masked := congrArg Fib.st hshut
  have hpc : ((x.trapAll i i.grp c len).fib i.u f).pc = (x.fib i.u f).pc := (congrArg Fib.pc hshut :)
  have htrap : ((x.trapAll i i.grp c len).fib i.u f).trap = some r := congrArg Fib.trap hshut
  rw [Exec.fib_advance _ _ _ hn, if_neg fun k => FSt.noConfusion (hst.symm.trans k.2.2.1)]
  refine ⟨hst, hpc.trans ((Iss.mem_grp hi f).1 hf).2.2, ?_⟩
  rw [htrap]
  exact congrArg some (congrArg Trap.cause hr)

end Sys2Proof.Machine

namespace Sys2Proof.Proofs

open Sys2Proof.Machine Sys2Proof.Claim

theorem waveDetach : WaveDetach := by
  intro s i w hi hdet hlive hlog whole
  have e : exec (.detach w) s = execDetach w s := rfl
  obtain ⟨-, hw, -⟩ := Exec.issue?_spec hi
  refine ⟨fun hown hwhole => ?_, fun hrefused => ?_⟩
  · obtain ⟨v, hv, hexited, hfree⟩ := Exec.wave?_detach hw hlive (Option.isNone_iff_eq_none.1 (Option.isSome_eq_false_iff.1 hown))
    have hexec : exec (.detach w) s = .next { s with x := s.x.detach i.u } := by
      simp only [e, execDetach, State.onX, hi, hown, Iss.wholeWave_eq, show decide _ = true from hwhole, hdet, Exec.afterLog, hlog,
        List.isEmpty_nil, Bool.not_true, Bool.or_self, Bool.false_eq_true, if_false, if_true]
    refine ⟨_, hexec, rfl, rfl, ?_, fun f => ?_⟩
    · simp only [hv, Option.map_some, hexited]
    · simp only [Exec.fib, hv, Option.elim_some, hfree]
  · have hexec : exec (.detach w) s = .next { s with x := (s.x.trapAll i i.grp cDETPART 8).advance i 8 } := by
      have hrefuse : (i.inHandler || !i.wholeWave) = true := by
        rw [Iss.wholeWave_eq]
        exact hrefused.elim (fun h => by rw [h]; rfl) fun h => by rw [show decide _ = false from h, Bool.not_false, Bool.or_true]
      simp only [e, execDetach, State.onX, hi, hrefuse, if_true]
    exact ⟨_, hexec, rfl, rfl, fun f hf => Exec.fib_trapAll_advance hi hf cDETPART 8⟩

end Sys2Proof.Proofs
end

section
/-! PROOFS. ATTACH: what a refusal writes, and what a new wave of a team is (08 R157). -/

namespace Sys2Proof.Machine

theorem SMap.modify_insert {α : Type} {m : SMap α} {k : Nat} (h : m.find? k = none) (v : α) (f : α → α) :
    (m.insert k v).modify k f = m.insert k (f v) := by
  have hrest : ∀ {r : SMap α}, r.find? k = none → r.modify k f = r := fun {r} h => by
    induction r with
    | nil => rfl
    | cons p r ih =>
      obtain ⟨j, x⟩ := p
      simp only [SMap.find?] at h
      split at h
      · cases h
      next hne => simp [SMap.modify, Ne.symm hne, show List.map _ r = r from ih h]
  induction m with
  | nil => simp [SMap.insert, SMap.modify]
  | cons p r ih =>
    obtain ⟨j, x⟩ := p
    have hall := hrest h
    simp only [SMap.find?] at h
    split at h
    · cases h
    next hne =>
      have htail := ih h
      simp only [SMap.insert, hne, if_false]
      simp only [SMap.modify] at hall htail ⊢
      split
      · rw [List.map_cons, if_pos rfl, hall]
      · rw [List.map_cons, if_neg (Ne.symm hne), htail]

section
variable {x : Exec} {t : Nat} {m : Team} (hm : x.teams.find? t = some m)
include hm

theorem Exec.friezeLeave_of_none {idx : Nat} (h : m.friezeOf idx = none) (u : Nat) : x.friezeLeave t idx u = x := by
  simp only [Exec.friezeLeave, hm, h]

theorem Exec.tbMembership_of_nil (h : m.tbreg = []) (join : Bool) : x.tbMembership t join = (x, false) := by
  simp only [Exec.tbMembership, hm, h, List.foldl_nil]

/-- Barriers without arrivals complete nothing (R220). -/
theorem Exec.barCompleteAll_of_zero (h : ∀ b, (m.bars.get {} b).a = 0) : x.barCompleteAll t = x := by
  refine List.foldl_fixed' (fun b => ?_) (List.range 16)
  exact Exec.barComplete_open hm rfl fun k => absurd k.2 (by rw [h b]; exact Nat.lt_irrefl 0)

end

/-- The lowest reason to refuse an ATTACH of a wave; 0 accepts it (R157, log entry 33). -/
def Exec.attachReason (x : Exec) (i : Iss) (role entry : Nat) : Nat :=
  if 16 ≤ x.waveCount i.w.team then 1 else if 64 ≤ x.coreLoad (x.coreOf i.w) then 2 else if 1 < role then 3
  else if entry % 8 ≠ 0 then 4 else 0

/-- The wave that an accepted ATTACH starts (R143, R157). -/
def Exec.attached (x : Exec) (i : Iss) (core role entry : Nat) : Wave :=
  { team := i.w.team, idx := x.freeIndex i.w.team, role := role, quad := x.pickQuad core, stamp := x.fresh
    fibs := (List.range 128).map fun f => (f, { st := .ready, pc := entry }), starved := List.range 128
    w := SMap.put 0 [] 0 (BitVec.ofNat 32 i.w.idx) }

section
variable {x : Exec} {i : Iss} {role entry : Nat} (hw : x.wave? i.u = some i.w) (d : Nat)
include hw

theorem Exec.attach_refused (h : x.attachReason i role entry ≠ 0) : x.attach i.u d role entry =
    x.writeW i.u d (BitVec.ofNat 32 (2 ^ 31 + x.attachReason i role entry * 2 ^ 16)) := by
  simp only [Exec.attach, hw]
  exact if_pos h

theorem Exec.attach_accepted {m : Team} (h : x.attachReason i role entry = 0) (hm : x.teamOf i.w = some m) (hreg : m.tbreg = [])
    (hbars : ∀ b, (m.bars.get {} b).a = 0) (hfresh : x.wave? x.fresh = none) (hfrieze : m.friezeOf (x.freeIndex i.w.team) = none) :
    x.attach i.u d role entry = ({ x with waves := x.waves.insert x.fresh (x.attached i m.core role entry), fresh := x.fresh + 1 }
      : Exec).writeW i.u d (BitVec.ofNat 32 (x.freeIndex i.w.team)) := by
  have hm' : x.teams.find? i.w.team = some m := hm
  have hstart : (x.startWave i.w.team (x.freeIndex i.w.team) role entry 128).2.writeW x.fresh 0 (BitVec.ofNat 32 i.w.idx) =
      { x with waves := x.waves.insert x.fresh (x.attached i m.core role entry), fresh := x.fresh + 1 } := by
    refine congrArg (fun l : SMap Wave => { x with waves := l, fresh := x.fresh + 1 }) ((SMap.modify_insert hfresh _ _).trans ?_)
    rw [hm']
    rfl
  have hfst : (x.startWave i.w.team (x.freeIndex i.w.team) role entry 128).1 = x.fresh := rfl
  have hteams : ({ x with waves := x.waves.insert x.fresh (x.attached i m.core role entry), fresh := x.fresh + 1 }
      : Exec).teams.find? i.w.team = some m := hm'
  simp only [Exec.attach, hw]
  refine (if_neg (not_not.2 h)).trans ?_
  rw [Exec.friezeLeave_of_none hm' hfrieze, hfst, hstart, Exec.tbMembership_of_nil hteams hreg]
  simp only [Bool.false_eq_true, if_false]
  rw [Exec.barCompleteAll_of_zero hteams hbars, attachWord]
  simp

end

end Sys2Proof.Machine

namespace Sys2Proof.Proofs

open Sys2Proof.Machine Sys2Proof.Claim

theorem waveAttach : WaveAttach := by
  intro s i w f m hu hhandler hdet hlog hm role entry full busy reason
  have hw := (Exec.issue?_spec hu.run).2.1
  have e : exec (.attach w) s = execAttach w s := rfl
  have hexec : exec (.attach w) s = .next { s with x := (s.x.attach i.u w.d.toNat role entry).advance i 8 } := by
    rw [e, execAttach, State.onX, Exec.uniformHold_eq hu]
    simp only [hhandler, hlog, hdet, List.isEmpty_nil, Bool.not_true, Bool.false_eq_true, if_false]
    rfl
  have hreason : s.x.attachReason i role entry = reason := by
    simp only [Exec.attachReason, Exec.coreOf, hm, reason, full, busy, decide_eq_true_eq]
    rfl
  refine ⟨fun h => ?_, fun h hreg hbars hfresh hfrieze => ?_⟩
  · refine makes_of_advance hu.run ?_
    rw [hexec, Exec.attach_refused hw _ (hreason ▸ h), hreason]
  · refine makes_of_advance hu.run ?_
    rw [hexec, Exec.attach_accepted hw _ (hreason.trans h) hm hreg hbars hfresh hfrieze]
    rfl

/-- Settles O21: by its two parts, on ATTACH and on DETACH. -/
theorem teamMembership : Obligations.TeamMembership := ⟨waveAttach, waveDetach⟩

end Sys2Proof.Proofs
end

section
/-! PROOFS. Asynchronous traps, ripe waves and hangs (08 R156, 17 R336, R410). -/

namespace Sys2Proof.Machine

/-- Every waiting trap that may be taken is, one after another (R410). -/
theorem execAsyncTrap_eq (s : State) : execAsyncTrap s = .next { s with x :=
    (s.x.waves.flatMap fun p => p.2.asyncNow.map fun q => (p.1, q)).foldl (fun x q => x.takeAsync q.1 q.2.1 q.2.2) s.x } := by
  simp only [execAsyncTrap, State.onX, List.foldl_flatMap, List.foldl_map]

/-- A fibre that takes its first waiting trap stands masked at the PC of its next instruction (R410). -/
theorem Exec.takeAsync_masks {x : Exec} {u f : Nat} (hu : (x.wave? u).isSome) (hwins : (x.fib u f).wins = []) (a : Trap) :
    ∃ r, r.told = ({ a with pc := (x.fib u f).pc } : Trap).told ∧
      Masks (x.modFib u f fun b => { b with async := b.async.drop 1 }) (x.takeAsync u f a) u f r := by
  refine Exec.masks_takeTrap (by rw [Exec.isSome_modFib]; exact hu) ?_ { a with pc := (x.fib u f).pc }
  rw [Exec.fib_modFib _ _ _ _ _ _ hu, if_pos ⟨rfl, rfl⟩]
  exact hwins

theorem Exec.isSome_of_mem {x : Exec} {p : Nat × Wave} (h : p ∈ x.waves) : (x.wave? p.1).isSome := by
  have hfind : ∀ l : SMap Wave, p ∈ l → (l.find? p.1).isSome := fun l h => by
    induction l with
    | nil => cases h
    | cons q r ih =>
      rw [SMap.find?]
      split
      · rfl
      next hne => exact ih ((List.mem_cons.1 h).resolve_left fun k => hne (by rw [k]))
  exact hfind x.waves h

end Sys2Proof.Machine

namespace Sys2Proof.Proofs

open Sys2Proof.Machine Sys2Proof.Claim

theorem asyncTrap_masks (s : State) (u f : Nat) (a : Trap) (hwins : ∀ g, (s.x.fib u g).wins = [])
    (hone : (s.x.waves.flatMap fun p => p.2.asyncNow.map fun q => (p.1, q)) = [(u, f, a)]) :
    ∃ t r, Machine.exec .asyncTrap s = .next t ∧ t.trust = s.trust ∧ t.mem = s.mem ∧ r.cause = a.cause ∧ r.ipc = a.ipc ∧
      r.pc = (s.x.fib u f).pc ∧ r.served = a.served ∧
      t.x.fib u f = { s.x.fib u f with st := .masked, async := (s.x.fib u f).async.drop 1, trap := some r } ∧
      (∀ v g, ¬ (v = u ∧ g = f) → t.x.fib v g = s.x.fib v g) ∧ ∀ v g k, t.x.slotReg v g k = s.x.slotReg v g k := by
  have hu : (s.x.wave? u).isSome := by
    obtain ⟨p, hp, hq⟩ := List.mem_flatMap.1 (hone ▸ List.mem_singleton_self (u, f, a))
    obtain ⟨q, -, heq⟩ := List.mem_map.1 hq
    have hkey : p.1 = u := congrArg Prod.fst heq
    exact hkey ▸ Exec.isSome_of_mem hp
  obtain ⟨r, hr, hmask⟩ := Exec.takeAsync_masks hu (hwins f) a
  simp only [Trap.told, Trap.mk.injEq] at hr
  obtain ⟨hcause, -, -, -, hpc, hipc, hserved, -, -⟩ := hr
  have hexec : exec .asyncTrap s = .next { s with x := s.x.takeAsync u f a } := by
    have e : exec .asyncTrap s = execAsyncTrap s := rfl
    rw [e, execAsyncTrap_eq, hone]
    rfl
  refine ⟨_, r, hexec, rfl, rfl, hcause, hipc, hpc, hserved, ?_, fun v g hne => ?_, fun v g k => ?_⟩
  · refine (hmask.fibs u f).trans ?_
    rw [if_pos ⟨rfl, rfl⟩, Exec.fib_modFib _ _ _ _ _ _ hu, if_pos ⟨rfl, rfl⟩]
  · refine (hmask.fibs v g).trans ?_
    rw [if_neg hne, Exec.fib_modFib _ _ _ _ _ _ hu, if_neg hne]
  · exact (hmask.regs v g k).trans (Exec.slotReg_modFib ..)

theorem waveRipens_does (s : State) (u h : Nat) (v : Wave) (hv : s.x.wave? u = some v)
    (hh : s.x.freeHandler (s.x.coreOf v) = some h) :
    Does s (.waveRipens u) (if v.isRipe then s.x.post 0 (.handlerDispatch (s.x.coreOf v) h) else s.x) := by
  have e : exec (.waveRipens u) s = execWaveRipens u s := rfl
  refine ⟨_, e, rfl, rfl, ?_⟩
  simp only [hv, hh]

theorem hangDetect_early (s : State) (u : Nat) (v : Wave) (hv : s.x.wave? u = some v) (h : v.hang < 2 ^ 20) :
    Does s (.hangDetect u) s.x := by
  have e : exec (.hangDetect u) s = execHangDetect u s := rfl
  refine ⟨_, e, rfl, rfl, ?_⟩
  simp only [hv]
  exact if_pos h

theorem hangDetect_reports (s : State) (u : Nat) (v : Wave) (hv : s.x.wave? u = some v) (h : 2 ^ 20 ≤ v.hang) :
    ∃ t e, Machine.exec (.hangDetect u) s = .next t ∧ t.trust = s.trust ∧ t.mem = s.mem ∧
      t.x.errq = s.x.errq ++ [e] ∧ e.type = 5 ∧ e.unit = s.x.coreOf v ∧ e.ctx = s.x.ctxOf v ∧
      (t.x.wave? u).map Wave.hang = some 0 ∧
      ∀ m, s.x.teams.find? v.team = some m → (t.x.teams.find? v.team) = some { m with status := m.status ||| 8 } := by
  obtain ⟨e, g, hexec, htype, hunit, hctx, hhang⟩ : ∃ (e : ErrEnt) (g : Wave → Wave), exec (.hangDetect u) s =
      .next { s with x := ((s.x.err e).setStatus v.team stHANG).modWave u g } ∧ e.type = 5 ∧ e.unit = s.x.coreOf v ∧
      e.ctx = s.x.ctxOf v ∧ ∀ w, (g w).hang = 0 := by
    have e : exec (.hangDetect u) s = execHangDetect u s := rfl
    simp only [e, execHangDetect, State.onX, hv, if_neg (show ¬ v.hang < hangLimit from Nat.not_lt.2 h)]
    exact ⟨_, _, rfl, rfl, rfl, rfl, fun _ => rfl⟩
  refine ⟨_, e, hexec, rfl, rfl, rfl, htype, hunit, hctx, ?_, fun m hm => ?_⟩
  · have hwave : ((s.x.err e).setStatus v.team stHANG).wave? u = some v := hv
    simp only [Exec.wave?_modWave, if_true, hwave, Option.map_some, hhang]
  · exact Exec.find?_teams_modTeam (x := s.x.err e) hm fun m => { m with status := m.status ||| BitVec.ofNat 32 (2 ^ stHANG) }

end Sys2Proof.Proofs
end

section
/-! PROOFS. Which wave wins a quadrant's slot, and the run that it begins (08 R148, R166, 16 R330). -/

namespace Sys2Proof.Machine

/-! ### The least element -/

theorem leastBy_le {α : Type} {f : α → Nat} {l : List α} {v : α} (h : leastBy f l = some v) : ∀ a ∈ l, f v ≤ f a := by
  induction l generalizing v with
  | nil => cases h
  | cons x r ih =>
    rw [leastBy] at h
    intro a ha
    split at h
    next hnone =>
      cases h
      rw [leastBy_eq_none hnone, List.mem_singleton] at ha
      rw [ha]
    next y hy =>
      split at h
      next hlt =>
        cases h
        exact (List.mem_cons.1 ha).elim (fun e => e ▸ hlt.le) (ih hy a)
      next hge =>
        cases h
        exact (List.mem_cons.1 ha).elim (fun e => e ▸ le_rfl) fun har => (Nat.not_lt.1 hge).trans (ih hy a har)

/-- An element below all others is the least. -/
theorem leastBy_eq_some {α : Type} {f : α → Nat} {l : List α} {v : α} (hv : v ∈ l) (h : ∀ a ∈ l, a ≠ v → f v < f a) :
    leastBy f l = some v := by
  cases hl : leastBy f l with
  | none => rw [leastBy_eq_none hl] at hv; cases hv
  | some a =>
    by_contra hne
    exact absurd (leastBy_le hl v hv) (Nat.not_le.2 (h a (leastBy_mem hl) fun e => hne (by rw [e])))

/-! ### The winner -/

/-- The waves that compete for a slot. -/
def Exec.competes (x : Exec) (quad : Nat) (w : Wave) : Prop := x.eligible w = true ∧ x.quadOf w = quad

theorem Exec.winner_eq_none {x : Exec} {quad : Nat} (h : ∀ p ∈ x.waves, ¬ x.competes quad p.2) : x.winner quad = none := by
  have hnil : x.waves.filter (fun p => x.eligible p.2 && decide (x.quadOf p.2 = quad)) = [] := by
    refine List.filter_eq_nil_iff.2 fun p hp k => h p hp ?_
    simpa [Exec.competes] using k
  rw [Exec.winner, hnil]
  rfl

/-- A team's `%prio`, for a wave of it. -/
def Exec.prioOf (x : Exec) (w : Wave) : Nat := (x.teamOf w).elim 0 Team.prio

/-- Of higher priority, or longer eligible: the key of R330. -/
theorem prioKey_lt {p q s t : Nat} (hq : q ≤ 11) (hs : s < 2 ^ 64) (h : p < q ∨ p = q ∧ s < t) :
    (11 - q) * 2 ^ 64 + s < (11 - p) * 2 ^ 64 + t := by
  rcases h with h | ⟨rfl, h⟩
  · have : (11 - q + 1) * 2 ^ 64 ≤ (11 - p) * 2 ^ 64 := Nat.mul_le_mul_right _ (by omega)
    omega
  · omega

theorem Exec.winner_eq_some {x : Exec} {quad u : Nat} {w : Wave} (hmem : (u, w) ∈ x.waves) (hw : x.competes quad w)
    (hbounds : x.prioOf w ≤ 11 ∧ w.stamp < 2 ^ 64) (hbest : ∀ p ∈ x.waves, p ≠ (u, w) → x.competes quad p.2 →
      x.prioOf p.2 < x.prioOf w ∨ x.prioOf p.2 = x.prioOf w ∧ w.stamp < p.2.stamp) : x.winner quad = some (u, w) := by
  refine leastBy_eq_some (List.mem_filter.2 ⟨hmem, by simp [hw.1, hw.2]⟩) fun p hp hne => ?_
  obtain ⟨hp, hc⟩ := List.mem_filter.1 hp
  exact prioKey_lt hbounds.1 hbounds.2 (hbest p hp hne (by simpa [Exec.competes] using hc))

/-! ### Where a run begins -/

/-- A wave none of whose instructions issues again begins at its lowest Ready PC (R148). -/
theorem Wave.nextPc_least {w : Wave} (hready : (w.fibs.any fun p => p.2.isReady) = true) (hresumed : w.resumed = false) :
    (∃ p ∈ w.fibs, p.2.st = .ready ∧ p.2.pc = w.nextPc) ∧ ∀ p ∈ w.fibs, p.2.st = .ready → w.nextPc ≤ p.2.pc := by
  have hmem : ∀ n, n ∈ (w.fibs.filter fun p => p.2.isReady).map (fun p => p.2.pc) ↔ ∃ p ∈ w.fibs, p.2.st = .ready ∧ p.2.pc = n := by
    intro n
    simp only [List.mem_map, List.mem_filter, Fib.isReady, decide_eq_true_eq, and_assoc]
  cases hl : leastBy id ((w.fibs.filter fun p => p.2.isReady).map fun p => p.2.pc) with
  | none =>
    obtain ⟨p, hp, hst⟩ := List.any_eq_true.1 hready
    have hin := (hmem p.2.pc).2 ⟨p, hp, of_decide_eq_true hst, rfl⟩
    rw [leastBy_eq_none hl] at hin
    cases hin
  | some n =>
    have hpc : w.nextPc = n := by
      simp only [Wave.nextPc, hresumed, Bool.false_and, Bool.false_eq_true, if_false, hl, Option.getD_some]
    rw [hpc]
    exact ⟨(hmem n).1 (leastBy_mem hl), fun p hp hst => leastBy_le hl p.2.pc ((hmem p.2.pc).2 ⟨p, hp, hst, rfl⟩)⟩

/-! ### The lines of a run -/

theorem Grid.byte_lt (g : Grid) (i : Nat) : g.byte i < 256 := (g.lrec.getD i 0).isLt

/-- No register is past 255, whatever an instruction names (R145). -/
theorem Exec.linesOf_subset (x : Exec) (u : Nat) (w : Wave) (regs : List Nat) : x.linesOf u w regs ⊆ x.linesOf u w (List.range 256) := by
  intro l hl
  simp only [Exec.linesOf, List.mem_flatMap, List.mem_map, List.mem_filter, mem_dedup, decide_eq_true_eq, List.mem_range] at hl ⊢
  obtain ⟨v, hv, k, ⟨-, hk⟩, rfl⟩ := hl
  refine ⟨v, hv, k, ⟨lt_of_lt_of_le hk ?_, hk⟩, rfl⟩
  cases ((x.wave? v).bind fun q => (x.teamOf q).bind x.gridOf) with
  | none => exact (by decide : 128 ≤ 256)
  | some g =>
    rw [Option.elim_some]
    split <;> exact (g.byte_lt _).le

/-- What a run of a wave executes with, none of whose instructions issues again. -/
def Exec.freshRun (x : Exec) (u : Nat) (w : Wave) (limit : Nat) : Cur :=
  { wave := u, pc := w.nextPc, count := 0, len := 0, raw := 0, fmts := (x.teamOf w).elim [] Team.fmts, limit := limit, again := false }

/-- A run all of whose lines are present begins (R148, R166). -/
theorem State.beginRun_present {s : State} {core quad u : Nat} {w : Wave} (hresumed : w.resumed = false)
    (hlines : ∀ l ∈ s.x.linesOf u w (List.range 256), s.x.hasLine core l = true) : ∃ limit use, s.beginRun core quad u w =
      s.modX fun x => { x.modCore core (fun k => { k with regs := k.regs.map use }) with
        cur := some (s.x.freshRun u w limit), rr := 4 * core + quad + 1, fresh := x.fresh + 1 } := by
  have habsent : ∀ regs, (s.x.linesOf u w regs).filter (fun l => !s.x.hasLine core l) = [] := fun regs =>
    List.filter_eq_nil_iff.2 fun l hl => by simp [hlines l (s.x.linesOf_subset u w regs hl)]
  unfold State.beginRun
  extract_lets c trial regs all c' ls absent asked
  have hnone : absent = [] := by
    simp only [absent, ls]
    split <;> exact habsent _
  have hasked : asked.isEmpty = true := by simp only [asked, hnone, List.filter_nil, List.isEmpty_nil]
  have hcur : ∃ limit, c' = s.x.freshRun u w limit := by
    have hc : ∀ n, { c with limit := n } = s.x.freshRun u w n := fun n => by
      simp only [c, hresumed, Bool.false_eq_true, if_false, Option.getD_none, Exec.freshRun]
    simp only [c']
    split
    · exact ⟨c.limit, hc c.limit⟩
    · exact ⟨1, hc 1⟩
  obtain ⟨limit, hlimit⟩ := hcur
  rw [if_pos hasked, hnone, hlimit]
  exact ⟨limit, _, rfl⟩

end Sys2Proof.Machine

namespace Sys2Proof.Proofs

open Sys2Proof.Machine Sys2Proof.Claim

theorem exec_runArbitration (core quad : Nat) (s : State) :
    exec (.runArbitration core quad) s = execRunArbitration core quad s := rfl

theorem runArbitration_none (s : State) (core quad : Nat)
    (h : ∀ p ∈ s.x.waves, s.x.eligible p.2 = true → s.x.quadOf p.2 ≠ 4 * core + quad) :
    Does s (.runArbitration core quad) s.x := by
  have hwinner := Exec.winner_eq_none (quad := 4 * core + quad) fun p hp hc => h p hp hc.1 hc.2
  have hexec : exec (.runArbitration core quad) s = .next s := by
    simp only [exec_runArbitration, execRunArbitration, State.onMem, hwinner, ite_self]
  exact ⟨s, hexec, rfl, rfl, rfl⟩

theorem runArbitration_begins (s : State) (core quad u : Nat) (w : Wave) (hidle : s.x.cur = none) (hmem : (u, w) ∈ s.x.waves)
    (heligible : s.x.eligible w = true) (hquad : s.x.quadOf w = 4 * core + quad) (hresumed : w.resumed = false)
    (hbounds : ∀ p ∈ s.x.waves, s.x.prioOf p.2 ≤ 11 ∧ p.2.stamp < 2 ^ 64)
    (hbest : ∀ p ∈ s.x.waves, p ≠ (u, w) → s.x.eligible p.2 = true → s.x.quadOf p.2 = 4 * core + quad →
      s.x.prioOf p.2 < s.x.prioOf w ∨ (s.x.prioOf p.2 = s.x.prioOf w ∧ w.stamp < p.2.stamp))
    (hlines : ∀ l ∈ s.x.linesOf u w (List.range 256), s.x.hasLine core l = true) :
    ∃ t c, Machine.exec (.runArbitration core quad) s = .next t ∧ t.trust = s.trust ∧ t.mem = s.mem ∧
      { t.x with cores := s.x.cores } = { s.x with cur := some c, rr := 4 * core + quad + 1, fresh := s.x.fresh + 1 } ∧
      c.wave = u ∧ c.count = 0 ∧ c.again = false ∧ c.fmts = (s.x.teamOf w).elim [] Team.fmts ∧
      (∃ p ∈ w.fibs, p.2.st = .ready ∧ p.2.pc = c.pc) ∧ ∀ p ∈ w.fibs, p.2.st = .ready → c.pc ≤ p.2.pc := by
  have hwinner := Exec.winner_eq_some hmem ⟨heligible, hquad⟩ (hbounds _ hmem) fun p hp hne hc => hbest p hp hne hc.1 hc.2
  obtain ⟨limit, use, hrun⟩ := State.beginRun_present (quad := quad) hresumed hlines
  have hready : (w.fibs.any fun p => p.2.isReady) = true := by
    simp only [Exec.eligible, Bool.and_eq_true] at heligible
    exact heligible.1.2
  have hexec : exec (.runArbitration core quad) s = .next (s.beginRun core quad u w) := by
    simp only [exec_runArbitration, execRunArbitration, State.onMem, hidle, hwinner, Option.isSome_none, Bool.false_eq_true,
      if_false, hrun]
    rfl
  rw [hrun] at hexec
  exact ⟨_, s.x.freshRun u w limit, hexec, rfl, rfl, rfl, rfl, rfl, rfl, rfl, Wave.nextPc_least hready hresumed⟩

end Sys2Proof.Proofs
end

section
/-! PROOFS. A missing register line: what its sectors poison, and the waves that waited for it (08 R166, R167). -/

namespace Sys2Proof.Machine

/-! ### Sorted lists of numbers, and changes of one entry -/

theorem mem_setAdd {l : List Nat} {i j : Nat} : j ∈ setAdd l i ↔ j = i ∨ j ∈ l := by
  induction l with
  | nil => simp [setAdd]
  | cons k r ih =>
    rw [setAdd]
    split
    · exact List.mem_cons
    · split
      next h => rw [h, List.mem_cons]; tauto
      next => rw [List.mem_cons, ih, List.mem_cons]; tauto

theorem mem_foldl_setAdd {l m : List Nat} {j : Nat} : j ∈ l.foldl setAdd m ↔ j ∈ l ∨ j ∈ m := by
  induction l generalizing m with
  | nil => simp
  | cons i l ih => rw [List.foldl_cons, ih, mem_setAdd, List.mem_cons]; tauto

theorem SMap.modify_id {α : Type} (m : SMap α) (i : Nat) : m.modify i id = m := by
  refine (List.map_congr_left fun p _ => ?_).trans (List.map_id m)
  split <;> rfl

theorem SMap.modify_modify {α : Type} (m : SMap α) (i : Nat) (f g : α → α) : (m.modify i f).modify i g = m.modify i (g ∘ f) := by
  refine (List.map_map ..).trans (List.map_congr_left fun p _ => ?_)
  by_cases h : p.1 = i <;> simp [h]

/-! ### A sector of the context image, read for a line -/

/-- A sector that is poisoned or uncorrectable. -/
def State.spoils (s : State) (sec : Nat) : Bool := s.mem.pois.contains sec || s.mem.unc.contains sec

theorem State.spoils_eq_true {s : State} {sec : Nat} : s.spoils sec = true ↔ sec ∈ s.mem.pois ∨ sec ∈ s.mem.unc := by
  simp [State.spoils]

/-- What the reads of a line's sectors leave: slots of one wave are poisoned, and the device's bytes stand as they did. -/
structure LineRead (s t : State) (u : Nat) (bad : List Nat) : Prop where
  waves  : t.x.waves = s.x.waves.modify u fun w => { w with vpois := bad.foldl setAdd w.vpois }
  cores  : t.x.cores = s.x.cores
  dev    : t.mem.dev = s.mem.dev
  reqs   : t.mem.reqs = s.mem.reqs
  spoils : t.spoils = s.spoils

theorem LineRead.refl (s : State) (u : Nat) : LineRead s s u [] := ⟨(s.x.waves.modify_id u).symm, rfl, rfl, rfl, rfl⟩

theorem LineRead.trans {s t r : State} {u : Nat} {a b : List Nat} (h : LineRead s t u a) (k : LineRead t r u b) :
    LineRead s r u (a ++ b) := by
  refine ⟨?_, k.cores.trans h.cores, k.dev.trans h.dev, k.reqs.trans h.reqs, k.spoils.trans h.spoils⟩
  rw [k.waves, h.waves, SMap.modify_modify]
  exact congrArg (s.x.waves.modify u) (funext fun w => by simp only [Function.comp, List.foldl_append])

theorem State.spoils_detect (s : State) (sec pa ctx : Nat) : (s.detect sec pa ctx).spoils = s.spoils := by
  funext n
  rw [State.detect]
  split
  next h =>
    rw [Bool.eq_iff_iff, State.spoils_eq_true, State.spoils_eq_true]
    simp only [State.modX, State.modM, mem_setAdd, setDel, List.mem_filter, Bool.not_eq_true', decide_eq_false_iff_not]
    have hsec : sec ∈ s.mem.unc := by simpa using h
    by_cases e : n = sec
    · simp [e, hsec]
    · simp [e]
  next => rfl

/-- A read at the home slice finds a sector poisoned that was so, or that proves uncorrectable (R73, R405). -/
theorem State.pois_detect (s : State) (sec pa ctx : Nat) : (s.detect sec pa ctx).mem.pois.contains sec = s.spoils sec := by
  rw [State.detect, State.spoils]
  split
  next h =>
    rw [h, Bool.or_true]
    simpa [State.modX, State.modM] using mem_setAdd.2 (.inl rfl)
  next h => rw [Bool.eq_false_iff.2 h, Bool.or_false]

section
variable {s : State} (hreqs : s.mem.reqs = []) (core ctx hint : Nat) (l : Loc)
include hreqs

/-- A read at the home slice with no write queued there (R73). -/
theorem State.fetch_home : s.fetch core ctx hint l false false =
    let t := (s.detect l.sec l.pa ctx).sqTouch core ctx l false false 0 (rowBit l.sec) 0
    (t, t.mem.sector l.key l.sec, t.mem.pois.contains l.sec) := by
  have hdrain : s.drainSq (l.sec / 32) = s := State.drainSq_eq_self fun r hr => by rw [hreqs] at hr; cases hr
  simp only [State.fetch, Bool.not_false, or_true, if_true, hdrain]

theorem State.fetch_spoils : (s.fetch core ctx hint l false false).2.2 = s.spoils l.sec := by
  rw [State.fetch_home hreqs]
  exact (congrArg (List.contains · l.sec) (State.pois_of_besideL2 (State.besideL2_sqTouch ..))).trans (s.pois_detect ..)

theorem State.lineRead_fetch (u : Nat) : LineRead s (s.fetch core ctx hint l false false).1 u [] := by
  have hmem := s.mem_detect l.sec l.pa ctx
  rw [State.fetch_home hreqs]
  have hL2 := (s.detect l.sec l.pa ctx).besideL2_sqTouch core ctx l false false 0 (rowBit l.sec) 0
  have hx := ((s.detect l.sec l.pa ctx).besideMem_sqTouch core ctx l false false 0 (rowBit l.sec) 0).trans
    (s.besideMem_detect l.sec l.pa ctx)
  have hcores := congrArg Exec.cores hx
  have hdev := congrArg MemSys.dev hmem
  have hqueue := congrArg MemSys.reqs hmem
  refine ⟨?_, hcores, ?_, ?_, ?_⟩
  · exact (Exec.waves_of_besideMem hx).trans (s.x.waves.modify_id u).symm
  · exact (State.dev_of_besideL2 hL2).trans hdev
  · exact (State.reqs_of_besideL2 hL2).trans hqueue
  · refine Eq.trans ?_ (s.spoils_detect l.sec l.pa ctx)
    funext n
    simp only [State.spoils, State.pois_of_besideL2 hL2, State.unc_of_besideL2 hL2]

end

/-! ### The sixteen sectors of a line -/

/-- The slots of a register that a sector of its line holds. -/
def lineSlots (k j : Nat) : List Nat := (List.range 8).map fun f => 128 * k + 8 * j + f

/-- A sector of a line is read, and poisons its slots when it is spoilt. -/
def State.readSlots (s : State) (core ctx : Nat) (l : Nat × Nat) (p : Loc × Nat) : State :=
  let r := s.fetch core ctx 2 p.1 false false
  if r.2.2 then
    (r.1.poisoned ⟨core, ctx, 0⟩ p.1).modX fun x => x.modWave l.1 fun w => { w with vpois := (lineSlots l.2 p.2).foldl setAdd w.vpois }
  else r.1

/-- The slots that the sectors of a list poison. -/
def State.badSlots (s : State) (k : Nat) (l : List (Loc × Nat)) : List Nat :=
  l.flatMap fun p => if s.spoils p.1.sec then lineSlots k p.2 else []

theorem State.lineRead_readSlots {s : State} (hreqs : s.mem.reqs = []) (core ctx : Nat) (l : Nat × Nat) (p : Loc × Nat) :
    LineRead s (s.readSlots core ctx l p) l.1 (if s.spoils p.1.sec then lineSlots l.2 p.2 else []) := by
  have hread := State.lineRead_fetch hreqs core ctx 2 p.1 l.1
  simp only [State.readSlots, State.fetch_spoils hreqs]
  split
  · exact hread.trans ⟨rfl, rfl, rfl, rfl, rfl⟩
  · exact hread

theorem State.lineRead_foldl (core ctx : Nat) (l : Nat × Nat) (ps : List (Loc × Nat)) {s : State} (hreqs : s.mem.reqs = []) :
    LineRead s (ps.foldl (fun s p => s.readSlots core ctx l p) s) l.1 (s.badSlots l.2 ps) := by
  induction ps generalizing s with
  | nil => exact .refl s l.1
  | cons p ps ih =>
    have hstep := State.lineRead_readSlots hreqs core ctx l p
    have hrest := ih (hstep.reqs.trans hreqs)
    rw [State.badSlots, hstep.spoils] at hrest
    exact hstep.trans hrest

theorem State.lineRead_readRegLine {s : State} (hreqs : s.mem.reqs = []) {u k : Nat} {v : Wave} (hv : s.x.wave? u = some v)
    (core : Nat) : LineRead s (s.readRegLine core (u, k)) u (s.badSlots k (s.lineAt v k).zipIdx) := by
  have hfold := State.lineRead_foldl core (s.x.ctxOf v) (u, k) (s.lineAt v k).zipIdx hreqs
  have heq : s.readRegLine core (u, k) = (s.lineAt v k).zipIdx.foldl (fun t p => t.readSlots core (s.x.ctxOf v) (u, k) p) s := by
    simp only [State.readRegLine, hv, Option.elim_some]
    rfl
  rw [heq]
  exact hfold

/-- A window's line is sixteen sectors, or as many of them as the area reaches (R165). -/
theorem State.length_lineAt (s : State) (v : Wave) (k : Nat) : (s.lineAt v k).length ≤ 16 := by
  rw [State.lineAt, State.imageAt]
  split
  · exact Nat.zero_le _
  · refine (List.length_filterMap_le _ _).trans ?_
    rw [List.length_map, List.length_range]

theorem State.mem_badSlots {s : State} {k n : Nat} {l : List Loc} : n ∈ s.badSlots k l.zipIdx ↔
    ∃ j a loc, a < 8 ∧ l[j]? = some loc ∧ s.spoils loc.sec = true ∧ n = 128 * k + (8 * j + a) := by
  simp only [State.badSlots, List.mem_flatMap, Prod.exists, List.mem_zipIdx_iff_getElem?]
  constructor
  · rintro ⟨loc, j, hj, hn⟩
    split at hn
    next hbad =>
      obtain ⟨a, ha, rfl⟩ := List.mem_map.1 hn
      exact ⟨j, a, loc, List.mem_range.1 ha, hj, hbad, Nat.add_assoc ..⟩
    next => cases hn
  · rintro ⟨j, a, loc, ha, hj, hbad, rfl⟩
    refine ⟨loc, j, hj, ?_⟩
    rw [if_pos hbad]
    exact List.mem_map.2 ⟨a, List.mem_range.2 ha, Nat.add_assoc ..⟩

/-- Slot a of sector j of a register is poisoned by that sector alone. -/
theorem State.slot_mem_badSlots {s : State} {k j a : Nat} {l : List Loc} (ha : a < 8) :
    128 * k + (8 * j + a) ∈ s.badSlots k l.zipIdx ↔ ∃ loc, l[j]? = some loc ∧ (loc.sec ∈ s.mem.pois ∨ loc.sec ∈ s.mem.unc) := by
  rw [State.mem_badSlots]
  constructor
  · rintro ⟨j', a', loc, ha', hj, hbad, heq⟩
    have hsame : j' = j := by omega
    exact ⟨loc, hsame ▸ hj, State.spoils_eq_true.1 hbad⟩
  · rintro ⟨loc, hj, hbad⟩
    exact ⟨j, a, loc, ha, hj, State.spoils_eq_true.2 hbad, rfl⟩

/-- The sectors of a register's line poison slots of that register. -/
theorem State.div_of_mem_badSlots {s : State} {v : Wave} {k n : Nat} (h : n ∈ s.badSlots k (s.lineAt v k).zipIdx) : n / 128 = k := by
  obtain ⟨j, a, loc, ha, hj, -, rfl⟩ := State.mem_badSlots.1 h
  have hlen := (List.getElem?_eq_some_iff.1 hj).1.trans_le (s.length_lineAt v k)
  omega

/-! ### The waves that wait for a line -/

/-- The lines that a wave waits for, but one. -/
def Wave.linesBut (w : Wave) (l : Nat × Nat) : List (Nat × Nat) := w.lines.filter fun q => !decide (q = l)

/-- A wave that waited for a line waits for it no more; with its last line it is the youngest of its priority (R167, R330). -/
def Exec.lineCame (l : Nat × Nat) (x : Exec) (p : Nat × Wave) : Exec :=
  let x := x.modWave p.1 fun w => { w with lines := p.2.linesBut l }
  if (p.2.linesBut l).isEmpty then x.restamp p.1 else x

/-- A wave without what it waits for, and how long it has been eligible. -/
def Wave.unlined (w : Wave) : Wave := { w with lines := [], stamp := 0 }
def Exec.unlined (x : Exec) (u : Nat) : Option Wave := (x.wave? u).map Wave.unlined

theorem Exec.lineCame_waves (l : Nat × Nat) (x : Exec) (p : Nat × Wave) : ∃ g : Wave → Wave,
    (x.lineCame l p).waves = x.waves.modify p.1 g ∧ ∀ w, (g w).unlined = w.unlined ∧ l ∉ (g w).lines := by
  have hrest : l ∉ p.2.linesBut l := by simp [Wave.linesBut]
  rw [Exec.lineCame]
  split
  · have hboth := SMap.modify_modify x.waves p.1 (fun w => { w with lines := p.2.linesBut l }) fun w => { w with stamp := x.fresh }
    exact ⟨_, hboth, fun _ => ⟨rfl, hrest⟩⟩
  · exact ⟨fun w => { w with lines := p.2.linesBut l }, rfl, fun _ => ⟨rfl, hrest⟩⟩

theorem Exec.unlined_lineCame (l : Nat × Nat) (x : Exec) (p : Nat × Wave) : (x.lineCame l p).unlined = x.unlined := by
  obtain ⟨g, hwaves, hg⟩ := x.lineCame_waves l p
  funext u
  rw [Exec.unlined, Exec.unlined, Exec.wave?, hwaves, SMap.find?_modify, ← Exec.wave?]
  split
  · rw [Option.map_map]
    exact congrArg (Option.map · (x.wave? u)) (funext fun w => (hg w).1)
  · rfl

theorem Exec.cores_lineCame (l : Nat × Nat) (x : Exec) (p : Nat × Wave) : (x.lineCame l p).cores = x.cores := by
  rw [Exec.lineCame]
  split <;> rfl

theorem Exec.lines_foldl_lineCame {l : Nat × Nat} {ws : List (Nat × Wave)} {x : Exec}
    (h : ∀ q ∈ x.waves, l ∈ q.2.lines → q.1 ∈ ws.map Prod.fst) : ∀ q ∈ (ws.foldl (Exec.lineCame l) x).waves, l ∉ q.2.lines := by
  induction ws generalizing x with
  | nil => exact fun q hq hl => absurd (h q hq hl) List.not_mem_nil
  | cons p ws ih =>
    refine ih fun q hq hl => ?_
    obtain ⟨g, hwaves, hg⟩ := x.lineCame_waves l p
    rw [hwaves] at hq
    obtain ⟨q', hq', rfl⟩ := List.mem_map.1 hq
    split at hl
    · exact absurd hl (hg q'.2).2
    next hne =>
      rw [if_neg hne]
      exact (List.mem_cons.1 (h q' hq' hl)).resolve_left hne

/-! ### The line comes -/

theorem Exec.hasLine_congr {x y : Exec} (h : y.cores = x.cores) (core : Nat) (l : Nat × Nat) : y.hasLine core l = x.hasLine core l := by
  rw [Exec.hasLine, Exec.regLines, h]
  rfl

/-- What executes once a core that has room for a line holds it (R166). -/
def Exec.putLine (x : Exec) (core : Nat) (l : Nat × Nat) : Exec :=
  { x.modCore core (fun c => { c with regs := c.regs ++ [⟨l.1, l.2, x.fresh, none⟩] }) with fresh := x.fresh + 1 }

theorem State.putLine_room {s : State} {core : Nat} (h : (s.x.regLines core).length < 2048) (keep : List (Nat × Nat)) (l : Nat × Nat) :
    s.putLine core keep l = s.modX fun x => x.putLine core l := by
  simp only [State.putLine, if_pos h]
  rfl

theorem Exec.hasLine_putLine (x : Exec) (core : Nat) (l : Nat × Nat) : (x.putLine core l).hasLine core l = true := by
  simp [Exec.hasLine, Exec.regLines, Exec.putLine, Exec.modCore, SMap.get, SMap.find?_insert]

/-- What executes once a line has come and the waves know of it. -/
def Exec.filled (x : Exec) (core : Nat) (l : Nat × Nat) : Exec :=
  ((x.putLine core l).waves.filter fun p => p.2.lines.contains l).foldl (Exec.lineCame l) (x.putLine core l)

theorem Exec.unlined_filled (x : Exec) (core : Nat) (l : Nat × Nat) : (x.filled core l).unlined = x.unlined :=
  (foldl_keeps Exec.unlined (Exec.unlined_lineCame l) _ (x.putLine core l)).trans rfl

theorem Exec.hasLine_filled (x : Exec) (core : Nat) (l : Nat × Nat) : (x.filled core l).hasLine core l = true :=
  (Exec.hasLine_congr (foldl_keeps Exec.cores (Exec.cores_lineCame l) _ (x.putLine core l)) core l).trans (x.hasLine_putLine core l)

theorem Exec.lines_filled (x : Exec) (core : Nat) (l : Nat × Nat) : ∀ q ∈ (x.filled core l).waves, l ∉ q.2.lines :=
  Exec.lines_foldl_lineCame fun _ hq hl => List.mem_map_of_mem (List.mem_filter.2 ⟨hq, List.contains_iff_mem.2 hl⟩)

/-- A line that no other core holds comes to a core with room, read from the image where the image has it (R167). -/
theorem State.lineFill_alone {s : State} {core u k : Nat} {v : Wave} (hv : s.x.wave? u = some v) (hreqs : s.mem.reqs = [])
    (halone : s.x.lineElsewhere core (u, k) = []) (hroom : (s.x.regLines core).length < 2048) :
    ∃ t, s.lineFill core (u, k) = t.modX (fun x => x.filled core (u, k)) ∧
      LineRead s t u (if (v.imaged.find? k).isSome then s.badSlots k (s.lineAt v k).zipIdx else []) := by
  have hread : LineRead s (if (v.imaged.find? k).isSome then s.readRegLine core (u, k) else s) u
      (if (v.imaged.find? k).isSome then s.badSlots k (s.lineAt v k).zipIdx else []) := by
    split
    · exact State.lineRead_readRegLine hreqs hv core
    · exact .refl s u
  refine ⟨_, ?_, hread⟩
  have hroom' : ((if (v.imaged.find? k).isSome then s.readRegLine core (u, k) else s).x.regLines core).length < 2048 := by
    rw [Exec.regLines, hread.cores]
    exact hroom
  simp only [State.lineFill, halone, List.foldl_nil, hv, Option.elim_some]
  rw [State.putLine_room hroom']
  rfl

end Sys2Proof.Machine

namespace Sys2Proof.Proofs

open Sys2Proof.Machine Sys2Proof.Claim

theorem exec_registerLineFill (core u k : Nat) (s : State) :
    exec (.registerLineFill core u k) s = execRegisterLineFill core u k s := rfl

theorem registerLineFill_unasked (s : State) (core u k : Nat) (h : ∀ p ∈ s.x.waves, s.x.coreOf p.2 = core → (u, k) ∉ p.2.lines) :
    Does s (.registerLineFill core u k) s.x := by
  have hnone : ¬ (s.x.waves.any fun p => decide (s.x.coreOf p.2 = core) && p.2.lines.contains (u, k)) = true := fun hany => by
    obtain ⟨p, hp, hwaits⟩ := List.any_eq_true.1 hany
    obtain ⟨hcore, hline⟩ := Bool.and_eq_true_iff.1 hwaits
    exact h p hp (of_decide_eq_true hcore) (List.contains_iff_mem.1 hline)
  have hexec : exec (.registerLineFill core u k) s = .next s := by
    simp only [exec_registerLineFill, execRegisterLineFill, State.onMem, if_neg hnone]
  exact ⟨s, hexec, rfl, rfl, rfl⟩

theorem registerLineFill_comes (s : State) (core u k : Nat) (v : Wave) (hv : s.x.wave? u = some v) (p : Nat × Wave)
    (hp : p ∈ s.x.waves) (hcore : s.x.coreOf p.2 = core) (hwaits : (u, k) ∈ p.2.lines)
    (halone : s.x.lineElsewhere core (u, k) = []) (hroom : (s.x.regLines core).length < 2048) (hreqs : s.mem.reqs = []) :
    ∃ t v', Machine.exec (.registerLineFill core u k) s = .next t ∧ t.trust = s.trust ∧ t.mem.dev = s.mem.dev ∧
      t.x.hasLine core (u, k) = true ∧ (∀ q ∈ t.x.waves, (u, k) ∉ q.2.lines) ∧ t.x.wave? u = some v' ∧
      { v' with lines := v.lines, vpois := v.vpois, stamp := v.stamp } = v ∧
      (∀ n, n / 128 ≠ k → (n ∈ v'.vpois ↔ n ∈ v.vpois)) ∧
      (v.imaged.find? k = none → v'.vpois = v.vpois) ∧
      ((v.imaged.find? k).isSome = true → ∀ j a, j < 16 → a < 8 → (128 * k + (8 * j + a) ∈ v'.vpois ↔
        128 * k + (8 * j + a) ∈ v.vpois ∨ ∃ l, (s.lineAt v k)[j]? = some l ∧ (l.sec ∈ s.mem.pois ∨ l.sec ∈ s.mem.unc))) := by
  obtain ⟨r, hfill, hread⟩ := State.lineFill_alone hv hreqs halone hroom
  have hsome : (s.x.waves.any fun p => decide (s.x.coreOf p.2 = core) && p.2.lines.contains (u, k)) = true :=
    List.any_eq_true.2 ⟨p, hp, by simp [hcore, hwaits]⟩
  have hexec : exec (.registerLineFill core u k) s = .next { r with trust := s.trust, x := r.x.filled core (u, k) } := by
    simp only [exec_registerLineFill, execRegisterLineFill, State.onMem, if_pos hsome, hfill]
    rfl
  generalize hbad : (if (v.imaged.find? k).isSome then s.badSlots k (s.lineAt v k).zipIdx else []) = bad at hread
  have hv1 : r.x.wave? u = some { v with vpois := bad.foldl setAdd v.vpois } := by
    have hv : s.x.waves.find? u = some v := hv
    rw [Exec.wave?, hread.waves, SMap.find?_modify, if_pos rfl, hv]
    rfl
  have hkept := congrFun (r.x.unlined_filled core (u, k)) u
  rw [Exec.unlined, Exec.unlined, hv1] at hkept
  obtain ⟨v', hv', hlined⟩ := Option.map_eq_some_iff.1 hkept
  have hpois : v'.vpois = bad.foldl setAdd v.vpois := congrArg Wave.vpois hlined
  have hother := congrArg (fun w : Wave => { w with lines := v.lines, vpois := v.vpois, stamp := v.stamp }) hlined
  refine ⟨_, v', hexec, rfl, hread.dev, r.x.hasLine_filled core (u, k), r.x.lines_filled core (u, k), hv', hother, fun n hn => ?_,
    fun hnone => ?_, fun himaged j a _ ha => ?_⟩
  · have hout : n ∉ bad := fun hin => by
      rw [← hbad] at hin
      split at hin
      · exact hn (State.div_of_mem_badSlots hin)
      · cases hin
    rw [hpois, mem_foldl_setAdd]
    exact or_iff_right hout
  · rw [hpois, ← hbad, hnone]
    rfl
  · rw [hpois, mem_foldl_setAdd, ← hbad, if_pos himaged, State.slot_mem_badSlots ha, or_comm]

end Sys2Proof.Proofs
end

section
/-! PROOFS. The start of a handler wave (17 R337, R338). -/

namespace Sys2Proof.Machine

/-! ### The fibres that a handler wave serves -/

/-- A fibre whose trap record is served. -/
def Fib.inService (b : Fib) : Fib := { b with trap := b.trap.map fun t => { t with served := true } }

/-- A change that leaves a fibre of no wave as it is reads the same whether its wave is listed or not. -/
theorem Exec.fib_modFib_of_default {g : Fib → Fib} (hg : g {} = {}) (x : Exec) (u f v k : Nat) :
    (x.modFib u f g).fib v k = if v = u ∧ k = f then g (x.fib v k) else x.fib v k := by
  cases hu : x.wave? u with
  | some w => exact Exec.fib_modFib _ _ _ _ _ _ (by rw [hu]; rfl)
  | none =>
    have hsame : (x.modFib u f g).fib v k = x.fib v k := by
      rw [Exec.fib, Exec.wave?_modFib, Exec.fib]
      split
      next h => rw [h, hu]; rfl
      next => rfl
    rw [hsame]
    split
    next h => rw [h.1, Exec.fib, hu]; exact hg.symm
    next => rfl

/-- What executes once the trap record of a fibre is served, and those of several. -/
def Exec.serveOne (x : Exec) (p : Nat × Nat) : Exec := x.modFib p.1 p.2 Fib.inService
def Exec.serve (x : Exec) (l : List (Nat × Nat)) : Exec := l.foldl Exec.serveOne x

theorem Exec.trap_serve (x : Exec) (l : List (Nat × Nat)) (u f : Nat) : ((x.serve l).fib u f).trap =
    if (u, f) ∈ l then (x.fib u f).trap.map fun t => { t with served := true } else (x.fib u f).trap := by
  induction l generalizing x with
  | nil => rfl
  | cons p l ih =>
    have hcons : x.serve (p :: l) = (x.serveOne p).serve l := rfl
    rw [hcons, ih, Exec.serveOne, Exec.fib_modFib_of_default rfl]
    have hp : (u, f) = p ↔ u = p.1 ∧ f = p.2 := Prod.ext_iff
    by_cases h : u = p.1 ∧ f = p.2
    · simp only [h, and_self, if_true, Fib.inService, List.mem_cons, true_or, Option.map_map]
      split <;> rfl
    · simp only [h, if_false, List.mem_cons, hp, false_or]

theorem Exec.slotReg_serve (x : Exec) (l : List (Nat × Nat)) (u a k : Nat) : (x.serve l).slotReg u a k = x.slotReg u a k :=
  foldl_keeps (fun x : Exec => x.slotReg u a k) (f := Exec.serveOne)
    (fun x p => x.slotReg_modFib p.1 p.2 u a k Fib.inService) l x

theorem Exec.fresh_serve (x : Exec) (l : List (Nat × Nat)) : (x.serve l).fresh = x.fresh :=
  foldl_keeps Exec.fresh (f := Exec.serveOne) (fun _ _ => rfl) l x

/-! ### The handler wave -/

/-- The fibres of a handler wave: number j has origin number j and stands at the handler's entry (R338). -/
def handlerFibs (entry : Nat) (l : List (Nat × Nat)) : SMap Fib :=
  l.zipIdx.map fun p => (p.2, { st := .ready, pc := entry, org := some p.1 })

theorem handlerFibs_getElem? {entry j : Nat} {l : List (Nat × Nat)} {p : Nat × Nat} (h : l[j]? = some p) :
    (handlerFibs entry l)[j]? = some (j, ({ st := .ready, pc := entry, org := some p } : Fib)) := by
  simp [handlerFibs, h]

theorem length_handlerFibs (entry : Nat) (l : List (Nat × Nat)) : (handlerFibs entry l).length = l.length := by
  simp [handlerFibs]

theorem trap_handlerFibs (entry f : Nat) (l : List (Nat × Nat)) : ((handlerFibs entry l).get {} f).trap = none := by
  rw [SMap.get]
  cases h : (handlerFibs entry l).find? f with
  | none => rfl
  | some b =>
    obtain ⟨q, -, hq⟩ := List.mem_map.1 (SMap.mem_of_find? h)
    have hb := congrArg Prod.snd hq
    exact congrArg Fib.trap hb.symm

/-- The handler wave of a list of served fibres (R338). -/
def Exec.handlerWave (x : Exec) (slot t depth entry : Nat) (emu : Bool) (l : List (Nat × Nat)) : Wave :=
  { team := t, idx := 16 + slot, role := ((l.head?).bind fun p => x.wave? p.1).elim 0 Wave.role, quad := slot, stamp := x.fresh
    starved := List.range l.length, fibs := handlerFibs entry l
    w := ((SMap.put 0 [] 0 (BitVec.ofNat 32 l.length)).put 0 1 (BitVec.ofNat 32 (dedup (l.map Prod.fst)).length))
    handler := some ⟨depth + 1, emu, dedup (l.map Prod.fst)⟩ }

/-- The dispatcher goes on when a slot is free and a wave is ripe (R337). -/
def Exec.dispatchOn (x : Exec) (core : Nat) : Exec :=
  match x.freeHandler core with
  | some h => if (x.ripeOn core).isEmpty then x else x.post 0 (.handlerDispatch core h)
  | none => x

theorem Exec.waves_dispatchOn (x : Exec) (core : Nat) : (x.dispatchOn core).waves = x.waves := by
  unfold Exec.dispatchOn
  split
  · split
    · rfl
    · exact Exec.waves_post ..
  · rfl

/-- The served records and the new wave are all that the start of a handler wave changes of the waves (R338). -/
theorem Exec.waves_startHandler {x : Exec} {core slot t depth : Nat} {emu : Bool} {l : List (Nat × Nat)} {m : Team} {g : Grid}
    (hm : x.teams.find? t = some m) (hg : x.gridOf m = some g) : (x.startHandler core slot t depth emu l).waves =
      (x.serve l).waves.insert x.fresh (x.handlerWave slot t depth (if emu then g.word 112 8 else g.word 104 8) emu l) := by
  have hstart : x.startHandler core slot t depth emu l = Exec.dispatchOn { x.serve l with
      waves := (x.serve l).waves.insert (x.serve l).fresh
        (x.handlerWave slot t depth (if emu then g.word 112 8 else g.word 104 8) emu l)
      fresh := (x.serve l).fresh + 1 } core := by
    simp only [Exec.startHandler, hm, hg, Option.elim_some]
    rfl
  rw [hstart, Exec.waves_dispatchOn, Exec.fresh_serve]

end Sys2Proof.Machine

namespace Sys2Proof.Proofs

open Sys2Proof.Machine Sys2Proof.Claim

theorem handlerStart : HandlerStart := by
  intro s core slot t depth emu l m g hslot hfree hgather hm hg hfresh
  have hexec : exec (.handlerDispatch core slot) s = .next { s with x := s.x.startHandler core slot t depth emu l } := by
    have e : exec (.handlerDispatch core slot) s = execHandlerDispatch core slot s := rfl
    have hopen : ¬ (3 < slot || (s.x.handlersOn core).any fun p => decide (p.2.idx = 16 + slot)) = true := fun h => by
      rcases Bool.or_eq_true_iff.1 h with hpast | htaken
      · exact absurd (of_decide_eq_true hpast) (Nat.not_lt.2 hslot)
      · obtain ⟨p, hp, hidx⟩ := List.any_eq_true.1 htaken
        exact hfree p hp (of_decide_eq_true hidx)
    simp only [e, execHandlerDispatch, State.onX, if_neg hopen, hgather]
  have hwaves := Exec.waves_startHandler (core := core) (slot := slot) (depth := depth) (emu := emu) (l := l) hm hg
  have hwave : ∀ u, (s.x.startHandler core slot t depth emu l).wave? u = if u = s.x.fresh then
      some (s.x.handlerWave slot t depth (if emu then g.word 112 8 else g.word 104 8) emu l) else (s.x.serve l).wave? u :=
    fun u => by rw [Exec.wave?, hwaves, SMap.find?_insert, Exec.wave?]
  refine ⟨_, _, hexec, rfl, rfl, (hwave s.x.fresh).trans (if_pos rfl), rfl, rfl, rfl, rfl, rfl, ?_, ?_, fun j p hj => ?_,
    length_handlerFibs _ l, fun p hp => ?_, fun u a k hne => ?_⟩
  · exact (SMap.get_put_ne _ _ _ (by decide)).trans (SMap.get_put_self ..)
  · exact SMap.get_put_self ..
  · exact handlerFibs_getElem? hj
  · simp only [Exec.fib, hwave]
    by_cases h : p.1 = s.x.fresh
    · rw [if_pos h, h, hfresh]
      exact trap_handlerFibs ..
    · rw [if_neg h]
      exact (s.x.trap_serve l p.1 p.2).trans (if_pos hp)
  · simp only [Exec.slotReg, hwave, if_neg hne]
    exact s.x.slotReg_serve l u a k

theorem waveEvents : WaveEvents := by
  refine ⟨fun s u f a hwins hone _ => asyncTrap_masks s u f a hwins hone, waveRipens_does, ?_, runArbitration_none,
    fun s u v hv => ⟨hangDetect_early s u v hv, hangDetect_reports s u v hv⟩, fun s core u k v hv =>
      ⟨registerLineFill_unasked s core u k, fun p hp hcore hwaits halone hroom hreqs _ =>
        registerLineFill_comes s core u k v hv p hp hcore hwaits halone hroom hreqs⟩⟩
  exact fun s core quad u w hidle hmem heligible hquad hresumed hbounds hbest hlines =>
    runArbitration_begins s core quad u w hidle hmem heligible hquad hresumed hbounds hbest hlines

/-- Settles O45: by its two parts, each event of the waves on its own, and the start of a handler wave. -/
theorem wavesAndHandlers : Obligations.WavesAndHandlers := ⟨waveEvents, handlerStart⟩

end Sys2Proof.Proofs
end

section
/-! PROOFS. The registers of a wave, a team and a context, and the special registers (09 R171, 11 R211 to R214, R226, R227, R232
to R234). -/

namespace Sys2Proof.Machine

/-! ### Bits that are set one after the other -/

/-- A bit that is clear is added without a carry. -/
theorem add_two_pow_eq_or {x i : Nat} (h : bitOf x i = false) : x + 2 ^ i = x ||| 2 ^ i := by
  have hzero : x / 2 ^ i % 2 = 0 := by simpa [bitOf] using h
  have hlow : x % 2 ^ (i + 1) = x % 2 ^ i := by rw [Nat.mod_pow_succ, hzero, Nat.mul_zero, Nat.add_zero]
  have hlt : x % 2 ^ i < 2 ^ i := Nat.mod_lt _ (Nat.two_pow_pos i)
  have hsplit : 2 ^ (i + 1) * (x / 2 ^ (i + 1)) + x % 2 ^ i = x := by rw [← hlow, Nat.div_add_mod]
  have hor := Nat.or_two_pow_eq_add_of_lt hlt
  calc x + 2 ^ i = 2 ^ (i + 1) * (x / 2 ^ (i + 1)) + (x % 2 ^ i ||| 2 ^ i) := by rw [hor, ← Nat.add_assoc, hsplit]
    _ = 2 ^ (i + 1) * (x / 2 ^ (i + 1)) ||| x % 2 ^ i ||| 2 ^ i := by
      rw [Nat.two_pow_add_eq_or_of_lt (by rw [hor, Nat.pow_succ]; omega), Nat.or_assoc]
    _ = x ||| 2 ^ i := by rw [← Nat.two_pow_add_eq_or_of_lt (by rw [Nat.pow_succ]; omega), hsplit]

theorem bitOf_bitSet_true (x i j : Nat) : bitOf (bitSet x i true) j = (bitOf x j || decide (i = j)) := by
  rw [bitSet, if_pos rfl]
  split
  next hset =>
    by_cases hj : i = j
    · rw [← hj, hset, Bool.true_or]
    · rw [decide_eq_false hj, Bool.or_false]
  next hclear =>
    rw [add_two_pow_eq_or (Bool.eq_false_iff.2 hclear), bitOf_eq_testBit, Nat.testBit_or, Nat.testBit_two_pow, bitOf_eq_testBit]

/-! ### Uniform instructions, and one fibre of a group that traps -/

/-- A uniform instruction that touches what executes alone (R146). -/
theorem makes_uniform {s : State} {n : Instr} {i : Iss} {h : Hd} {f len : Nat} {g : Iss → Nat → Exec → Exec}
    (hu : Claim.Uniform s i h f) (he : exec n s = s.onX fun x => x.uniform len h g) : Claim.Makes s n i (g i f s.x) len :=
  makes_of_advance hu.run (by rw [he, State.onX, Exec.uniform_eq hu])

/-- FMTW traps a write of a fixed entry, and of a descriptor that is not valid (R171, R232). -/
def fmtRefused (n d : Nat) : Bool := decide (n < 8) || (decide (d ≠ 0) && !descOk d)

theorem fmtRefused_iff (n : Nat) (d : Word) :
    fmtRefused n d.toNat = true ↔ n < 8 ∨ d ≠ 0 ∧ descOk d.toNat = false := by
  have hzero : d = 0 ↔ d.toNat = 0 := BitVec.toNat_eq
  simp only [fmtRefused, Bool.or_eq_true, decide_eq_true_eq, Bool.and_eq_true, Bool.not_eq_true', ne_eq, hzero]

/-- What executes once an FMTW that is issued for fibre f has queued its write or trapped. -/
def Exec.fmtWrite (x : Exec) (w : OwnI) (i : Iss) (f : Nat) : Exec :=
  if fmtRefused w.m.toNat (x.readW i.u w.s1.toNat).toNat then x.trapAll i [f] cFMTBAD 8
  else x.modTeam i.w.team fun m => { m with fmtw := m.fmtw ++ [(i.u, w.m.toNat, (x.readW i.u w.s1.toNat).toNat)] }

theorem exec_fmtw (s : State) (w : OwnI) :
    exec (.fmtw w) s = s.onX fun x => x.uniform 8 w.h fun i f x => x.fmtWrite w i f := rfl

/-- One fibre that is masked, as a list of results of which it is the only one. -/
theorem Masks.mixDone {x y : Exec} {i : Iss} {f c len : Nat} {t : Trap} (h : Masks x y i.u f t)
    (ht : t.told = (i.trap c len).told) : MixDone x y i len [f] fun _ => { trap := some c } :=
  .cons_trap List.not_mem_nil rfl ht h
    ⟨fun _ => rfl, fun _ _ _ _ => rfl, fun _ _ _ _ => rfl, fun _ h => absurd h List.not_mem_nil, fun _ _ _ => rfl⟩

/-! ### The grid of a team's waves -/

section
variable {x : Exec} {v : Wave} {m : Team} {g : Grid}

theorem Exec.coreOf_of_teamOf (hm : x.teamOf v = some m) : x.coreOf v = m.core := by
  rw [Exec.coreOf, hm, Option.elim_some]

theorem Exec.determ_of_gridOf (hm : x.teamOf v = some m) (hg : x.gridOf m = some g) : x.determ v = g.determ := by
  rw [Exec.determ, hm, Option.bind_some, hg, Option.elim_some]

theorem Exec.ctxOf_of_gridOf (hm : x.teamOf v = some m) (hg : x.gridOf m = some g) : x.ctxOf v = g.ctx := by
  rw [Exec.ctxOf, hm, Option.bind_some, hg, Option.elim_some]

/-! ### Special registers by number (R211) -/

/-- The special registers that a fibre of a wave reads from its wave, team and grid, below C0 and without those of a handler
fibre's origin (R211). -/
def Exec.plainSpecials (x : Exec) (v : Wave) (m : Team) (g : Grid) : List (Nat × (Nat → Nat)) :=
  [(0x00, fun f => f % 16), (0x01, fun f => f), (0x02, fun _ => v.idx), (0x03, fun _ => m.idx),
    (0x04, fun _ => g.id % 2 ^ 32), (0x05, fun _ => x.rank % 2 ^ 21), (0x06, fun _ => m.core / 168), (0x07, fun _ => m.core),
    (0x08, fun _ => v.quanta),
    (0x09, fun f => if g.determ then v.retired else (Config.freeCycle (x.free + f / 16)).toNat),
    (0x0a, fun _ => if g.determ then Nat.land m.tdone v.obsTags else m.tdone), (0x0b, fun _ => m.status.toNat),
    (0x0e, fun _ => v.handler.elim 0 HandlerInfo.depth), (0x0f, fun _ => m.prio)]

variable {u : Nat} (hv : x.wave? u = some v)
include hv

theorem Exec.special_plain (hm : x.teamOf v = some m) (hg : x.gridOf m = some g) :
    ∀ p ∈ x.plainSpecials v m g, ∀ f, x.special u f p.1 = p.2 f := by
  have hcycle (f : Nat) : x.cycle v f = if g.determ then v.retired else (Config.freeCycle (x.free + f / 16)).toNat := by
    rw [Exec.cycle, Exec.determ_of_gridOf hm hg]
  have hseen : x.seenTags v = if g.determ then Nat.land m.tdone v.obsTags else m.tdone := by
    rw [Exec.seenTags, Exec.determ_of_gridOf hm hg, hm]
    rfl
  simp only [Exec.plainSpecials, List.forall_mem_cons, Exec.special, hv, hm, hg, Option.elim_some, Option.bind_some,
    Exec.coreOf_of_teamOf hm, dieOf, hcycle, hseen, Wave.depth, implies_true, List.not_mem_nil, false_imp_iff, and_self]

/-- A convergence register: its members, its signed members and its sequence number (R211, R224). -/
theorem Exec.special_conv (hm : x.teamOf v = some m) {k : Nat} (hk : k < 8) (f : Nat) :
    x.special u f (0x10 + k) = (m.conv k).toNat := by
  rw [Nat.add_comm, Exec.special, hv]
  simp [hm, show k + 16 < 0x40 by omega]

/-- A sector counter of the context (R93, R211). -/
theorem Exec.special_ctr {c : Ctx} (hc : x.ctxs.find? (x.ctxOf v) = some c) (k f : Nat) :
    x.special u f (0x40 + k) = (c.ctrs.get 0 k).toNat := by
  rw [Nat.add_comm, Exec.special, hv]
  simp [hc]

theorem Exec.fib_org (f : Nat) : (x.fib u f).org = (v.fib f).org := by
  rw [Exec.fib, hv, Option.elim_some]

/-- A fibre without an origin reads no origin and no origin mask (R213). -/
theorem Exec.special_noOrigin {n f : Nat} (hn : n = 0x0c ∨ n = 0x0d) (ho : (v.fib f).org = none) : x.special u f n = 0 := by
  have horg : (x.fib u f).org = none := (Exec.fib_org hv f).trans ho
  rcases hn with rfl | rfl
  · simp only [Exec.special, hv, Exec.origMask, horg]
  · simp only [Exec.special, hv, Exec.originOf, horg]

theorem Exec.special_origMask (f : Nat) : x.special u f 0x0c = x.origMask u f := by
  simp only [Exec.special, hv]

/-- `%origin` of a fibre that serves a fibre of a team's ordinary wave (R213). -/
theorem Exec.special_origin {f : Nat} {o : Nat × Nat} {w : Wave} {r : Trap} (hm : x.teamOf v = some m)
    (ho : (v.fib f).org = some o) (hw : x.wave? o.1 = some w) (hteam : w.team = v.team) (hidx : w.idx < 16)
    (hr : (w.fib o.2).trap = some r) :
    x.special u f 0x0d = originTag r.opnd r.cause m.idx w.idx o.2 r.pc := by
  have horg : (x.fib u f).org = some (o.1, o.2) := (Exec.fib_org hv f).trans ho
  have htrap : (x.fib o.1 o.2).trap = some r := by rw [Exec.fib, hw, Option.elim_some, hr]
  have hteam : x.teamOf w = some m := by rw [Exec.teamOf, hteam, ← hm, Exec.teamOf]
  simp only [Exec.special, hv, Exec.originOf, horg, hw, htrap, hteam, Option.elim_some, Wave.tagIdx, Nat.mod_eq_of_lt hidx]

end

/-- A fibre's mark in the mask of the fibres of an origin wave that are served (R213). -/
def markOrigin (ou n : Nat) (p : Nat × Fib) : Nat :=
  match p.2.org with
  | some (v, j) => if v = ou then bitSet n j true else n
  | none => n

theorem bitOf_markOrigin (ou n j : Nat) (p : Nat × Fib) :
    bitOf (markOrigin ou n p) j = true ↔ bitOf n j = true ∨ p.2.org = some (ou, j) := by
  unfold markOrigin
  split
  next w k horg =>
    split
    next hw => simp [horg, hw, bitOf_bitSet_true]
    next hw => simp [horg, hw]
  next horg => simp [horg]

theorem bitOf_foldl_markOrigin (ou j : Nat) (l : List (Nat × Fib)) (n : Nat) :
    bitOf (l.foldl (markOrigin ou) n) j = true ↔ bitOf n j = true ∨ ∃ p ∈ l, p.2.org = some (ou, j) := by
  induction l generalizing n with
  | nil => simp
  | cons p l ih => rw [List.foldl_cons, ih, bitOf_markOrigin, List.exists_mem_cons_iff, or_assoc]

/-- `%origmask` has the slots of the fibre's own origin wave that unfinished fibres of its wave serve (R213). -/
theorem Exec.bitOf_origMask {x : Exec} {v : Wave} {u f j : Nat} {o : Nat × Nat} (hv : x.wave? u = some v)
    (ho : (v.fib f).org = some o) : bitOf (x.origMask u f) j = true ↔
      ∃ p ∈ v.fibs, p.2.unfinished = true ∧ p.2.org = some (o.1, j) := by
  have horg : (x.fib u f).org = some (o.1, o.2) := (Exec.fib_org hv f).trans ho
  have hmask : x.origMask u f = (v.fibs.filter fun p => p.2.unfinished).foldl (markOrigin o.1) 0 := by
    simp only [Exec.origMask, horg, hv]
    rfl
  have hzero : bitOf 0 j = false := by rw [bitOf_eq_testBit, Nat.zero_testBit]
  simp only [hmask, bitOf_foldl_markOrigin, hzero, Bool.false_eq_true, false_or, List.mem_filter, and_assoc]

/-! ### SRR -/

theorem two_eq_pair (d n : Nat) : Claim.two d (BitVec.ofNat 64 n) = .pair d n := by
  have hlow : (BitVec.ofNat 64 n).setWidth 32 = BitVec.ofNat 32 n := by
    apply BitVec.eq_of_toNat_eq
    simp only [BitVec.toNat_setWidth, BitVec.toNat_ofNat]
    omega
  have hhigh : (BitVec.ofNat 64 n >>> 32).setWidth 32 = BitVec.ofNat 32 (n / 2 ^ 32) := by
    apply BitVec.eq_of_toNat_eq
    simp only [BitVec.toNat_setWidth, BitVec.toNat_ushiftRight, BitVec.toNat_ofNat, Nat.shiftRight_eq_div_pow]
    omega
  rw [Claim.two, hlow, hhigh, Res.pair]

/-- SRR gives each served fibre v of itself: its low 64 bits, or the high ones under the half bit (R211, R214). -/
def ReadsSpecial (s : State) (i : Iss) (w : OwnI) (v : Nat → Nat) : Prop :=
  ∃ t, exec (.srr w) s = .next (if w.m.toNat % 256 = 9 then { t with x := { t.x with free := s.x.free + 8 } } else t) ∧
    Ran s t i 8 w.h fun f => Claim.two w.d.toNat (BitVec.ofNat 64 (if w.m.getLsbD 8 then v f / 2 ^ 64 else v f))

/-- What SRR makes of a fibre, and of what executes. -/
def Exec.srrRes (x : Exec) (w : OwnI) (i : Iss) (f : Nat) : Res :=
  .pair w.d.toNat (if bitOf w.m.toNat 8 then x.special i.u f (w.m.toNat % 256) / 2 ^ 64 else x.special i.u f (w.m.toNat % 256))

theorem exec_srr (s : State) (w : OwnI) :
    let y := s.x.perFibre 8 w.h (pairRegs w.d.toNat) (s.x.srrRes w)
    exec (.srr w) s = .next { s with x := if w.m.toNat % 256 = 9 then { y with free := y.free + 8 } else y } := rfl

theorem Exec.srrRes_eq (x : Exec) (w : OwnI) (i : Iss) (f : Nat) : x.srrRes w i f = Claim.two w.d.toNat (BitVec.ofNat 64
    (if w.m.getLsbD 8 then x.special i.u f (w.m.toNat % 256) / 2 ^ 64 else x.special i.u f (w.m.toNat % 256))) := by
  rw [two_eq_pair, Exec.srrRes, show bitOf w.m.toNat 8 = w.m.getLsbD 8 from bitOf_eq_testBit ..]

section
variable {s : State} {i : Iss} {w : OwnI} (hs : Claim.Issues s i) (hb : Claim.InBudget s i w.h (pairRegs w.d.toNat))
include hs hb

theorem readsSpecial : ReadsSpecial s i w fun f => s.x.special i.u f (w.m.toNat % 256) := by
  have hran := Exec.perFibre_ran s i 8 w.h (pairRegs w.d.toNat) (s.x.srrRes w) hs.run hs.wins hb fun _ _ => rfl
  have hfree : (s.x.perFibre 8 w.h (pairRegs w.d.toNat) (s.x.srrRes w)).free = s.x.free := (congrArg Exec.free hran.rest :)
  refine ⟨_, ?_, hran.congr fun f _ => s.x.srrRes_eq w i f⟩
  rw [exec_srr, hfree]
  split <;> rfl

/-- What SRR reads is told by the values of the special register in the served fibres. -/
theorem readsSpecial_of_eq {v : Nat → Nat} (hv : ∀ f ∈ i.served w.h, s.x.special i.u f (w.m.toNat % 256) = v f) :
    ReadsSpecial s i w v := by
  obtain ⟨t, hexec, hran⟩ := readsSpecial hs hb
  exact ⟨t, hexec, hran.congr fun f hf => by simp only [hv f hf]⟩

end

end Sys2Proof.Machine

namespace Sys2Proof.Proofs

open Sys2Proof.Machine Sys2Proof.Claim

/-- One fibre of a group traps, and the others go on (R335). -/
theorem trapped_takeTrap {s : State} {i : Iss} {f : Nat} (hi : s.x.issue? = some i) (hf : (i.w.fib f).wins = []) (c len : Nat) :
    Trapped s { s with x := (s.x.takeTrap i.u f (i.trap c len)).advance i len } i [f] c 0 len := by
  have hw := (Exec.issue?_spec hi).2.1
  obtain ⟨r, hr, hmasks⟩ := Exec.masks_takeTrap (x := s.x) (u := i.u) (f := f) (by rw [hw]; rfl)
    (by rw [Exec.fib, hw]; exact hf) (i.trap c len)
  have hmix := hmasks.mixDone hr
  refine ⟨rfl, rfl, fun u => ?_, fun u a k => ?_, fun u a k => ?_, fun g hg => ?_, fun u g hg => ?_⟩
  · exact (Exec.bare_advance ..).trans (hmasks.bare u)
  · exact (Exec.slotReg_advance ..).trans (hmasks.regs u a k)
  · exact (Exec.slotPois_advance ..).trans (hmasks.pois u a k)
  · obtain ⟨t, ht, hfib⟩ := fib_advance_trapped hi hmix hg rfl
    simp only [Trap.told, Iss.trap, Trap.mk.injEq] at ht
    obtain ⟨hcause, hopnd, hlen, -, hpc, -, hserved, -, -⟩ := ht
    exact ⟨t, congrArg Fib.trap hfib, hcause, hopnd, hlen, hpc, hserved, hfib⟩
  · exact fib_advance_mixDone hi hmix fun k => hg.elim (fun hne => hne k.1) fun hout => hout k.2.1

theorem specialReads : SpecialReads := fun _ _ _ hs hb => readsSpecial hs hb

/-- SRR names a special register (R210, R211). -/
theorem srr_illFormed {w : OwnI} (h : 0x17 < w.m.toNat % 256 ∧ w.m.toNat % 256 < 0x40 ∨ 0x5f < w.m.toNat % 256) :
    (Instr.srr w).wellFormed = false := by
  have hlisted : srListed (w.m.toNat % 256) = false := by
    simp only [srListed, Bool.or_eq_false_iff, decide_eq_false_iff_not]
    omega
  have hform : (Instr.srr w).wellFormed = (w.fieldsOk .v2 .z .z .z && mSrr w) := rfl
  rw [hform, mSrr, hlisted, Bool.and_false, Bool.false_and, Bool.and_false]

/-- SRW names `%tstatus` or a sector counter (R214). -/
theorem srw_illFormed {w : OwnI} (hm : w.m ≠ 0x0b) (h : w.m.toNat < 0x40 ∨ 0x5f < w.m.toNat) :
    (Instr.srw w).wellFormed = false := by
  have hstatus : w.m.toNat ≠ 0x0b := fun e => hm (BitVec.eq_of_toNat_eq e)
  have hnumber : mSrw w = false := by
    simp only [mSrw, Bool.or_eq_false_iff, decide_eq_false_iff_not]
    omega
  have hform : (Instr.srw w).wellFormed = (w.fieldsOk .z .wp .z .z && mSrw w) := rfl
  rw [hform, hnumber, Bool.and_false]

theorem specialValues : SpecialValues := by
  refine ⟨fun w => ⟨srr_illFormed, srw_illFormed⟩, ?_⟩
  intro s i w m g c hs hb hm hg hc n reads
  have hv := (Exec.issue?_spec hs.run).2.1
  refine ⟨fun p hp hn => readsSpecial_of_eq hs hb fun f _ => ?_, fun k hk hn => readsSpecial_of_eq hs hb fun f _ => ?_,
    fun k hk hn => readsSpecial_of_eq hs hb fun f _ => ?_, fun hn hnone => readsSpecial_of_eq hs hb fun f hf => ?_,
    fun org v r hserves => ⟨fun hn => readsSpecial_of_eq hs hb fun f hf => ?_, fun hn =>
      ⟨_, readsSpecial hs hb, fun f hf j => ?_⟩⟩⟩
  · rw [show w.m.toNat % 256 = p.1 from hn]
    exact Exec.special_plain hv hm hg p hp f
  · rw [show w.m.toNat % 256 = 0x10 + k from hn]
    exact Exec.special_conv hv hm hk f
  · rw [show w.m.toNat % 256 = 0x40 + k from hn]
    exact Exec.special_ctr hv (by rw [Exec.ctxOf_of_gridOf hm hg]; exact hc) k f
  · exact Exec.special_noOrigin hv hn (hnone f hf)
  · obtain ⟨horg, hwave, hteam, -, hidx, htrap⟩ := hserves f hf
    rw [show w.m.toNat % 256 = 0x0d from hn]
    exact Exec.special_origin hv hm horg hwave hteam hidx htrap
  · rw [show w.m.toNat % 256 = 0x0c from hn, Exec.special_origMask hv]
    exact Exec.bitOf_origMask hv (hserves f hf).1

section
variable {s : State} {i : Iss} {w : OwnI} {f : Nat} (hu : Uniform s i w.h f)
include hu

theorem makes_setprio {m : Team} {g : Grid} (hm : s.x.teamOf i.w = some m) (hg : s.x.gridOf m = some g) :
    Makes s (.setprio w) i (s.x.modTeam i.w.team fun m => { m with prio := min w.m.toNat (g.byte 44) }) 8 := by
  have hprio := makes_uniform (n := .setprio w) hu rfl
  simpa only [hm, Option.bind_some, hg, Option.elim_some] using hprio

theorem makes_fmtw (hn : 8 ≤ w.m.toNat)
    (hv : s.x.readW i.u w.s1.toNat = 0 ∨ descOk (s.x.readW i.u w.s1.toNat).toNat = true) :
    Makes s (.fmtw w) i (s.x.modTeam i.w.team fun m =>
      { m with fmtw := m.fmtw ++ [(i.u, w.m.toNat, (s.x.readW i.u w.s1.toNat).toNat)] }) 8 := by
  have hok : ¬ fmtRefused w.m.toNat (s.x.readW i.u w.s1.toNat).toNat = true := fun h => by
    rcases (fmtRefused_iff ..).1 h with hlow | ⟨hne, hbad⟩
    · omega
    · exact hv.elim hne fun hdesc => Bool.false_ne_true (hbad.symm.trans hdesc)
  have hqueued := makes_uniform hu (exec_fmtw s w)
  rwa [Exec.fmtWrite, if_neg hok] at hqueued

/-- FMTW of a fixed entry, or of a descriptor that is not valid, traps the lowest fibre (R171, R232). -/
theorem fmtw_trapped (hbad : w.m.toNat < 8 ∨ s.x.readW i.u w.s1.toNat ≠ 0 ∧ descOk (s.x.readW i.u w.s1.toNat).toNat = false)
    (hwins : (i.w.fib f).wins = []) : ∃ t, Machine.exec (.fmtw w) s = .next t ∧ Trapped s t i [f] cFMTBAD 0 8 := by
  have hexec : exec (.fmtw w) s = .next { s with x := (s.x.takeTrap i.u f (i.trap cFMTBAD 8)).advance i 8 } := by
    rw [exec_fmtw, State.onX, Exec.uniform_eq hu, Exec.fmtWrite, if_pos ((fmtRefused_iff ..).2 hbad)]
    rfl
  exact ⟨_, hexec, trapped_takeTrap hu.run hwins cFMTBAD 8⟩

theorem makes_srw_status (hm : w.m = 0x0b) : Makes s (.srw w) i (s.x.modTeam i.w.team fun m =>
    { m with status := m.status &&& ~~~ (s.x.readW i.u w.s1.toNat &&& 0x3f) }) 8 := by
  have hclears := makes_uniform (n := .srw w) hu rfl
  have hn : w.m.toNat = 0x0b := congrArg BitVec.toNat hm
  simpa only [hn, if_true] using hclears

theorem makes_srw_ctr (hn : 0x40 ≤ w.m.toNat) : Makes s (.srw w) i (s.x.modCtx (s.x.ctxOf i.w) fun c =>
    { c with ctrs := c.ctrs.put 0 (w.m.toNat - 0x40) (BitVec.ofNat 64 (s.x.readW2 i.u w.s1.toNat)) }) 8 := by
  have hsets := makes_uniform (n := .srw w) hu rfl
  have hn : w.m.toNat ≠ 0x0b := by omega
  simpa only [hn, if_false] using hsets

end

theorem uniformRegisters : UniformRegisters := by
  refine ⟨fun s i w hi => makes_whole (n := .yield w) hi rfl, ?_⟩
  intro s i w f hu v
  exact ⟨fun m g => makes_setprio hu, makes_fmtw hu, fmtw_trapped hu, makes_uniform (n := .fmtr w) hu rfl, makes_srw_status hu,
    makes_srw_ctr hu, makes_uniform (n := .hmov w) hu rfl⟩

/-- Settles O19: by its three parts, on instructions that change one register, on SRR, and on the values that it reads. -/
theorem registers : Obligations.Registers := ⟨uniformRegisters, specialReads, specialValues⟩

end Sys2Proof.Proofs
end

section
/-! PROOFS. Every well-formed instruction decodes from its own bytes, and words written out from the encoding tables
(10 R186 to R195, R200). -/

namespace Sys2Proof.Laws

/-! ### The bytes of a pattern (R186) -/

theorem length_leList (n x : Nat) : (leList n x).length = n := by
  induction n generalizing x with
  | zero => rfl
  | succ n ih => rw [leList, List.length_cons, ih]

theorem leVal_leList (n x : Nat) : leVal (leList n x) = x % 256 ^ n := by
  induction n generalizing x with
  | zero => simp [leList, leVal, Nat.mod_one]
  | succ n ih => rw [leList, leVal, ih, BitVec.toNat_ofNat, Nat.pow_succ' (m := 256), Nat.mod_mul]

theorem take_leList {k n : Nat} (h : k ≤ n) (x : Nat) : (leList n x).take k = leList k x := by
  induction k generalizing n x with
  | zero => rfl
  | succ k ih =>
    obtain ⟨m, rfl⟩ : ∃ m, n = m + 1 := ⟨n - 1, by omega⟩
    rw [leList, leList, List.take_succ_cons, ih (by omega)]

/-- The length of an instruction is told by its first halfword alone (R186). -/
theorem lenOf_mod (x : Nat) : lenOf (x % 256 ^ 2) = lenOf x := by
  have h2 : x % 256 ^ 2 % 2 = x % 2 := by omega
  have h4 : x % 256 ^ 2 % 4 = x % 4 := by omega
  rw [lenOf, lenOf, h2, h4]

theorem two_le_lenOf (x : Nat) : 2 ≤ lenOf x := by
  unfold lenOf
  split
  · exact le_rfl
  · split <;> decide

/-- The bytes of a pattern of its own length, whatever follows them, are decoded as that pattern (R186, R200). -/
theorem decode_leList (d : BitVec 512) {n x : Nat} (hn : lenOf x = n) (hx : x < 256 ^ n) (l : List Byte) :
    decode d (leList n x ++ l) = fateOf d (ofRaw n x) n x := by
  have htwo : 2 ≤ n := hn ▸ two_le_lenOf x
  have htake : ∀ k ≤ n, (leList n x ++ l).take k = leList k x := fun k hk => by
    rw [List.take_append_of_le_length (by rw [length_leList]; exact hk), take_leList hk]
  have hlen : ¬ (leList n x ++ l).length < n := by
    rw [List.length_append, length_leList]
    omega
  have hshort : ¬ (leList n x ++ l).length < 2 := fun h => hlen (h.trans_le htwo)
  have hfirst : lenOf (leVal ((leList n x ++ l).take 2)) = n := by rw [htake 2 htwo, leVal_leList, lenOf_mod, hn]
  simp only [decode, if_neg hshort, hfirst, if_neg hlen, htake n le_rfl, leVal_leList, Nat.mod_eq_of_lt hx]

/-! ### Instructions that have an encoding -/

/-- Each instruction is read back from its pattern, if it has one: one row of the encoding tables each (R187, R189, R195),
and the steps of devices and the host, which have none. -/
theorem RoundTrip.statement (i : Instr) : RoundTrip.Statement i := by
  cases i with
  | nop w => exact RoundTrip.nop w | bra w => exact RoundTrip.bra w | brp w => exact RoundTrip.brp w
  | brx w => exact RoundTrip.brx w | call w => exact RoundTrip.call w | callx w => exact RoundTrip.callx w
  | ret w => exact RoundTrip.ret w | loopw w => exact RoundTrip.loopw w | fspawn w => exact RoundTrip.fspawn w
  | fquit w => exact RoundTrip.fquit w | rejoin w => exact RoundTrip.rejoin w | yield w => exact RoundTrip.yield w
  | attach w => exact RoundTrip.attach w | detach w => exact RoundTrip.detach w | bararv w => exact RoundTrip.bararv w
  | barwt w => exact RoundTrip.barwt w | barsyn w => exact RoundTrip.barsyn w | gridbar w => exact RoundTrip.gridbar w
  | cvset w => exact RoundTrip.cvset w | hwait w => exact RoundTrip.hwait w | htest w => exact RoundTrip.htest w
  | hcancel w => exact RoundTrip.hcancel w | hmov w => exact RoundTrip.hmov w | fence w => exact RoundTrip.fence w
  | qsync w => exact RoundTrip.qsync w | sleepw w => exact RoundTrip.sleepw w | iadd w => exact RoundTrip.iadd w
  | isub w => exact RoundTrip.isub w | iaddc w => exact RoundTrip.iaddc w | isubb w => exact RoundTrip.isubb w
  | imul w => exact RoundTrip.imul w | imulh w => exact RoundTrip.imulh w | imulhu w => exact RoundTrip.imulhu w
  | imad w => exact RoundTrip.imad w | iadd64 w => exact RoundTrip.iadd64 w | imad64 w => exact RoundTrip.imad64 w
  | idiv w => exact RoundTrip.idiv w | idivu w => exact RoundTrip.idivu w | irem w => exact RoundTrip.irem w
  | iremu w => exact RoundTrip.iremu w | imin w => exact RoundTrip.imin w | imax w => exact RoundTrip.imax w
  | iminu w => exact RoundTrip.iminu w | imaxu w => exact RoundTrip.imaxu w | iabs w => exact RoundTrip.iabs w
  | ineg w => exact RoundTrip.ineg w | iand w => exact RoundTrip.iand w | ior w => exact RoundTrip.ior w
  | ixor w => exact RoundTrip.ixor w | inot w => exact RoundTrip.inot w | iandn w => exact RoundTrip.iandn w
  | shl w => exact RoundTrip.shl w | shr w => exact RoundTrip.shr w | sar w => exact RoundTrip.sar w
  | rol w => exact RoundTrip.rol w | ror w => exact RoundTrip.ror w | shl64 w => exact RoundTrip.shl64 w
  | shr64 w => exact RoundTrip.shr64 w | popc w => exact RoundTrip.popc w | clz w => exact RoundTrip.clz w
  | ctz w => exact RoundTrip.ctz w | brev w => exact RoundTrip.brev w | bfe w => exact RoundTrip.bfe w
  | bfi w => exact RoundTrip.bfi w | perm w => exact RoundTrip.perm w | isel w => exact RoundTrip.isel w
  | icmp w => exact RoundTrip.icmp w | mov w => exact RoundTrip.mov w | movi w => exact RoundTrip.movi w
  | wmov w => exact RoundTrip.wmov w | lea w => exact RoundTrip.lea w | iadds w => exact RoundTrip.iadds w
  | shfl w => exact RoundTrip.shfl w | shflup w => exact RoundTrip.shflup w | shfldn w => exact RoundTrip.shfldn w
  | shflx w => exact RoundTrip.shflx w | vote w => exact RoundTrip.vote w | wredi w => exact RoundTrip.wredi w
  | wredf w => exact RoundTrip.wredf w | wscan w => exact RoundTrip.wscan w | wargx w => exact RoundTrip.wargx w
  | plop w => exact RoundTrip.plop w | pmov w => exact RoundTrip.pmov w | cvtf w => exact RoundTrip.cvtf w
  | cvtfi w => exact RoundTrip.cvtfi w | cvtif w => exact RoundTrip.cvtif w | pack w => exact RoundTrip.pack w
  | unpack w => exact RoundTrip.unpack w | srseed w => exact RoundTrip.srseed w | srdraw w => exact RoundTrip.srdraw w
  | fadd w => exact RoundTrip.fadd w | fsub w => exact RoundTrip.fsub w | fmul w => exact RoundTrip.fmul w
  | ffma w => exact RoundTrip.ffma w | fmin w => exact RoundTrip.fmin w | fmax w => exact RoundTrip.fmax w
  | fcmp w => exact RoundTrip.fcmp w | fsel w => exact RoundTrip.fsel w | frcp w => exact RoundTrip.frcp w
  | frsq w => exact RoundTrip.frsq w | fsqrt w => exact RoundTrip.fsqrt w | fdiv w => exact RoundTrip.fdiv w
  | fexp2 w => exact RoundTrip.fexp2 w | flog2 w => exact RoundTrip.flog2 w | fsinr w => exact RoundTrip.fsinr w
  | fcosr w => exact RoundTrip.fcosr w | ftanh w => exact RoundTrip.ftanh w | fclass w => exact RoundTrip.fclass w
  | fscale w => exact RoundTrip.fscale w | frint w => exact RoundTrip.frint w | hadd2 w => exact RoundTrip.hadd2 w
  | hmul2 w => exact RoundTrip.hmul2 w | hfma2 w => exact RoundTrip.hfma2 w | addx w => exact RoundTrip.addx w
  | subx w => exact RoundTrip.subx w | mulx w => exact RoundTrip.mulx w | fmae w => exact RoundTrip.fmae w
  | fastx w => exact RoundTrip.fastx w | xadd w => exact RoundTrip.xadd w | xsub w => exact RoundTrip.xsub w
  | xmul w => exact RoundTrip.xmul w | xfma w => exact RoundTrip.xfma w | xren w => exact RoundTrip.xren w
  | xcpr w => exact RoundTrip.xcpr w | xcmp w => exact RoundTrip.xcmp w | xsplit w => exact RoundTrip.xsplit w
  | xtof w => exact RoundTrip.xtof w | xacc w => exact RoundTrip.xacc w | ldb w => exact RoundTrip.ldb w
  | stb w => exact RoundTrip.stb w | ldl w => exact RoundTrip.ldl w | stl w => exact RoundTrip.stl w
  | ldw w => exact RoundTrip.ldw w | atb w => exact RoundTrip.atb w | atbf w => exact RoundTrip.atbf w
  | atbc w => exact RoundTrip.atbc w | casb w => exact RoundTrip.casb w | atl w => exact RoundTrip.atl w
  | casl w => exact RoundTrip.casl w | ldsq w => exact RoundTrip.ldsq w | pref w => exact RoundTrip.pref w
  | cwb w => exact RoundTrip.cwb w | cinv w => exact RoundTrip.cinv w | rhnew w => exact RoundTrip.rhnew w
  | rhset w => exact RoundTrip.rhset w | rhdemote w => exact RoundTrip.rhdemote w | rhevict w => exact RoundTrip.rhevict w
  | rhfree w => exact RoundTrip.rhfree w | cpa w => exact RoundTrip.cpa w | cps w => exact RoundTrip.cps w
  | cpl w => exact RoundTrip.cpl w | tagwall w => exact RoundTrip.tagwall w | tagwany w => exact RoundTrip.tagwany w
  | tagffr w => exact RoundTrip.tagffr w | tagclr w => exact RoundTrip.tagclr w | tbinit w => exact RoundTrip.tbinit w
  | tbexp w => exact RoundTrip.tbexp w | tbarv w => exact RoundTrip.tbarv w | tbwait w => exact RoundTrip.tbwait w
  | msend w => exact RoundTrip.msend w | mpost w => exact RoundTrip.mpost w | mprobe w => exact RoundTrip.mprobe w
  | mcancel w => exact RoundTrip.mcancel w | nmcmd w => exact RoundTrip.nmcmd w | nmfence w => exact RoundTrip.nmfence w
  | coll w => exact RoundTrip.coll w | mma w => exact RoundTrip.mma w | mmar w => exact RoundTrip.mmar w
  | mmd w => exact RoundTrip.mmd w | mmlr w => exact RoundTrip.mmlr w | tzero w => exact RoundTrip.tzero w
  | tload w => exact RoundTrip.tload w | tstore w => exact RoundTrip.tstore w | tread w => exact RoundTrip.tread w
  | tnew w => exact RoundTrip.tnew w | tfree w => exact RoundTrip.tfree w | tstat w => exact RoundTrip.tstat w
  | sscfg w => exact RoundTrip.sscfg w | scan w => exact RoundTrip.scan w | srr w => exact RoundTrip.srr w
  | srw w => exact RoundTrip.srw w | trap w => exact RoundTrip.trap w | eret w => exact RoundTrip.eret w
  | emopr w => exact RoundTrip.emopr w | emopw w => exact RoundTrip.emopw w | emret w => exact RoundTrip.emret w
  | icinv w => exact RoundTrip.icinv w | fetchb w => exact RoundTrip.fetchb w | fmtw w => exact RoundTrip.fmtw w
  | fmtr w => exact RoundTrip.fmtr w | setprio w => exact RoundTrip.setprio w | brk w => exact RoundTrip.brk w
  | halt w => exact RoundTrip.halt w | mov16 w => exact RoundTrip.mov16 w | movi16 w => exact RoundTrip.movi16 w
  | iadd16 w => exact RoundTrip.iadd16 w | isub16 w => exact RoundTrip.isub16 w | imul16 w => exact RoundTrip.imul16 w
  | iand16 w => exact RoundTrip.iand16 w | ior16 w => exact RoundTrip.ior16 w | ixor16 w => exact RoundTrip.ixor16 w
  | shl16 w => exact RoundTrip.shl16 w | shr16 w => exact RoundTrip.shr16 w | sar16 w => exact RoundTrip.sar16 w
  | imin16 w => exact RoundTrip.imin16 w | imax16 w => exact RoundTrip.imax16 w | fadd16 w => exact RoundTrip.fadd16 w
  | fsub16 w => exact RoundTrip.fsub16 w | fmul16 w => exact RoundTrip.fmul16 w | fmax16 w => exact RoundTrip.fmax16 w
  | nopC w => exact RoundTrip.nopC w | braC w => exact RoundTrip.braC w | brpC w => exact RoundTrip.brpC w
  | movC w => exact RoundTrip.movC w | iaddC w => exact RoundTrip.iaddC w | isubC w => exact RoundTrip.isubC w
  | imulC w => exact RoundTrip.imulC w | iandC w => exact RoundTrip.iandC w | iorC w => exact RoundTrip.iorC w
  | ixorC w => exact RoundTrip.ixorC w | shlC w => exact RoundTrip.shlC w | shrC w => exact RoundTrip.shrC w
  | sarC w => exact RoundTrip.sarC w | iminC w => exact RoundTrip.iminC w | imaxC w => exact RoundTrip.imaxC w
  | iaddCi w => exact RoundTrip.iaddCi w | shlCi w => exact RoundTrip.shlCi w | shrCi w => exact RoundTrip.shrCi w
  | sarCi w => exact RoundTrip.sarCi w | iandCi w => exact RoundTrip.iandCi w | moviC w => exact RoundTrip.moviC w
  | faddC w => exact RoundTrip.faddC w | fsubC w => exact RoundTrip.fsubC w | fmulC w => exact RoundTrip.fmulC w
  | fminC w => exact RoundTrip.fminC w | fmaxC w => exact RoundTrip.fmaxC w | ffmaC w => exact RoundTrip.ffmaC w
  | addxC w => exact RoundTrip.addxC w | mulxC w => exact RoundTrip.mulxC w | hadd2C w => exact RoundTrip.hadd2C w
  | hmul2C w => exact RoundTrip.hmul2C w | hfma2C w => exact RoundTrip.hfma2C w | shflC w => exact RoundTrip.shflC w
  | shflxC w => exact RoundTrip.shflxC w | ldlC w => exact RoundTrip.ldlC w | stlC w => exact RoundTrip.stlC w
  | wmovC w => exact RoundTrip.wmovC w | iaddCw w => exact RoundTrip.iaddCw w | isubCw w => exact RoundTrip.isubCw w
  | imulCw w => exact RoundTrip.imulCw w | iandCw w => exact RoundTrip.iandCw w | iorCw w => exact RoundTrip.iorCw w
  | shlCw w => exact RoundTrip.shlCw w | shrCw w => exact RoundTrip.shrCw w
  | _ => trivial

theorem RoundTrip.of_encode {i : Instr} {x n : Nat} (h : encode i = some (x, n)) :
    lenOf x = n ∧ x < 256 ^ n ∧ ofRaw n x = some i := by
  have hrow := RoundTrip.statement i
  rw [RoundTrip.Statement, h] at hrow
  exact hrow

theorem encodeBytes_of_encode {i : Instr} {x n : Nat} (h : encode i = some (x, n)) : encodeBytes i = leList n x := by
  rw [encodeBytes, h]

theorem fateOf_wellFormed {d : BitVec 512} {i : Instr} (hd : d.getLsbD i.major = false) (hw : i.wellFormed = true)
    (n x : Nat) : fateOf d (some i) n x = .instr i n := by
  simp only [fateOf, hd, hw, Bool.false_eq_true, if_false, if_true]

theorem fateOf_reserved {d : BitVec 512} {i : Instr} (hd : d.getLsbD i.major = false) (hw : i.wellFormed = false)
    (n x : Nat) : fateOf d (some i) n x = .emulate .rsvfield n x := by
  simp only [fateOf, hd, hw, Bool.false_eq_true, if_false]

theorem fateOf_disabled {d : BitVec 512} {i : Instr} (hd : d.getLsbD i.major = true) (n x : Nat) :
    fateOf d (some i) n x = .emulate .disabledop n x := by
  simp only [fateOf, hd, if_true]

/-- A well-formed instruction whose major is not disabled decodes from the bytes of its pattern. -/
theorem decode_of_encode {d : BitVec 512} {i : Instr} {x n : Nat} (h : encode i = some (x, n)) (hw : i.wellFormed = true)
    (hd : d.getLsbD i.major = false) (l : List Byte) : decode d (leList n x ++ l) = .instr i n := by
  obtain ⟨hn, hx, hraw⟩ := RoundTrip.of_encode h
  rw [decode_leList d hn hx, hraw, fateOf_wellFormed hd hw]

end Sys2Proof.Laws

namespace Sys2Proof.Proofs

open Sys2Proof.Laws

/-- Settles O57: a pattern's bytes decode as the pattern, and each instruction is what its pattern stands for. -/
theorem roundTrip : Obligations.RoundTrip := by
  intro d i x n l henc hw hd
  rw [encodeBytes_of_encode henc]
  exact ⟨length_leList n x, decode_of_encode henc hw hd l⟩

/-- Settles O56: each word is the pattern of a well-formed instruction, but the last three, whose fates R200 names. -/
theorem decodeWords : Obligations.DecodeWords := by
  have henabled : ∀ k, (0 : BitVec 512).getLsbD k = false := fun _ => BitVec.getLsbD_zero
  have hword : ∀ {n x : Nat} {i : Instr}, encode i = some (x, n) ∧ i.wellFormed = true →
      ∀ l, decode 0 (leList n x ++ l) = .instr i n :=
    fun h => decode_of_encode h.1 h.2 (henabled _)
  constructor
  · simp only [List.forall_mem_cons]
    refine ⟨?_, ?_, ?_, ?_, ?_, ?_, ?_, ?_, ?_, ?_, ?_, ?_, ?_, fun _ h => absurd h List.not_mem_nil⟩ <;>
      exact hword ⟨rfl, rfl⟩
  · intro l
    have hreserved : ofRaw 4 0x201 = some (.nopC ⟨false, 1⟩) := rfl
    have hunassigned : ofRaw 8 0x70853 = none := rfl
    have hassigned : ofRaw 2 0x408 = some (.iand16 ⟨false, 1, 0⟩) := rfl
    have hmajor : Instr.major (.iand16 ⟨false, 1, 0⟩) = 0x54 := rfl
    have hdisabled : (1 <<< 0x54 : BitVec 512).getLsbD 0x54 = true := by simp
    refine ⟨?_, ?_, ?_⟩
    · rw [decode_leList 0 (by decide) (by decide), hreserved]
      exact fateOf_reserved (henabled _) rfl 4 0x201
    · rw [decode_leList 0 (by decide) (by decide), hunassigned, fateOf]
    · rw [decode_leList _ (by decide) (by decide), hassigned]
      exact fateOf_disabled (by rw [hmajor, hdisabled]) 2 0x408

end Sys2Proof.Proofs
end

section
/-! PROOFS. Per-fibre instructions none of whose fibres traps, and the integer operations on words that the model computes
on numbers (12 R236 to R240). -/

namespace Sys2Proof.Machine

section
variable {s : State} {n : Instr} {i : Iss}

/-! ### Results of a whole group -/

/-- A per-fibre instruction within its budget, each of whose served fibres makes a result without a trap. -/
theorem runsAs_perFibre {len : Nat} {h : Hd} {named : List Nat} {g : Iss → Nat → Res} {r : Nat → Res}
    (hs : Claim.Issues s i) (hb : Claim.InBudget s i h named)
    (he : exec n s = .next { s with x := s.x.perFibre len h named g }) (hr : ∀ f ∈ i.served h, g i f = r f)
    (ht : ∀ f, (r f).trap = none) : Claim.RunsAs s n i len h r :=
  ⟨_, he, (Exec.perFibre_ran s i len h named g hs.run hs.wins hb fun f hf => (hr f hf).symm ▸ ht f).congr hr⟩

variable {o : Opnds} {a b c : Nat → Word}

/-- Two sources that are read make a result of their values. -/
theorem orPoison_ab (hab : Claim.Sources s i o a b) (g : Nat × Nat → Res) {f : Nat} (hf : f ∈ i.served o.h) :
    orPoison (s.x.ab i f o) g = g ((a f).toNat, (b f).toNat) := by
  rw [hab f hf]
  rfl

theorem orPoison_register {h : Hd} {k : Nat} (hc : Claim.Register s i h k c) (g : Nat → Res) {f : Nat} (hf : f ∈ i.served h) :
    orPoison (s.x.operand i f (.v k)) g = g (c f).toNat := by
  rw [Exec.operand, hc f hf]
  rfl

/-- The model's g computes p on the numbers of words. -/
def Computes (g : Nat → Nat → Nat) (p : Word → Word → Word) : Prop := ∀ a b : Word, g a.toNat b.toNat = (p a b).toNat

theorem word_toNat (d : Nat) (v : Word) : Res.word d v.toNat = Claim.one d v := by
  rw [Res.word, BitVec.ofNat_toNat, BitVec.setWidth_eq, Claim.one]

/-- Two sources, one destination word. -/
theorem runsAs_alu2 (hs : Claim.Issues s i) (hb : Claim.InBudget s i o.h o.named) (hab : Claim.Sources s i o a b)
    {g : Nat → Nat → Nat} {p : Word → Word → Word} (hp : Computes g p) (he : exec n s = s.onX fun x => x.alu2 o g) :
    Claim.RunsAs s n i o.len o.h fun f => Claim.one o.d (p (a f) (b f)) :=
  runsAs_perFibre hs hb he (fun f hf => by rw [orPoison_ab hab _ hf, hp, word_toNat]) fun _ => rfl

/-- One source, copied to the destination. -/
theorem runsAs_move (hs : Claim.Issues s i) (hb : Claim.InBudget s i o.h (o.d :: o.s1.regs)) (ha : Claim.Source s i o a)
    (he : exec n s = s.onX fun x => x.alu1 o id) : Claim.RunsAs s n i o.len o.h fun f => Claim.one o.d (a f) :=
  runsAs_perFibre hs hb he (fun f hf => by rw [ha f hf]; exact word_toNat o.d (a f)) fun _ => rfl

end

/-! ### Operations on words (R240) -/

theorem s32_toNat (a : Word) : s32 a.toNat = a.toInt := by
  rw [s32, ← toInt_ofNat_eq_signed 32 _ (by decide), BitVec.ofNat_toNat, BitVec.setWidth_eq]

theorem wrap_eq (n : Nat) (z : Int) : wrap n z = (BitVec.ofInt n z).toNat := (BitVec.toNat_ofInt ..).symm

theorem wrap_toInt (n : Nat) {k : Nat} (v : BitVec k) : wrap n v.toInt = (v.signExtend n).toNat := wrap_eq n _

theorem computes_vAdd : Computes vAdd fun a b => a + b := fun _ _ => rfl
theorem computes_vSub : Computes vSub fun a b => a - b := fun a b => by
  have hb := b.isLt
  rw [vSub, BitVec.toNat_sub]
  omega
theorem computes_vMul : Computes vMul fun a b => a * b := fun _ _ => rfl
theorem computes_vAnd : Computes vAnd fun a b => a &&& b := fun _ _ => rfl
theorem computes_vOr : Computes vOr fun a b => a ||| b := fun _ _ => rfl
theorem computes_vXor : Computes vXor fun a b => a ^^^ b := fun _ _ => rfl
theorem computes_vShl : Computes vShl fun a b => a <<< b.toNat := fun a b => by
  rw [vShl, BitVec.toNat_shiftLeft, Nat.shiftLeft_eq]
  split
  · rfl
  next h => rw [Nat.mod_eq_zero_of_dvd ((Nat.pow_dvd_pow 2 (by omega)).mul_left _)]
theorem computes_vShr : Computes vShr fun a b => a >>> b.toNat := fun a b => by
  rw [vShr, BitVec.toNat_ushiftRight, Nat.shiftRight_eq_div_pow]
  split
  · rfl
  next h => rw [Nat.div_eq_of_lt (a.isLt.trans_le (Nat.pow_le_pow_right (by decide) (by omega)))]
theorem computes_vSar : Computes vSar fun a b => a.sshiftRight (min b.toNat 31) := fun a b => by
  have hshift : a.toInt >>> min b.toNat 31 = a.toInt / 2 ^ min b.toNat 31 := by
    rw [Int.shiftRight_eq_div_pow]
    norm_cast
  rw [vSar, s32_toNat, wrap_eq, ← hshift]
  rfl
theorem computes_vMin : Computes vMin fun a b => if a.sle b then a else b := fun a b => by
  simp only [vMin, s32_toNat, BitVec.sle, decide_eq_true_eq, apply_ite BitVec.toNat]
theorem computes_vMax : Computes vMax fun a b => if a.sle b then b else a := fun a b => by
  simp only [vMax, s32_toNat, BitVec.sle, decide_eq_true_eq, apply_ite BitVec.toNat]

end Sys2Proof.Machine
end

section
/-! PROOFS. The 16-bit and compact integer instructions (10 R187, R189, 12 R237). -/

namespace Sys2Proof.Machine

/-- A header without a guard serves the whole group (R187, R189). -/
theorem Iss.served_hd0 (i : Iss) : i.served hd0 = i.grp := List.filter_eq_self.2 fun _ _ => rfl

/-- The group of a uniform instruction some of whose fibres have a true guard. -/
theorem exists_uniform {s : State} {i : Iss} {h : Hd} (hi : s.x.issue? = some i) (hne : i.served h ≠ []) :
    ∃ f, Claim.Uniform s i h f :=
  ⟨_, hi, List.head?_eq_some_head hne⟩

/-- A compact W form computes once, on W registers (R189, R237). -/
theorem exec_aluW {s : State} {n : Instr} {i : Iss} {w : CompW} (hi : s.x.issue? = some i) (hne : i.grp ≠ [])
    {g : Nat → Nat → Nat} {p : Word → Word → Word} (hp : Computes g p) (he : exec n s = s.onX fun x => x.aluW w g) :
    exec n s = .next { s with x := (s.x.writeW i.u w.wd.toNat
      (p (s.x.readW i.u w.wa.toNat) (s.x.readW i.u w.wb.toNat))).advance i 4 } := by
  obtain ⟨f, hu⟩ := exists_uniform (h := hd0) hi (by rw [Iss.served_hd0]; exact hne)
  rw [he, State.onX, Exec.aluW, Exec.uniform_eq hu, hp, BitVec.ofNat_toNat, BitVec.setWidth_eq]

end Sys2Proof.Machine

namespace Sys2Proof.Proofs

open Sys2Proof.Machine Sys2Proof.Claim

theorem shortIntegerForms : ShortIntegerForms := by
  refine ⟨fun s i w a b hs hb hab => ?_, fun s i w a b hs hb hab => ?_, fun s i w a hs hb ha => ?_⟩
  · have run : ∀ {n g p}, Computes g p → exec n s = (s.onX fun x => x.alu2 (opndsOf16 w id) g) →
        RunsAs s n i 2 hd0 fun f => one w.d.toNat (p (a f) (b f)) := fun hp he => runsAs_alu2 hs hb hab hp he
    simp only [List.forall_mem_cons]
    exact ⟨run computes_vAdd rfl, run computes_vSub rfl, run computes_vMul rfl, run computes_vAnd rfl, run computes_vOr rfl,
      run computes_vXor rfl, run computes_vShl rfl, run computes_vShr rfl, run computes_vSar rfl, run computes_vMin rfl,
      run computes_vMax rfl, fun _ h => absurd h List.not_mem_nil⟩
  · have run : ∀ {n g p}, Computes g p → exec n s = (s.onX fun x => x.alu2 (opndsOfA w 0 0) g) →
        RunsAs s n i 4 hd0 fun f => one w.vd.toNat (p (a f) (b f)) := fun hp he => runsAs_alu2 hs hb hab hp he
    simp only [List.forall_mem_cons]
    exact ⟨run computes_vAdd rfl, run computes_vSub rfl, run computes_vMul rfl, run computes_vAnd rfl, run computes_vOr rfl,
      run computes_vXor rfl, run computes_vShl rfl, run computes_vShr rfl, run computes_vSar rfl, run computes_vMin rfl,
      run computes_vMax rfl, fun _ h => absurd h List.not_mem_nil⟩
  · have hab : Sources s i (opndsOfI w) a fun _ => w.imm.signExtend 32 := fun f hf => by
      simp only [Exec.ab, opndsOfI, Exec.operandXl, mod0, if_true, ha f hf, Exec.operand, wrap_toInt, Option.map_some]
    have run : ∀ {n g p}, Computes g p → exec n s = (s.onX fun x => x.alu2 (opndsOfI w) g) →
        RunsAs s n i 4 hd0 fun f => one w.vd.toNat (p (a f) (w.imm.signExtend 32)) :=
      fun hp he => runsAs_alu2 hs hb hab hp he
    simp only [List.forall_mem_cons]
    exact ⟨run computes_vAdd rfl, run computes_vShl rfl, run computes_vShr rfl, run computes_vSar rfl, run computes_vAnd rfl,
      fun _ h => absurd h List.not_mem_nil⟩

theorem shortMoves : ShortMoves := by
  intro s i hs
  refine ⟨fun w a hb ha => ?_, fun w hb => ?_, fun w a hb ha => ?_, fun w hb => ?_, fun w hb => ?_⟩
  · exact runsAs_move (o := ⟨2, hd0, mod0 0 0, w.d.toNat, .v w.s.toNat, .none, 0⟩) hs hb
      (fun f hf => congrArg (Option.map BitVec.toNat) (ha f hf)) rfl
  · refine runsAs_move (o := ⟨2, hd0, mod0 0 0, w.d.toNat, .imm w.s.toNat, .none, 0⟩) hs hb (fun f hf => ?_) rfl
    rw [BitVec.toNat_setWidth_of_le (by decide)]
    rfl
  · exact runsAs_move (o := opndsOfA w 0 0) hs hb (fun f hf => congrArg (Option.map BitVec.toNat) (ha f hf)) rfl
  · refine runsAs_perFibre hs hb rfl (fun f hf => ?_) fun _ => rfl
    rw [wrap_toInt, word_toNat]
  · exact runsAs_perFibre hs hb rfl (fun f hf => word_toNat w.vd.toNat _) fun _ => rfl

theorem compactWave : CompactWave := by
  intro s i w hi hne
  simp only [List.forall_mem_cons]
  exact ⟨exec_aluW hi hne computes_vAdd rfl, exec_aluW hi hne computes_vSub rfl, exec_aluW hi hne computes_vMul rfl,
    exec_aluW hi hne computes_vAnd rfl, exec_aluW hi hne computes_vOr rfl, exec_aluW hi hne computes_vShl rfl,
    exec_aluW hi hne computes_vShr rfl, fun _ h => absurd h List.not_mem_nil⟩

/-- Settles O6: each short form is the driver of its length at the operation it names, and each operation on numbers is that
on words. -/
theorem shortInteger : Obligations.ShortInteger := ⟨shortIntegerForms, shortMoves, compactWave⟩

end Sys2Proof.Proofs
end

section
/-! PROOFS. Shuffles and votes (10 R189, 12 R243, R244). -/

namespace Sys2Proof.Machine

/-- A shuffle each of whose served fibres reads its second source and the slot that it names. -/
theorem runsAs_shuffle {s : State} {n : Instr} {i : Iss} {o : Opnds} {k : Nat} {b v : Nat → Word} {slot : Nat → Nat → Nat}
    (hk : o.s1 = .v k) (hs : Claim.Issues s i) (hb : Claim.InBudget s i o.h o.named)
    (hsource : ∀ f ∈ i.served o.h, s.x.operand i f o.s2 = some (b f).toNat)
    (he : exec n s = s.onX fun x => x.shuffle o slot)
    (hread : ∀ f ∈ i.served o.h, s.x.crossRead i (slot f (b f).toNat) k = some (v f)) :
    Claim.RunsAs s n i o.len o.h fun f => Claim.one o.d (v f) :=
  runsAs_perFibre hs hb he (fun f hf => by simp only [hsource f hf, orPoison, hk, hread f hf, word_toNat]) fun _ => rfl

/-- The served fibres whose predicate S1 is true, as a mask with the lowest slot in bit 0 (R244). -/
def Iss.ballot (i : Iss) (w : AluI) : Nat :=
  ((i.served w.h).filter fun f => (i.w.fib f).pred w.s1.toNat).foldl (fun n f => n + 2 ^ f) 0

/-- What VOTE writes where it votes on one predicate: `.all` with S3 = 0, else `.any` (R244). -/
def Iss.voted (i : Iss) (w : AluI) : Bool :=
  if w.s3 = 0 then (i.served w.h).all fun f => (i.w.fib f).pred w.s1.toNat
  else (i.served w.h).any fun f => (i.w.fib f).pred w.s1.toNat

theorem exec_vote (s : State) (w : AluI) : exec (.vote w) s = s.onX fun x =>
    if w.s3 = 2 then x.uniform 8 w.h fun i _ x => (List.range 4).foldl (fun x j =>
      x.writeW i.u (w.d.toNat + j) (BitVec.ofNat 32 (i.ballot w / 2 ^ (32 * j)))) x
    else x.perFibre 8 w.h [] fun i _ => .pred w.d.toNat (i.voted w) := rfl

end Sys2Proof.Machine

namespace Sys2Proof.Proofs

open Sys2Proof.Machine Sys2Proof.Claim

theorem shuffles : Shuffles := by
  intro s i b v hs
  refine ⟨fun w hb hsource => ?_, fun w hb hsource => ?_⟩
  · have run : ∀ {n slot}, exec n s = (s.onX fun x => x.shuffle (opndsOf w) slot) →
        (∀ f ∈ i.served w.h, s.x.crossRead i (slot f (b f).toNat) w.s1.toNat = some (v f)) →
        RunsAs s n i 8 w.h fun f => one w.d.toNat (v f) := fun he => runsAs_shuffle (o := opndsOf w) rfl hs hb hsource he
    simp only [List.forall_mem_cons]
    exact ⟨run (slot := shflSlot) rfl, run (slot := shflxSlot) rfl, run (slot := shflupSlot) rfl, run (slot := shfldnSlot) rfl,
      fun _ h => absurd h List.not_mem_nil⟩
  · have run : ∀ {n slot}, exec n s = (s.onX fun x => x.shuffle (opndsOfA w 0 0) slot) →
        (∀ f ∈ i.served hd0, s.x.crossRead i (slot f (b f).toNat) w.va.toNat = some (v f)) →
        RunsAs s n i 4 hd0 fun f => one w.vd.toNat (v f) := fun he => runsAs_shuffle (o := opndsOfA w 0 0) rfl hs hb
          (fun f hf => congrArg (Option.map BitVec.toNat) (hsource f hf)) he
    simp only [List.forall_mem_cons]
    exact ⟨run (slot := shflSlot) rfl, run (slot := shflxSlot) rfl, fun _ h => absurd h List.not_mem_nil⟩

theorem votes : Votes := by
  intro s i w hs
  have hvote : w.s3 ≠ 2 → RunsAs s (.vote w) i 8 w.h fun _ => flag w.d.toNat (i.voted w) := fun h =>
    runsAs_perFibre hs (fun _ _ => rfl) (by rw [exec_vote, State.onX, if_neg h]) (fun _ _ => rfl) fun _ => rfl
  refine ⟨fun hall => ?_, fun hany => ?_, fun hballot hne => ?_⟩
  · have h := hvote (by rw [hall]; decide)
    rwa [Iss.voted, if_pos hall] at h
  · have h := hvote (by rw [hany]; decide)
    rwa [Iss.voted, if_neg (by rw [hany]; decide)] at h
  · obtain ⟨f, hu⟩ := exists_uniform hs.run hne
    have hrange : List.range 4 = [0, 1, 2, 3] := rfl
    simp only [exec_vote, State.onX, if_pos hballot, Exec.uniform_eq hu, hrange, List.foldl_cons, List.foldl_nil, Nat.mul_zero,
      Nat.pow_zero, Nat.div_one]
    rfl

/-- Settles O7: a shuffle reads the slot that its code names; a vote makes one predicate of the group, and a ballot four words. -/
theorem crossLane : Obligations.CrossLane := ⟨shuffles, votes⟩

end Sys2Proof.Proofs
end

section
/-! PROOFS. Packed halves, and the 16-bit and compact float instructions (10 R187, R189, 13 R257 to R259, R263). -/

namespace Sys2Proof.Machine

theorem fixedFmt_zero : fixedFmt 0 = fp32 := by decide

/-- The short forms compute in FP32, in the mode of their rounding field (R187, R189). -/
theorem wordFmt_mod0 (r : BitVec 2) : wordFmt (mod0 r 0) = fp32 := fixedFmt_zero
theorem Exec.mode_mod0 (x : Exec) (r : BitVec 2) (k : BitVec 4) (u f j : Nat) : x.mode (mod0 r k) u f j = Rm.ofCode r.toNat := rfl

section
variable {s : State} {n : Instr} {i : Iss} {o : Opnds} {a b c : Nat → Word}

theorem inBudget_append {h : Hd} {l k : List Nat} (hl : Claim.InBudget s i h l) (hk : Claim.InBudget s i h k) :
    Claim.InBudget s i h (l ++ k) := fun f hf => by
  rw [Exec.pastBudget, List.any_append]
  exact Bool.or_eq_false_iff.2 ⟨hl f hf, hk f hf⟩

/-- The destination of an instruction is one of the registers that it names. -/
theorem inBudget_dest {h : Hd} (hb : Claim.InBudget s i h o.named) : Claim.InBudget s i h [o.d] := fun f hf => by
  have hd := hb f hf
  simp only [Exec.pastBudget, Opnds.named, List.any_cons, Bool.or_eq_false_iff] at hd
  simp only [Exec.pastBudget, List.any_cons, List.any_nil, hd.1, Bool.or_false]

section
variable (hs : Claim.Issues s i) (hb : Claim.InBudget s i o.h o.named) (hab : Claim.Sources s i o a b)
include hs hb hab

/-- A packed operation of two operands (R263). -/
theorem runsAs_packed2 (g : Rm → XR → XR → XR) (he : exec n s = s.onX fun x => x.packed2 o g) :
    Claim.RunsAs s n i o.len o.h fun f =>
      pack2 (wordFmt o.m) o.d (drawsOf o.m 2) o.m.sat (s.x.mode o.m i.u f) fun m e =>
        g m (value (wordFmt o.m) (half (a f).toNat e)) (value (wordFmt o.m) (half (b f).toNat e)) :=
  runsAs_perFibre hs hb he (fun _ hf => orPoison_ab hab _ hf) fun _ => rfl

/-- HFMA2 (R263). -/
theorem runsAs_packed3 (hb3 : Claim.InBudget s i o.h [o.s3]) (hc : Claim.Register s i o.h o.s3 c)
    (he : exec n s = s.onX fun x => x.packed3 o) : Claim.RunsAs s n i o.len o.h fun f =>
      pack2 (wordFmt o.m) o.d (drawsOf o.m 2) o.m.sat (s.x.mode o.m i.u f) fun m e =>
        fmaX m (value (wordFmt o.m) (half (a f).toNat e)) (value (wordFmt o.m) (half (b f).toNat e))
          (value (wordFmt o.m) (half (c f).toNat e)) :=
  runsAs_perFibre hs (inBudget_append hb hb3) he
    (fun f hf => by rw [orPoison_ab hab _ hf, orPoison_register hc _ hf]) fun _ => rfl

/-- A fused multiply-add of FP32 words (R258). -/
theorem runsAs_ffma32 {r : BitVec 2} (hm : o.m = mod0 r 0) (hb3 : Claim.InBudget s i o.h [o.s3])
    (hc : Claim.Register s i o.h o.s3 c) (he : exec n s = s.onX fun x => x.ffma o) :
    Claim.RunsAs s n i o.len o.h fun f => Claim.pattern o.d (roundBits fp32 (Rm.ofCode r.toNat) false
      (fmaX (Rm.ofCode r.toNat) (value fp32 (a f).toNat) (value fp32 (b f).toNat) (value fp32 (c f).toNat))) 0 := by
  refine runsAs_perFibre hs (inBudget_append hb hb3) he (fun f hf => ?_) fun _ => rfl
  simp only [orPoison_ab hab _ hf, orPoison_register hc _ hf, hm, wordFmt_mod0, Exec.mode_mod0]
  rfl

/-- A function of two FP32 words whose exact value is rounded once (R258). -/
theorem runsAs_flt32 {r : BitVec 2} (hm : o.m = mod0 r 0) (g : Rm → XR → XR → XR)
    (he : exec n s = s.onX fun x => x.flt2 o fun m a b => .val (g m a b)) :
    Claim.RunsAs s n i o.len o.h fun f => Claim.pattern o.d (roundBits fp32 (Rm.ofCode r.toNat) false
      (g (Rm.ofCode r.toNat) (value fp32 (a f).toNat) (value fp32 (b f).toNat))) 0 := by
  refine runsAs_perFibre hs hb he (fun f hf => ?_) fun _ => rfl
  simp only [orPoison_ab hab _ hf, hm, wordFmt_mod0, Exec.mode_mod0]
  rfl

/-- FMIN and FMAX of FP32 words give one of them, bit for bit, or the default NaN (R259). -/
theorem runsAs_fpick32 (hm : o.m = mod0 0 0) (big : Bool) (he : exec n s = s.onX fun x => x.fpick o big) :
    Claim.RunsAs s n i o.len o.h fun f =>
      Claim.one o.d (BitVec.ofNat 32 (fminBits big fp32 (a f).toNat (b f).toNat)) := by
  have hword : ∀ v : Word, v.toNat % 2 ^ fp32.width = v.toNat := fun v => Nat.mod_eq_of_lt v.isLt
  refine runsAs_perFibre hs hb he (fun f hf => ?_) fun _ => rfl
  simp only [orPoison_ab hab _ hf, hm, wordFmt_mod0, hword]
  rfl

end
end

end Sys2Proof.Machine

namespace Sys2Proof.Proofs

open Sys2Proof.Machine Sys2Proof.Claim

theorem packedHalves : PackedHalves := by
  intro s i o a b hs hb hab g h out add mul fma
  refine ⟨fun w ho => ⟨?_, ?_, fun c hb3 hc => ?_⟩, fun w ho => ⟨?_, ?_, fun c hc => ?_⟩⟩ <;> subst ho
  · exact runsAs_packed2 hs hb hab opAdd rfl
  · exact runsAs_packed2 hs hb hab opMul rfl
  · exact runsAs_packed3 hs hb hab hb3 hc rfl
  · exact runsAs_packed2 hs hb hab opAdd rfl
  · exact runsAs_packed2 hs hb hab opMul rfl
  · exact runsAs_packed3 hs hb hab (inBudget_dest hb) hc rfl

theorem shortFloatForms : ShortFloatForms := by
  intro s i a b hs val out pick
  refine ⟨fun w hb hab => ⟨?_, ?_, ?_, ?_⟩, fun w hb hab => ⟨?_, ?_, ?_, ?_, ?_, fun c hc => ?_⟩⟩
  · exact runsAs_flt32 hs hb hab rfl opAdd rfl
  · exact runsAs_flt32 hs hb hab rfl opSub rfl
  · exact runsAs_flt32 hs hb hab rfl opMul rfl
  · exact runsAs_fpick32 hs hb hab rfl true rfl
  · exact runsAs_flt32 hs hb hab rfl opAdd rfl
  · exact runsAs_flt32 hs hb hab rfl opSub rfl
  · exact runsAs_flt32 hs hb hab rfl opMul rfl
  · exact runsAs_fpick32 (o := opndsOfA w 0 0) hs hb hab rfl false rfl
  · exact runsAs_fpick32 (o := opndsOfA w 0 0) hs hb hab rfl true rfl
  · exact runsAs_ffma32 hs hb hab rfl (inBudget_dest hb) hc rfl

/-- Settles O14: each instruction is its driver at the operation it names, and the drivers round as R257 and R263 say. -/
theorem floatShort : Obligations.FloatShort := ⟨packedHalves, shortFloatForms⟩

end Sys2Proof.Proofs
end

section
/-! PROOFS. Branches, calls, returns and LOOPW (10 R189, 11 R215, R216, R227). -/

namespace Sys2Proof.Machine

/-! ### The group goes to its targets (R215) -/

/-- The fibres of a list that stand Ready at an instruction go to their targets. -/
def sendFibs (pc : Nat) (target : Nat → Nat) (l : List Nat) (w : Wave) : Wave :=
  l.foldl (fun w f => w.modFib f fun b => if b.isReady && decide (b.pc = pc) then { b with pc := target f % 2 ^ 48 } else b) w

theorem Exec.advanceTo_eq (x : Exec) (i : Iss) (target : Nat → Nat) :
    x.advanceTo i target = x.modWave i.u (sendFibs i.pc target i.grp) := rfl

theorem sendFibs_fib (pc : Nat) (target : Nat → Nat) (l : List Nat) (w : Wave) (hn : l.Nodup) (g : Nat) :
    (sendFibs pc target l w).fib g =
      if g ∈ l ∧ (w.fib g).st = .ready ∧ (w.fib g).pc = pc then { w.fib g with pc := target g % 2 ^ 48 } else w.fib g := by
  induction l generalizing w with
  | nil => simp [sendFibs]
  | cons f l ih =>
    obtain ⟨hf, hn⟩ := List.nodup_cons.1 hn
    have hrest := ih
      (w.modFib f fun b => if b.isReady && decide (b.pc = pc) then { b with pc := target f % 2 ^ 48 } else b) hn
    change (sendFibs pc target l _).fib g = _
    rw [hrest, Wave.fib_modFib]
    by_cases h : g = f
    · subst h
      simp [hf, Fib.isReady]
    · simp [h]

theorem sendFibs_bare (pc : Nat) (target : Nat → Nat) (l : List Nat) (w : Wave) : (sendFibs pc target l w).bare = w.bare ∧
    (sendFibs pc target l w).v = w.v ∧ (sendFibs pc target l w).vpois = w.vpois := by
  induction l generalizing w with
  | nil => exact ⟨rfl, rfl, rfl⟩
  | cons f l ih => exact ih _

/-- The Ready fibres of a group go to their targets, and nothing else changes. -/
theorem Exec.past_advanceTo (x : Exec) {i : Iss} (target : Nat → Nat) (hn : i.grp.Nodup) :
    Claim.Past x (x.advanceTo i target) i fun f => target f % 2 ^ 48 := by
  have hwave : ∀ u, (x.advanceTo i target).wave? u =
      if u = i.u then (x.wave? u).map (sendFibs i.pc target i.grp) else x.wave? u := fun u => x.wave?_modWave ..
  refine ⟨⟨fun u => ?_, fun u a k => ?_, fun u a k => ?_, fun u f => ?_⟩, rfl⟩
  · rw [hwave]
    split
    · cases x.wave? u with
      | none => rfl
      | some w => exact congrArg some (sendFibs_bare ..).1
    · rfl
  · rw [Exec.slotReg, hwave, Exec.slotReg]
    split
    · cases x.wave? u with
      | none => rfl
      | some w => exact congrArg (SMap.get · 0 (128 * k + a)) (sendFibs_bare ..).2.1
    · rfl
  · rw [Exec.slotPois, hwave, Exec.slotPois]
    split
    · cases x.wave? u with
      | none => rfl
      | some w => exact congrArg (List.contains · (128 * k + a)) (sendFibs_bare ..).2.2
    · rfl
  · by_cases e : u = i.u
    · subst e
      cases hw : x.wave? i.u with
      | none => simp [Exec.fib, hwave, hw]
      | some w => simp [Exec.fib, hwave, hw, sendFibs_fib _ _ _ _ hn]
    · simp [Exec.fib, hwave, e]

/-- The model's target at an offset is that of R215. -/
theorem relTarget_mod (pc : Nat) (off : Int) : relTarget pc off % 2 ^ 48 = Claim.relative pc off := by
  rw [relTarget, wrap_eq, Nat.mod_eq_of_lt (BitVec.isLt _), Claim.relative]

/-! ### Results that write registers alone -/

/-- Register writes made at once, and nothing else. -/
theorem Exec.applyRes_writes (x : Exec) (i : Iss) (len f : Nat) (l : List (Nat × Word)) :
    x.applyRes i 0 len f { v := l } = (x.writeVs i.u f l).modFib i.u f fun b => b := rfl

theorem Exec.rest_foldl_writes (i : Iss) (len : Nat) (r : Nat → List (Nat × Word)) (l : List Nat) (x : Exec) :
    { l.foldl (fun x f => x.applyRes i 0 len f { v := r f }) x with waves := x.waves } = x := by
  induction l generalizing x with
  | nil => rfl
  | cons f l ih =>
    have hfirst : { x.applyRes i 0 len f { v := r f } with waves := x.waves } = x := Exec.rest_writeVs (r f) x i.u f
    have hrest := congrArg (fun y : Exec => { y with waves := x.waves }) (ih (x.applyRes i 0 len f { v := r f }))
    exact hrest.trans hfirst

theorem fibRess_writes (x : Exec) (i : Iss) (l : List Nat) (r : Nat → List (Nat × Word)) (u g : Nat) :
    fibRess x i 0 l (fun f => { v := r f }) u g = x.fib u g := by
  have hdraws : (x.ownerOf i l u g).elim (x.fib u g).draws (fun _ => (x.fib u g).draws) = (x.fib u g).draws := by
    cases x.ownerOf i l u g <;> rfl
  simp only [fibRess, List.foldl_nil, ne_eq, not_true, and_false, if_false, ite_self, if_true, hdraws]

/-! ### Branches (R215) -/

/-- A number looked up in a list of numbers with their values. -/
theorem SMap.find?_filterMap {α : Type} (g : Nat → Option α) (l : List Nat) (f : Nat) :
    SMap.find? (l.filterMap fun k => (g k).map fun t => (k, t)) f = if f ∈ l then g f else none := by
  induction l with
  | nil => rfl
  | cons k l ih =>
    rw [List.filterMap_cons]
    by_cases e : f = k
    · subst e
      cases hg : g f with
      | none => simp [hg, ih]
      | some t => simp [SMap.find?]
    · cases g k with
      | none => simp [ih, e]
      | some t => simp [SMap.find?, ih, e]

/-- The return address that a branch writes to its link pair, if it has one. -/
def linkWrites (link : Option Nat) (ret : Nat) : List (Nat × Word) := link.elim [] fun d => (Res.pair d ret).v

section
variable {s : State} {n : Instr} {i : Iss} {len : Nat} {h : Hd} {named : List Nat} {link : Option Nat}
  {target : Iss → Nat → Option Nat}

/-- A branch within its budget whose targets are all read. -/
theorem Exec.branch_eq (hi : s.x.issue? = some i) (hb : Claim.InBudget s i h named)
    (ht : ∀ f ∈ i.served h, (target i f).isSome) : s.x.branch len h named link target =
      ((i.served h).foldl (fun x f => x.applyRes i 0 len f { v := linkWrites link (i.pc + 8) }) s.x).advanceTo i fun f =>
        (if f ∈ i.served h then target i f else none).getD (i.pc + len) := by
  have hres : ∀ f ∈ i.served h, (if s.x.pastBudget i f named then ({ trap := some cREGRNG } : Res)
      else orPoison (target i f) fun _ => match link with
        | some d => Res.pair d (i.pc + 8)
        | none => {}) = { v := linkWrites link (i.pc + 8) } := fun f hf => by
    obtain ⟨t, htf⟩ := Option.isSome_iff_exists.1 (ht f hf)
    rw [hb f hf, htf]
    cases link <;> rfl
  simp only [Exec.branch, hi, List.foldl_map, SMap.find?_filterMap]
  congr 1
  exact List.foldl_ext _ _ _ fun x f hf => congrArg (x.applyRes i 0 len f) (hres f hf)

/-- A branch whose served fibres f go to `dest f`. -/
theorem goes_branch {dest : Nat → Nat} (hs : Claim.Issues s i) (hb : Claim.InBudget s i h named)
    (ht : ∀ f ∈ i.served h, ∃ t, target i f = some t ∧ t % 2 ^ 48 = dest f)
    (he : exec n s = .next { s with x := s.x.branch len h named link target }) :
    Claim.Goes s n i len h (fun _ => { v := linkWrites link (i.pc + 8) }) dest := by
  have hn := Iss.grp_nodup hs.run
  have hsub : ∀ f ∈ i.served h, f ∈ i.grp := fun f hf => (List.mem_filter.1 hf).1
  rw [Exec.branch_eq hs.run hb fun f hf => by obtain ⟨t, htf, -⟩ := ht f hf; rw [htf]; rfl] at he
  have hdone := Exec.applyAll_done i 0 len (fun _ => { v := linkWrites link (i.pc + 8) }) (i.served h) s.x (hn.filter _)
    (fun _ _ => rfl) (by rw [(Exec.issue?_spec hs.run).2.1]; rfl) (fun f hf k hk => hs.wins.apart f (hsub f hf) k (hsub k hk))
    (fun f hf => hs.wins.held f (hsub f hf)) fun f hf => hs.wins.slot f (hsub f hf)
  have hrest := Exec.rest_foldl_writes i len (fun _ => linkWrites link (i.pc + 8)) (i.served h) s.x
  generalize (i.served h).foldl (fun x f => x.applyRes i 0 len f { v := linkWrites link (i.pc + 8) }) s.x = y
    at he hdone hrest
  have hpast := y.past_advanceTo (fun f => (if f ∈ i.served h then target i f else none).getD (i.pc + len)) hn
  have hfib : ∀ u f, y.fib u f = s.x.fib u f := fun u f =>
    (hdone.fibs u f).trans (fibRess_writes s.x i _ (fun _ => linkWrites link (i.pc + 8)) u f)
  refine ⟨_, he, rfl, rfl, hrest, fun u => (hpast.wave u).trans (hdone.bare u), fun u a k ha => ?_, fun u a k ha => ?_,
    fun u f => ?_⟩
  · rw [hpast.regs, hdone.regs u a k ha]
    rfl
  · rw [hpast.pois, hdone.pois u a k ha]
    rfl
  · rw [hpast.fibs, hfib]
    by_cases hin : u = i.u ∧ f ∈ i.grp
    · obtain ⟨rfl, hmem⟩ := hin
      obtain ⟨-, hst, hpc⟩ := (Iss.mem_grp hs.run f).1 hmem
      rw [if_pos ⟨rfl, hmem, hst, hpc⟩]
      by_cases hf : f ∈ i.served h
      · obtain ⟨t, htf, hmod⟩ := ht f hf
        simp only [hf, hmem, htf, hmod, and_self, if_true, Option.getD_some]
      · simp only [hf, hmem, and_self, if_true, if_false, Option.getD_none]
    · rw [if_neg fun k => hin ⟨k.1, k.2.1⟩, if_neg hin]

/-- A branch to an offset from its own PC. -/
theorem goes_relative {off : Int} (hs : Claim.Issues s i) (hb : Claim.InBudget s i h named)
    (he : exec n s = .next { s with x := s.x.branch len h named link fun i _ => some (relTarget i.pc off) }) :
    Claim.Goes s n i len h (fun _ => { v := linkWrites link (i.pc + 8) }) fun _ => Claim.relative i.pc off :=
  goes_branch hs hb (fun _ _ => ⟨_, rfl, relTarget_mod i.pc off⟩) he

/-- A branch to the low 48 bits of a register pair. -/
theorem goes_pair {k : Nat} {p : Nat → BitVec 64} (hs : Claim.Issues s i) (hb : Claim.InBudget s i h named)
    (hp : Claim.Pair s i h k p) (he : exec n s = .next { s with x := s.x.branch len h named link (s.x.pairTarget k) }) :
    Claim.Goes s n i len h (fun _ => { v := linkWrites link (i.pc + 8) }) fun f => (p f).toNat % 2 ^ 48 :=
  goes_branch hs hb (fun f hf => ⟨(p f).toNat % 2 ^ 48, congrArg (Option.map (· % 2 ^ 48)) (hp f hf), Nat.mod_mod ..⟩) he

end

/-- A call writes the address of the next instruction to its pair (R215). -/
theorem linkWrites_some (d pc : Nat) :
    ({ v := linkWrites (some d) (pc + 8) } : Res) = Claim.two d (BitVec.ofNat 64 (pc + 8)) := (two_eq_pair d (pc + 8)).symm

end Sys2Proof.Machine

namespace Sys2Proof.Proofs

open Sys2Proof.Machine Sys2Proof.Claim

theorem branches : Branches := by
  intro s i hs
  have hfree : ∀ h, InBudget s i h [] := fun _ _ _ => rfl
  refine ⟨fun w => ⟨goes_relative (link := none) hs (hfree _) rfl, goes_relative (link := none) hs (hfree _) rfl, fun hb => ?_⟩,
    fun w => ⟨goes_relative (link := none) hs (hfree _) rfl, goes_relative (link := none) hs (hfree _) rfl⟩,
    fun w p hb hp => ⟨goes_pair (link := none) hs hb hp rfl, goes_pair (link := none) hs hb hp rfl, fun hbd => ?_⟩,
    fun w => runsAs_perFibre hs (hfree _) rfl (fun _ _ => rfl) fun _ => rfl,
    fun w => runsAs_perFibre hs (hfree _) rfl (fun _ _ => rfl) fun _ => rfl⟩
  · rw [← linkWrites_some]
    exact goes_relative hs hb rfl
  · rw [← linkWrites_some]
    exact goes_pair hs (inBudget_append hbd hb) hp rfl

theorem loopCounter : LoopCounter := by
  intro s i w hi v
  have hexec : exec (.loopw w) s = s.onX fun x => (x.writeW i.u w.d.toNat v).advanceTo i fun _ =>
      if v = 0 then i.pc + 8 else relTarget i.pc w.m.toInt := by
    change execLoopw w s = _
    simp only [execLoopw, State.onX, hi]
    rfl
  have hpast := (s.x.writeW i.u w.d.toNat v).past_advanceTo (fun _ => if v = 0 then i.pc + 8 else relTarget i.pc w.m.toInt)
    (Iss.grp_nodup hi)
  refine ⟨_, hexec, rfl, rfl, ?_⟩
  simpa only [apply_ite (· % 2 ^ 48), relTarget_mod] using hpast

/-- Settles O17: a branch writes its link in every served fibre and sends each to its target; LOOPW sends its whole group. -/
theorem branchesAndLoops : Obligations.BranchesAndLoops := ⟨branches, loopCounter⟩

end Sys2Proof.Proofs
end

section
/-! PROOFS. Software traps and encodings that do not execute (10 R200, R202, 11 R228, 17 R335). -/

namespace Sys2Proof.Machine

/-! ### Several fibres take one trap -/

/-- A trap that brings the bits decoded keeps them in its record (R202). -/
theorem Exec.raw_takeTrap {x : Exec} {u : Nat} (hu : (x.wave? u).isSome) (f : Nat) {t : Trap} (ht : t.raw ≠ 0) :
    ((x.takeTrap u f t).fib u f).trap.map Trap.raw = some t.raw := by
  have hclosed : ((x.closeAll u f).wave? u).isSome := by
    rw [Exec.isSome_of_front (x.front_closeAll u f)]
    exact hu
  unfold Exec.takeTrap
  extract_lets y raw z
  have hraw : raw = t.raw := by
    simp only [raw]
    split
    · exact if_neg fun h => ht h.2.2.2
    · rfl
  have hz : ∀ v : Exec, v.waves = z.waves → (v.fib u f).trap.map Trap.raw = some t.raw := fun v hv => by
    have hrecord : z.fib u f = _ := Exec.fib_modFib _ _ _ _ _ _ hclosed
    rw [Exec.fib_congr hv, hrecord, if_pos ⟨rfl, rfl⟩, ← hraw]
    rfl
  clear_value raw
  split
  · exact hz _ rfl
  · split
    · exact hz _ (Exec.waves_post ..)
    · split
      · exact hz _ (Exec.waves_post ..)
      · split
        · exact hz _ ((Exec.waves_stopGrid ..).trans (Exec.waves_post ..))
        · exact hz _ (Exec.waves_post ..)

/-- y is x with the fibres of a list masked, each with a record of one trap. -/
structure AllMasked (x y : Exec) (u : Nat) (l : List Nat) (t : Trap) : Prop where
  bare   : ∀ v, (y.wave? v).map Wave.bare = (x.wave? v).map Wave.bare
  regs   : ∀ v a k, y.slotReg v a k = x.slotReg v a k
  pois   : ∀ v a k, y.slotPois v a k = x.slotPois v a k
  masked : ∀ f ∈ l, ∃ r, r.told = t.told ∧ (t.raw ≠ 0 → r.raw = t.raw) ∧
             y.fib u f = { x.fib u f with st := .masked, trap := some r }
  others : ∀ v f, ¬ (v = u ∧ f ∈ l) → y.fib v f = x.fib v f

theorem Exec.allMasked_takeTrap (u : Nat) (t : Trap) (l : List Nat) (x : Exec) (hn : l.Nodup) (hu : (x.wave? u).isSome)
    (hwins : ∀ f ∈ l, (x.fib u f).wins = []) : AllMasked x (l.foldl (fun x f => x.takeTrap u f t) x) u l t := by
  induction l generalizing x with
  | nil => exact ⟨fun _ => rfl, fun _ _ _ => rfl, fun _ _ _ => rfl, fun _ h => absurd h List.not_mem_nil, fun _ _ _ => rfl⟩
  | cons f l ih =>
    obtain ⟨hf, hn⟩ := List.nodup_cons.1 hn
    obtain ⟨r, hr, hfirst⟩ := Exec.masks_takeTrap hu (hwins f (List.mem_cons_self ..)) t
    have hraw : t.raw ≠ 0 → r.raw = t.raw := fun h => by
      have hrecord := Exec.raw_takeTrap hu f h
      rw [hfirst.fibs, if_pos ⟨rfl, rfl⟩] at hrecord
      exact Option.some.inj hrecord
    have hkeep : ∀ v g, ¬ (v = u ∧ g = f) → (x.takeTrap u f t).fib v g = x.fib v g := fun v g h =>
      (hfirst.fibs v g).trans (if_neg h)
    have hne : ∀ g ∈ l, g ≠ f := fun g hg e => hf (e ▸ hg)
    have hrest := ih (x.takeTrap u f t) hn (by rw [Exec.isSome_of_bare (hfirst.bare u)]; exact hu) fun g hg => by
      rw [hkeep u g fun h => hne g hg h.2]
      exact hwins g (List.mem_cons_of_mem _ hg)
    refine ⟨fun v => (hrest.bare v).trans (hfirst.bare v), fun v a k => (hrest.regs v a k).trans (hfirst.regs v a k),
      fun v a k => (hrest.pois v a k).trans (hfirst.pois v a k), fun g hg => ?_, fun v g hg => ?_⟩
    · rcases List.mem_cons.1 hg with rfl | hg
      · exact ⟨r, hr, hraw, ((hrest.others u g fun h => hf h.2).trans (hfirst.fibs u g)).trans (if_pos ⟨rfl, rfl⟩)⟩
      · obtain ⟨r', hr', hraw', hfib⟩ := hrest.masked g hg
        exact ⟨r', hr', hraw', by rw [List.foldl_cons, hfib, hkeep u g fun h => hne g hg h.2]⟩
    · exact (hrest.others v g fun h => hg ⟨h.1, List.mem_cons_of_mem _ h.2⟩).trans
        (hkeep v g fun h => hg ⟨h.1, h.2 ▸ List.mem_cons_self ..⟩)

/-- The fibres that an encoding that does not execute traps are fibres of its group (R200). -/
theorem undefFibres_sublist (i : Iss) (u : Undef) : (undefFibres i u).Sublist i.grp := by
  unfold undefFibres
  extract_lets g on
  have hon : on.Sublist i.grp := List.filter_sublist
  clear_value on
  split
  · split
    · exact (List.take_sublist 1 on).trans hon
    · split
      · exact List.Sublist.refl _
      · exact hon
  · exact hon

end Sys2Proof.Machine

namespace Sys2Proof.Proofs

open Sys2Proof.Machine Sys2Proof.Claim

section
variable {s : State} {i : Iss} {l : List Nat} {t : Trap} {len : Nat}
  (hi : s.x.issue? = some i) (hn : l.Nodup) (hwins : ∀ f, (i.w.fib f).wins = [])
include hi hn hwins

theorem allMasked_group : AllMasked s.x (l.foldl (fun x f => x.takeTrap i.u f t) s.x) i.u l t := by
  have hw := (Exec.issue?_spec hi).2.1
  refine Exec.allMasked_takeTrap i.u t l s.x hn (by rw [hw]; rfl) fun f _ => ?_
  rw [Exec.fib, hw]
  exact hwins f

/-- A fibre that has trapped stays where it stood when its group moves on (R335). -/
theorem masked_advance {f : Nat} (hf : f ∈ l) : ∃ r, r.told = t.told ∧ (t.raw ≠ 0 → r.raw = t.raw) ∧
    ((l.foldl (fun x f => x.takeTrap i.u f t) s.x).advance i len).fib i.u f =
      { s.x.fib i.u f with st := .masked, trap := some r } := by
  obtain ⟨r, hr, hraw, hfib⟩ := (allMasked_group (t := t) hi hn hwins).masked f hf
  refine ⟨r, hr, hraw, ?_⟩
  rw [Exec.fib_advance _ _ _ (Iss.grp_nodup hi), hfib, if_neg fun k => FSt.noConfusion k.2.2.1]

/-- Fibres of a group take one trap at their instruction, and the others go on (R335). -/
theorem trapped_foldl_takeTrap (hpc : t.pc = i.pc) (hserved : t.served = false) (hlen : t.len = len) :
    Trapped s { s with x := (l.foldl (fun x f => x.takeTrap i.u f t) s.x).advance i len } i l t.cause t.opnd len := by
  have hall := allMasked_group (t := t) hi hn hwins
  refine ⟨rfl, rfl, fun u => (Exec.bare_advance ..).trans (hall.bare u), fun u a k => (Exec.slotReg_advance ..).trans
    (hall.regs u a k), fun u a k => (Exec.slotPois_advance ..).trans (hall.pois u a k), fun f hf => ?_, fun u f hf => ?_⟩
  · obtain ⟨r, hr, -, hfib⟩ := masked_advance (t := t) (len := len) hi hn hwins hf
    simp only [Trap.told, Trap.mk.injEq] at hr
    obtain ⟨hcause, hopnd, hlen', -, hpc', -, hserved', -, -⟩ := hr
    exact ⟨r, congrArg Fib.trap hfib, hcause, hopnd, hlen'.trans hlen, hpc'.trans hpc, hserved'.trans hserved, hfib⟩
  · have hout : ¬ (u = i.u ∧ f ∈ l) := fun k => hf.elim (fun h => h k.1) fun h => h k.2
    have hstep := Exec.fib_advance (l.foldl (fun x f => x.takeTrap i.u f t) s.x) i len (Iss.grp_nodup hi) u f
    rw [hall.others u f hout] at hstep
    refine hstep.trans ?_
    by_cases hin : u = i.u ∧ f ∈ i.grp
    · obtain ⟨rfl, hmem⟩ := hin
      obtain ⟨-, hst, hat⟩ := (Iss.mem_grp hi f).1 hmem
      rw [if_pos ⟨rfl, hmem, hst, hat⟩, if_pos ⟨rfl, hmem⟩]
    · rw [if_neg fun k => hin ⟨k.1, k.2.1⟩, if_neg hin]

end

theorem exec_whole {s : State} {n : Instr} {i : Iss} {len : Nat} {g : Iss → Exec → Exec} (hi : s.x.issue? = some i)
    (he : exec n s = s.onX fun x => x.whole len g) : exec n s = .next { s with x := (g i s.x).advance i len } := by
  simp only [he, State.onX, Exec.whole, hi]

theorem softwareTraps : SoftwareTraps := by
  intro s i w hi hwins
  have hn : (i.served w.h).Nodup := (Iss.grp_nodup hi).filter _
  exact ⟨⟨_, exec_whole (n := .trap w) hi rfl,
      trapped_foldl_takeTrap (t := { i.trap cSWTRAP 8 with opnd := w.m.toNat }) hi hn hwins rfl rfl rfl⟩,
    ⟨_, exec_whole (n := .brk w) hi rfl,
      trapped_foldl_takeTrap (t := { i.trap cBREAK 8 with opnd := w.m.toNat }) hi hn hwins rfl rfl rfl⟩⟩

theorem undefinedEncodings : UndefinedEncodings := by
  intro s i u hi hwins
  have hn : (undefFibres i u).Nodup := (undefFibres_sublist i u).nodup (Iss.grp_nodup hi)
  let t : Trap := { cause := fateCause u.fate, len := u.len, raw := u.raw.toNat, pc := i.pc }
  have htrapped := trapped_foldl_takeTrap (t := t) hi hn hwins rfl rfl rfl
  refine ⟨_, exec_whole (n := .undefinedOpcode u) hi rfl, ?_, fun hraw f hf => ?_⟩
  · cases hfate : u.fate <;> (simp only [t, hfate] at htrapped ⊢; exact htrapped)
  · obtain ⟨r, -, hkept, hfib⟩ := masked_advance (t := t) (len := u.len) hi hn hwins hf
    exact (congrArg (fun b : Fib => b.trap.map Trap.raw) hfib).trans (congrArg some (hkept hraw))

/-- Settles O24: a trap masks the fibres that take it one by one, and the group's others go on. -/
theorem trapEntry : Obligations.TrapEntry := ⟨softwareTraps, undefinedEncodings⟩

end Sys2Proof.Proofs
end

section
/-! PROOFS. Waits for handles (11 R226). -/

namespace Sys2Proof.Machine

/-- A hold sets what holds its wave, and no fibre. -/
theorem Exec.holdOf_hold {x : Exec} {i : Iss} (hi : x.issue? = some i) (h : Hold) : (x.hold i h).holdOf i.u = some (some h) := by
  obtain ⟨-, hw, -⟩ := Exec.issue?_spec hi
  rw [Exec.holdOf, Exec.hold, Exec.wave?_congr (Exec.waves_post ..), Exec.wave?_modWave, if_pos rfl, hw]
  rfl

theorem Exec.fib_hold (x : Exec) (i : Iss) (h : Hold) (u f : Nat) : (x.hold i h).fib u f = x.fib u f := by
  rw [Exec.hold, Exec.fib_congr (Exec.waves_post ..), Exec.fib, Exec.wave?_modWave]
  split
  · cases hw : x.wave? u <;> simp only [Exec.fib, hw] <;> rfl
  · rfl

/-- HWAIT of a handle that is ready makes a result in each served fibre (R226). -/
theorem exec_hwait_ready {s : State} {i : Iss} {w : OwnI} (hi : s.x.issue? = some i)
    (h : (i.w.handle w.s1.toNat).ready = true) : exec (.hwait w) s = .next { s with
      x := s.x.perFibre 8 w.h (if w.m = 1 then [w.d.toNat] else []) fun _ f =>
        if w.m = 1 then Res.word w.d.toNat ((i.w.handle w.s1.toNat).val f).toNat else {} } := by
  change execHwait w s = _
  simp only [execHwait, State.onX, hi, h, Bool.not_true, Bool.and_false, Bool.false_eq_true, if_false]

/-- HWAIT of a handle that is not ready holds the wave, if it serves a fibre (R149, R226). -/
theorem exec_hwait_waits {s : State} {i : Iss} {w : OwnI} (hi : s.x.issue? = some i)
    (h : (i.w.handle w.s1.toNat).ready = false) (hserved : i.served w.h ≠ []) :
    exec (.hwait w) s = .next { s with x := s.x.hold i (.handle w.s1.toNat) } := by
  have hsome : (i.served w.h).isEmpty = false := List.isEmpty_eq_false_iff.2 hserved
  change execHwait w s = _
  simp only [execHwait, State.onX, hi, h, hsome, Bool.not_false, Bool.and_self, if_true]

end Sys2Proof.Machine

namespace Sys2Proof.Proofs

open Sys2Proof.Machine Sys2Proof.Claim

/-- Settles O20: a ready handle is HWAIT's source, and one that is not ready is what the wave is held on. -/
theorem handleWaits : Obligations.HandleWaits := by
  intro s i w hs hd
  have hfree : InBudget s i w.h [] := fun _ _ => rfl
  refine ⟨runsAs_perFibre (n := .htest w) hs hfree rfl (fun _ _ => rfl) fun _ => rfl, fun hready hm => ?_,
    fun hready hm hb => ?_, fun hready hserved => ?_⟩
  · have he := exec_hwait_ready hs.run hready
    simp only [hm, if_false] at he
    exact runsAs_perFibre hs hfree he (fun _ _ => rfl) fun _ => rfl
  · have he := exec_hwait_ready hs.run hready
    simp only [hm, if_true] at he
    exact runsAs_perFibre hs hb he (fun _ _ => word_toNat ..) fun _ => rfl
  · exact ⟨_, exec_hwait_waits hs.run hready hserved, rfl, rfl, Exec.holdOf_hold hs.run _, Exec.fib_hold s.x i _⟩

end Sys2Proof.Proofs
end

section
/-! PROOFS. HALT (11 R235, 17 R339). -/

namespace Sys2Proof.Machine

section
variable {x : Exec} {g : Nat} {r : Grid} (hr : x.grids.find? g = some r) (p : Nat × Nat × Nat × Nat)
include hr

/-- Outside deterministic mode a grid that stops ends at once (R235). -/
theorem Exec.stopGrid_atOnce (hd : r.determ = false) : x.stopGrid g p =
    (x.endGrid g (if p.2.2.2 < 2 ^ 16 then .halted p.2.2.2 else .faulted)).post 0 (.gridCompletion g) := by
  simp only [Exec.stopGrid, hr, hd, Bool.false_eq_true, if_false]

/-- In deterministic mode a stop waits for the commit, and the lowest position stays (R235, R339). -/
theorem Exec.stopGrid_atCommit (hd : r.determ = true) : x.stopGrid g p = (x.modGrid g fun r =>
    { r with haltAt := some (r.haltAt.elim p fun q => if haltLess p q then p else q) }).post 0 (.quantumCommit g) := by
  simp only [Exec.stopGrid, hr, hd, if_true]
  congr 2
  funext r
  cases r.haltAt with
  | none => rfl
  | some q => exact congrArg (fun o => { r with haltAt := o }) (apply_ite some (haltLess p q = true) p q).symm

end

end Sys2Proof.Machine

namespace Sys2Proof.Proofs

open Sys2Proof.Machine Sys2Proof.Claim

/-- Settles O28: HALT stops the grid of its wave's team with a code below 2^16. -/
theorem gridHalt : Obligations.GridHalt := by
  intro s i w f m g hu hm hg at_
  have hmakes : Makes s (.halt w) i (s.x.stopGrid m.grid at_) 8 := by
    have h := makes_uniform (n := .halt w) hu rfl
    simpa only [hm, hg, Option.elim_some] using h
  refine ⟨fun hd => ?_, fun hd => ?_⟩
  · have hcode : at_.2.2.2 < 2 ^ 16 := w.m.isLt
    rwa [Exec.stopGrid_atOnce hg at_ hd, if_pos hcode] at hmakes
  · rwa [Exec.stopGrid_atCommit hg at_ hd] at hmakes

end Sys2Proof.Proofs
end

section
/-! PROOFS. EMOPR and EMOPW (11 R230). -/

namespace Sys2Proof.Proofs

open Sys2Proof.Machine Sys2Proof.Claim

section
variable {s : State} {i : Iss} {w : OwnI}

/-- The register number of a served fibre that neither lies past a budget nor is read poisoned is V[S1] + M / 256 (R230). -/
theorem emReg_ok {f sel : Nat} {v : Word} (hb : s.x.pastBudget i f [w.s1.toNat] = false) (hr : s.x.ownRead i f w.s1.toNat = some v)
    (hlast : if sel = 0x11 then v.toNat + w.m.toNat / 256 ≤ 63
      else v.toNat + w.m.toNat / 256 < min 128 (s.x.budget i.u f)) :
    s.x.emReg i f w sel = .ok (v.toNat + w.m.toNat / 256) := by
  simp only [Exec.emReg, hb, hr, Bool.false_eq_true, if_false]
  split
  · rename_i hsel
    rw [if_pos hsel] at hlast
    exact if_neg (Nat.not_lt.2 hlast)
  · rename_i hsel
    rw [if_neg hsel, Nat.lt_min] at hlast
    simp only [show ¬ 127 < v.toNat + w.m.toNat / 256 by omega, Nat.not_le.2 hlast.2, decide_false, Bool.or_self,
      Bool.false_eq_true, if_false]

variable {org : Nat → Nat × Nat} (hs : Issues s i) (hh : i.inHandler = true)
  (horg : ∀ f ∈ i.served w.h, (i.w.fib f).org = some (org f))
include hs horg

theorem org_of_served {f : Nat} (hf : f ∈ i.served w.h) : (s.x.fib i.u f).org = some (org f) :=
  (Exec.fib_org (Exec.issue?_spec hs.run).2.1 f).trans (horg f hf)

include hh

/-- EMOPR of what an origin's trap record tells (R230). -/
theorem runsAs_emopr_trap (hb : InBudget s i w.h [w.d.toNat]) (hsel : w.m.toNat % 256 < 0x10) {r : Nat → Trap}
    (hr : ∀ f ∈ i.served w.h, (s.x.fib (org f).1 (org f).2).trap = some (r f)) : RunsAs s (.emopr w) i 8 w.h fun f =>
      .word w.d.toNat (emTrapWord (w.m.toNat % 256) ((s.x.wave? (org f).1).elim 0 Wave.depth) (r f)) :=
  runsAs_perFibre (n := .emopr w) hs (fun _ _ => rfl) rfl (fun f hf => by
    simp only [org_of_served hs horg hf, hh, hb f hf, hr f hf, Option.getD_some, Bool.false_eq_true, if_false,
      show ¬ (w.m.toNat % 256 = 0x10 ∨ w.m.toNat % 256 = 0x11) by omega, show ¬ w.m.toNat % 256 = 0x12 by omega]) fun _ => rfl

/-- EMOPR of an origin's predicates (R230). -/
theorem runsAs_emopr_preds (hb : InBudget s i w.h [w.d.toNat]) (hsel : w.m.toNat % 256 = 0x12) : RunsAs s (.emopr w) i 8 w.h fun f =>
    .word w.d.toNat ((s.x.fib (org f).1 (org f).2).preds.toNat + 128) :=
  runsAs_perFibre (n := .emopr w) hs (fun _ _ => rfl) rfl (fun f hf => by
    simp only [org_of_served hs horg hf, hh, hb f hf, hsel, Bool.false_eq_true, if_false, if_true, Nat.reduceEqDiff, or_self])
    fun _ => rfl

/-- EMOPR of a register whose number each served fibre has (R230). -/
theorem runsAs_emopr_reg (hb : InBudget s i w.h [w.d.toNat]) {k : Nat → Nat} {v : Nat → Word}
    (hsel : w.m.toNat % 256 = 0x10 ∨ w.m.toNat % 256 = 0x11)
    (hk : ∀ f ∈ i.served w.h, s.x.emReg i f w (w.m.toNat % 256) = .ok (k f))
    (hv : ∀ f ∈ i.served w.h, (if w.m.toNat % 256 = 0x11 then some (s.x.readW (org f).1 (k f))
      else s.x.ownRead i f (k f)) = some (v f)) :
    RunsAs s (.emopr w) i 8 w.h fun f => one w.d.toNat (v f) :=
  runsAs_perFibre (n := .emopr w) hs (fun _ _ => rfl) rfl (fun f hf => by
    have hread := hv f hf
    simp only [org_of_served hs horg hf, hh, hb f hf, hk f hf, hsel, Bool.false_eq_true, if_false, if_true]
    split
    · rename_i hW
      rw [if_pos hW] at hread
      rw [Option.some.inj hread, word_toNat]
    · rename_i hV
      rw [if_neg hV] at hread
      rw [hread]
      exact word_toNat ..) fun _ => rfl

/-- EMOPW of one served fibre that reads its source (R230). -/
theorem makes_emopw {f k : Nat} {v : Word} (hone : i.served w.h = [f]) (hb : s.x.pastBudget i f [w.s2.toNat] = false)
    (hv : s.x.ownRead i f w.s2.toNat = some v)
    (hk : w.m.toNat % 256 = 0x12 ∨ s.x.emReg i f w (w.m.toNat % 256) = .ok k) :
    Makes s (.emopw w) i (
      if w.m.toNat % 256 = 0x12 then s.x.modFib (org f).1 (org f).2 fun b => { b with preds := v.setWidth 7 }
      else if w.m.toNat % 256 = 0x11 then s.x.writeW (org f).1 k v else s.x.writeV i.u f k v) 8 := by
  have horigin := org_of_served hs horg (hone ▸ List.mem_singleton_self f)
  have hmakes := makes_whole (n := .emopw w) hs.run rfl
  simp only [hone, List.foldl_cons, List.foldl_nil, horigin, hh, hb, hv, Bool.false_eq_true, if_false] at hmakes
  by_cases hsel : w.m.toNat % 256 = 0x12
  · simp only [hsel, if_true] at hmakes ⊢
    exact hmakes
  · simp only [hsel, if_false, hk.resolve_left hsel] at hmakes ⊢
    exact hmakes

end

/-- Settles O27: a selector names a field of the origin's trap, its predicates, or a register by its number. -/
theorem originAccess : Obligations.OriginAccess := by
  intro s i w org n hs hh horg sel ob reg
  refine ⟨fun hb => ⟨fun hsel r hr => ?_, fun hsel => ?_, fun hb1 hn => ⟨fun hsel hreg => ?_, fun v hsel hreg => ?_⟩⟩,
    fun f v hone _ _ hb2 hv => ⟨fun hsel => ?_, fun hb1 hn => ⟨fun hsel hreg => ?_, fun hsel hreg => ?_⟩⟩⟩
  · have hword : ∀ (d : Nat) (t : Trap), emTrapWord sel d t = if sel = 0 then t.cause + 2 ^ 8 * t.len + 2 ^ 12 * d
        else if sel = 1 then t.pc % 2 ^ 32 else t.pc / 2 ^ 32 := fun d t => by
      have h : sel = 0 ∨ sel = 1 ∨ sel = 2 := by omega
      rcases h with h | h | h <;> rw [h] <;> rfl
    have hruns := runsAs_emopr_trap hs hh horg hb (show sel < 0x10 by omega) hr
    simp only [show w.m.toNat % 256 = sel from rfl, hword] at hruns
    exact hruns
  · exact runsAs_emopr_preds hs hh horg hb hsel
  · exact runsAs_emopr_reg hs hh horg hb (.inr hsel)
      (fun f hf => emReg_ok (hb1 f hf) (hn f hf) (by rw [if_pos hsel]; exact hreg f hf))
      fun f _ => if_pos hsel
  · have hV : ¬ sel = 0x11 := by omega
    exact runsAs_emopr_reg hs hh horg hb (.inl hsel)
      (fun f hf => emReg_ok (hb1 f hf) (hn f hf) (by rw [if_neg hV]; exact (hreg f hf).1))
      fun f hf => (if_neg hV).trans (hreg f hf).2
  · have hmakes := makes_emopw hs hh horg (k := 0) hone hb2 hv (.inl hsel)
    rwa [if_pos hsel] at hmakes
  · have hP : ¬ sel = 0x12 := by omega
    have hmakes := makes_emopw hs hh horg hone hb2 hv (.inr (emReg_ok hb1 hn (by rw [if_pos hsel]; exact hreg)))
    rwa [if_neg hP, if_pos hsel] at hmakes
  · have hP : ¬ sel = 0x12 := by omega
    have hV : ¬ sel = 0x11 := by omega
    have hmakes := makes_emopw hs hh horg hone hb2 hv (.inr (emReg_ok hb1 hn (by rw [if_neg hV]; exact hreg)))
    rwa [if_neg hP, if_neg hV] at hmakes

end Sys2Proof.Proofs
end

section
/-! PROOFS. Returns from handlers: ERET and EMRET (08 R153, 11 R229, 17 R335). -/

namespace Sys2Proof.Machine

/-! ### Waves that stay as they are when they settle -/

/-- No fibre of the wave waits in a REJOIN, and slot k is not Free: nothing is released and the wave does not exit. -/
structure Wave.Busy (w : Wave) (k : Nat) : Prop where
  rejoin : ∀ p ∈ w.fibs, p.2.rejoin? = none
  live   : (w.fib k).st ≠ .free

theorem SMap.mem_put {α : Type} [DecidableEq α] {d v : α} {m : SMap α} {j : Nat} {q : Nat × α} (h : q ∈ SMap.put d m j v) :
    q = (j, v) ∨ q ∈ m := by
  unfold SMap.put at h
  split at h
  · exact .inr (List.mem_of_mem_filter h)
  · exact SMap.mem_insert h

theorem SMap.mem_of_get_ne {α : Type} {d : α} {m : SMap α} {k : Nat} (h : m.get d k ≠ d) : (k, m.get d k) ∈ m := by
  rw [SMap.get] at h ⊢
  cases hk : m.find? k with
  | none => exact absurd (by rw [hk]; rfl) h
  | some v => exact SMap.mem_of_find? hk

/-- A default fibre is Free. -/
theorem Wave.mem_fibs_of_unfinished {w : Wave} {k : Nat} (h : (w.fib k).st ≠ .free) : (k, w.fib k) ∈ w.fibs :=
  SMap.mem_of_get_ne fun e => h (congrArg Fib.st e)

theorem Wave.rejoin?_fib {w : Wave} (h : ∀ p ∈ w.fibs, p.2.rejoin? = none) (f : Nat) : (w.fib f).rejoin? = none := by
  by_cases hst : (w.fib f).st = .free
  · rw [Fib.rejoin?, hst]
  · exact h _ (Wave.mem_fibs_of_unfinished hst)

/-- A change of a fibre that makes none wait in a REJOIN, and that is not the end of slot k. -/
theorem Wave.Busy.modFib {w : Wave} {k : Nat} (h : w.Busy k) (f : Nat) {g : Fib → Fib}
    (hrejoin : ∀ b, b.rejoin? = none → (g b).rejoin? = none) (hlive : f = k → ∀ b, b.st ≠ .free → (g b).st ≠ .free) :
    (w.modFib f g).Busy k := by
  refine ⟨fun p hp => ?_, ?_⟩
  · rcases SMap.mem_put hp with rfl | hp
    · exact hrejoin _ (Wave.rejoin?_fib h.rejoin f)
    · exact h.rejoin p hp
  · rw [Wave.fib_modFib]
    split
    next e => exact hlive e.symm _ (e ▸ h.live)
    next => exact h.live

theorem Wave.Busy.stepFibs {k pc len : Nat} (l : List Nat) {w : Wave} (h : w.Busy k) : (stepFibs pc len l w).Busy k := by
  induction l generalizing w with
  | nil => exact h
  | cons f l ih =>
    refine ih (h.modFib f (fun b hb => ?_) fun _ b hb => ?_) <;> split <;> assumption

theorem Wave.released_of_busy {w : Wave} {k : Nat} (h : w.Busy k) : w.released = [] := by
  rw [Wave.released, List.map_eq_nil_iff, List.filter_eq_nil_iff]
  intro p hp
  simp only [h.rejoin p hp, Bool.false_eq_true, not_false_eq_true]

theorem Wave.deadlocked_of_busy {w : Wave} {k : Nat} (h : w.Busy k) : w.deadlocked = false := by
  have hmem := Wave.mem_fibs_of_unfinished h.live
  have hunfinished : (w.fib k).unfinished = true := by simp only [Fib.unfinished, h.live, decide_false, Bool.not_false]
  have hall : ((w.fibs.filter fun p => p.2.unfinished).all fun p => p.2.rejoin?.isSome) = false :=
    List.all_eq_false.2 ⟨_, List.mem_filter.2 ⟨hmem, hunfinished⟩, by rw [h.rejoin _ hmem]; exact Bool.false_ne_true⟩
  simp only [Wave.deadlocked, hall, Bool.and_false]

theorem Wave.finished_of_busy {w : Wave} {k : Nat} (h : w.Busy k) : w.finished = false :=
  List.all_eq_false.2 ⟨_, Wave.mem_fibs_of_unfinished h.live, by simpa using h.live⟩

/-- The same of a wave that is listed. -/
def Exec.Busy (x : Exec) (u k : Nat) : Prop := ∃ w, x.wave? u = some w ∧ w.Busy k

section
variable {x : Exec} {u k : Nat} (h : x.Busy u k)
include h

theorem Exec.Busy.modWave {v : Nat} {f : Wave → Wave} (hf : v = u → ∀ w : Wave, w.Busy k → (f w).Busy k) :
    (x.modWave v f).Busy u k := by
  obtain ⟨w, hw, hbusy⟩ := h
  rw [Exec.Busy, Exec.wave?_modWave, hw]
  split
  next e => exact ⟨_, rfl, hf e.symm w hbusy⟩
  next => exact ⟨w, rfl, hbusy⟩

theorem Exec.Busy.modFib {v f : Nat} {g : Fib → Fib} (hrejoin : ∀ b, b.rejoin? = none → (g b).rejoin? = none)
    (hlive : v = u → f = k → ∀ b, b.st ≠ .free → (g b).st ≠ .free) : (x.modFib v f g).Busy u k :=
  h.modWave fun e _ hw => hw.modFib f hrejoin (hlive e)

theorem Exec.Busy.congr {y : Exec} (hw : y.waves = x.waves) : y.Busy u k := by
  rw [Exec.Busy, Exec.wave?_congr hw]
  exact h

theorem Exec.Busy.advance (i : Iss) (len : Nat) : (x.advance i len).Busy u k :=
  h.modWave fun _ _ hw => hw.stepFibs i.grp

theorem Exec.settleWave_of_busy : x.settleWave u = x := by
  obtain ⟨w, hw, hbusy⟩ := h
  have hrejoin : x.rejoinSettle u = x := by
    simp only [Exec.rejoinSettle, hw, Wave.released_of_busy hbusy, Wave.deadlocked_of_busy hbusy, Bool.false_eq_true, if_false]
  rw [Exec.settleWave, hrejoin]
  simp only [Exec.exitSettle, hw, Wave.finished_of_busy hbusy, Bool.not_false, Bool.or_true, if_true]

end

/-! ### One handler fibre returns -/

/-- An origin fibre that its handler sends to a PC, or ends (R229). -/
def Fib.sentBack (r : Option Nat) (b : Fib) : Fib := match r with
  | some pc => { b with st := .ready, pc := pc, trap := none }
  | none => { b with st := .free, trap := none, async := [] }

theorem Fib.rejoin?_sentBack (r : Option Nat) (b : Fib) : (b.sentBack r).rejoin? = none := by cases r <;> rfl

/-- What an exchange of stamps leaves: the fibres, and with them the waves that stay as they are when they settle. -/
structure Restamped (x y : Exec) : Prop where
  fibs   : ∀ u f, y.fib u f = x.fib u f
  listed : ∀ u, (y.wave? u).isSome = (x.wave? u).isSome
  busy   : ∀ u k, x.Busy u k → y.Busy u k

theorem Restamped.refl (x : Exec) : Restamped x x := ⟨fun _ _ => rfl, fun _ => rfl, fun _ _ => id⟩

theorem Exec.restamped_restamp (x : Exec) (u : Nat) : Restamped x (x.restamp u) := by
  have hw : (x.restamp u).waves = (x.modWave u fun w => { w with stamp := x.fresh }).waves := rfl
  refine ⟨fun v f => ?_, fun v => ?_, fun v k h => ?_⟩
  · rw [Exec.fib_congr hw, Exec.fib, Exec.fib, Exec.wave?_modWave]
    split
    · cases x.wave? v <;> rfl
    · rfl
  · rw [Exec.wave?_congr hw, Exec.wave?_modWave]
    split
    · exact Option.isSome_map
    · rfl
  · exact (h.modWave (f := fun w => { w with stamp := x.fresh }) fun _ _ hb => ⟨hb.rejoin, hb.live⟩).congr hw

/-- A fibre for which no asynchronous trap waits is Ready at the PC it resumes at (R330, R410). -/
theorem Exec.resume_eq {x : Exec} {u f : Nat} (h : (x.fib u f).async = []) (pc : Nat) :
    ∃ z, Restamped x z ∧ x.resume u f pc = z.modFib u f (Fib.sentBack (some pc)) := by
  simp only [Exec.resume, h]
  split
  · exact ⟨_, x.restamped_restamp u, rfl⟩
  · exact ⟨x, .refl x, rfl⟩

section
variable {x : Exec} {u f ou g : Nat}

/-- A fibre whose windows have closed becomes Free. -/
def Exec.endFib (x : Exec) (u f : Nat) : Exec :=
  (x.modFib u f fun b => { b with wins := [] }).modFib u f fun b => { b with st := .free }

theorem Exec.fib_endFib (hu : (x.wave? u).isSome) (v k : Nat) : (x.endFib u f).fib v k =
    if v = u ∧ k = f then { x.fib v k with wins := [], st := .free } else x.fib v k := by
  rw [Exec.endFib, Exec.fib_modFib _ _ _ _ _ _ (by rw [Exec.isSome_modFib]; exact hu), Exec.fib_modFib _ _ _ _ _ _ hu]
  split <;> rfl

theorem Exec.isSome_endFib (v : Nat) : ((x.endFib u f).wave? v).isSome = (x.wave? v).isSome :=
  (Exec.isSome_modFib ..).trans (Exec.isSome_modFib ..)

theorem Exec.Busy.endFib {v k : Nat} (h : x.Busy v k) (hne : ¬ (v = u ∧ k = f)) : (x.endFib u f).Busy v k := by
  have hclosed : (x.modFib u f fun b => { b with wins := [] }).Busy v k := h.modFib (fun _ hb => hb) fun _ _ _ hb => hb
  exact hclosed.modFib (g := fun b => { b with st := .free }) (fun _ _ => rfl) fun e e' => absurd ⟨e.symm, e'.symm⟩ hne

/-- A handler fibre without open windows ends, and its origin is sent back (R229). -/
theorem Exec.handlerReturn_eq (hu : (x.wave? u).isSome) (horg : (x.fib u f).org = some (ou, g)) (hne : ou ≠ u)
    (hwins : (x.fib u f).wins = []) (hasync : (x.fib ou g).async = []) (r : Option Nat) :
    ∃ z, Restamped (x.endFib u f) z ∧ x.handlerReturn u f (fun _ => r) = z.modFib ou g (Fib.sentBack r) := by
  have hasync' : ((x.endFib u f).fib ou g).async = [] := by
    rw [Exec.fib_endFib hu, if_neg fun e => hne e.1]
    exact hasync
  cases r with
  | some pc =>
    have hend : x.handlerReturn u f (fun _ => some pc) = (x.endFib u f).resume ou g pc := by
      simp only [Exec.handlerReturn, horg, Exec.closeAll_of_noWins hwins]
      rfl
    rw [hend]
    exact Exec.resume_eq hasync' pc
  | none =>
    have hend : x.handlerReturn u f (fun _ => none) =
        ((x.endFib u f).dropAsync ou g).modFib ou g fun b => { b with st := .free, trap := none, async := [] } := by
      simp only [Exec.handlerReturn, horg, Exec.closeAll_of_noWins hwins]
      rfl
    refine ⟨_, .refl _, ?_⟩
    rw [hend, Exec.dropAsync, hasync']
    rfl

/-- What the return of a handler fibre leaves of the two waves. -/
structure Returned (x y : Exec) (u f ou g : Nat) (r : Option Nat) : Prop where
  origin  : y.fib ou g = (x.fib ou g).sentBack r
  handler : (y.fib u f).st = .free
  busy    : ∀ v k, ¬ (v = u ∧ k = f) → ¬ (v = ou ∧ k = g) → x.Busy v k → y.Busy v k

theorem Exec.handlerReturn_returned (hu : (x.wave? u).isSome) (hou : (x.wave? ou).isSome)
    (horg : (x.fib u f).org = some (ou, g)) (hne : ou ≠ u)
    (hwins : (x.fib u f).wins = []) (hasync : (x.fib ou g).async = []) (r : Option Nat) :
    Returned x (x.handlerReturn u f fun _ => r) u f ou g r := by
  obtain ⟨z, hz, heq⟩ := Exec.handlerReturn_eq hu horg hne hwins hasync r
  have hsome : (z.wave? ou).isSome := by rw [hz.listed, Exec.isSome_endFib]; exact hou
  refine ⟨?_, ?_, fun v k hf hg h => ?_⟩
  · rw [heq, Exec.fib_modFib _ _ _ _ _ _ hsome, if_pos ⟨rfl, rfl⟩, hz.fibs, Exec.fib_endFib hu,
      if_neg fun e => hne e.1]
  · rw [heq, Exec.fib_modFib _ _ _ _ _ _ hsome, if_neg fun e => hne e.1.symm, hz.fibs, Exec.fib_endFib hu,
      if_pos ⟨rfl, rfl⟩]
  · rw [heq]
    exact (hz.busy v k (h.endFib hf)).modFib (fun b _ => b.rejoin?_sentBack r) fun e e' => absurd ⟨e.symm, e'.symm⟩ hg

end

/-! ### The instructions -/

section
variable {s : State} {i : Iss} {h : Hd} {target : Iss → Nat → Fib → Except Nat (Option Nat)} (hi : s.x.issue? = some i)
include hi

/-- Outside a handler a return traps (R229). -/
theorem Exec.returnWith_outside (hh : i.inHandler = false) : s.x.returnWith h target =
    ((i.served h).foldl (fun x f => x.takeTrap i.u f (i.trap cNOHANDLER 8)) s.x).advance i 8 := by
  simp only [Exec.returnWith, hi, hh, Bool.not_false, if_true]
  rfl

/-- In a handler wave whose side log is empty, the one served fibre returns, and the waves settle (R229). -/
theorem Exec.returnWith_one (hh : i.inHandler = true) (hlog : i.w.log = []) {f : Nat} (hone : i.served h = [f]) {ou g : Nat}
    (horg : (s.x.fib i.u f).org = some (ou, g)) {r : Option Nat} (hr : target i f (s.x.fib ou g) = .ok r) :
    s.x.returnWith h target = ((s.x.handlerReturn i.u f fun _ => r).advance i 8).settleReturn i := by
  simp only [Exec.returnWith, hi, hh, hlog, List.isEmpty_nil, Bool.not_true, Bool.false_eq_true, if_false, hone, List.foldl_cons,
    List.foldl_nil, horg, hr]

end

/-- Waves that are busy stay as they are when a handler wave's returns settle. -/
theorem Exec.settleReturn_of_busy {x : Exec} {i : Iss} {ou k l : Nat} (horgs : i.w.handler.map HandlerInfo.orgs = some [ou])
    (ho : x.Busy ou k) (hu : x.Busy i.u l) : x.settleReturn i = x := by
  obtain ⟨n, hn, hlist⟩ := Option.map_eq_some_iff.1 horgs
  simp only [Exec.settleReturn, hn, Option.elim_some, hlist, List.foldl_cons, List.foldl_nil, Exec.settleWave_of_busy ho,
    Exec.settleWave_of_busy hu]

end Sys2Proof.Machine

namespace Sys2Proof.Proofs

open Sys2Proof.Machine Sys2Proof.Claim

/-- A return in an ordinary wave traps every served fibre (R229). -/
theorem return_trapped {s : State} {n : Instr} {i : Iss} {h : Hd} {target : Iss → Nat → Fib → Except Nat (Option Nat)}
    (hi : s.x.issue? = some i) (hh : i.inHandler = false) (hwins : ∀ f, (i.w.fib f).wins = [])
    (he : exec n s = s.onX fun x => x.returnWith h target) :
    ∃ t, exec n s = .next t ∧ Trapped s t i (i.served h) 0x1a 0 8 := by
  have hn : (i.served h).Nodup := (Iss.grp_nodup hi).filter _
  refine ⟨_, he, ?_⟩
  simp only [Exec.returnWith_outside hi hh]
  exact trapped_foldl_takeTrap (t := i.trap cNOHANDLER 8) hi hn hwins rfl rfl rfl

/-- A handler wave whose one served fibre stands for fibre g of wave ou, where a return settles nothing more. -/
structure ServesOne (s : State) (i : Iss) (h : Hd) (f ou g : Nat) (v : Wave) : Prop where
  run     : s.x.issue? = some i
  inside  : i.inHandler = true
  log     : i.w.log = []
  one     : i.served h = [f]
  org     : (i.w.fib f).org = some (ou, g)
  apart   : ou ≠ i.u
  wins    : (i.w.fib f).wins = []
  origin  : s.x.wave? ou = some v
  async   : (v.fib g).async = []
  orgs    : i.w.handler.map HandlerInfo.orgs = some [ou]
  handler : ∃ k, k ≠ f ∧ i.w.Busy k
  busy    : ∃ k, k ≠ g ∧ v.Busy k

/-- Such a return sends the origin back, and ends the handler fibre (R229). -/
theorem return_sendsBack {s : State} {n : Instr} {i : Iss} {h : Hd} {f ou g : Nat} {v : Wave}
    {target : Iss → Nat → Fib → Except Nat (Option Nat)} (hs : ServesOne s i h f ou g v)
    (he : exec n s = s.onX fun x => x.returnWith h target) {r : Option Nat} (hr : target i f (v.fib g) = .ok r) :
    ∃ t, exec n s = .next t ∧ t.trust = s.trust ∧ t.mem = s.mem ∧ t.x.fib ou g = (v.fib g).sentBack r ∧
      (t.x.fib i.u f).st = .free := by
  have hw := (Exec.issue?_spec hs.run).2.1
  have hfib : ∀ {u : Nat} {w : Wave}, s.x.wave? u = some w → ∀ k, s.x.fib u k = w.fib k := fun h k => by
    rw [Exec.fib, h, Option.elim_some]
  obtain ⟨k, hkf, hk⟩ := hs.handler
  obtain ⟨l, hlg, hl⟩ := hs.busy
  have horg : (s.x.fib i.u f).org = some (ou, g) := by rw [hfib hw]; exact hs.org
  have hret := Exec.handlerReturn_returned (by rw [hw]; rfl) (by rw [hs.origin]; rfl) horg hs.apart
    (by rw [hfib hw]; exact hs.wins) (by rw [hfib hs.origin]; exact hs.async) r
  have hbusyI := hret.busy i.u k (fun e => hkf e.2) (fun e => hs.apart e.1.symm) ⟨_, hw, hk⟩
  have hbusyO := hret.busy ou l (fun e => hs.apart e.1) (fun e => hlg e.2) ⟨_, hs.origin, hl⟩
  have hx : s.x.returnWith h target = (s.x.handlerReturn i.u f fun _ => r).advance i 8 := by
    rw [Exec.returnWith_one hs.run hs.inside hs.log hs.one horg (by rw [hfib hs.origin]; exact hr)]
    exact Exec.settleReturn_of_busy hs.orgs (hbusyO.advance i 8) (hbusyI.advance i 8)
  refine ⟨_, he, rfl, rfl, ?_, ?_⟩
  · simp only [hx]
    rw [Exec.fib_advance _ _ _ (Iss.grp_nodup hs.run), if_neg fun e => hs.apart e.1, hret.origin, hfib hs.origin]
  · simp only [hx]
    rw [Exec.fib_advance _ _ _ (Iss.grp_nodup hs.run), if_neg fun e => FSt.noConfusion (hret.handler.symm.trans e.2.2.1)]
    exact hret.handler

/-- Settles O26: outside a handler a return traps its served fibres; in one it ends the handler fibre, and no wave settles
further. -/
theorem handlerReturns : Obligations.HandlerReturns := by
  refine ⟨fun s i w hi hh hwins =>
    ⟨return_trapped (n := .eret w) hi hh hwins rfl, return_trapped (n := .emret w) hi hh hwins rfl⟩, ?_⟩
  rintro s i w f ou g b r v hi hh hlog hone horg hne hwins hv rfl htrap - hasync hrejoinV hrejoinI ⟨k, hkf, hk⟩ horgs ⟨l, hlg, hl⟩
    back to_
  have hs : ServesOne s i w.h f ou g v :=
    ⟨hi, hh, hlog, hone, horg, hne, hwins, hv, hasync, horgs, ⟨k, hkf, hrejoinI, hk⟩, ⟨l, hlg, hrejoinV, hl⟩⟩
  have hf : f ∈ i.served w.h := hone ▸ List.mem_singleton_self f
  have hpc : (v.fib g).trapPc = r.pc := by rw [Fib.trapPc, htrap, Option.elim_some]
  have hlen : (v.fib g).trapLen = r.len := by rw [Fib.trapLen, htrap, Option.elim_some]
  refine ⟨fun hm => ?_, fun hm => ?_, fun hm => ?_, fun p hm hb hp => ?_, fun hcause => ?_⟩
  · exact return_sendsBack (n := .eret w) (r := some r.pc) hs rfl (by simp [hm, hpc])
  · exact return_sendsBack (n := .eret w) (r := some ((r.pc + r.len) % 2 ^ 48)) hs rfl (by simp [hm, hpc, hlen])
  · have hback := return_sendsBack (n := .eret w) (r := none) hs rfl (by simp [hm])
    simpa only [Fib.sentBack, back, hasync] using hback
  · exact return_sendsBack (n := .eret w) (r := some ((p f).toNat % 2 ^ 48)) hs rfl
      (by simp [hm, hb f hf, Exec.pairTarget, hp f hf])
  · have hemu : causeEmu r.cause = true := decide_eq_true hcause
    exact return_sendsBack (n := .emret w) (r := some ((r.pc + r.len) % 2 ^ 48)) hs rfl (by simp [htrap, hemu, hpc, hlen])

end Sys2Proof.Proofs
end

section
/-! PROOFS. What the end of one wave's hold leaves of another, and of a wave with no windows to pass (08 R149, 10 R198). -/

namespace Sys2Proof.Machine

/-- What executes once the windows over a wave's held instruction have been passed, before the hold ends (R198). -/
def Exec.passed (x : Exec) (u : Nat) : Exec :=
  match ((x.wave? u).filter fun w => w.hold.elim false Hold.late).bind Wave.passing with
  | some p => x.passWindows u p.1 p.2
  | none => x

theorem Exec.waves_unhold_passed (x : Exec) (u : Nat) :
    (x.unhold u).waves = ((x.passed u).modWave u (Wave.woken (x.passed u).fresh)).waves := by
  unfold Exec.unhold
  extract_lets t y z z'
  split
  · exact Exec.waves_post ..
  · rfl

/-! ### Another wave but for its registers -/

/-- A wave without its registers, which lookahead windows of a handler's fibres may write (R165, R198). -/
def Wave.still (w : Wave) : Wave := { w with v := [], vpois := [] }
def Exec.still (x : Exec) (u : Nat) : Option Wave := (x.wave? u).map Wave.still

theorem Exec.still_congr {x y : Exec} (h : y.waves = x.waves) (u : Nat) : y.still u = x.still u := by
  rw [Exec.still, Exec.still, Exec.wave?_congr h]

theorem Exec.still_writeV (x : Exec) (q f k : Nat) (b : Word) (u : Nat) : (x.writeV q f k b).still u = x.still u := by
  rw [Exec.still, Exec.still, Exec.wave?_writeV]
  split
  · rw [Option.map_map]
    rfl
  · rfl

section
variable {u q : Nat} (hne : u ≠ q)
include hne

theorem Exec.still_modWave (x : Exec) (f : Wave → Wave) : (x.modWave q f).still u = x.still u := by
  rw [Exec.still, Exec.wave?_modWave, if_neg hne, Exec.still]

theorem Exec.still_closeWin (x : Exec) (f : Nat) (l : LookWin) : (x.closeWin q f l).still u = x.still u := by
  have hv := foldl_keeps (fun y : Exec => y.still u) (f := fun (x : Exec) (p : Nat × Word) => x.writeV q f p.1 p.2)
    (fun x p => x.still_writeV q f p.1 p.2 u) l.v x
  have hw := foldl_keeps (fun y : Exec => y.still u) (f := fun (x : Exec) (p : Nat × Word) => x.writeW q p.1 p.2)
    (fun x _ => x.still_modWave hne _) l.w (l.v.foldl (fun x p => x.writeV q f p.1 p.2) x)
  unfold Exec.closeWin
  dsimp only
  split
  · exact hv
  · exact (Exec.still_modWave hne _ _).trans (hw.trans hv)

theorem Exec.still_passWindows (x : Exec) (stop : Bool) (l : List (Nat × List Nat)) :
    (x.passWindows q stop l).still u = x.still u := by
  unfold Exec.passWindows
  refine (foldl_keeps (fun y : Exec => y.still u) (fun x p => ?_) _ _).trans
    (foldl_keeps (fun y : Exec => y.still u) (fun x _ => x.still_modWave hne _) l x)
  split
  · rfl
  · exact (Exec.still_modWave hne _ _).trans (Exec.still_closeWin hne ..)

/-- The end of a hold touches another wave in its registers alone. -/
theorem Exec.still_unhold (x : Exec) : (x.unhold q).still u = x.still u := by
  refine (Exec.still_congr (x.waves_unhold_passed q) u).trans ((Exec.still_modWave hne _ _).trans ?_)
  unfold Exec.passed
  split
  · exact x.still_passWindows hne ..
  · rfl

end

/-! ### A wave that has no windows to pass -/

theorem Exec.wave?_unhold_of_passing {x : Exec} {u : Nat} {w : Wave} (hw : x.wave? u = some w) (hp : w.passing = none) :
    (x.unhold u).wave? u = some (w.woken x.fresh) := by
  have hpassed : x.passed u = x := by
    have hnone : ((x.wave? u).filter fun w => w.hold.elim false Hold.late).bind Wave.passing = none := by
      rw [hw, Option.filter_some]
      split
      · exact hp
      · rfl
    simp only [Exec.passed, hnone]
  rw [Exec.wave?_congr (x.waves_unhold_passed u), hpassed, Exec.wave?_modWave, if_pos rfl, hw, Option.map_some]

/-- Wave u is v, as far as ends of holds have left it: held as v is or no more, with no windows to pass. -/
structure Exec.Resumes (x : Exec) (u : Nat) (v w : Wave) : Prop where
  wave    : x.wave? u = some w
  hold    : w.hold = v.hold ∨ w.hold = none
  passing : w.passing = none
  fibs    : w.fibs = v.fibs
  member  : (w.team, w.exited, w.handler) = (v.team, v.exited, v.handler)

theorem Exec.Resumes.unhold {x : Exec} {u : Nat} {v w : Wave} (h : x.Resumes u v w) (q : Nat) : ∃ w', (x.unhold q).Resumes u v w' := by
  by_cases e : u = q
  · exact ⟨w.woken x.fresh, e ▸ Exec.wave?_unhold_of_passing h.wave h.passing, .inr rfl, rfl, h.fibs, h.member⟩
  · have hstill := x.still_unhold e
    rw [Exec.still, Exec.still, h.wave, Option.map_some] at hstill
    obtain ⟨w', hw', hsame⟩ := Option.map_eq_some_iff.1 hstill
    have hkeep : (w'.still.hold, w'.still.passing, w'.still.fibs, w'.still.team, w'.still.exited, w'.still.handler) = _ :=
      congrArg (fun z : Wave => (z.hold, z.passing, z.fibs, z.team, z.exited, z.handler)) hsame
    simp only [Wave.still, Prod.mk.injEq] at hkeep
    obtain ⟨hhold, hpassing, hfibs, hteam, hexited, hhandler⟩ := hkeep
    exact ⟨w', hw', hhold ▸ h.hold, hpassing.trans h.passing, hfibs.trans h.fibs, by rw [hteam, hexited, hhandler]; exact h.member⟩

theorem Exec.Resumes.foldl {α : Type} {f : Exec → α → Exec} {u : Nat} {v : Wave}
    (hf : ∀ x w a, Exec.Resumes x u v w → ∃ w', (f x a).Resumes u v w') (l : List α) {x : Exec} {w : Wave} (h : x.Resumes u v w) :
    ∃ w', (l.foldl f x).Resumes u v w' := by
  induction l generalizing x w with
  | nil => exact ⟨w, h⟩
  | cons a l ih =>
    obtain ⟨w', h'⟩ := hf x w a h
    exact ih h'

theorem Exec.Resumes.wakeTeam {x : Exec} {u : Nat} {v w : Wave} (h : x.Resumes u v w) (t : Nat) :
    ∃ w', (x.wakeTeam t).Resumes u v w' := by
  unfold Exec.wakeTeam
  split
  · exact ⟨w, h⟩
  · exact h.foldl (fun _ _ q h => h.unhold q) _

/-- `unholdWhere` ends the holds of a list of waves. -/
theorem Exec.unholdWhere_eq (x : Exec) (p : Nat → Wave → Bool) : x.unholdWhere p =
    ((x.waves.filter fun q => q.2.hold.isSome && p q.1 q.2).map Prod.fst).foldl Exec.unhold x := by
  rw [List.foldl_map, List.foldl_filter]
  rfl

end Sys2Proof.Machine
end

section
/-! PROOFS. Quanta and commits (06 R130, 11 R235, 18 R348, R350). -/

namespace Sys2Proof.Machine

/-! ### Closing a quantum (R348) -/

theorem execQuantumClose_of_grid {s : State} {u : Nat} {v : Wave} {m : Team} {g : Grid} (hv : s.x.wave? u = some v)
    (hm : s.x.teamOf v = some m) (hg : s.x.gridOf m = some g) :
    execQuantumClose u s = .next { s with x := if g.quantum ≤ v.qcount then s.x.closeQuantum u else s.x } := by
  simp only [execQuantumClose, State.onX, hv, hm, Option.bind_some, hg, Option.elim_some]

theorem Exec.closeQuantum_open {x : Exec} {u : Nat} {v : Wave} {m : Team} {g : Grid} (hv : x.wave? u = some v)
    (hm : x.teamOf v = some m) (hg : x.gridOf m = some g) (hd : g.determ = true) (hopen : v.closed = false)
    (hown : v.handler = none) : x.closeQuantum u =
      (x.modWave u fun w => { w with closed := true, quanta := w.quanta + 1 }).post 0 (.quantumCommit m.grid) := by
  simp only [Exec.closeQuantum, hv, hopen, hown, Option.isSome_none, Exec.determ_of_gridOf hm hg, hd, Bool.not_true, Bool.or_self,
    Bool.false_eq_true, if_false, hm, Option.elim_some]

/-! ### A commit of a round in which nothing is staged (R350) -/

/-- A wave that has staged nothing performs nothing. -/
theorem State.commitWave_unstaged {s : State} (h : ∀ p ∈ s.x.waves, p.2.staged = []) (u step : Nat) :
    State.commitWave ((s.x.wave? u).elim 0 fun w => w.staged.length) s u step = (s, false) := by
  cases hw : s.x.wave? u with
  | none => rfl
  | some w =>
    rw [Option.elim_some, h _ (SMap.mem_of_find? hw)]
    rfl

theorem State.commitStep_unstaged {s : State} (h : ∀ p ∈ s.x.waves, p.2.staged = []) (g step : Nat) :
    s.commitStep g step = (s, false) :=
  foldl_of_fixed fun p _ => State.commitWave_unstaged h p.1 step

theorem State.commit_unstaged {s : State} {g : Nat} {r : Grid} (hr : s.x.grids.find? g = some r) (hd : r.determ = true)
    (hst : r.st = .running) (hover : s.x.roundOver g r = true) (h : ∀ p ∈ s.x.waves, p.2.staged = []) :
    s.commit g = s.endRound g r := by
  simp only [State.commit, hr, hd, hst, hover, State.commitStep_unstaged h, Bool.not_true, decide_true, Bool.or_self,
    Bool.false_eq_true, if_false, Option.getD_some]

/-- A HALT that the round holds ends the grid (R235, R350). -/
theorem State.st_endRound_halted {s : State} {g : Nat} {r : Grid} (hr : s.x.grids.find? g = some r) (hst : r.st = .running)
    {p : Nat × Nat × Nat × Nat} (hp : r.haltAt = some p) : (s.endRound g r).mem = s.mem ∧
      ((s.endRound g r).x.grids.find? g).map Grid.st = some (if p.2.2.2 < 2 ^ 16 then .halted p.2.2.2 else .faulted) := by
  have hgrids : ∀ (x : Exec) (d : Nat) (e : Ev), (x.post d e).grids = x.grids := fun x d e =>
    Exec.grids_of_besideWaves (x.besideWaves_post d e)
  simp only [State.endRound, hp, State.modX_mem, State.modX_x, hgrids, Exec.endGrid, Exec.modGrid_grids, SMap.find?_modify, hr, if_true,
    Option.map_some, hst, and_self]

/-! ### The end of a round that nothing keeps (R130, R351) -/

/-- Where every handle that a wave waits for is ready, no operation is awaited (R351). -/
theorem Exec.awaited_nil {x : Exec} {g : Nat}
    (hready : ∀ p ∈ x.waves, ∀ k, p.2.hold = some (.handle k) → (p.2.handle k).ready = true)
    (hcoll : x.colls = [] ∨ x.gridWaves g ≠ []) : x.awaited g = [] := by
  refine List.append_eq_nil_iff.2 ⟨List.filterMap_eq_nil_iff.2 fun p hp => ?_, ?_⟩
  · split
    next k hk => exact if_pos (hready p (List.mem_of_mem_filter hp) k hk)
    next => rfl
  · split
    next hempty =>
      rw [hcoll.resolve_right fun h => h (List.isEmpty_iff.1 hempty)]
      rfl
    next => rfl

theorem State.externals_nil {s : State} {g : Nat} (h : s.x.awaited g = []) : s.externals g = (s, false) := by
  rw [State.externals, h, List.foldl_nil]

/-- Invalidations and their acknowledgements write no byte. -/
theorem State.dev_invalArrive (s : State) (die sec : Nat) : (s.invalArrive die sec).mem.dev = s.mem.dev := by
  unfold State.invalArrive
  split <;> rfl

theorem State.dev_invalAck (s : State) (die sec : Nat) : (s.invalAck die sec).mem.dev = s.mem.dev := by
  unfold State.invalAck
  split
  · dsimp only [State.modM]
    split <;> rfl
  · rfl

/-- Where no request waits, a context drains without a write (R129). -/
theorem State.dev_drainCtx {s : State} (hreqs : s.mem.reqs = []) (ctx : Nat) : (s.drainCtx ctx).mem.dev = s.mem.dev := by
  unfold State.drainCtx
  rw [hreqs]
  exact foldl_keeps (fun t : State => t.mem.dev) (fun t _ => (t.invalArrive ..).dev_invalAck .. |>.trans (t.dev_invalArrive ..)) _ s

/-- What the loads of a grid then see (R130): the context has drained, and its cores hold no clean byte. -/
def State.seen (s : State) (g ctx : Nat) : State := (s.x.gridCores g).foldl State.l1Clean (s.drainCtx ctx)

theorem State.besideMem_seen (s : State) (g ctx : Nat) : (s.seen g ctx).x.besideMem = s.x.besideMem :=
  (foldl_keeps (fun t : State => t.x.besideMem) (f := State.l1Clean) (fun _ _ => rfl) _ _).trans (s.besideMem_drainCtx ctx)

theorem State.dev_seen {s : State} (hreqs : s.mem.reqs = []) (g ctx : Nat) : (s.seen g ctx).mem.dev = s.mem.dev :=
  (foldl_keeps (fun t : State => t.mem.dev) (f := State.l1Clean) (fun _ _ => rfl) _ _).trans (State.dev_drainCtx hreqs ctx)

/-- Where no wave stands at a grid barrier, none arrives and none is complete (R164). -/
theorem State.gridSettle_idle {s : State} (h : ∀ p ∈ s.x.waves, p.2.atGridbar = false ∧ ∀ n, p.2.hold ≠ some (.gridbar n))
    (c : Option Nat) : s.gridSettle c = s := by
  have harrive : ∀ u, s.gridArrive u = s := fun u => by
    unfold State.gridArrive
    split
    next => rfl
    next w hw => simp only [(h _ (SMap.mem_of_find? hw)).1, Bool.not_false, Bool.or_true, Bool.true_or, if_true]
  have hopen : ∀ g, s.x.gridbarFull g = false := fun g => by
    unfold Exec.gridbarFull
    cases hws : s.x.gridWaves g with
    | nil => rfl
    | cons p ws =>
      have hp : p ∈ s.x.waves := List.mem_of_mem_filter (hws ▸ List.mem_cons_self : p ∈ s.x.gridWaves g)
      refine Bool.and_eq_false_iff.2 (.inr (List.all_eq_false.2 ⟨p, List.mem_cons_self, ?_⟩))
      split
      next n hn => exact absurd hn ((h p hp).2 n)
      next => exact Bool.false_ne_true
  rw [State.gridSettle, foldl_of_fixed fun u _ => harrive u]
  refine foldl_of_fixed fun p _ => ?_
  simp only [hopen, Bool.and_false, Bool.false_and, Bool.false_eq_true, if_false]

/-- A round that nothing keeps ends: loads see what was committed, and the next round opens (R130, R350). -/
theorem State.endRound_opens {s : State} {g : Nat} {r : Grid} (hhalt : r.haltAt = none) (hnone : s.x.awaited g = [])
    (hbar : ∀ p ∈ s.x.waves, p.2.atGridbar = false ∧ ∀ n, p.2.hold ≠ some (.gridbar n)) :
    s.endRound g r = (s.seen g r.ctx).modX fun x => x.openRound g := by
  have hwaves := Exec.waves_of_besideMem (s.besideMem_seen g r.ctx)
  have hsettle := State.gridSettle_idle (s := s.seen g r.ctx) (by rw [hwaves]; exact hbar) (some g)
  simp only [State.endRound, hhalt, State.externals_nil hnone, Bool.false_eq_true, if_false]
  exact congrArg (fun t : State => t.modX fun x => x.openRound g) hsettle

/-! ### The next round opens (R348, R350) -/

/-- A wave when a round opens (R350): its quantum is empty when it waits or has no Ready fibre. -/
def Wave.opened (w : Wave) : Wave :=
  let waits := w.hold.isSome || !(w.fibs.any fun p => p.2.isReady)
  { w with closed := waits, qcount := 0, quanta := w.quanta + (if w.closed then 0 else 1) + if waits then 1 else 0 }

/-- The holds that end when a round opens: those for the commit, and for another try. -/
def endsAtCommit (w : Wave) : Bool := match w.hold with
  | some .commit => true
  | some (.retry _) => true
  | _ => false

/-- What executes when a round opens, up to its waves' quanta. -/
def Exec.rewoken (x : Exec) (g : Nat) : Exec :=
  ((x.teams.filter fun p => decide (p.2.grid = g)).map (·.1)).foldl (fun x t => x.wakeTeam t) x
def Exec.released (x : Exec) (ws : List Nat) : Exec := x.unholdWhere fun u w => ws.contains u && endsAtCommit w
def Exec.quantaOpened (x : Exec) (ws : List Nat) : Exec := ws.foldl (fun x u => x.modWave u Wave.opened) x

theorem Exec.openRound_eq (x : Exec) (g : Nat) : x.openRound g =
    ((((x.rewoken g).released (((x.rewoken g).gridWaves g).map (·.1))).quantaOpened (((x.rewoken g).gridWaves g).map (·.1))).modGrid g
      fun r => { r with round := r.round + 1 }) := rfl

theorem Exec.besideWaves_rewoken (x : Exec) (g : Nat) : (x.rewoken g).besideWaves = x.besideWaves :=
  Exec.besideWaves_foldl (fun x t => x.besideWaves_wakeTeam t) _ x

/-- A round that opens counts one more. -/
theorem Exec.round_openRound {x : Exec} {g : Nat} {r : Grid} (hr : x.grids.find? g = some r) :
    ((x.openRound g).grids.find? g).map Grid.round = some (r.round + 1) := by
  have hgrids : (((x.rewoken g).released (((x.rewoken g).gridWaves g).map (·.1))).quantaOpened
      (((x.rewoken g).gridWaves g).map (·.1))).grids = x.grids :=
    Exec.grids_of_besideWaves ((Exec.besideWaves_foldl (f := fun x u => x.modWave u Wave.opened) (fun _ _ => rfl) _ _).trans
      ((Exec.besideWaves_unholdWhere ..).trans (x.besideWaves_rewoken g)))
  rw [Exec.openRound_eq, Exec.modGrid_grids, SMap.find?_modify, if_pos rfl, hgrids, hr]
  rfl

/-- A wave that is held no more and has a Ready fibre has an open quantum of length 0. -/
theorem Wave.opened_ready {w : Wave} (hhold : w.hold = none) (hready : (w.fibs.any fun p => p.2.isReady) = true) :
    w.opened.closed = false ∧ w.opened.qcount = 0 := by
  simp only [Wave.opened, hhold, hready, Option.isSome_none, Bool.not_true, Bool.or_self, and_self]

theorem Exec.wave?_quantaOpened {u : Nat} {w : Wave} (hready : (w.fibs.any fun p => p.2.isReady) = true)
    {ws : List Nat} {x : Exec} (h : ∃ v, x.wave? u = some v ∧ v.hold = none ∧ v.fibs = w.fibs ∧
      (u ∈ ws ∨ v.closed = false ∧ v.qcount = 0)) :
    ((x.quantaOpened ws).wave? u).map (fun w => (w.hold, w.closed, w.qcount)) = some (none, false, 0) := by
  induction ws generalizing x with
  | nil =>
    obtain ⟨v, hv, hvhold, -, hopen⟩ := h
    obtain ⟨hclosed, hcount⟩ := hopen.resolve_left List.not_mem_nil
    rw [show x.quantaOpened [] = x from rfl, hv, Option.map_some, hvhold, hclosed, hcount]
  | cons q ws ih =>
    obtain ⟨v, hv, hvhold, hfibs, hopen⟩ := h
    refine ih (x := x.modWave q Wave.opened) ?_
    rw [Exec.wave?_modWave, hv]
    by_cases e : u = q
    · rw [if_pos e]
      exact ⟨_, rfl, hvhold, hfibs, .inr (Wave.opened_ready hvhold (hfibs ▸ hready))⟩
    · rw [if_neg e]
      exact ⟨v, rfl, hvhold, hfibs, hopen.imp_left fun hm => (List.mem_cons.1 hm).resolve_left e⟩

/-- The ends of holds before a round opens leave a wave of the grid among the grid's. -/
theorem Exec.Resumes.mem_gridWaves {x y : Exec} {g u : Nat} {v w : Wave} (h : y.Resumes u v w) (hteams : y.teams = x.teams)
    (hmem : (u, v) ∈ x.gridWaves g) : u ∈ (y.gridWaves g).map (·.1) := by
  obtain ⟨-, hgrid⟩ := List.mem_filter.1 hmem
  have hmember := h.member
  simp only [Prod.mk.injEq] at hmember
  obtain ⟨hteam, hexited, hhandler⟩ := hmember
  refine List.mem_map.2 ⟨(u, w), List.mem_filter.2 ⟨SMap.mem_of_find? h.wave, ?_⟩, rfl⟩
  simp only [Exec.teamOf, hteam, hexited, hhandler, hteams]
  exact hgrid

/-- A wave that is held for the commit, if it is held, is held no more once the holds for it have ended. -/
theorem Exec.Resumes.released {x : Exec} {u : Nat} {v w : Wave} {ws : List Nat} (h : x.Resumes u v w)
    (hhold : v.hold = some .commit) (hu : u ∈ ws) : ∃ w', (x.released ws).Resumes u v w' ∧ w'.hold = none := by
  have hends : (x.released ws).holdOf u = some none := by
    rw [Exec.released, Exec.unholdWhere_eq]
    refine Exec.holdOf_foldl_unhold (h.hold.imp (fun e => ?_) fun e => ?_)
    · have hcommit : w.hold = some .commit := e.trans hhold
      refine ⟨List.mem_map.2 ⟨(u, w), List.mem_filter.2 ⟨SMap.mem_of_find? h.wave, ?_⟩, rfl⟩, by rw [Exec.holdOf, h.wave]; rfl⟩
      simp only [endsAtCommit, hcommit, List.contains_iff_mem.2 hu, Option.isSome_some, Bool.and_self]
    · rw [Exec.holdOf, h.wave, Option.map_some, e]
  obtain ⟨w', hw'⟩ : ∃ w', (x.released ws).Resumes u v w' := by
    rw [Exec.released, Exec.unholdWhere_eq]
    exact h.foldl (fun _ _ q h => h.unhold q) _
  rw [Exec.holdOf, hw'.wave] at hends
  exact ⟨w', hw', Option.some.inj hends⟩

/-- A wave of the grid that is held for the commit, has no windows to pass and has a Ready fibre goes on in the round that opens
(R350). -/
theorem Exec.goesOn_openRound {x : Exec} {g u : Nat} {v : Wave} (hv : x.wave? u = some v) (hmem : (u, v) ∈ x.gridWaves g)
    (hhold : v.hold = some .commit) (hpass : v.passing = none) (hready : ∃ p ∈ v.fibs, p.2.isReady = true) :
    ((x.openRound g).wave? u).map (fun w => (w.hold, w.closed, w.qcount)) = some (none, false, 0) := by
  obtain ⟨w, hw⟩ : ∃ w, (x.rewoken g).Resumes u v w :=
    Exec.Resumes.foldl (fun _ _ t h => h.wakeTeam t) _ (w := v) ⟨hv, .inl rfl, hpass, rfl, rfl⟩
  have hu := hw.mem_gridWaves (Exec.teams_of_besideWaves (x.besideWaves_rewoken g)) hmem
  obtain ⟨w', hw', hnone⟩ := hw.released hhold hu
  exact Exec.wave?_quantaOpened (w := v) (List.any_eq_true.2 hready) ⟨w', hw'.wave, hnone, hw'.fibs, .inl hu⟩

end Sys2Proof.Machine

namespace Sys2Proof.Proofs

open Sys2Proof.Machine Sys2Proof.Claim

/-- Settles O46: a quantum closes when its length is reached; a commit of a round in which nothing is staged or awaited is the
end of the round, by its HALT or by the opening of the next. -/
theorem quanta : Obligations.Quanta := by
  refine ⟨fun s u v m g hv hm hg hd hopen hown => ?_, fun s g r hr hd hst hover hidle => ?_⟩
  · refine ⟨_, execQuantumClose_of_grid hv hm hg, rfl, rfl, ?_⟩
    simp only [Exec.closeQuantum_open hv hm hg hd hopen hown]
    rfl
  · have hexec : exec (.quantumCommit g) s = .next { s.endRound g r with trust := s.trust } := by
      rw [← State.commit_unstaged hr hd hst hover fun p hp => (hidle p hp).1]
      rfl
    refine ⟨fun a b c n hhalt => ?_, fun hhalt hreqs hcoll => ?_⟩
    · obtain ⟨hmem, hends⟩ := State.st_endRound_halted hr hst hhalt
      exact ⟨_, hexec, rfl, hmem, hends⟩
    · have hround : s.endRound g r = (s.seen g r.ctx).modX fun x => x.openRound g :=
        State.endRound_opens hhalt (Exec.awaited_nil (fun p hp => (hidle p hp).2.2.2) hcoll)
          fun p hp => ⟨(hidle p hp).2.1, (hidle p hp).2.2.1⟩
      have hbeside := s.besideMem_seen g r.ctx
      have hgrids := Exec.grids_of_besideMem hbeside
      have hwaves := Exec.waves_of_besideMem hbeside
      have hteams := Exec.teams_of_besideMem hbeside
      rw [hround] at hexec
      refine ⟨_, hexec, rfl, State.dev_seen hreqs g r.ctx, Exec.round_openRound (by rw [hgrids]; exact hr),
        fun u v hv hmem hhold hpass hready => Exec.goesOn_openRound ?_ ?_ hhold hpass hready⟩
      · rw [Exec.wave?_congr hwaves]
        exact hv
      · simpa only [Exec.gridWaves, Exec.teamOf, hwaves, hteams] using hmem

end Sys2Proof.Proofs
end

section
/-! PROOFS. Integer operations on words, as the model computes them on numbers (12 R240 to R242). -/

namespace Sys2Proof.Machine

theorem toNat_ofNat_of_lt {n : Nat} (h : n < 2 ^ 32) : (BitVec.ofNat 32 n).toNat = n := by
  rw [BitVec.toNat_ofNat, Nat.mod_eq_of_lt h]

/-! ### Products, bounds and complements (R240) -/

theorem computes_vMulh : Computes vMulh fun a b => BitVec.ofInt 32 (a.toInt * b.toInt / 2 ^ 32) := fun a b => by
  rw [vMulh, s32_toNat, s32_toNat, wrap_eq]

theorem computes_vMulhu : Computes vMulhu fun a b => BitVec.ofNat 32 (a.toNat * b.toNat / 2 ^ 32) := fun a b =>
  (toNat_ofNat_of_lt (Nat.div_lt_of_lt_mul (Nat.mul_lt_mul'' a.isLt b.isLt))).symm

theorem computes_vMinu : Computes vMinu fun a b => if a.ule b then a else b := fun a b => by
  simp only [vMinu, BitVec.ule, decide_eq_true_eq, apply_ite BitVec.toNat, Nat.min_def]

theorem computes_vMaxu : Computes vMaxu fun a b => if a.ule b then b else a := fun a b => by
  simp only [vMaxu, BitVec.ule, decide_eq_true_eq, apply_ite BitVec.toNat, Nat.max_def]

theorem computes_vAdds :
    Computes vAdds fun a b => BitVec.ofInt 32 (min (max (a.toInt + b.toInt) (-2 ^ 31)) (2 ^ 31 - 1)) := fun a b => by
  rw [vAdds, s32_toNat, s32_toNat, wrap_eq]

theorem vNot_toNat (a : Word) : vNot a.toNat = (~~~a).toNat := by
  rw [vNot, BitVec.toNat_not, Nat.mod_eq_of_lt a.isLt]

theorem computes_vAndn : Computes vAndn fun a b => a &&& ~~~b := fun a b => by
  rw [vAndn, vNot_toNat]
  rfl

/-! ### Rotations and fields (R240) -/

/-- The words of a rotation overlap in no bit, so that their sum is their union. -/
theorem computes_vRol : Computes vRol fun a b => a.rotateLeft b.toNat := fun a b => by
  have hk : b.toNat % 32 < 32 := Nat.mod_lt _ (by decide)
  rw [vRol, BitVec.toNat_rotateLeft, Nat.shiftLeft_eq, Nat.shiftRight_eq_div_pow]
  generalize b.toNat % 32 = k at hk
  have hsplit : 2 ^ (32 - k) * 2 ^ k = 2 ^ 32 := by rw [← Nat.pow_add, Nat.sub_add_cancel hk.le]
  have hhigh : a.toNat * 2 ^ k % 2 ^ 32 = 2 ^ k * (a.toNat % 2 ^ (32 - k)) := by
    rw [← hsplit, Nat.mul_mod_mul_right, Nat.mul_comm]
  have hlow : a.toNat / 2 ^ (32 - k) < 2 ^ k := Nat.div_lt_of_lt_mul (by rw [hsplit]; exact a.isLt)
  have hfits : 2 ^ k * (a.toNat % 2 ^ (32 - k)) + a.toNat / 2 ^ (32 - k) < 2 ^ 32 := by
    have hmod : a.toNat % 2 ^ (32 - k) + 1 ≤ 2 ^ (32 - k) := Nat.mod_lt _ (Nat.two_pow_pos _)
    have hmul := Nat.mul_le_mul_left (2 ^ k) hmod
    rw [Nat.mul_comm (2 ^ k) (2 ^ (32 - k)), hsplit, Nat.mul_succ] at hmul
    omega
  rw [Nat.add_mod, hhigh, Nat.mod_eq_of_lt (hlow.trans (Nat.pow_lt_pow_right (by decide) hk)), Nat.mod_eq_of_lt hfits,
    Nat.two_pow_add_eq_or_of_lt hlow]

/-- A rotation to the right is one to the left by the rest of the word. -/
theorem rotateRight_eq_rotateLeft (a : Word) (k : Nat) : a.rotateRight k = a.rotateLeft (32 - k % 32) := by
  have hk : k % 32 < 32 := Nat.mod_lt _ (by decide)
  apply BitVec.eq_of_toNat_eq
  rw [BitVec.toNat_rotateRight, BitVec.toNat_rotateLeft]
  by_cases h0 : k % 32 = 0
  · have hlow : a.toNat >>> 32 = 0 := Nat.shiftRight_eq_zero _ _ a.isLt
    have hhigh : a.toNat <<< 32 % 2 ^ 32 = 0 := by rw [Nat.shiftLeft_eq, Nat.mul_mod_left]
    rw [h0, Nat.sub_zero, Nat.mod_self, hlow, hhigh, Nat.shiftRight_zero, Nat.shiftLeft_zero, Nat.or_zero, Nat.or_zero,
      Nat.mod_eq_of_lt a.isLt]
  · rw [Nat.mod_eq_of_lt (by omega : 32 - k % 32 < 32), Nat.sub_sub_self hk.le, Nat.or_comm]

theorem computes_vRor : Computes vRor fun a b => a.rotateRight b.toNat := fun a b => by
  have hleft := computes_vRol a (BitVec.ofNat 32 (32 - b.toNat % 32))
  simpa only [vRor, toNat_ofNat_of_lt (show 32 - b.toNat % 32 < 2 ^ 32 by omega), ← rotateRight_eq_rotateLeft] using hleft

theorem computes_vBfe : Computes vBfe fun a b =>
    BitVec.ofNat 32 (a.toNat / 2 ^ (b.toNat % 256) % 2 ^ min (b.toNat / 256 % 256) 32) := fun a _ =>
  (toNat_ofNat_of_lt (((Nat.mod_le ..).trans (Nat.div_le_self ..)).trans_lt a.isLt)).symm

/-! ### Division (R241) -/

theorem toNat_eq_zero_iff (b : Word) : b.toNat = 0 ↔ b = 0 := (BitVec.toNat_eq (x := b) (y := 0)).symm

theorem computes_vDiv : Computes vDiv Claim.divs := fun a b => by
  simp only [vDiv, Claim.divs, toNat_eq_zero_iff, apply_ite BitVec.toNat, s32_toNat, wrap_eq, BitVec.toNat_allOnes]

theorem computes_vRem : Computes vRem Claim.rems := fun a b => by
  simp only [vRem, Claim.rems, toNat_eq_zero_iff, apply_ite BitVec.toNat, s32_toNat, wrap_eq, Int.tmod_def]

theorem computes_vDivu : Computes vDivu Claim.divu := fun a b => by
  simp only [vDivu, Claim.divu, toNat_eq_zero_iff, apply_ite BitVec.toNat, BitVec.toNat_allOnes,
    toNat_ofNat_of_lt ((Nat.div_le_self a.toNat b.toNat).trans_lt a.isLt)]

theorem computes_vRemu : Computes vRemu Claim.remu := fun a b => by
  simp only [vRemu, Claim.remu, toNat_eq_zero_iff, apply_ite BitVec.toNat,
    toNat_ofNat_of_lt ((Nat.mod_le a.toNat b.toNat).trans_lt a.isLt)]

/-! ### Comparisons (R242) -/

theorem vCond_toNat {code : Nat} (h : code ≤ 9) (a b : Word) : vCond code a.toNat b.toNat = Claim.condition code a b := by
  have heq : decide (a.toNat = b.toNat) = (a == b) := by
    rw [Bool.eq_iff_iff, decide_eq_true_eq, beq_iff_eq, BitVec.toNat_eq]
  have hne : decide (a.toNat ≠ b.toNat) = (a != b) := by rw [bne, ← heq, decide_not]
  have hslt (a b : Word) : decide (s32 a.toNat < s32 b.toNat) = a.slt b := by rw [s32_toNat, s32_toNat]; rfl
  have hsle (a b : Word) : decide (s32 a.toNat ≤ s32 b.toNat) = a.sle b := by rw [s32_toNat, s32_toNat]; rfl
  match code, h with
  | 0, _ => exact heq
  | 1, _ => exact hne
  | 2, _ => exact hslt a b
  | 3, _ => exact hsle a b
  | 4, _ => exact hslt b a
  | 5, _ => exact hsle b a
  | 6, _ => rfl
  | 7, _ => rfl
  | 8, _ => rfl
  | 9, _ => rfl

end Sys2Proof.Machine

namespace Sys2Proof.Proofs

open Sys2Proof.Machine Sys2Proof.Claim

/-- Settles O1: each instruction is the driver of two sources at its operation, and each operation on numbers is that on
words. -/
theorem integerTwoSources : Obligations.IntegerTwoSources := by
  intro s i w a b hs hb hab
  have run : ∀ {n g p}, Computes g p → exec n s = (s.onX fun x => x.alu2 (opndsOf w) g) →
      RunsAs s n i 8 w.h fun f => one w.d.toNat (p (a f) (b f)) := fun hp he => runsAs_alu2 hs hb hab hp he
  simp only [List.forall_mem_cons]
  exact ⟨run computes_vAdd rfl, run computes_vSub rfl, run computes_vMul rfl, run computes_vMulh rfl, run computes_vMulhu rfl,
    run computes_vMin rfl, run computes_vMax rfl, run computes_vMinu rfl, run computes_vMaxu rfl, run computes_vAdds rfl,
    run computes_vAnd rfl, run computes_vOr rfl, run computes_vXor rfl, run computes_vAndn rfl, run computes_vShl rfl,
    run computes_vShr rfl, run computes_vSar rfl, run computes_vRol rfl, run computes_vRor rfl, run computes_vBfe rfl,
    fun _ h => absurd h List.not_mem_nil⟩

/-- Settles O2: the quotients and remainders on numbers are those on words, a zero divisor among them. -/
theorem integerDivision : Obligations.IntegerDivision := fun _ _ _ _ _ hs hb hab =>
  ⟨runsAs_alu2 hs hb hab computes_vDiv rfl, runsAs_alu2 hs hb hab computes_vRem rfl, runsAs_alu2 hs hb hab computes_vDivu rfl,
    runsAs_alu2 hs hb hab computes_vRemu rfl⟩

/-- Settles O5: the ten conditions on numbers are those on words. -/
theorem integerCompare : Obligations.IntegerCompare := by
  intro s i w a b hs hb hab hcode
  refine runsAs_perFibre hs hb rfl (fun f hf => ?_) fun _ => rfl
  rw [orPoison_ab hab _ hf]
  exact congrArg (Res.pred w.d.toNat) (vCond_toNat hcode (a f) (b f))

end Sys2Proof.Proofs
end

section
/-! PROOFS. Integer instructions of one source, and the moves of an immediate and of a W register (12 R240). -/

namespace Sys2Proof.Machine

/-- The model's g computes p on the number of a word. -/
def Computes1 (g : Nat → Nat) (p : Word → Word) : Prop := ∀ a : Word, g a.toNat = (p a).toNat

/-- One source, one destination word. -/
theorem runsAs_alu1 {s : State} {n : Instr} {i : Iss} {o : Opnds} {a : Nat → Word} (hs : Claim.Issues s i)
    (hb : Claim.InBudget s i o.h (o.d :: o.s1.regs)) (ha : Claim.Source s i o a) {g : Nat → Nat} {p : Word → Word}
    (hp : Computes1 g p) (he : exec n s = s.onX fun x => x.alu1 o g) :
    Claim.RunsAs s n i o.len o.h fun f => Claim.one o.d (p (a f)) :=
  runsAs_perFibre hs hb he (fun f hf => by rw [ha f hf, orPoison, hp, word_toNat]) fun _ => rfl

/-! ### Signs and complements -/

theorem computes_vAbs : Computes1 vAbs fun a => BitVec.ofNat 32 a.toInt.natAbs := fun a => by
  rw [vAbs, s32_toNat, wrap_eq, BitVec.ofInt_natCast]

theorem computes_vNeg : Computes1 vNeg fun a => -a := fun a => by
  have ha := a.isLt
  rw [vNeg, wrap, BitVec.toNat_neg]
  omega

theorem computes_vNot : Computes1 vNot fun a => ~~~a := vNot_toNat

/-! ### Bits of a word -/

theorem bitOf_toNat {n : Nat} (a : BitVec n) (k : Nat) : bitOf a.toNat k = a.getLsbD k := bitOf_eq_testBit ..

theorem computes_vPopc : Computes1 vPopc fun a => BitVec.ofNat 32 ((List.range 32).countP a.getLsbD) := fun a => by
  have hle : (List.range 32).countP a.getLsbD ≤ 32 := List.countP_le_length
  rw [toNat_ofNat_of_lt (by omega), vPopc]
  exact congrArg (List.countP · (List.range 32)) (funext (bitOf_toNat a))

/-- The highest bit that is set is the first one from above. -/
theorem find?_getMsbD {a : Word} (h : a.toNat ≠ 0) : (List.range 32).find? a.getMsbD = some (31 - a.toNat.log2) := by
  have hlog : a.toNat.log2 < 32 := (Nat.log2_lt h).2 a.isLt
  refine List.find?_range_eq_some.2 ⟨?_, List.mem_range.2 (by omega), fun j hj => ?_⟩
  · rw [BitVec.getMsbD_eq_getLsbD, show 32 - 1 - (31 - a.toNat.log2) = a.toNat.log2 by omega, ← BitVec.testBit_toNat,
      Nat.testBit_log2 h, decide_eq_true (by omega), Bool.and_true]
  · have hzero : a.toNat.testBit (32 - 1 - j) = false :=
      Nat.testBit_lt_two_pow (Nat.lt_log2_self.trans_le (Nat.pow_le_pow_right (by decide) (by omega)))
    rw [BitVec.getMsbD_eq_getLsbD, ← BitVec.testBit_toNat, hzero, Bool.and_false, Bool.not_false]

theorem computes_vClz : Computes1 vClz fun a => BitVec.ofNat 32 (((List.range 32).find? a.getMsbD).getD 32) := fun a => by
  by_cases h : a.toNat = 0
  · rw [(toNat_eq_zero_iff a).1 h]
    decide
  · simp only [vClz, if_neg h, find?_getMsbD h, Option.getD_some, ilog2]
    exact (toNat_ofNat_of_lt (by omega)).symm

theorem computes_vCtz : Computes1 vCtz fun a => BitVec.ofNat 32 (((List.range 32).find? a.getLsbD).getD 32) := fun a => by
  have hle : ((List.range 32).find? a.getLsbD).getD 32 ≤ 32 := by
    cases h : (List.range 32).find? a.getLsbD with
    | none => exact le_rfl
    | some k => exact (List.mem_range.1 (List.mem_of_find?_eq_some h)).le
  rw [toNat_ofNat_of_lt (by omega), vCtz, findIdx_range, funext (bitOf_toNat a)]

/-- A bit that is clear, and is set if c. -/
theorem bitOf_add_bit {x i : Nat} (h : bitOf x i = false) (c : Bool) (j : Nat) :
    bitOf (x + if c then 2 ^ i else 0) j = (bitOf x j || (c && decide (i = j))) := by
  cases c with
  | false => simp
  | true => rw [if_pos rfl, add_two_pow_eq_or h, bitOf_eq_testBit, Nat.testBit_or, Nat.testBit_two_pow, ← bitOf_eq_testBit,
      Bool.true_and]

/-- The bits that BREV has set once it has read the first n bits. -/
theorem bitOf_brev (a k : Nat) : ∀ n ≤ 32,
    bitOf ((List.range n).foldl (fun r i => r + (if bitOf a i then 2 ^ (31 - i) else 0)) 0) k =
      (decide (k < 32 ∧ 31 - k < n) && bitOf a (31 - k))
  | 0, _ => by simp [bitOf_eq_testBit]
  | n + 1, hn => by
    have ih := fun k => bitOf_brev a k n (by omega)
    have hclear := ih (31 - n)
    rw [show 31 - (31 - n) = n by omega, decide_eq_false (by omega), Bool.false_and] at hclear
    rw [List.range_succ, List.foldl_append, List.foldl_cons, List.foldl_nil, bitOf_add_bit hclear, ih]
    by_cases hk : 31 - n = k
    · have hplace : 31 - k = n := by omega
      rw [hplace, decide_eq_true hk, decide_eq_false (by omega), decide_eq_true (by omega), Bool.false_and, Bool.false_or,
        Bool.and_true, Bool.true_and]
    · have hbelow : (k < 32 ∧ 31 - k < n) ↔ k < 32 ∧ 31 - k < n + 1 := by omega
      rw [decide_eq_false hk, Bool.and_false, Bool.or_false, decide_eq_decide.2 hbelow]

theorem computes_vBrev : Computes1 vBrev fun a => a.reverse := fun a => by
  refine eq_of_bitOf_eq fun k => ?_
  rw [vBrev, bitOf_brev _ _ _ le_rfl, bitOf_toNat, bitOf_toNat, BitVec.getLsbD_reverse, BitVec.getMsbD_eq_getLsbD]
  congr 2
  simp only [eq_iff_iff]
  omega

end Sys2Proof.Machine

namespace Sys2Proof.Proofs

open Sys2Proof.Machine Sys2Proof.Claim

/-- Settles O3: each instruction is the driver of one source at its operation, and each operation on numbers is that on
words. -/
theorem integerOneSource : Obligations.IntegerOneSource := by
  refine ⟨fun s i w a hs hb ha => ?_, fun s i w hs hb => ?_, fun s i w hs hb => ?_⟩
  · have run : ∀ {n g p}, Computes1 g p → exec n s = (s.onX fun x => x.alu1 (opndsOf w) g) →
        RunsAs s n i 8 w.h fun f => one w.d.toNat (p (a f)) := fun hp he => runsAs_alu1 hs hb ha hp he
    simp only [List.forall_mem_cons]
    exact ⟨run computes_vAbs rfl, run computes_vNeg rfl, run computes_vNot rfl, run computes_vPopc rfl, run computes_vClz rfl,
      run computes_vCtz rfl, run computes_vBrev rfl, runsAs_move hs hb ha rfl, fun _ h => absurd h List.not_mem_nil⟩
  · exact runsAs_perFibre hs hb rfl (fun f hf => word_toNat w.d.toNat w.imm) fun _ => rfl
  · exact runsAs_perFibre hs hb rfl (fun f hf => word_toNat w.d.toNat _) fun _ => rfl

end Sys2Proof.Proofs
end

section
/-! PROOFS. Integer instructions with a third source, with a carry or select predicate, and on pairs (12 R240). -/

namespace Sys2Proof.Machine

/-- The model's g computes p on the numbers of three words. -/
def Computes3 (g : Nat → Nat → Nat → Nat) (p : Word → Word → Word → Word) : Prop :=
  ∀ a b c : Word, g a.toNat b.toNat c.toNat = (p a b c).toNat

/-- The model's g computes a word p and perhaps a predicate q on the numbers of two words and a predicate. -/
def ComputesP (g : Nat → Nat → Bool → Nat × Option Bool) (p : Word → Word → Bool → Word)
    (q : Word → Word → Bool → Option Bool) : Prop :=
  ∀ (a b : Word) (c : Bool), g a.toNat b.toNat c = ((p a b c).toNat, q a b c)

/-- The model's g computes q on the numbers of a pair and a word. -/
def Computes64 (g : Nat → Nat → Nat) (q : BitVec 64 → Word → BitVec 64) : Prop :=
  ∀ (p : BitVec 64) (b : Word), g p.toNat b.toNat = (q p b).toNat

section
variable {s : State} {n : Instr} {i : Iss} {o : Opnds} {a b c : Nat → Word}

/-! ### Drivers -/

/-- Two sources and a register S3, one destination word. -/
theorem runsAs_alu3 (hs : Claim.Issues s i) (hb : Claim.InBudget s i o.h (o.named ++ [o.s3])) (hab : Claim.Sources s i o a b)
    (hc : Claim.Register s i o.h o.s3 c) {g : Nat → Nat → Nat → Nat} {p : Word → Word → Word → Word}
    (hp : Computes3 g p) (he : exec n s = s.onX fun x => x.alu3 o g) :
    Claim.RunsAs s n i o.len o.h fun f => Claim.one o.d (p (a f) (b f) (c f)) :=
  runsAs_perFibre hs hb he (fun f hf => by rw [orPoison_ab hab _ hf, orPoison_register hc _ hf, hp, word_toNat]) fun _ => rfl

/-- Two sources and the predicate S3, one destination word and perhaps a new P[S3]. -/
theorem runsAs_aluP (hs : Claim.Issues s i) (hb : Claim.InBudget s i o.h o.named) (hab : Claim.Sources s i o a b)
    {g : Nat → Nat → Bool → Nat × Option Bool} {p : Word → Word → Bool → Word} {q : Word → Word → Bool → Option Bool}
    (hp : ComputesP g p q) (he : exec n s = s.onX fun x => x.aluP o g) :
    Claim.RunsAs s n i o.len o.h fun f => { v := [(o.d, p (a f) (b f) ((i.w.fib f).pred o.s3))]
                                            p := (q (a f) (b f) ((i.w.fib f).pred o.s3)).toList.map fun z => (o.s3, z) } :=
  runsAs_perFibre hs hb he (fun f hf => by simp only [orPoison_ab hab _ hf, hp (a f) (b f), word_toNat, Claim.one]) fun _ => rfl

theorem pair_toNat (d : Nat) (v : BitVec 64) : Res.pair d v.toNat = Claim.two d v := by
  rw [← two_eq_pair, BitVec.ofNat_toNat, BitVec.setWidth_eq]

theorem orPoison_pair {h : Hd} {k : Nat} {p : Nat → BitVec 64} (hp : Claim.Pair s i h k p) (g : Nat → Res) {f : Nat}
    (hf : f ∈ i.served h) : orPoison (s.x.pair i f k) g = g (p f).toNat := by
  rw [hp f hf]
  rfl

/-- A pair and a word, a destination pair. -/
theorem runsAs_alu64 {k : Nat} {p : Nat → BitVec 64} (hs : Claim.Issues s i)
    (hb : Claim.InBudget s i o.h (pairRegs o.d ++ pairRegs k ++ o.s2.regs)) (hp : Claim.Pair s i o.h k p)
    (hsource : ∀ f ∈ i.served o.h, s.x.operand i f o.s2 = some (b f).toNat) {g : Nat → Nat → Nat}
    {q : BitVec 64 → Word → BitVec 64} (hq : Computes64 g q) (he : exec n s = s.onX fun x => x.alu64 o k g) :
    Claim.RunsAs s n i o.len o.h fun f => Claim.two o.d (q (p f) (b f)) :=
  runsAs_perFibre hs hb he (fun f hf => by rw [orPoison_pair hp _ hf, hsource f hf, orPoison, hq, pair_toNat]) fun _ => rfl

end

/-! ### Third sources -/

theorem computes_imad : Computes3 (fun a b c => (a * b + c) % 2 ^ 32) fun a b c => a * b + c := fun a b c => by
  rw [BitVec.toNat_add, BitVec.toNat_mul, Nat.mod_add_mod]

/-- A mask within a word takes nothing of what lies above the word. -/
theorem land_toNat (x : Nat) (m : Word) : Nat.land x m.toNat = (BitVec.ofNat 32 x &&& m).toNat := by
  have hm : m.toNat &&& 2 ^ 32 - 1 = m.toNat := by rw [Nat.and_two_pow_sub_one_eq_mod, Nat.mod_eq_of_lt m.isLt]
  rw [BitVec.toNat_and, BitVec.toNat_ofNat, ← Nat.and_two_pow_sub_one_eq_mod, Nat.and_assoc, Nat.and_comm _ m.toNat, hm]
  rfl

theorem ofNat_mul_two_pow (a : Word) (k : Nat) : BitVec.ofNat 32 (a.toNat * 2 ^ k) = a <<< k :=
  BitVec.eq_of_toNat_eq (by rw [BitVec.toNat_ofNat, BitVec.toNat_shiftLeft, Nat.shiftLeft_eq])

theorem bfiMask_toNat (c : Word) :
    (2 ^ min (c.toNat / 256 % 256) 32 - 1) * 2 ^ (c.toNat % 256) % 2 ^ 32 = (Claim.bfiMask c).toNat :=
  (BitVec.toNat_ofNat ..).symm

theorem computes_vBfi : Computes3 vBfi fun a b c =>
    (a &&& ~~~Claim.bfiMask c) ||| (b <<< (c.toNat % 256) &&& Claim.bfiMask c) := fun a b c => by
  simp only [vBfi, bfiMask_toNat, vNot_toNat, land_toNat, ofNat_mul_two_pow, BitVec.ofNat_toNat, BitVec.setWidth_eq]
  rfl

theorem permByte_toNat (a b c : Word) (n : Nat) :
    permByte (a.toNat + 2 ^ 32 * b.toNat) c.toNat n = Claim.permuteByte a b c n := by
  rw [permByte, Claim.permuteByte, Nat.pow_mul]

theorem permByte_lt (x c n : Nat) : permByte x c n < 256 := by
  simp only [permByte]
  split
  · exact Nat.mod_lt _ (by decide)
  · split <;> decide

/-- Four bytes, low first, as a number. -/
theorem bytes_sum {p q r t : Nat} (hp : p < 256) (hq : q < 256) (hr : r < 256) (ht : t < 256) :
    p + 2 ^ 8 * q + 2 ^ 16 * r + 2 ^ 24 * t = ([p * 256 ^ 0, q * 256 ^ 1, r * 256 ^ 2, t * 256 ^ 3].sum) % 2 ^ 32 := by
  rw [List.sum_cons, List.sum_cons, List.sum_cons, List.sum_cons, List.sum_nil]
  omega

theorem computes_vPerm : Computes3 vPerm fun a b c =>
    BitVec.ofNat 32 ((List.range 4).map fun n => Claim.permuteByte a b c n * 256 ^ n).sum := fun a b c => by
  have hlt (n : Nat) : Claim.permuteByte a b c n < 256 := by
    rw [← permByte_toNat]
    exact permByte_lt ..
  simp only [vPerm, permByte_toNat]
  rw [bytes_sum (hlt 0) (hlt 1) (hlt 2) (hlt 3), ← BitVec.toNat_ofNat]
  rfl

/-! ### Carries and selections -/

theorem computes_iaddc : ComputesP
    (fun a b c => ((a + b + if c then 1 else 0) % 2 ^ 32, some (decide (2 ^ 32 ≤ a + b + if c then 1 else 0))))
    (fun a b c => a + b + BitVec.ofNat 32 c.toNat)
    (fun a b c => some (decide (2 ^ 32 ≤ a.toNat + b.toNat + c.toNat))) := fun a b c => by
  have hc : (if c = true then 1 else 0) = c.toNat := by cases c <;> rfl
  simp only [hc, BitVec.toNat_add, BitVec.toNat_ofNat, Nat.mod_add_mod, Nat.add_mod_mod]

theorem computes_isubb : ComputesP
    (fun a b c => (wrap 32 ((a : Int) - b - if c then 1 else 0), some (decide ((a : Int) - b - (if c then 1 else 0) < 0))))
    (fun a b c => a - b - BitVec.ofNat 32 c.toNat)
    (fun a b c => some (decide (a.toNat < b.toNat + c.toNat))) := fun a b c => by
  have hc : (if c = true then 1 else 0 : Int) = c.toNat := by cases c <;> rfl
  have hborrow : ((a.toNat : Int) - b.toNat - c.toNat < 0) ↔ a.toNat < b.toNat + c.toNat := by omega
  have hlt := c.toNat_lt
  have hword : BitVec.ofInt 32 ((a.toNat : Int) - b.toNat - c.toNat) = a - b - BitVec.ofNat 32 c.toNat := by
    apply BitVec.eq_of_toNat_eq
    rw [BitVec.toNat_ofInt, BitVec.toNat_sub, BitVec.toNat_sub, toNat_ofNat_of_lt (by omega)]
    omega
  simp only [hc, hborrow, wrap_eq, hword]

theorem computes_isel : ComputesP (fun a b c => (if c then a else b, none)) (fun a b c => if c then a else b)
    (fun _ _ _ => none) := fun a b c => by rw [apply_ite BitVec.toNat]

/-! ### Pairs -/

theorem toNat_setWidth_64 (a : Word) : (a.setWidth 64).toNat = a.toNat := BitVec.toNat_setWidth_of_le (by decide)

theorem computes_vShl64 : Computes64 vShl64 fun p b => p <<< b.toNat := fun p b => by
  rw [vShl64, BitVec.toNat_shiftLeft, Nat.shiftLeft_eq]
  split
  · rfl
  next h => rw [Nat.mod_eq_zero_of_dvd ((Nat.pow_dvd_pow 2 (by omega)).mul_left _)]

theorem computes_vShr64 : Computes64 vShr64 fun p b => p >>> b.toNat := fun p b => by
  rw [vShr64, BitVec.toNat_ushiftRight, Nat.shiftRight_eq_div_pow]
  split
  · rfl
  next h => rw [Nat.div_eq_of_lt (p.isLt.trans_le (Nat.pow_le_pow_right (by decide) (by omega)))]

theorem computes_lea (k : Nat) :
    Computes64 (fun a b => (a + b * 2 ^ k) % 2 ^ 64) fun p b => p + b.setWidth 64 <<< k := fun p b => by
  rw [BitVec.toNat_add, BitVec.toNat_shiftLeft, toNat_setWidth_64, Nat.shiftLeft_eq, Nat.add_mod_mod]

theorem imad64_toNat (a b : Word) (r : BitVec 64) :
    (a.toNat * b.toNat + r.toNat) % 2 ^ 64 = (a.setWidth 64 * b.setWidth 64 + r).toNat := by
  rw [BitVec.toNat_add, BitVec.toNat_mul, toNat_setWidth_64, toNat_setWidth_64, Nat.mod_add_mod]

end Sys2Proof.Machine

namespace Sys2Proof.Proofs

open Sys2Proof.Machine Sys2Proof.Claim

/-- Settles O4: each instruction is the driver of its operands at its operation, and each operation on numbers is that on words
and pairs. -/
theorem integerWide : Obligations.IntegerWide := by
  intro s i w hs o d carry
  refine ⟨fun a b c hb hab hc => ?_, fun a b hb hab => ?_, fun p q hb hp hq => ?_, fun a b r hb hab hr => ?_,
    fun p b hb hp hsource => ?_⟩
  · have run : ∀ {n g p}, Computes3 g p → exec n s = (s.onX fun x => x.alu3 (opndsOf w) g) →
        RunsAs s n i 8 w.h fun f => one w.d.toNat (p (a f) (b f) (c f)) := fun hp he => runsAs_alu3 hs hb hab hc hp he
    exact ⟨run computes_imad rfl, run computes_vBfi rfl, run computes_vPerm rfl⟩
  · have run : ∀ {n g p q}, ComputesP g p q → exec n s = (s.onX fun x => x.aluP (opndsOf w) g) →
        RunsAs s n i 8 w.h fun f => { v := [(w.d.toNat, p (a f) (b f) ((i.w.fib f).pred w.s3.toNat))]
                                      p := (q (a f) (b f) ((i.w.fib f).pred w.s3.toNat)).toList.map fun z => (w.s3.toNat, z) } :=
      fun hp he => runsAs_aluP hs hb hab hp he
    exact ⟨run computes_iaddc rfl, run computes_isubb rfl, run computes_isel rfl⟩
  · refine runsAs_perFibre hs hb rfl (fun f hf => ?_) fun _ => rfl
    rw [orPoison_pair hp _ hf, orPoison_pair hq _ hf, ← BitVec.toNat_add, pair_toNat]
  · refine runsAs_perFibre hs hb rfl (fun f hf => ?_) fun _ => rfl
    rw [orPoison_ab hab _ hf]
    exact (orPoison_pair hr _ hf).trans (by rw [imad64_toNat]; exact pair_toNat ..)
  · have run : ∀ {n g q}, Computes64 g q → exec n s = (s.onX fun x => x.alu64 (opndsOf w) w.s1.toNat g) →
        RunsAs s n i 8 w.h fun f => two w.d.toNat (q (p f) (b f)) := fun hq he => runsAs_alu64 hs hb hp hsource hq he
    exact ⟨run computes_vShl64 rfl, run computes_vShr64 rfl, run (computes_lea w.s3.toNat) rfl⟩

end Sys2Proof.Proofs
end

section
/-! PROOFS. Wave reductions, scans and arg-reductions (12 R245 to R247). -/

namespace Sys2Proof.Machine

section
variable {s : State} {n : Instr} {i : Iss} {h : Hd}

/-! ### Combining over the served fibres -/

/-- The fibres of a list that contribute are all of it when each is within its budget and reads a value. -/
theorem contributions_eq {α : Type} {x : Exec} {named : List Nat} {read : Nat → Option α} {v : Nat → α} {l : List Nat}
    (hb : ∀ f ∈ l, x.pastBudget i f named = false) (hread : ∀ f ∈ l, read f = some (v f)) :
    (l.filterMap fun f => if x.pastBudget i f named then none else (read f).map fun a => (f, a)) = l.map fun f => (f, v f) :=
  List.filterMap_eq_map_iff_forall_eq_some.2 fun f hf => by
    rw [hb f hf, hread f hf]
    rfl

/-- An instruction that combines the values of the served fibres, each of which is read, makes its results of all of
them. -/
theorem runsAs_combine {α : Type} {len : Nat} {named : List Nat} {read : Iss → Nat → Option α} {v : Nat → α}
    {g : Iss → List (Nat × α) → Nat → Res} {r : Nat → Res} (hs : Claim.Issues s i) (hb : Claim.InBudget s i h named)
    (he : exec n s = .next { s with x := s.x.combine len h named read g })
    (hread : ∀ f ∈ i.served h, read i f = some (v f)) (hr : ∀ f, g i ((i.served h).map fun f => (f, v f)) f = r f)
    (ht : ∀ f, (r f).trap = none) : Claim.RunsAs s n i len h r := by
  have hcombine : s.x.combine len h named read g = s.x.perFibre len h named fun k f =>
      orPoison (read k f) fun _ => g k ((i.served h).map fun f => (f, v f)) f := by
    simp only [Exec.combine, hs.run, contributions_eq hb hread]
  rw [hcombine] at he
  refine runsAs_perFibre hs hb he (fun f hf => ?_) ht
  rw [hread f hf]
  exact hr f

theorem s1Word_eq {w : AluI} {a : Nat → Word} (ha : Claim.Register s i h w.s1.toNat a) :
    ∀ f ∈ i.served h, s.x.s1Word w i f = some (a f).toNat := fun f hf => by
  rw [Exec.s1Word, ha f hf]
  rfl

end

/-! ### Integer combinations (R245) -/

theorem computes_rediOp {c : Nat} (hc : c < 8) : Computes (rediOp c) (Claim.waveOp c).1 :=
  match c, hc with
  | 0, _ => computes_vAdd
  | 1, _ => computes_vMin
  | 2, _ => computes_vMax
  | 3, _ => computes_vMinu
  | 4, _ => computes_vMaxu
  | 5, _ => computes_vAnd
  | 6, _ => computes_vOr
  | 7, _ => computes_vXor

theorem rediId_toNat {c : Nat} (hc : c < 8) : rediId c = (Claim.waveOp c).2.toNat := by
  revert c
  decide

/-- The combination of the words of fibres. -/
theorem rediFold_toNat {c : Nat} (hc : c < 8) (a : Nat → Word) (l : List Nat) :
    rediFold c (l.map fun f => (a f).toNat) =
      (l.foldl (fun v f => (Claim.waveOp c).1 v (a f)) (Claim.waveOp c).2).toNat := by
  rw [rediFold, List.foldl_map, rediId_toNat hc]
  exact List.foldl_hom BitVec.toNat fun v f => computes_rediOp hc v (a f)

end Sys2Proof.Machine

namespace Sys2Proof.Proofs

open Sys2Proof.Machine Sys2Proof.Claim

theorem waveReductions : WaveReductions := by
  intro s i w a hs hb ha
  have hread := s1Word_eq ha
  refine ⟨fun hc => ?_, fun hc => ?_, fun hc => ?_, ?_⟩
  · refine runsAs_combine hs hb rfl hread (fun f => ?_) fun _ => rfl
    rw [List.map_map, ← word_toNat, ← rediFold_toNat hc]
    rfl
  · refine runsAs_combine hs hb rfl hread (fun j => ?_) fun _ => rfl
    rw [if_pos hc, List.filter_map, List.map_map, ← word_toNat, ← rediFold_toNat hc]
    simp only [decide_eq_true_eq]
    rfl
  · intro l
    refine runsAs_combine hs hb rfl hread (fun j => ?_) fun _ => rfl
    rw [if_neg (by omega)]
    simp only [Bool.and_eq_true, decide_eq_true_eq]
    rfl
  · intro f l
    refine ⟨fun h0 => ?_, fun h0 => ?_⟩
    · refine runsAs_combine hs hb rfl hread (fun j => ?_) fun _ => rfl
      rw [if_pos h0, List.map_map]
      rfl
    · refine runsAs_combine hs hb rfl hread (fun j => ?_) fun _ => rfl
      rw [if_neg h0, List.map_map]
      rfl

theorem waveArgReduction : WaveArgReduction := by
  intro s i w a b f0 l hs hb hab hl hash cand best
  refine runsAs_combine hs hb rfl hab (fun f => ?_) fun _ => rfl
  rw [two_eq_pair, hl, List.map_cons, List.map_cons, List.map_map]
  exact congrArg (fun q : Cand => Res.pair w.d.toNat (q.a + 2 ^ 32 * q.b)) List.foldl_map

/-- Settles O8: every served fibre contributes the value that it reads, and the combination on numbers is that on words. -/
theorem waveReduce : Obligations.WaveReduce := ⟨waveReductions, waveArgReduction⟩

end Sys2Proof.Proofs
end

section
/-! PROOFS. Conversions between formats and integers, and packing (12 R249 to R253). -/

namespace Sys2Proof.Machine

section
variable {s : State} {n : Instr} {i : Iss} {o : Opnds} {a : Nat → Word}

/-- One source that is read makes a result of its value. -/
theorem orPoison_source (ha : Claim.Source s i o a) (g : Nat → Res) {f : Nat} (hf : f ∈ i.served o.h) :
    orPoison (s.x.operandXl i f o.m o.s1) g = g (a f).toNat := by
  rw [ha f hf]
  rfl

theorem orFmtBad_some {x : Option Fmt} {g : Fmt} (hx : x = some g) (r : Fmt → Res) : orFmtBad x r = r g := by
  rw [hx]
  rfl

/-- A format whose elements fill the field (R253). -/
theorem Exec.fmtOfWidth?_eq {x : Exec} {k wd : Nat} {g : Fmt} (hg : x.fmt? k = some g) (hwd : g.storage = wd) :
    x.fmtOfWidth? k wd = some g := by
  rw [Exec.fmtOfWidth?, hg, Option.filter_some, if_pos (decide_eq_true hwd)]

end

theorem ofNat_wrap (n : Nat) (z : Int) : BitVec.ofNat n (wrap n z) = BitVec.ofInt n z := by
  rw [wrap_eq, BitVec.ofNat_toNat, BitVec.setWidth_eq]

end Sys2Proof.Machine

namespace Sys2Proof.Proofs

open Sys2Proof.Machine Sys2Proof.Claim

theorem conversions : Conversions := by
  intro s i w a g hs hb ha hg
  refine ⟨fun src hsrc => ?_, ?_, ?_⟩
  · refine runsAs_perFibre hs hb rfl (fun f hf => ?_) fun _ => rfl
    rw [orPoison_source ha _ hf]
    exact (orFmtBad_some hsrc _).trans (orFmtBad_some hg _)
  · refine runsAs_perFibre hs hb rfl (fun f hf => ?_) fun _ => rfl
    rw [orPoison_source ha _ hf]
    exact orFmtBad_some hg _
  · refine runsAs_perFibre hs hb rfl (fun f hf => ?_) fun _ => rfl
    rw [orPoison_source ha _ hf]
    exact orFmtBad_some hg _

theorem packUnpack : PackUnpack := by
  intro s i w hs k p put fld
  refine ⟨fun a b hb hab => ⟨fun h0 => ?_, fun g h0 hg hwd => ?_⟩, fun a hb ha => ⟨fun h0 => ?_, fun g h0 hg hwd => ?_⟩⟩
  · refine runsAs_perFibre hs hb rfl (fun f hf => ?_) fun _ => rfl
    rw [orPoison_ab hab _ hf]
    exact if_pos h0
  · refine runsAs_perFibre hs hb rfl (fun f hf => ?_) fun _ => rfl
    rw [orPoison_ab hab _ hf]
    exact (if_neg h0).trans (orFmtBad_some (Exec.fmtOfWidth?_eq hg hwd) _)
  · refine runsAs_perFibre hs hb rfl (fun f hf => ?_) fun _ => rfl
    rw [orPoison_source ha _ hf]
    refine (if_pos h0).trans (congrArg (one w.d.toNat) ?_)
    rw [apply_ite (BitVec.ofNat 32), ofNat_wrap]
    rfl
  · refine runsAs_perFibre hs hb rfl (fun f hf => ?_) fun _ => rfl
    rw [orPoison_source ha _ hf]
    exact (if_neg h0).trans (orFmtBad_some (Exec.fmtOfWidth?_eq hg hwd) _)

/-- Settles O9: where its formats are in force and its sources are read, each instruction makes the value of its rule. -/
theorem formatMoves : Obligations.FormatMoves := ⟨conversions, packUnpack⟩

end Sys2Proof.Proofs
end

section
/-! PROOFS. Predicate logic, predicate moves, and the stochastic state (12 R248, R254). -/

namespace Sys2Proof.Machine

/-- The row of PLOP's table that two predicates name (R248). -/
theorem plopRow_eq (b c : Bool) : (if b then 2 else 0) + (if c then 1 else 0) = 2 * b.toNat + c.toNat := by
  cases b <;> cases c <;> rfl

theorem exec_pmov (s : State) (w : AluI) : exec (.pmov w) s = s.onX fun x =>
    if w.s3 = 0 then x.perFibre 8 w.h [w.d.toNat] fun i f => .word w.d.toNat ((i.w.fib f).preds.toNat + 128)
    else x.perFibre 8 w.h [w.s1.toNat] fun i f => orPoison (x.ownRead i f w.s1.toNat) fun a =>
      { p := (List.range 7).map fun k => (k, bitOf a.toNat k) } := rfl

/-- The predicates of a fibre as a word: P7 reads true (R5). -/
theorem ofNat_preds (p : BitVec 7) : BitVec.ofNat 32 (p.toNat + 128) = 128 + p.setWidth 32 := by
  apply BitVec.eq_of_toNat_eq
  rw [BitVec.toNat_add, BitVec.toNat_ofNat, BitVec.toNat_setWidth_of_le (by decide), Nat.add_comm]
  rfl

end Sys2Proof.Machine

namespace Sys2Proof.Proofs

open Sys2Proof.Machine Sys2Proof.Claim

theorem predicateMoves : PredicateMoves := by
  intro s i w hs
  refine ⟨?_, fun h0 hb => ?_, fun a h0 hb ha => ?_⟩
  · refine runsAs_perFibre hs (fun _ _ => rfl) rfl (fun f hf => ?_) fun _ => rfl
    exact congrArg (flag w.d.toNat) (by rw [plopRow_eq, bitOf_toNat])
  · refine runsAs_perFibre hs hb (by rw [exec_pmov, State.onX, if_pos h0]) (fun f hf => ?_) fun _ => rfl
    exact congrArg (one w.d.toNat) (ofNat_preds (i.w.fib f).preds)
  · refine runsAs_perFibre hs hb (by rw [exec_pmov, State.onX, if_neg h0]) (fun f hf => ?_) fun _ => rfl
    rw [ha f hf]
    simp only [orPoison, bitOf_toNat]

theorem stochasticState : StochasticState := by
  refine ⟨fun s i w hi hne hhandler => ?_, fun s i w hs hb => ?_⟩
  · obtain ⟨f, hu⟩ := exists_uniform hi hne
    have hseed : exec (.srseed w) s = execSrseed w s := rfl
    rw [hseed, execSrseed, State.onX, Exec.uniform_eq hu, hhandler]
    rfl
  · exact runsAs_perFibre hs hb rfl (fun _ _ => rfl) fun _ => rfl

/-- Settles O10: each instruction makes the value of its rule, and SRSEED changes the wave once for its group. -/
theorem predicatesAndDraws : Obligations.PredicatesAndDraws := ⟨predicateMoves, stochasticState⟩

end Sys2Proof.Proofs
end
